-- ==== Sys2Proof/Word.lean ====
section
/-! DEFINITION. Word.lean: the word types of the device: a register is 32 bits (R3), a memory cell is a byte, a
data word of the hold and of a flit is 64 bits with a check byte beside it. -/

namespace Sys2Proof

/-- A register word (R3). -/
abbrev Word := BitVec 32

/-- A byte of memory. -/
abbrev Byte := BitVec 8

/-- A 64-bit data word of the hold or of a flit. -/
abbrev DWord := BitVec 64

/-- A device-local address (the address map of the chapter "The Harbour Network"). -/
abbrev Addr := Nat

/-- The register window of R3. -/
def regWindow : Nat := 0x003000000000

/-- Bytes per register block (R3). -/
def blockBytes : Nat := 0x10000

/-- The value saturating at the largest of `w` bits (R17). -/
def satAdd (w a b : Nat) : Nat := min (a + b) (2 ^ w - 1)

/-- The device-local address of a register. -/
def regAddr (blk off : Nat) : Addr := regWindow + blockBytes * blk + off

end Sys2Proof
end

