-- ==== Sys2Proof/Machine/Map.lean ====
section
/-! DEFINITION. Machine/Map.lean: a sparse table as plain data: a list of (key, value) pairs in one canonical form,
keys strictly rising and no entry equal to what an unlisted key holds. Every large piece of state (registers, memory,
dunes, berths, links, ports) is such a table, so that equal tables are equal lists. -/

namespace Sys2Proof.Machine

/-- A table keyed by number. -/
abbrev Map (α : Type) := List (Nat × α)

/-- What key `k` holds, `d k` where the table lists nothing. -/
def Map.get {α : Type} (d : Nat → α) : Map α → Nat → α
  | [], k => d k
  | (k', v) :: m, k => if k' = k then v else Map.get d m k

/-- Puts the entry (k, v) in its place, whether or not v is the unlisted value. -/
def Map.insert {α : Type} : Map α → Nat → α → Map α
  | [], k, v => [(k, v)]
  | (k', v') :: m, k, v =>
    if k < k' then (k, v) :: (k', v') :: m
    else if k' = k then (k, v) :: m
    else (k', v') :: Map.insert m k v

/-- Takes key `k` out of the list. -/
def Map.erase {α : Type} (m : Map α) (k : Nat) : Map α := m.filter (fun (e : Nat × α) => e.1 != k)

/-- Key `k` now holds `v`; writing the unlisted value takes the entry away. -/
def Map.set {α : Type} [DecidableEq α] (d : Nat → α) (m : Map α) (k : Nat) (v : α) : Map α :=
  if v = d k then Map.erase m k else Map.insert m k v

/-- Changes what key `k` holds. -/
def Map.modify {α : Type} [DecidableEq α] (d : Nat → α) (m : Map α) (k : Nat) (f : α → α) : Map α :=
  Map.set d m k (f (Map.get d m k))

/-- Takes away every key of which `p` holds: those keys hold the unlisted value again. -/
def Map.clear {α : Type} (p : Nat → Bool) (m : Map α) : Map α := m.filter (fun e => !p e.1)

/-- The canonical form: keys strictly rising and no entry equal to the unlisted value. -/
def Map.wf {α : Type} [DecidableEq α] (d : Nat → α) (m : Map α) : Bool :=
  (m.map (·.1)).Pairwise (· < ·) && m.all (fun e => !decide (e.2 = d e.1))

end Sys2Proof.Machine
end

