-- ==== Sys2Proof/Machine/Types.lean ====
section
/-! DEFINITION. Machine/Types.lean: the named things the commands and the state are made of: status codes (R18),
error classes (R20), operating modes (R465), life-cycle states (R426), initiators (R232), node IDs (R212). -/

namespace Sys2Proof.Machine

/-- The status codes of R18. -/
inductive Status where
  | ok | busy | state | range | auth | denied | integrity | timeout | uncorr | cutoff | late | exhausted
  | format | identity | fenced
  deriving DecidableEq, Repr

/-- The 4-bit code of a status (R18). -/
def Status.code : Status → Nat
  | .ok => 0x0 | .busy => 0x1 | .state => 0x2 | .range => 0x3 | .auth => 0x4 | .denied => 0x5
  | .integrity => 0x6 | .timeout => 0x7 | .uncorr => 0x8 | .cutoff => 0x9 | .late => 0xA
  | .exhausted => 0xB | .format => 0xC | .identity => 0xD | .fenced => 0xE

/-- The status a 4-bit code names; 0xF is treated as FORMAT (R19). -/
def Status.ofCode (n : Nat) : Status :=
  match n % 16 with
  | 0 => .ok | 1 => .busy | 2 => .state | 3 => .range | 4 => .auth | 5 => .denied | 6 => .integrity
  | 7 => .timeout | 8 => .uncorr | 9 => .cutoff | 10 => .late | 11 => .exhausted | 12 => .format
  | 13 => .identity | 14 => .fenced | _ => .format

/-- The place of a status in the order of R557 (FORMAT, RANGE, DENIED, STATE, BUSY); the others stand outside it. -/
def Status.rank : Status → Nat
  | .format => 0 | .range => 1 | .denied => 2 | .state => 3 | .busy => 4 | _ => 5

/-- The first status of R557 among the refusal conditions that hold, each given with whether it holds. -/
def firstRefusal (cs : List (Bool × Status)) : Option Status :=
  let held := (cs.filter (·.1)).map (·.2)
  [Status.format, .range, .denied, .state, .busy].find? (fun r => held.contains r)

/-- Error classes, least severe first (R20, R21). -/
inductive ErrClass where
  | c | u | d | f
  deriving DecidableEq, Repr

/-- Severity in the order of R21. -/
def ErrClass.severity : ErrClass → Nat
  | .c => 0 | .u => 1 | .d => 2 | .f => 3

/-- The class that decides when errors of two classes arise from one event (R21). -/
def ErrClass.worst (a b : ErrClass) : ErrClass := if a.severity < b.severity then b else a

/-- Operating modes (R465). -/
inductive Mode where
  | beacon | reset | boot | coldHold | moored | underway | anchored | slack | standDown | quarantine
  | dryDock | aground
  deriving DecidableEq, Repr

/-- The value of a mode in LH_MODE (R465). -/
def Mode.code : Mode → Nat
  | .beacon => 0 | .reset => 1 | .boot => 2 | .coldHold => 3 | .moored => 4 | .underway => 5
  | .anchored => 6 | .slack => 7 | .standDown => 8 | .quarantine => 9 | .dryDock => 10 | .aground => 11

/-- The mode a value of LH_MODE shows; 12 to 15 are never shown. -/
def Mode.ofCode (n : Nat) : Mode :=
  match n with
  | 0 => .beacon | 1 => .reset | 2 => .boot | 3 => .coldHold | 4 => .moored | 5 => .underway
  | 6 => .anchored | 7 => .slack | 8 => .standDown | 9 => .quarantine | 10 => .dryDock | 11 => .aground
  | _ => .beacon

/-- Life-cycle states (R426). -/
inductive Life where
  | test | blank | provisioned | sealed | returned
  deriving DecidableEq, Repr

/-- The value of a life-cycle state (R426). -/
def Life.code : Life → Nat
  | .test => 0 | .blank => 1 | .provisioned => 2 | .sealed => 3 | .returned => 4

/-- The life-cycle state a value names; 5 to 7 are never held. -/
def Life.ofCode (n : Nat) : Life :=
  match n with
  | 0 => .test | 1 => .blank | 2 => .provisioned | 3 => .sealed | _ => .returned

/-- Who makes a request (R232): the PCI Express host port, a lighter, the configuration controller for the CSP, the
Daminaosh wire initiator, a berth, the configuration controller on its own account, a cipher engine, another device of
the mesh. -/
inductive Src where
  | host
  | lighter (n : Fin 16)
  | csp
  | wire
  | berth (b : Fin 512)
  | cfgctl
  | engine (n : Fin 4)
  | remote (dev : Fin 64)
  deriving DecidableEq, Repr

/-- The interface of R435 a request counts as; none for a berth, the controller itself, an engine and another device. -/
def Src.iface : Src → Option Nat
  | .host => some 0 | .lighter _ => some 0 | .csp => some 1 | .wire => some 2 | _ => none

/-- The timeout class of R235 of a request of this initiator to its own device, where no address matters. -/
def Src.isSystem : Src → Bool
  | .cfgctl => true | .csp => true | .engine _ => true | .wire => true | _ => false

/-- A reply to a register access or a request: the status and the data. -/
structure Reply where
  status : Status
  data : Word
  deriving DecidableEq, Repr

/-- Register block indices (R217). -/
def B.LH : Nat := 0x00
def B.CLK : Nat := 0x01
def B.PWR : Nat := 0x02
def B.THM : Nat := 0x03
def B.CFG : Nat := 0x04
def B.SEC : Nat := 0x05
def B.TIDE : Nat := 0x06
def B.DBG : Nat := 0x07
def B.HN : Nat := 0x08
def B.ADM : Nat := 0x09
def B.MCE : Nat := 0x0A
def B.PCIE : Nat := 0x0C
def B.ETH : Nat := 0x0D
def B.CSP : Nat := 0x0E
def B.LGT : Nat := 0x0F
def B.DMC (k : Nat) : Nat := 0x10 + k
def B.CW (n : Nat) : Nat := 0x18 + n
def B.JP (k : Nat) : Nat := 0x28 + k
def B.ERG (e : Nat) : Nat := 0x30 + e
def B.HOLD (k : Nat) : Nat := 0x50 + k
def B.BIST : Nat := 0x58
def B.SCRB : Nat := 0x59
def B.WDG : Nat := 0x5A

/-- Bit `i` of a number. -/
def nbit (n i : Nat) : Bool := (n >>> i) % 2 == 1

/-- Bits `[lo + w - 1 : lo]` of a number. -/
def nfield (n lo w : Nat) : Nat := (n >>> lo) % 2 ^ w

/-- Little-endian bytes of a number. -/
def leBytes : Nat → Nat → List Byte
  | 0, _ => []
  | k + 1, n => BitVec.ofNat 8 n :: leBytes k (n / 256)

/-- The number that little-endian bytes spell. -/
def ofLeBytes : List Byte → Nat
  | [] => 0
  | b :: bs => b.toNat + 256 * ofLeBytes bs

end Sys2Proof.Machine
end

