-- ==== Sys2Proof/Machine/StateB.lean ====
section
/-! DEFINITION. Machine/StateB.lean: the parts of the state of the fabric side: frames, flip-flops, oasis blocks, row
registers, caravan registers, berths and the erg sequencers (chapters 03, 04). A dune is numbered 256·erg + dune (R91),
a dune-plane 8·dune + plane. -/

namespace Sys2Proof.Machine

/-- A stored dune-plane frame (R108): the 98,304 configuration bits as one number, as the check bits were computed over them, and for
each plane-store word that holds an error the 72-bit error pattern (R530). -/
structure FrameSt where
  bits : Nat
  flips : Map (BitVec 72) := []
  deriving DecidableEq, Repr

/-- An operation in an oasis pipeline: active ticks until its result appears, the result and its flags. -/
structure OasisOp where
  left : Nat
  res : BitVec 96
  flags : BitVec 8
  deriving DecidableEq, Repr

/-- An oasis block in one plane (R115): pipeline, accumulators, outputs, whether the last active tick accepted a GO. -/
structure OasisSt where
  pipe : List OasisOp := []
  acc : BitVec 64 := 0
  accF : BitVec 32 := 0
  res : BitVec 96 := 0
  flags : BitVec 8 := 0
  went : Bool := false
  deriving DecidableEq, Repr

/-- A row register or a row: 2,048 data bits and 256 check bits, word w's check byte at [8w + 7 : 8w] (R116). -/
structure Row where
  data : BitVec 2048 := 0
  chk : BitVec 256 := 0
  deriving DecidableEq, Repr

/-- The fabric: frames by dune-plane, flip-flop bits by dune-plane (bit 2g + k is FFk of grain g), oasis blocks by
dune-plane, row registers keyed 2·dune + register with an epoch per erg (R119: a register whose epoch is not 0 and which
nothing has written since holds free bits), caravan registers keyed ((dir·1024 + track)·8192 + dune)·9 + plane with the plane the
route's start dune runs (8 where it runs none), the relay registers of on-ramps that take an off-ramp (R107) keyed
(1024·dune + 256·dir + ramp)·9 + plane, interface inputs of this tick by berth and by jetty port, what the sinks of the latest tick
presented, and the row registers (dune, register) into which it wrote a word. -/
structure FabSt where
  frames : Map (Option FrameSt) := []
  ffs : Map (BitVec 512) := []
  oasis : Map OasisSt := []
  rows : Map Row := []
  epoch : Map Nat := []
  caravan : Map Bool := []
  relay : Map Bool := []
  iIn : Map (BitVec 288) := []
  rxIn : Map (List (BitVec 32)) := []
  oOut : Map (BitVec 288) := []
  txOut : Map (BitVec 32) := []
  txHist : Map (List (BitVec 32)) := []
  hlOut : Map (BitVec 12) := []
  wrote : List (Nat × Nat) := []
  deriving DecidableEq, Repr

/-- A note queued at a berth: its code and the tide it was raised in (R131). -/
structure Note where
  code : Nat
  tide : Nat
  deriving DecidableEq, Repr

/-- A request served to a berth (R127): its context, what is to be answered (the network header). -/
structure Served where
  context : Nat
  isRead : Bool
  len : Nat
  hdr : BitVec 256
  deriving DecidableEq, Repr

/-- A message that the router presents on the I path in the order in which it completed it: I_SRC (0 response, 1 served request,
3 late delivery), the beats still to be presented, whether its first has been (R124, R130, R131), and the device tick that stamped it in
the queue towards TICK; none where it does not cross one (R59, R60). -/
structure IMsg where
  src : Nat
  beats : List (BitVec 256)
  started : Bool := false
  stamp : Option Nat := none
  deriving DecidableEq, Repr

/-- A message that the fabric presents on the O path: the header beat, the data beats, whether O_EOP ended it or the header of the
next message did, and how many credits I_CREDIT returned to the fabric while it presented the beats (R123, R126). -/
structure BMsg where
  hdr : BitVec 256
  beats : List (BitVec 256) := []
  closed : Bool := true
  returned : Nat := 0
  deriving DecidableEq, Repr

/-- A delivery in a berth's release view (R128): the declaration, the first beat, its status and data; none where the
delivery is missing. -/
structure ViewItem where
  decl : Nat
  first : Nat
  beats : Nat
  content : Option (Status × List Byte)
  deriving DecidableEq, Repr

/-- A message that the fabric has begun on the O path and not ended: what came of it, and whether a beat of it came without a credit and
was dropped (R123, R126). -/
structure OMsg where
  msg : BMsg
  lost : Bool
  deriving DecidableEq, Repr

/-- A release read in flight (R129): when it returns (ticks of execution), its beat, status and EMPTY. -/
structure RrItem where
  due : Nat
  data : BitVec 256
  status : Nat
  empty : Bool
  deriving DecidableEq, Repr

/-- One berth (R121 to R131). `tags`: busy tags with the stamp of their request. `oMsg`: the message begun on the O path. -/
structure BerthSt where
  outCredits : Nat := 0
  rqCredits : Nat := 0
  tags : List (Nat × Nat) := []
  notes : List Note := []
  served : List Served := []
  inq : List IMsg := []
  view : List ViewItem := []
  rr : List RrItem := []
  rrLast : Option Nat := none
  oMsg : Option OMsg := none
  proto : Nat := 0
  timeouts : Nat := 0
  deriving DecidableEq, Repr

/-- States of a plane slot (R149). -/
inductive SlotState where
  | free | loading | staged | committed | live | lent | recalling
  deriving DecidableEq, Repr

/-- The value of a slot state in ERG_PLANE_STATE (R149). -/
def SlotState.code : SlotState → Nat
  | .free => 0 | .loading => 1 | .staged => 2 | .committed => 3 | .live => 4 | .lent => 5 | .recalling => 6

/-- A plane slot: state, owner handle, dunes whose frame the image in load has written (R149, R151). -/
structure SlotSt where
  st : SlotState := .free
  owner : Nat := 0
  written : List Nat := []
  deriving DecidableEq, Repr

/-- States of an erg (R154). -/
inductive ErgMode where
  | unscheduled | running | fenced
  deriving DecidableEq, Repr

/-- A pending change of an erg (R155 to R158): a fence due at the turn into a tide; the activation that is committed; the same after
a FENCE_TIDES fence. When a committed activation is due stands with the image (`Commit`). -/
inductive ErgPend where
  | none
  | fence (turn : Nat)
  | activation
  | fenceThenAct
  deriving DecidableEq, Repr

/-- A tide-track entry (R51): plane and dwell in ticks. -/
structure TrackEntry where
  plane : Nat
  dwell : Nat
  deriving DecidableEq, Repr

/-- How an erg stands towards Slack (chapter 15): awake; due to enter at the turn into a tide; entering (2 us of R476); down;
waking. -/
inductive SlackSt where
  | awake
  | dueIn (turn : Nat)
  | entering
  | down
  | waking
  deriving DecidableEq, Repr

/-- Whether an erg in this state is out of Slack. -/
def SlackSt.runs : SlackSt → Bool
  | .awake => true
  | .dueIn _ => true
  | _ => false

/-- An erg's sequencer and fence (R145, R154): slots by plane, active track, fence record of the active image as bits, the values its
HOLD entries keep, by entry (R138); the frames whose caravan switch codes stand above its dunes while a fence lasts, by dune of
the erg (R139, R153); the plane the latest tick ran, 8 where no frame was selected in it. -/
structure ErgSt where
  mode : ErgMode := .unscheduled
  pend : ErgPend := .none
  slots : Map SlotSt := []
  track : List TrackEntry := []
  fenceRec : Nat := 0
  held : Map Bool := []
  kept : Map Nat := []
  slack : SlackSt := .awake
  wakeAsked : Bool := false
  changePending : Bool := false
  lastPlane : Option Nat := none
  deriving DecidableEq, Repr

end Sys2Proof.Machine
end

