-- ==== Sys2Proof/Machine/StateD.lean ====
section
/-! DEFINITION. Machine/StateD.lean: the parts of the state that hold the hold and the Harbour Network (chapters 05, 06).
Hold data stand in the device's memory; what is kept here is the syndrome of every word whose stored check byte is not the
one computed from its data (R175), spares, remap tables and the work under way. Banks are numbered 0 to 8,191 (R171). -/

namespace Sys2Proof.Machine

/-- A row command accepted by a bank and not yet carried out (R177): a lower carries the captured register (R181). `stamp`: the device
tick that sampled it; `at_`: the tick of execution that did. -/
structure RowCmd where
  lower : Bool
  reg : Nat
  row : Nat
  stamp : Nat
  captured : Row := {}
  at_ : Nat := 0
  deriving DecidableEq, Repr

/-- A hoisted row in the return queue: the tick of execution at whose end it lands (R179, R182), the register, the row, and the device tick
that stamps it in the queue. -/
structure Landing where
  due : Nat
  reg : Nat
  row : Row
  stamp : Nat := 0
  deriving DecidableEq, Repr

/-- Supply state of a bank (R194 to R196). -/
inductive BankPower where
  | awake | retention | waking
  deriving DecidableEq, Repr

/-- One bank: supply, device tick of its dune's last accepted row command (R178), row commands waiting, rows returning. -/
structure BankSt where
  power : BankPower := .awake
  lastCmd : Option Nat := none
  cmds : List RowCmd := []
  landings : List Landing := []
  deriving DecidableEq, Repr

/-- A spare word (R191): its data and the syndrome of what is stored. -/
structure Spare where
  data : DWord := 0
  syn : Byte := 0
  deriving DecidableEq, Repr

/-- The bonded setting (R197). -/
structure Bond where
  ergA : Nat := 0
  enA : Bool := false
  ergB : Nat := 0
  enB : Bool := false
  deriving DecidableEq, Repr

/-- A scrub under way (R205, R207): first global row and number of rows, how many each quadrant has visited, whether ABORT came, the
banks skipped. -/
structure ScrubRun where
  first : Nat
  count : Nat
  visited : Map Nat := []
  aborted : Bool := false
  skipped : List Nat := []
  deriving DecidableEq, Repr

/-- A remap ADD that waits for a free cycle (R192): bank, row, word. -/
structure RemapAdd where
  bank : Nat
  row : Nat
  word : Nat
  deriving DecidableEq, Repr

/-- The hold. `bond` survives resets (R409). `wipe`: a wipe is under way, with the setting that takes effect after it.
`xfers`: row commands accepted in each of the last ticks, newest first (R185). `badSpares`: spare words that a test found faulty, by
8·bank + spare; `idleRows`: rows that the idle scrubber has visited in a quadrant since its latest lap began (R208). -/
structure HoldSt where
  syn : Map Byte := []
  spares : Map Spare := []
  badSpares : List Nat := []
  remap : Map (Option (Nat × Nat)) := []
  banks : Map BankSt := []
  bond : Bond := {}
  wipe : Option Bond := none
  xfers : List Nat := []
  adds : Map (Option RemapAdd) := []
  scrub : Option ScrubRun := none
  idleRows : Map Nat := []
  remapDirty : Bool := false
  remapUpdates : Nat := 0
  remapLost : Bool := false
  remapBoth : Bool := false
  remapLastCopy : Nat := 1
  deriving DecidableEq, Repr

/-- A message of the network: the header of its first packet (R220), the bytes its data flits carry, and the numbers of
the 64-bit data words that arrived poisoned (R223). `bad`: one of its packets had another number of data flits than PLEN says, or came
in another class than its OP's (R224). -/
structure Msg where
  hdr : BitVec 256
  data : List Byte := []
  poison : List Nat := []
  bad : Bool := false
  deriving DecidableEq, Repr

/-- A flit on a link (R218): the body, the sideband. -/
structure Flit where
  body : BitVec 256
  side : BitVec 40
  deriving DecidableEq, Repr

/-- A flit in a router's input buffer; for a header, how many cycles the output it goes to had counted when it arrived. -/
structure BufFlit where
  flit : Flit
  at_ : Nat
  deriving DecidableEq, Repr

/-- What a packet in an input buffer is going through: it leaves by an output on a virtual channel, or is being discarded. -/
inductive PacketWay where
  | out (port vc : Nat)
  | discard
  deriving DecidableEq, Repr

/-- A quay router (R226, R227): input buffers keyed 16·port + VC, cycles counted at each output (its wheel position is the count
modulo 16), the input buffer whose packet holds VC v of output o keyed 16·o + v, the way of the packet whose header has left an
input buffer, keyed as the buffers. -/
structure RouterSt where
  inq : Map (List BufFlit) := []
  wheel : Map Nat := []
  busy : Map (Option Nat) := []
  route : Map (Option PacketWay) := []
  deriving DecidableEq, Repr

/-- An outstanding request of an initiator (R232 to R236): when its time has elapsed, in time-clock cycles of 2 ns, the class, pieces still
to answer, the first non-OK status by address so far and the data that came. `decl`: the declaration of a scheduled
request with its transfer's release tide. -/
structure Out where
  src : Src
  tag : Nat
  stamp : Nat
  op : Nat
  addr : Nat
  len : Nat
  dst : Nat
  cls : Nat
  deadline : Nat
  left : Nat := 1
  bad : Option (Nat × Status) := none
  parts : List (Nat × List Byte) := []
  decl : Option (Nat × Nat) := none
  peek : Bool := false
  deriving DecidableEq, Repr

/-- A held lock (R237): the line (address divided by 64), the holder's node ID, the lease's end in 2 ns cycles, which
moves on while the lease is frozen (R240). -/
structure Lock where
  line : Nat
  holder : Nat
  expires : Nat
  deriving DecidableEq, Repr

/-- A request at an arbiter (R241): the input a grant found for it, the message, the words served and read so far, the first
bad status. -/
structure ArbReq where
  input : Nat
  msg : Msg
  served : Nat := 0
  got : List Byte := []
  bad : Option Status := none
  deriving DecidableEq, Repr

/-- One port arbiter (R241 to R246): waiting requests in order of arrival, the request under grant with the words the grant
has served and the cycle of the time clock in which it was granted, grants per input in this window and the cycle in which the window
began, the inputs that were cut off. -/
structure ArbSt where
  queue : List ArbReq := []
  grant : Option ArbReq := none
  heldFor : Nat := 0
  grantAt : Nat := 0
  used : Map Nat := []
  windowAt : Nat := 0
  cut : List Nat := []
  deriving DecidableEq, Repr

/-- The Harbour Network. Routers are numbered 12·y + x. `issued`: messages an initiator interface has handed to its
router and whose packets have not entered it. `arriving`: flits of the packet that a router's local output is handing over, keyed
16·router + VC; `partial_`: messages of which packets are missing yet. `delivered`: whole messages that reached their endpoint. Arbiters: 0 to 7 the DMCs, 8 + b bank b. Lock tables: 0 to 7 the DMCs, 8 + e erg
e's. `crossing`: messages in a bounded-release queue, by its number, with their stamps (R60). `wake`: requests held per erg (R249); `park`: requests held for a stopped endpoint, a berth by its
number, a bank at 512 plus its number, the image stream aperture at 8704 (R250). -/
structure NetSt where
  routers : Map RouterSt := []
  issued : Map (List Msg) := []
  arriving : Map (List Flit) := []
  partial_ : List Msg := []
  delivered : List Msg := []
  outs : List Out := []
  arbs : Map ArbSt := []
  locks : Map (List Lock) := []
  waiters : Map (List Msg) := []
  wake : Map (List Msg) := []
  park : Map (List Msg) := []
  toLink : Map (List Flit) := []
  crossing : Map (List (Nat × Msg)) := []
  deriving DecidableEq, Repr

end Sys2Proof.Machine
end

