-- ==== Sys2Proof/Machine/StateH.lean ====
section
/-! DEFINITION. Machine/StateH.lean: the parts of the state that hold the jetty ports, the host port, lighters, Ethernet
ports, station time and the CSP (chapters 10, 11). -/

namespace Sys2Proof.Machine

/-- A jetty frame before coding (R347): type, sequence, stamp, payload. -/
structure JFrame where
  type : BitVec 4
  seq : BitVec 4
  stamp : BitVec 16
  payload : BitVec 80
  deriving DecidableEq, Repr

/-- What a receiver decoded (R358): a frame with the CRC it carried, or a coding fault. -/
inductive JRecv where
  | frame (f : JFrame) (crc : BitVec 16)
  | codeFault
  deriving DecidableEq, Repr

/-- A symbol of a jetty line before coding: a control code group or a byte, and its octet (R345, R347). -/
structure JSymbol where
  control : Bool
  octet : Byte
  deriving DecidableEq, Repr

/-- A slot entry (R351): tick, period in tides, phase. -/
structure SlotEntry where
  tick : Nat
  period : Nat
  phase : Nat
  deriving DecidableEq, Repr

/-- What drives a port's line: electrical idle, IDLE symbols, its slot table, its generator (R366). -/
inductive TxSrc where
  | idle | idles | slots | generator
  deriving DecidableEq, Repr

/-- The value of a source in JP_PORT_STAT.TX_SRC. -/
def TxSrc.code : TxSrc → Nat
  | .idle => 0 | .idles => 1 | .slots => 2 | .generator => 3

/-- Mooring settings of a port (R359), in domain MOOR. -/
structure MoorSet where
  en : Bool := false
  count : Nat := 0
  interval : Nat := 0
  anchorHold : Bool := false
  payloads : List (BitVec 80) := []
  deriving DecidableEq, Repr

/-- A jetty port. `sync`: the receiver is in SYNC. `fresh`: valid frames not yet presented, oldest first,
with the device tick count at which each completed. `faults`: the frames discarded since the previous capture, with the tick count and the
NOFRAME_WHY code of each. `rxDone`: tick counts below it have had their receive slot. `leaving`: frames built from bursts that are on their
way to the symbol clock, with their stamps. `lastSlot`: the last frame sent from a transmit slot since the activation. `moorAt`: the tick
count at which the latest mooring frame began. `sent`: the symbols of the frame sent latest. `next`: the mooring frame next in the
rotation. -/
structure PortSt where
  moor : MoorSet := {}
  sync : Bool := false
  fresh : List (Nat × JFrame) := []
  faults : List (Nat × Nat) := []
  rxDone : Nat := 0
  leaving : List (Nat × JFrame) := []
  rx : List SlotEntry := []
  tx : List SlotEntry := []
  skipMoor : Bool := false
  txSrc : TxSrc := .idle
  next : Nat := 0
  lastSlot : Option JFrame := none
  sent : List JSymbol := []
  moorAt : Option Nat := none
  reason : Nat := 0
  noframeWhy : Nat := 0
  crcCnt : Nat := 0
  codeCnt : Nat := 0
  noframeCnt : Nat := 0
  overrunCnt : Nat := 0
  formatCnt : Nat := 0
  syncLostCnt : Nat := 0
  skipCnt : Nat := 0
  txFormatCnt : Nat := 0
  deriving DecidableEq, Repr

/-- A host request TLP under way (R369): read or write, BAR, device-local address, length, the bytes of a write, pieces
still to answer, the first bad status by address, what came. -/
structure Tlp where
  isRead : Bool
  bar : Nat
  addr : Nat
  len : Nat
  data : List Byte := []
  left : Nat := 0
  bad : Option (Nat × Status) := none
  parts : List (Nat × List Byte) := []
  deriving DecidableEq, Repr

/-- A completion the host port sent (R370): whether it is Completer Abort, and its data. -/
structure HostCpl where
  abort : Bool
  data : List Byte
  deriving DecidableEq, Repr

/-- What an MSI-X table word holds at reset: a vector is masked (the mask bit of its Vector Control word is 1, as the PCI
Express base specification has it; PRESUMED, notes/assumptions/9.md). -/
def msixReset (k : Nat) : Word := if k % 4 = 3 then 1 else 0

/-- The PCI Express endpoint. `table`: the words of the MSI-X table; `pba`: pending vectors; `asserted`: the vectors that
stand asserted (R371); `owed`: vectors that became asserted and whose message has not gone out; `sent`: the latest message's
address and data. `tlps`: host requests by number, `tags` the request a tag belongs to; `waiting`: requests not yet issued, by
number, in the order in which they came (R369). -/
structure PcieSt where
  table : Map Word := []
  pba : List Nat := []
  asserted : List Nat := []
  owed : List Nat := []
  sent : Option (Nat × Word) := none
  tlps : Map (Option Tlp) := []
  tags : Map (Option Nat) := []
  waiting : List Nat := []
  next : Nat := 0
  cpl : Option HostCpl := none
  deriving DecidableEq, Repr

/-- Where an outstanding lighter piece stands (R375): its source awaited, its bytes at hand, its destination awaited. -/
inductive PieceStage where
  | reading | ready | writing
  deriving DecidableEq, Repr

/-- An outstanding piece of a lighter's transfer (R375): offset and length in the transfer, stage, the tag of its network request, the bytes
read. -/
structure LgtPiece where
  off : Nat
  len : Nat
  stage : PieceStage := .reading
  tag : Option Nat := none
  data : List Byte := []
  since : Nat := 0
  deriving DecidableEq, Repr

/-- What a lighter is doing (R374 to R381): fetching a descriptor, moving its bytes, writing its RESULT; writing the body or the header of a
received frame; reading the header or the body of a frame to send, writing its header back. -/
inductive LgtPhase where
  | idle | fetch | move | result | rxBody | rxHead | txHead | txBody | txBack
  deriving DecidableEq, Repr

/-- A lighter (R373 to R381): the transfer in hand: source, destination, length, which of them is host memory, IRQ; the next byte not yet
issued, outstanding pieces in address order, the first failed piece with its status; whether STOP waits for it; the tag of a request
that is not a piece's; the bytes of the frame that is being moved, and the header to be written into its slot. `hostOut`: the latest bytes
sent to host memory, with their bus address. `hostWait`: the cycle since which a descriptor fetch or a RESULT write waits for host memory. -/
structure LgtSt where
  phase : LgtPhase := .idle
  src : Nat := 0
  dst : Nat := 0
  len : Nat := 0
  srcHost : Bool := false
  dstHost : Bool := false
  irq : Bool := false
  next : Nat := 0
  pieces : List LgtPiece := []
  bad : Option (Nat × Status) := none
  stopping : Bool := false
  tag : Option Nat := none
  head : List Byte := []
  slot : List Byte := []
  hostOut : Option (Nat × List Byte) := none
  hostWait : Option Nat := none
  deriving DecidableEq, Repr

/-- A received Ethernet frame that waits in its port's buffer (R380, R382): bytes without the FCS, PTP, time stamp. -/
structure EthFrame where
  data : List Byte
  ptp : Bool
  ns : Nat
  frac : Nat
  deriving DecidableEq, Repr

/-- Ethernet ports, station time and its servos (R378 to R386). `time`: station time in units of 2^-32 ns. `good`:
consecutive updates within 20 ns. `ppsOut`: the level of the PPS_OUT pin. `ppsCap`: the ns captured latest. -/
structure EthSt where
  rx : Map (List EthFrame) := []
  sent : Map (Option (List Byte)) := []
  time : Nat := 0
  good : Nat := 0
  ppsOut : Bool := false
  ppsCap : Nat := 0
  deriving DecidableEq, Repr

end Sys2Proof.Machine
end

