-- ==== Sys2Proof/Machine/StateI.lean ====
section
/-! DEFINITION. Machine/StateI.lean: the parts of the state of power, temperature and bond wear (chapter 15). Currents are
in units of 10 mA, temperatures in 1/16 °C. -/

namespace Sys2Proof.Machine

/-- Estimated currents of an erg (R473): VDD_FAB, VDD_HLD, VDD_PLN. -/
structure ErgEst where
  fab : Nat := 0
  hld : Nat := 0
  pln : Nat := 0
  deriving DecidableEq, Repr

/-- The power monitor and device-wide Slack. `ergs`, `rails`: what was sensed last; `railMax`: largest since the last read of
PWR_RAIL_I. `sleepAt`: the turn (the tide it begins) at which an accepted SLEEP_DEVICE takes effect. `waking`: a device
wake is under way. -/
structure PwrSt where
  ergs : Map ErgEst := []
  rails : Map Nat := []
  railMax : Map Nat := []
  sleepAt : Option Nat := none
  waking : Bool := false
  deriving DecidableEq, Repr

/-- A temperature sensor (R484, R486): raw reading, acting value, marks, sweeps passed in a row since it became suspect, and
the crossings that have not ended. -/
structure SensorSt where
  raw : Int := 0
  acting : Int := 0
  suspect : Bool := false
  failed : Bool := false
  passed : Nat := 0
  warnHi : Bool := false
  warnLo : Bool := false
  critHi : Bool := false
  critLo : Bool := false
  deriving DecidableEq, Repr

/-- Thermal management. `critAt`: the turn (the tide it begins) at which a critical crossing leads to Stand-down, and whether
the crossing was low; `warm`: consecutive warm sweeps in Cold hold (R491); `coolSeen`: this Stand-down
has raised COOL. -/
structure ThmSt where
  sensors : Map SensorSt := []
  critAt : Option (Nat × Bool) := none
  warm : Nat := 0
  coolSeen : Bool := false
  deriving DecidableEq, Repr

/-- The bond-wear tracker of R492 and what island non-volatile memory holds of it (R494). `first`: the next sample starts
the tracker. `nvAt`: when the bins were last stored, if they were since the island started. -/
structure WearSt where
  p : Int := 0
  e : Int := 0
  up : Bool := true
  first : Bool := true
  nvBins : List Word := [0, 0, 0, 0]
  nvAt : Nat := 0
  stored : Bool := false
  deriving DecidableEq, Repr

end Sys2Proof.Machine
end

