-- ==== Sys2Proof/Machine/Operands.lean ====
section
/-! DEFINITION. Machine/Operands.lean: what commands carry besides numbers: who makes a register access, what a test found, what
a line, a link or host memory answered; and how a command that is a write to a command register forms the word it writes. -/

namespace Sys2Proof.Machine

/-- Who makes a register access (R216, R435): the PCI Express host port, a lighter, the CSP, the Daminaosh wire, a berth, another device of
the mesh. -/
inductive RegSrc where
  | host
  | lighter (n : Fin 16)
  | csp
  | wire
  | berth (b : Fin 512)
  | remote (dev : Fin 64)
  deriving DecidableEq, Repr

/-- The initiator that it is. -/
def RegSrc.src : RegSrc → Src
  | .host => .host | .lighter n => .lighter n | .csp => .csp | .wire => .wire | .berth b => .berth b | .remote d => .remote d

/-- Who may send a peek read: the wire alone (R505). -/
def RegSrc.peeks (r : RegSrc) (peek : Bool) : Bool := peek && r == .wire

/-- A word with bits `[lo + n - 1 : lo]` set to a value: how a command forms what it writes to its command register, whatever the rest of
the word. -/
def withField (w : Word) (lo n v : Nat) : Word := BitVec.ofNat 32 (w.toNat - nfield w.toNat lo n * 2 ^ lo + v % 2 ^ n * 2 ^ lo)

/-- A word without the low two bits, as a register's offset in the window (R217): 24 bits. -/
def regOffset (a : BitVec 22) : Nat := 4 * a.toNat

/-- A finding of the test engine in an erg (R525, R526): a bad lane of a bundle, at nominal strobe or at the margin strobe only; a failing
bit of a hold row, 512 the spares; a frame bit whose resource fails. -/
inductive TestFind where
  | lane (joint : Fin 3) (dune : Fin 256) (bundle : Fin 2048) (lane : Fin 68) (nominal : Bool)
  | bit (dune : Fin 256) (row : Fin 513) (word : Fin 32) (bit : Fin 72)
  | fabric (dune : Fin 256) (fbit : Fin 98304)
  deriving DecidableEq, Repr

/-- A failing bit of a march (R520): bank or global dune, row, word, bit of the code word. -/
structure MarchFail where
  bank : Fin 8192
  row : Fin 513
  word : Fin 32
  bit : Fin 72
  deriving DecidableEq, Repr

/-- Which row the scrubber visits: in which quadrant, for its idle sweep or for the triggered scrub (R207, R208). -/
structure ScrubPlace where
  idle : Bool
  quadrant : Fin 8
  deriving DecidableEq, Repr

/-- Which write a device reports (R264): of which DMC, and which line of its piece. -/
structure ReportPlace where
  dmc : Fin 8
  line : Fin 4
  deriving DecidableEq, Repr

/-- What an access of the metadata cache finds in the word it uses (R277). -/
inductive CacheWord where
  | good | corrected | uncorr
  deriving DecidableEq, Repr

/-- What an access of a DMC meets in the world: how often in a row the read data of a line of its piece missed the CRC of the EDC lanes, and
which line (R264); the state of the cache word that holds its check bytes (R277). -/
structure AccessFound where
  edc : Nat
  line : Fin 4
  word : CacheWord
  deriving DecidableEq, Repr

/-- State of a copy of a duplicated metadata line as a fetch finds it (R302). -/
inductive CopyState where
  | good | uncorr | badMac
  deriving DecidableEq, Repr

/-- What a metadata fetch found: the line's kind (0 counter block, 1 to 3 tree level, 4 tag line) and the state of its copies. -/
structure MetaFound where
  kind : Fin 5
  a : CopyState
  b : CopyState
  deriving DecidableEq, Repr

/-- How host memory answers a lighter's read (R372, R375). -/
inductive HostAnswer where
  | data (b : List Byte)
  | refused
  | poisoned
  | timeout
  deriving DecidableEq, Repr

/-- How a request is malformed (R502). -/
inductive WireBad where
  | crc
  | format (tag : Fin 4)
  deriving DecidableEq, Repr

/-- The ports of the SERDES PLLs (R455). -/
inductive SerdesPort where
  | causeway (n : Fin 16)
  | pcie
  | eth (p : Fin 4)
  deriving DecidableEq, Repr

end Sys2Proof.Machine
end

