-- ==== Sys2Proof/Syntax.lean ====
section
/-! DEFINITION. Syntax.lean: the commands that the block takes, one constructor for each row of spec/opcode_table.json, with the row's
operands; each docstring gives the row's name, its rule and its summary. The rows that have operands stand first, then those that have
none, each group in the table's order: Lean's compiler builds values of the first 244 constructors with operands only. -/

namespace Sys2Proof

open Machine

/-- A command of the block. -/
inductive Instr where
  /-- REGISTER_WRITE (R4): A write to a register that has no row of its own stores its fields by access code, applying R5 and R6 to
  reserved bits and encodings. -/
  | registerWrite (src : RegSrc) (addr : BitVec 22) (data : Word)
  /-- NARROW_ACCESS (R3): A narrower or unaligned access to the register window is answered RANGE and has no effect. -/
  | narrowAccess (src : RegSrc) (addr : BitVec 24) (size : Fin 9)
  /-- LOCK (R4): A write of 1 to BLK_CTRL.LOCK makes every RWL field of the block read-only until the next reset of its domain. -/
  | lock (src : RegSrc) (blk : BitVec 8) (data : Word)
  /-- REFUSE_CLR (R8): A write of 1 to BLK_CTRL.REFUSE_CLR clears the block's REFUSE_CNT. -/
  | refuseClr (src : RegSrc) (blk : BitVec 8) (data : Word)
  /-- EVT_FORCE (R10): A write to EVT_FORCE sets EVT_STATUS bits and raises the interrupt request if enabled, with none of the event's
  other actions. -/
  | evtForce (src : RegSrc) (blk : BitVec 8) (data : Word)
  /-- ECC_FLIP_ARM (R13): A write to ECC_FLIP_LO arms the flip mask, which is applied once to the next stored-data write of the block. -/
  | eccFlipArm (src : RegSrc) (blk : BitVec 8) (data : Word)
  /-- BUCKET_LEAK (R534): When the leak period of the time clock expires, a non-zero bucket LEVEL decrements by one. -/
  | bucketLeak (blk : BitVec 8)
  /-- SENTINEL_FAIL (R30): A sentinel parity check fails, so the bundle is marked SUSPECT and a class C or D error is raised depending on
  use. -/
  | sentinelFail (bundle : BitVec 26)
  /-- TIDE_CTRL_START (R57): TIDE_CTRL.CMD START arms tide 0 at the start time, or is refused with STATE. -/
  | tideCtrlStart (src : RegSrc) (data : Word)
  /-- TIDE_CTRL_STOP (R58): TIDE_CTRL.CMD STOP stops tides at the next turn, or disarms an armed start. -/
  | tideCtrlStop (src : RegSrc) (data : Word)
  /-- BREACH_CLR (R89): TIDE_CTRL.BREACH_CLR clears the breach records and BREACH_CNT. -/
  | breachClr (src : RegSrc) (data : Word)
  /-- XING_RELEASE (R59): A bounded-release queue entry reaches its release tick and is released to the reading domain. -/
  | xingRelease (queue : Fin 34320) (arrival : Nat)
  /-- SCHED_ISSUE_TICK (R67): ISSUE_TICK of a declaration's issue tide is reached: a held request is sent, or a request not presented is
  cancelled. -/
  | schedIssueTick (decl : BitVec 13)
  /-- SCHED_COMPLETE (R66): The last byte of a scheduled transfer reaches the release buffer or memory write buffer, and its lateness is
  judged. -/
  | schedComplete (decl : BitVec 13) (issueTide : Nat) (status : Status) (data : List Byte)
  /-- TIDE_NUM_LO_READ (R89): A read of TIDE_NUM_LO latches the high tide-number bits into TIDE_NUM_HI. -/
  | tideNumLoRead (src : RegSrc) (peek : Bool)
  /-- TURN_TIME_LO_READ (R89): A read of TURN_TIME_LO latches TURN_TIME_HI. -/
  | turnTimeLoRead (src : RegSrc) (peek : Bool)
  /-- TIDE_SKEW_READ (R89): A read of TIDE_SKEW returns SKEW_MAX and clears it. -/
  | tideSkewRead (src : RegSrc) (peek : Bool)
  /-- ADM_BOUND_SEL (R89): A write to ADM_BOUND_SEL selects a declaration's bound, or sets RANGE for an ID beyond DECL_COUNT. -/
  | admBoundSel (src : RegSrc) (data : Word)
  /-- BERTH_READ (R126): A berth presents a best-effort READ message, which is checked and sent on the network. -/
  | berthRead (b : Fin 512) (msg : BMsg)
  /-- BERTH_WRITE (R126): A berth presents a best-effort WRITE message with its data beats, which is checked and sent on the network. -/
  | berthWrite (b : Fin 512) (msg : BMsg)
  /-- BERTH_SCHED (R67): A berth presents a SCHED message, which the schedule gate checks, holds, sends or refuses. -/
  | berthSched (b : Fin 512) (msg : BMsg)
  /-- BERTH_RESPONSE (R127): The fabric presents a RESPONSE to a served request, which the router matches by CONTEXT and forwards. -/
  | berthResponse (b : Fin 512) (msg : BMsg)
  /-- BERTH_ACQUIRE (R238): A berth presents an ACQUIRE lock request carrying a lease. -/
  | berthAcquire (b : Fin 512) (msg : BMsg)
  /-- BERTH_RELINQUISH (R238): A berth presents a RELINQUISH lock release. -/
  | berthRelinquish (b : Fin 512) (msg : BMsg)
  /-- RELEASE_READ (R129): The fabric issues a release read of one beat of its release view, which returns 24 ticks later. -/
  | releaseRead (b : Fin 512) (beat : BitVec 11)
  /-- RELEASE_READ_RETURN (R129): A release-read beat is presented on the I path in tick t + 24 with the delivery's data and status. -/
  | releaseReadReturn (b : Fin 512)
  /-- SERVED_REQUEST_PRESENT (R124): The router presents a served request to the fabric beat by beat as served-request credits allow. -/
  | servedRequestPresent (b : Fin 512)
  /-- LATE_DELIVERY_PRESENT (R130): A scheduled delivery that completed late is presented as an I_SRC 0b11 message from the next turn. -/
  | lateDeliveryPresent (b : Fin 512)
  /-- NOTE_PRESENT (R131): A queued note is presented to its berth as a single-tick I_NOTE in the tide after it was raised. -/
  | notePresent (b : Fin 512)
  /-- ERG_NOTE_POST (R131): ERG_NOTE_POST.POST queues a HOST note for one berth, or completes with STATE or BUSY. -/
  | ergNotePost (src : RegSrc) (e : Fin 32) (data : Word)
  /-- HOIST (R177): A hoist command on the HL sinks is sampled and released to the bank's row port. -/
  | hoist (e : Fin 32) (dune : Fin 256) (reg : Fin 2) (row : Fin 512)
  /-- LOWER (R181): A lower command is sampled, capturing the row register into the capture buffer. -/
  | lower (e : Fin 32) (dune : Fin 256) (reg : Fin 2) (row : Fin 512)
  /-- ROW_CYCLE (R177): A released row command, or a row waiting for a cycle in progress, executes a 4-HCLK row cycle in the bank. -/
  | rowCycle (bank : Fin 8192)
  /-- HOIST_LAND (R179): A hoisted row lands in its row register at the end of tick t + 40. -/
  | hoistLand (bank : Fin 8192)
  /-- WORD_PORT_READ (R188): A grant at a bank word port reads words, corrects correctable ones and answers UNCORR on an uncorrectable
  one. -/
  | wordPortRead (bank : Fin 8192)
  /-- WORD_PORT_WRITE (R186): A grant at a bank word port writes full words without reading them. -/
  | wordPortWrite (bank : Fin 8192)
  /-- PARTIAL_WRITE (R186): A word-port partial write reads, corrects, merges and rewrites a word in one cycle. -/
  | partialWrite (bank : Fin 8192)
  /-- REMAP_READ (R192): HOLD_REMAP_CMD READ copies a bank's remap entry into HOLD_REMAP_ENTRY. -/
  | remapRead (src : RegSrc) (k : Fin 8) (data : Word)
  /-- REMAP_ADD (R192): HOLD_REMAP_CMD ADD requests a remap of a word, or completes at once with OK, RANGE, STATE or BUSY. -/
  | remapAdd (src : RegSrc) (k : Fin 8) (data : Word)
  /-- REMAP_MIGRATION (R192): In the first free HCLK cycle of the bank, the word is migrated into a spare and the mapping switches. -/
  | remapMigration (k : Fin 8)
  /-- REMAP_ADD_TIMEOUT (R192): No free cycle occurs within 1 ms, so the ADD completes with BUSY. -/
  | remapAddTimeout (k : Fin 8)
  /-- BANK_RETENTION_ENTRY (R195): Once pending row commands and grants finish, an erg's banks enter retention. -/
  | bankRetentionEntry (e : Fin 32)
  /-- BANK_WAKE (R196): A bank completes its 40 µs wake, and its held requests are served in order. -/
  | bankWake (bank : Fin 8192)
  /-- BOND_SET (R197): HOLD_BOND_CMD SET wipes the old and new ergs and sets the bonded region, or is refused. -/
  | bondSet (src : RegSrc) (data : Word)
  /-- BOND_WIPE (R200): HOLD_BOND_CMD WIPE wipes the current bonded banks. -/
  | bondWipe (src : RegSrc) (data : Word)
  /-- MARCH_DESTRUCTIVE (R203): MARCH_CMD starts a destructive march over a range of ergs, or completes with a refusal. -/
  | marchDestructive (src : RegSrc) (data : Word)
  /-- MARCH_PRESERVING (R203): MARCH_CMD starts a preserving march over a range of ergs, or completes with a refusal. -/
  | marchPreserving (src : RegSrc) (data : Word)
  /-- MARCH_ABORT (R203): MARCH_CMD ABORT stops the march after the current row cycle. -/
  | marchAbort (src : RegSrc) (data : Word)
  /-- MARCH_DONE (R203): A march ends, its failure records are set and MARCH_DONE is raised. -/
  | marchDone (fails : List MarchFail) (touched : Nat)
  /-- SCRB_START (R207): SCRB_CMD START starts a triggered scrub of a row range, or completes with OK, RANGE or BUSY. -/
  | scrbStart (src : RegSrc) (data : Word)
  /-- SCRB_ABORT (R207): SCRB_CMD ABORT stops the scrub after the current row. -/
  | scrbAbort (src : RegSrc) (data : Word)
  /-- SCRUB_ROW (R205): A scrub reads one row when the bank allows, writes back corrected words and logs uncorrectable ones. -/
  | scrubRow (place : ScrubPlace)
  /-- LAP (R208): The idle scrubber completes a lap, reports the lap time and raises LAP. -/
  | scrubLap (us : Nat)
  /-- HOLD_XFER_MAX_READ (R209): A read of HOLD_XFER_MAX returns the largest count and clears it. -/
  | holdXferMaxRead (src : RegSrc) (peek : Bool)
  /-- ROUTER_HOP (R227): A router output sends a flit by the wheel rules, after checking and correcting it and routing it
  dimension-ordered. -/
  | routerHop (router : Fin 72) (output : Fin 6) (errs : List (Fin 4 × BitVec 72))
  /-- NET_READ (R221): A READ packet reaches its target endpoint and is served or refused. -/
  | netRead (msg : Msg)
  /-- NET_WRITE (R221): A WRITE message reaches its target endpoint and is served or refused. -/
  | netWrite (msg : Msg)
  /-- NET_RESPONSE (R234): A RESPONSE reaches its initiator and is matched by TAG and STAMP, or discarded as stale. -/
  | netResponse (msg : Msg)
  /-- NET_ACQUIRE (R238): An ACQUIRE reaches a lock table and is granted, queued or refused. -/
  | netAcquire (msg : Msg)
  /-- NET_RELINQUISH (R238): A RELINQUISH frees a lock, and the oldest waiter proceeds. -/
  | netRelinquish (msg : Msg)
  /-- NET_MREAD (R221): A cipher metadata read reaches a DMC's reserved queue. -/
  | netMread (msg : Msg)
  /-- NET_MWRITE (R221): A cipher metadata write reaches a DMC's reserved queue. -/
  | netMwrite (msg : Msg)
  /-- INITIATOR_TIMEOUT (R236): A request's class timer expires, so the initiator synthesises a TIMEOUT response and frees the slot. -/
  | initiatorTimeout (who : Src) (tag : BitVec 9)
  /-- LEASE_EXP (R240): A lock lease expires, the lock is freed and the oldest waiter proceeds. -/
  | leaseExp (table : Fin 40) (line : Nat)
  /-- ARBITER_GRANT (R243): A free arbiter grants the highest unmasked input with a request. -/
  | arbiterGrant (arb : Fin 8200)
  /-- ARBITER_WINDOW (R244): An arbiter window ends, grant counts clear and masks lift. -/
  | arbiterWindow (arb : Fin 8200)
  /-- ARB_CUT (R246): A grant held past HOLD_LIM service times is cut off, the request ends CUTOFF and the input is masked. -/
  | arbCut (arb : Fin 8200)
  /-- HN_SCH_MAXWAIT_READ (R252): A read of HN_SCH_MAXWAIT returns MAX and clears it. -/
  | hnSchMaxwaitRead (src : RegSrc) (peek : Bool)
  /-- DMC_START (R272): DMC_CMD START initialises the GDDR7 device and enters TRAINING, or is refused. -/
  | dmcStart (src : RegSrc) (k : Fin 8) (data : Word)
  /-- DMC_GO (R272): DMC_CMD GO brings the DMC ONLINE, or is refused. -/
  | dmcGo (src : RegSrc) (k : Fin 8) (data : Word)
  /-- DMC_MAINT (R276): DMC_CMD MAINT requests a maintenance window, or is refused. -/
  | dmcMaint (src : RegSrc) (k : Fin 8) (data : Word)
  /-- DMC_END (R276): DMC_CMD END ends a maintenance window. -/
  | dmcEnd (src : RegSrc) (k : Fin 8) (data : Word)
  /-- WR_FIFO (R275): DMC_TRAIN_CMD WR_FIFO writes the compare buffer into a channel's training FIFO. -/
  | wrFifo (src : RegSrc) (k : Fin 8) (data : Word)
  /-- RD_FIFO (R275): DMC_TRAIN_CMD RD_FIFO reads the FIFO COUNT times and counts miscompares per lane. -/
  | rdFifo (src : RegSrc) (k : Fin 8) (data : Word)
  /-- CA_LOOP (R275): DMC_TRAIN_CMD CA_LOOP runs the command/address loopback COUNT times and counts miscompares. -/
  | caLoop (src : RegSrc) (k : Fin 8) (data : Word)
  /-- TRAIN_DONE (R275): A pattern operation completes, and TRAIN_DONE is raised. -/
  | trainDone (k : Fin 8) (errs : List (Fin 56 × BitVec 16))
  /-- DMC_MRW (R274): DMC_MRW GO issues a mode register write to the GDDR7 device. -/
  | dmcMrw (src : RegSrc) (k : Fin 8) (data : Word)
  /-- APPLY (R257): DMC_MAP_CMD APPLY copies the staged address masks into the active map, or refuses. -/
  | mapApply (src : RegSrc) (data : Word)
  /-- DMC_LANE_SEL (R278): A write to DMC_LANE_SEL selects a lane, or sets RANGE for lanes 56 to 63. -/
  | dmcLaneSel (src : RegSrc) (k : Fin 8) (data : Word)
  /-- REFRESH (R268): The per-bank refresh interval expires, and the next bank of the rotation is refreshed. -/
  | refresh (k : Fin 8) (ch : Fin 4)
  /-- DMC_ACCESS (R266): A granted piece is served at its bank with a closed page, decoded under the line code and answered. -/
  | dmcAccess (k : Fin 8) (bank : Fin 64) (found : AccessFound)
  /-- WRITE_CRC_REPORT (R264): The GDDR7 device reports a write-data CRC mismatch, so the line is rewritten, or written as P on a repeat.
  -/
  | writeCrcReport (place : ReportPlace)
  /-- CA_ERR (R264): The device reports a command/address error, so recent requests end UNCORR and one entry is logged. -/
  | caErr (k : Fin 8) (recent : Nat)
  /-- RANGE_ENABLE (R280): MCE_RANGE_CMD ENABLE checks and initialises a protected range, or refuses it. -/
  | rangeEnable (src : RegSrc) (data : Word)
  /-- RANGE_DISABLE (R281): MCE_RANGE_CMD DISABLE zeroises a range and frees its metadata. -/
  | rangeDisable (src : RegSrc) (data : Word)
  /-- REKEY (R306): MCE_RANGE_CMD REKEY starts the rekey walker of a range onto a new key ID, or refuses. -/
  | rekey (src : RegSrc) (data : Word)
  /-- REKEY_ABORT (R308): MCE_RANGE_CMD ABORT stops the walk after the current unit. -/
  | rekeyAbort (src : RegSrc) (data : Word)
  /-- INIT_DONE (R281): An ENABLE or DISABLE finishes writing the range, which becomes ENABLED or DISABLED. -/
  | initDone (range : Fin 16)
  /-- KEY_GEN (R289): MCE_KEY_CMD GEN installs a random memory key. -/
  | keyGen (src : RegSrc) (data : Word)
  /-- KEY_UNWRAP (R289): MCE_KEY_CMD UNWRAP unwraps and installs a key, or completes with AUTH. -/
  | keyUnwrap (src : RegSrc) (data : Word)
  /-- KEY_RETIRE (R290): MCE_KEY_CMD RETIRE retires a key ID. -/
  | keyRetire (src : RegSrc) (data : Word)
  /-- KEY_ZEROISE (R290): MCE_KEY_CMD ZEROISE zeroises the ranges under a retired ID and frees it. -/
  | keyZeroise (src : RegSrc) (data : Word)
  /-- META_FETCH (R298): A metadata fetch round completes, and the engine verifies counters and nodes from the root downward. -/
  | metaFetch (range : Fin 16) (page : Nat) (found : List MetaFound)
  /-- PAGE_REENCRYPT (R299): A page re-encryption completes, and the waiting write proceeds with MINOR 1. -/
  | pageReencrypt (engine : Fin 4)
  /-- LINK_ENABLE (R324): A write of CW_CTRL.EN starts training of a link or takes it OFF. -/
  | linkEnable (src : RegSrc) (n : Fin 16) (data : Word)
  /-- RETRAIN (R328): CW_CTRL.RETRAIN drops the link to TRAINING and restarts training. -/
  | retrain (src : RegSrc) (n : Fin 16) (data : Word)
  /-- KEY_SWITCH (R338): CW_CTRL.KEY_SWITCH switches the transmit key to TX_NEXT from the next frame, or is refused. -/
  | keySwitch (src : RegSrc) (n : Fin 16) (data : Word)
  /-- TS1_ROW (R324): A TS1 training row is received and checked for lane, link, coordinate and version. -/
  | ts1Row (n : Fin 16) (blocks : List DWord) (skew : Nat) (polarity : BitVec 8)
  /-- TS2_ROW (R324): A TS2 training row is received, taking credits and checking encryption settings. -/
  | ts2Row (n : Fin 16) (block : DWord)
  /-- SOF_ROW (R324): An SOF row is received, and framing begins. -/
  | sofRow (n : Fin 16)
  /-- TRAIN_FAIL (R324): Training does not complete within 1 ms, so TRAIN_FAIL is raised and training restarts. -/
  | trainFail (n : Fin 16)
  /-- FRAME_SEND (R318): A frame start comes due, and a frame is formed with flits against credits, LINK, SVC, tag and CRC. -/
  | frameSend (n : Fin 16)
  /-- FRAME_RECEIVE (R326): A frame is received, CRC and tag checked, accepted in order or NAKed, and its flits, credits and acks are
  taken in. -/
  | frameReceive (n : Fin 16) (blocks : List DWord) (badHeaders : List (Nat × Nat))
  /-- RELOCK_TIMEOUT (R328): A RELOCK lasting 2 µs drops the link to TRAINING. -/
  | relockTimeout (n : Fin 16)
  /-- SVC_BREACH (R334): A BREACH service message is received, so the device raises MESH, forwards the flag and moors. -/
  | svcBreach (n : Fin 16) (payload : BitVec 56)
  /-- SVC_HALT (R507): A HALT flag is received, forwarded and acted on as a halt request. -/
  | svcHalt (n : Fin 16) (payload : BitVec 56)
  /-- SVC_RESUME (R511): A RESUME flag is received, forwarded and acted on as a resume. -/
  | svcResume (n : Fin 16) (payload : BitVec 56)
  /-- START_A (R87): A START_A message carrying the start time low bits and L is received by a follower. -/
  | startA (n : Fin 16) (payload : BitVec 56)
  /-- START_B (R87): A START_B message completes the start time, arming a follower. -/
  | startB (n : Fin 16) (payload : BitVec 56)
  /-- SVC_TURN (R337): A TURN marker is received and compared with the device's own turn into TIDE_SKEW. -/
  | svcTurn (n : Fin 16) (payload : BitVec 56)
  /-- SYNC (R337): A SYNC message is received, its time recorded and SYNC_RX made pending. -/
  | sync (n : Fin 16) (payload : BitVec 56)
  /-- SYNC_RX (R337): A SYNC_RX message is received, and flight time and offset are computed. -/
  | syncRx (n : Fin 16) (payload : BitVec 56)
  /-- EPOCH (R385): An EPOCH message is received and taken whole by station time in LINK mode while VALID is 0. -/
  | epoch (n : Fin 16) (payload : BitVec 56)
  /-- JETTY_FRAME_RECEIVE (R358): A frame completes decoding on a jetty port and is kept as eligible or discarded with its count. -/
  | jettyFrameReceive (p : Fin 256) (got : JRecv)
  /-- SYNC_LOST (R346): A jetty receiver sees too many code violations and returns to HUNT. -/
  | syncLost (p : Fin 256)
  /-- RECEIVE_SLOT (R356): A receive slot's capture edge takes the newest valid frame and presents it, or NOFRAME, as an RX burst. -/
  | receiveSlot (p : Fin 256) (idx : Fin 16)
  /-- TRANSMIT_SLOT (R355): A transmit slot samples the TX burst and sends a frame, a mooring frame or nothing. -/
  | transmitSlot (p : Fin 256) (idx : Fin 16)
  /-- MOORING_FRAME (R361): A mooring generator's INTERVAL expires, and the next mooring frame of the rotation is sent. -/
  | mooringFrame (p : Fin 256)
  /-- HOST_READ_TLP (R369): A host read TLP is split into network reads and completed with data or an error completion. -/
  | hostReadTlp (bar : Fin 3) (off : BitVec 40) (len : Fin 4097)
  /-- HOST_WRITE_TLP (R369): A host posted write TLP is split into network writes, and failures are dropped and recorded. -/
  | hostWriteTlp (bar : Fin 3) (off : BitVec 40) (data : List Byte)
  /-- MSIX_MESSAGE (R371): An MSI-X vector becomes asserted, and one message is sent, or its PBA bit is set while masked. -/
  | msixMessage (vector : Fin 256)
  /-- LGT_PROD (R377): A write of a lighter's producer index starts or feeds the channel. -/
  | lgtProd (src : RegSrc) (n : Fin 16) (data : Word)
  /-- LGT_STOP (R377): LGT_CMD STOP stops a lighter channel. -/
  | lgtStop (src : RegSrc) (n : Fin 16) (data : Word)
  /-- LGT_CLEAR (R377): LGT_CMD CLEAR skips a failed descriptor and returns the channel to RUNNING or IDLE. -/
  | lgtClear (src : RegSrc) (n : Fin 16) (data : Word)
  /-- LGT_CFG (R377): A write of LGT_CFG is stored or ignored by channel state, and EN starts or stops the channel. -/
  | lgtCfg (src : RegSrc) (n : Fin 16) (data : Word)
  /-- LIGHTER_DESCRIPTOR (R374): A lighter fetches and checks a descriptor and begins issuing its pieces. -/
  | lighterDescriptor (n : Fin 16) (host : List Byte)
  /-- LIGHTER_PIECE_DONE (R376): A lighter piece completes, and the descriptor finishes, fails into ERROR, or continues. -/
  | lighterPieceDone (n : Fin 16) (off : Nat) (answer : HostAnswer)
  /-- ETH_FRAME_RECEIVE (R378): An Ethernet frame is received, time-stamped and accepted into the port buffer or discarded. -/
  | ethFrameReceive (port : Fin 4) (frame : List Byte) (fcsOk : Bool)
  /-- ETH_RX_DELIVER (R380): The ETH_RX lighter writes a buffered frame into the ring slot, or drops it when the ring is full. -/
  | ethRxDeliver (n : Fin 16)
  /-- ETH_TX_SLOT (R381): The ETH_TX lighter reads a valid slot, sends the frame and writes the header back. -/
  | ethTxSlot (n : Fin 16)
  /-- ST_STEP (R385): ST_CTRL.STEP sets or adjusts station time, or is refused with STATE. -/
  | stStep (src : RegSrc) (data : Word)
  /-- ST_NOW_LO_READ (R383): A read of ST_NOW_LO latches ST_NOW_HI and ST_NOW_FRAC. -/
  | stNowLoRead (src : RegSrc) (peek : Bool)
  /-- ST_PPS_CAP_LO_READ (R390): A read of ST_PPS_CAP_LO latches ST_PPS_CAP_HI. -/
  | stPpsCapLoRead (src : RegSrc) (peek : Bool)
  /-- CSP_STREAM (R388): A CSP STREAM transfer sends words into the image stream, or is refused BUSY. -/
  | cspStream (words : List Word)
  /-- CSP_REG_WRITE (R388): A CSP REG_WRITE transfer writes one register word through the configuration controller. -/
  | cspRegWrite (idx : BitVec 22) (data : Word)
  /-- CSP_REG_READ (R388): A CSP REG_READ transfer reads one register word. -/
  | cspRegRead (idx : BitVec 22)
  /-- CSP_ERR (R388): A CSP transfer with a reserved OP, or cut short by CSP_CS_N, is discarded or truncated and counted. -/
  | cspErr (words : List Word)
  /-- STREAM_DATA (R413): Bytes reach the image stream, are claimed, consumed and checked, or refused by ownership, mode or offset. -/
  | streamData (src : RegSrc) (aperture : Option (BitVec 12)) (bytes : List Byte) (last : Bool)
  /-- CFG_ABORT (R416): CFG_CMD ABORT refuses the image in load, or abandons programming. -/
  | cfgAbort (src : RegSrc) (data : Word)
  /-- CFG_ACTIVATE (R415): CFG_CMD ACTIVATE commits a STAGED image. -/
  | cfgActivate (src : RegSrc) (data : Word)
  /-- WITHDRAW (R416): CFG_CMD WITHDRAW withdraws a STAGED image and frees its slots. -/
  | withdraw (src : RegSrc) (data : Word)
  /-- PROGRAM (R421): CFG_CMD PROGRAM makes the next stream a resident image bound for slot A or B. -/
  | program (src : RegSrc) (data : Word)
  /-- STK_BUNDLE_SEL (R46): A write to STK_BUNDLE_SEL selects a bundle, or sets RANGE for an ID that names none. -/
  | stkBundleSel (src : RegSrc) (data : Word)
  /-- SHOAL_READ (R46): STK_SHOAL_CMD READ copies a shoal-map entry into the entry registers. -/
  | shoalRead (src : RegSrc) (data : Word)
  /-- SHOAL_ADD (R37): STK_SHOAL_CMD ADD appends a host entry to the shoal map, or refuses it. -/
  | shoalAdd (src : RegSrc) (data : Word)
  /-- FENCE (R158): ERG_PLANE_CMD FENCE commits a fence of the erg. -/
  | fence (src : RegSrc) (e : Fin 32) (data : Word)
  /-- RELEASE (R151): ERG_PLANE_CMD RELEASE gives up a plane slot that is not running. -/
  | release (src : RegSrc) (e : Fin 32) (data : Word)
  /-- LEND (R164): ERG_PLANE_CMD LEND lends plane 7 to the test engine. -/
  | lend (src : RegSrc) (e : Fin 32) (data : Word)
  /-- RECALL (R165): ERG_PLANE_CMD RECALL takes plane 7 back, at once or at the next turn. -/
  | recall (src : RegSrc) (e : Fin 32) (data : Word)
  /-- PSW_MAX_READ (R170): A read of PSW_MAX returns the largest switch count and clears it. -/
  | pswMaxRead (src : RegSrc) (peek : Bool)
  /-- NONCE (R436): SEC_CMD NONCE draws a fresh nonce for the interface. -/
  | nonce (src : RegSrc) (data : Word)
  /-- OPEN_TOKEN (R437): SEC_CMD OPEN_TOKEN verifies a signed token and opens an owner or vendor session. -/
  | openToken (src : RegSrc) (data : Word)
  /-- OPEN_PASSWORD (R438): SEC_CMD OPEN_PASSWORD opens an owner session by password. -/
  | openPassword (src : RegSrc) (data : Word)
  /-- CLOSE (R440): SEC_CMD CLOSE closes the interface's session. -/
  | close (src : RegSrc) (data : Word)
  /-- ATTEST (R443): SEC_CMD ATTEST builds and signs an attestation report in the mailbox. -/
  | attest (src : RegSrc) (data : Word)
  /-- GET_IDKEY (R442): SEC_CMD GET_IDKEY places the identity public key and its vendor signature in the mailbox. -/
  | getIdkey (src : RegSrc) (data : Word)
  /-- LC_ADVANCE (R430): SEC_CMD LC_ADVANCE moves the life cycle forward, erasing secrets and resetting the device. -/
  | lcAdvance (src : RegSrc) (data : Word)
  /-- SET_PASSWORD (R438): SEC_CMD SET_PASSWORD replaces or disables the session password. -/
  | setPassword (src : RegSrc) (data : Word)
  /-- DRYDOCK (R447): SEC_CMD DRYDOCK clears secrets and memory and enters Dry dock. -/
  | drydock (src : RegSrc) (data : Word)
  /-- BOOTCFG (R440): SEC_CMD BOOTCFG writes FAIL_POLICY to the boot configuration block. -/
  | bootcfg (src : RegSrc) (data : Word)
  /-- SEC_MBOX_DATA (R448): An access to SEC_MBOX_DATA moves a mailbox word and advances the pointer. -/
  | secMboxData (src : RegSrc) (write : Option Word) (peek : Bool)
  /-- TAMPER_INPUT (R444): An armed TAMPER_N pin stays low for 10 µs and triggers the tamper response. -/
  | tamperInput (input : Fin 4)
  /-- VOLTAGE_MONITOR (R444): A monitored rail stays outside ±12 % for 200 ns and triggers the tamper response. -/
  | voltageMonitor (rail : Fin 5)
  /-- CLOCK_GLITCH (R444): A clock period shorter than 75 % of its programme triggers the tamper response. -/
  | clockGlitch (domain : Fin 4)
  /-- CLK_APPLY (R454): CLK_CMD APPLY relocks changed PLLs with the staged multipliers, or is refused. -/
  | clkApply (src : RegSrc) (data : Word)
  /-- PLL_LOCK_LOST (R455): A TICK, HOLD, NET or MEM PLL loses lock, or the reference fails, which is class F. -/
  | pllLockLost (pll : Option (Fin 4))
  /-- SERDES_LOCK_LOST (R455): A SerDes PLL loses lock, and only its own port goes down. -/
  | serdesLockLost (port : SerdesPort)
  /-- OSC_COMMIT (R451): LH_OSC_CFG.COMMIT writes a new oscillator start-up code to island memory, or is refused. -/
  | oscCommit (src : RegSrc) (data : Word)
  /-- CLK_EN (R456): A write to CLK_ENn gates or ungates register blocks. -/
  | clkEn (src : RegSrc) (k : Fin 3) (data : Word)
  /-- CLKMON_CFG (R458): A write to CLKMON_CFG selects the monitor output, or is dropped above 250 MHz. -/
  | clkmonCfg (src : RegSrc) (data : Word)
  /-- POWER_ON (R472): Main rails and PWR_OK hold power-good for 1 ms, and a power-on reset begins. -/
  | powerOn (refclk : Bool)
  /-- MAIN_POWER_LOSS (R472): A main rail falls below 85 % or PWR_OK goes low, and the device stops at once, entering Beacon if the
  island is powered. -/
  | mainPowerLoss (islandSupplied : Bool)
  /-- HOST_RESET (R460): LH_RST_CMD written with the key requests a reset with cause HOST. -/
  | hostReset (src : RegSrc)
  /-- RESET_RELEASE (R461): Reset has been held its time and is released, the straps are sampled and Boot begins. -/
  | resetRelease (devX : Fin 8) (devY : Fin 8) (csp : Fin 4)
  /-- BUNDLE_TEST_DONE (R26): The Boot bundle test and plane-store march complete, steering out and recording failed lanes and dunes. -/
  | bundleTestDone (lanes : List (BitVec 26 × Fin 68)) (dunes : List (Fin 8192))
  /-- BOOT_TEMPERATURE_CHECK (R464): Boot checks the sensors and enters Cold hold if any is below −40 °C. -/
  | bootTemperatureCheck (readings : List (Option Int))
  /-- BOOT_APPLY (R420): Boot initialises the hold, applies the bonded setting, runs REGWRITE records, activates the watch erg and enters
  Moored. -/
  | bootApply (fails : List MarchFail)
  /-- WDG_FEED (R468): A feed sequence on WDG_FEED reloads the watchdog, or a broken sequence counts BAD_FEED. -/
  | wdgFeed (src : RegSrc) (data : Word)
  /-- WDG_EN (R467): A write of 1 to WDG_CFG.EN starts the watchdog until the next reset. -/
  | wdgEn (src : RegSrc) (data : Word)
  /-- WDG_LOAD (R467): A write to WDG_LOAD reloads the watchdog count. -/
  | wdgLoad (src : RegSrc) (data : Word)
  /-- SLEEP_ERGS (R475): PWR_SLEEP_CMD SLEEP_ERGS schedules Slack for the masked ergs, or is refused. -/
  | sleepErgs (src : RegSrc) (data : Word)
  /-- WAKE_ERGS (R477): PWR_SLEEP_CMD WAKE_ERGS wakes the masked ergs. -/
  | wakeErgs (src : RegSrc) (data : Word)
  /-- SLEEP_DEVICE (R478): PWR_SLEEP_CMD SLEEP_DEVICE puts the whole device in Slack, or is refused. -/
  | sleepDevice (src : RegSrc) (data : Word)
  /-- WAKE_DEVICE (R479): PWR_SLEEP_CMD WAKE_DEVICE starts a device wake. -/
  | wakeDevice (src : RegSrc) (data : Word)
  /-- ERG_DOWN (R476): 2 µs after the entry turn the erg is fully down, and wake triggers begin to act. -/
  | ergDown (e : Fin 32)
  /-- ERG_UP (R477): A woken erg resumes its active track with INIT values, and ERG_UP is raised. -/
  | ergUp (e : Fin 32)
  /-- POWER_ESTIMATE (R473): Every 1 µs erg and rail current estimates update, raising ERG_OVER or RAIL_OVER when above limits. -/
  | powerEstimate (ergs : List ErgEst) (rails : List Nat)
  /-- PWR_RAIL_I_READ (R495): A read of PWR_RAIL_I returns MAX and clears it. -/
  | pwrRailIRead (src : RegSrc) (peek : Bool)
  /-- THERMAL_SWEEP (R484): Every 100 µs all sensors are read, checked, given acting values and compared with the limits. -/
  | thermalSweep (readings : List (Option Int))
  /-- THM_LIM_WRITE (R485): A write to THM_LIMn sets the layer limits, or is ignored whole if their order is broken. -/
  | thmLimWrite (src : RegSrc) (n : Fin 4) (data : Word)
  /-- THM_SEL (R495): A write to THM_SEL selects a sensor, or sets RANGE for values 136 to 255. -/
  | thmSel (src : RegSrc) (data : Word)
  /-- RESUME (R489): THM_CMD RESUME leaves Stand-down once cool and returns the device to Moored. -/
  | thmResume (src : RegSrc) (data : Word)
  /-- ID (R501): A wire ID request returns family, device, life-cycle, mode and attachment. -/
  | wireId (tag : Fin 4)
  /-- ATTACH (R504): A wire ATTACH request marks a debugger as attached. -/
  | attach (tag : Fin 4)
  /-- DETACH (R504): A wire DETACH request ends attachment and closes the WIRE session. -/
  | detach (tag : Fin 4)
  /-- IRD (R503): A wire IRD request reads a word of island space. -/
  | ird (tag : Fin 4) (off : BitVec 16)
  /-- IWR (R503): A wire IWR request writes a word of island space. -/
  | iwr (tag : Fin 4) (off : BitVec 16) (data : Word)
  /-- RD (R502): A wire RD request issues an aligned 32-bit read, which is a peek read if PEEK is set. -/
  | rd (tag : Fin 4) (addr : BitVec 48) (peek : Bool)
  /-- WR (R502): A wire WR request issues an aligned 32-bit write. -/
  | wr (tag : Fin 4) (addr : BitVec 48) (data : Word)
  /-- POLL (R502): A wire POLL request returns the outcome of the latest operation on its tag. -/
  | poll (tag : Fin 4)
  /-- WIRE_REQUEST_MALFORMED (R502): A wire request with a CRC mismatch or reserved encoding is answered FORMAT and does nothing. -/
  | wireRequestMalformed (bad : WireBad)
  /-- DBG_HALT (R507): DBG_CTRL HALT requests a single or lockstep halt. -/
  | dbgHalt (src : RegSrc) (data : Word)
  /-- DBG_RESUME (R511): DBG_CTRL RESUME sets a resume instant on the 16,384 ns grid and sends RESUME if lockstep. -/
  | dbgResume (src : RegSrc) (data : Word)
  /-- DBG_STEP (R512): DBG_CTRL STEP resumes for COUNT tides, then halts. -/
  | dbgStep (src : RegSrc) (data : Word)
  /-- DBG_HALT_TIDE_LO_READ (R518): A read of DBG_HALT_TIDE_LO latches DBG_HALT_TIDE_HI. -/
  | dbgHaltTideLoRead (src : RegSrc) (peek : Bool)
  /-- DBG_RESUME_AT_LO_READ (R518): A read of DBG_RESUME_AT_LO latches DBG_RESUME_AT_HI. -/
  | dbgResumeAtLoRead (src : RegSrc) (peek : Bool)
  /-- DRYDOCK_SLOT (R523): A dry-dock slot's ticks arrive, the erg substitutes test ticks and the test engine runs or skips its slice. -/
  | drydockSlot (e : Fin 32) (finds : List TestFind)
  /-- FABRIC_PATTERN_WRITE (R524): After a FABRIC slice ends, the engine writes the next slice's patterns into plane 7. -/
  | fabricPatternWrite (e : Fin 32)
  /-- DD_RUN (R528): BIST_DD_CMD RUN performs one test lap of every kind over ergs in Dry dock. -/
  | ddRun (src : RegSrc) (data : Word)
  /-- DD_ABORT (R528): BIST_DD_CMD ABORT stops a Dry dock run after the current slice. -/
  | ddAbort (src : RegSrc) (data : Word)
  /-- DD_RUN_DONE (R528): A Dry dock test run completes. -/
  | ddRunDone (finds : List (Fin 32 × TestFind)) (slices : Nat)
  /-- BIST_RES_LO_READ (R540): A read of BIST_RES_LO removes the oldest result record and latches its RES_HI. -/
  | bistResLoRead (src : RegSrc) (peek : Bool)
  /-- BIST_SCAN_DATA (R529): A write to BIST_SCAN_DATA shifts 32 bits through the selected scan chain, or is refused DENIED. -/
  | bistScanData (src : RegSrc) (data : Word)
  /-- PLANE_SCRUB_READ (R531): Every 4 plane-tree ticks the scrubber reads and checks one plane-store word and handles it by slot state.
  -/
  | planeScrubRead (e : Fin 32) (bad : Nat)
  /-- SCRUB_STALL (R533): No heartbeat arrives from an erg's plane-store scrubber within 16 ms, which is class F. -/
  | scrubStall (e : Fin 32)
  /-- LH_FLOG_PORT_READ (R537): A read of LH_FLOG_PORT returns the next word of the oldest unread fault-log entry. -/
  | lhFlogPortRead (src : RegSrc) (peek : Bool)
  /-- RX_SYNC (R346): A jetty receiver in HUNT sees three SOF or IDLE symbols at one alignment with no code violation between them and
  enters SYNC. -/
  | rxSync (p : Fin 256)
  /-- PCIE_LINK_UP (R372): The PCI Express link trains and comes up, and PCIE_LINK shows its speed and width. -/
  | pcieLinkUp (gen : Fin 3) (width : Fin 4) (bar4 : Fin 6)
  /-- LINK_CHG (R378): An Ethernet port's PCS gains or loses lock, ETH_CFGp.LINK_UP changes and LINK_CHG is raised. -/
  | linkChg (port : Fin 4) (up : Bool)
  /-- FABRIC_TICK (R95): In each tick the fabric evaluates the current plane: grains update their flip-flop pairs, row-register word
  writes land, oasis pipelines advance and sinks are sampled. -/
  | fabricTick
  /-- TIDE_TURN (R54): When the tide's tick count ends, the device performs the ordered turn steps: tide increment, releases, steering,
  fences, activations, Slack and maintenance windows, and then halt or mooring. -/
  | tideTurn
  /-- TIDE_START (R57): Station time reaches the armed start time, so tide 0 begins and the device enters Underway. -/
  | tideStart
  /-- ADMISSION (R75): The admission check completes, admitting or refusing the image and recording ADM_RESULT. -/
  | admission
  /-- BOND_WIPED (R199): A wipe of the bonded region completes, WIPE_CNT increments and BOND_WIPED is raised. -/
  | bondWiped
  /-- DONE (R207): A triggered scrub ends, its summary is recorded and SCRB DONE is raised. -/
  | scrubDone
  /-- REKEY_UNIT (R307): The walker converts one 2 MiB unit to the new key and advances its pointer. -/
  | rekeyUnit
  /-- WALK_DONE (R307): The walk's flush completes, the range takes the new key and the old one is RETIRED. -/
  | walkDone
  /-- JETTY_PLL_LOCK_LOST (R363): The jetty PLL loses lock, and every port goes to electrical idle until it relocks. -/
  | jettyPllLockLost
  /-- PCIE_LINK_DOWN (R372): The PCI Express link goes down, host traffic is abandoned and the HOST session closes. -/
  | pcieLinkDown
  /-- PPS_IN (R386): A PPS_IN rising edge captures station time, and the PPS servo updates. -/
  | ppsIn
  /-- PPS_OUT (R386): Station time crosses a whole second, PPS_OUT rises and falls after WIDTH ms. -/
  | ppsOut
  /-- CSP_STATUS (R388): A CSP STATUS transfer returns CSP_STAT. -/
  | cspStatus
  /-- SIGNATURE_VERIFIED (R397): Signature verification completes, refusing with AUTH or assigning the owner handle. -/
  | signatureVerified
  /-- SHOAL_PERSIST (R38): Within 10 ms of the first new entry, the coalesced shoal-map entries are written to the alternate sector. -/
  | shoalPersist
  /-- TAMPER_BEACON (R446): A tamper input fires in Beacon and sets TAMPER_SEEN in island memory. -/
  | tamperBeacon
  /-- RNG_FAIL (R434): An entropy health test fails, and the generator stops. -/
  | rngFail
  /-- RNG_RESTART (R434): 1,024 consecutive samples pass both tests, and the generator restarts. -/
  | rngRestart
  /-- APPLY_DONE (R454): Relocked domains restart, PACE is recomputed and APPLY_DONE is raised. -/
  | applyDone
  /-- OSC_WAIT_DONE (R450): The oscillator start-up wait after power-on expires, and Boot may begin. -/
  | oscWaitDone
  /-- RESET_PIN (R459): RESET_N stays low for 1 µs and requests a reset with cause PIN. -/
  | resetPin
  /-- RESET_ENTRY (R461): After the 1 µs self-refresh interval, the device enters Reset and resets its FULL registers. -/
  | resetEntry
  /-- BOOT_PLL_LOCK (R463): Boot's PLLs lock and island items are read, and resident image reading begins. -/
  | bootPllLock
  /-- RESIDENT_IMAGE_READ (R420): A resident slot's bytes are read and checked, and failure leads to fallback or Aground. -/
  | residentImageRead
  /-- WARN (R468): The watchdog count reaches WARN, and WARN is raised. -/
  | warn
  /-- WATCHDOG (R468): The watchdog count reaches zero and causes a reset with cause WATCHDOG. -/
  | watchdog
  /-- DEV_WAKE (R480): A device wake completes and the device returns to its earlier mode. -/
  | devWake
  /-- WEAR_PERSIST (R494): The wear bins are written to island memory, at most hourly and at entry to Beacon. -/
  | wearPersist
  /-- WIRE_RESET (R496): RSTDW_N is held low for 100 µs or longer, requesting a WIRE reset and ending attachment. -/
  | wireReset
  /-- WIRE_BREAK (R496): A break on RSTDW_N ends any request in progress and starts a new one. -/
  | wireBreak
  /-- WIRE_ERR (R496): A framing error discards the current wire request. -/
  | wireErr
  /-- ISLAND_SUPPLY_LOSS (R498): A wire-powered island loses its supply, and domain ISL is reset. -/
  | islandSupplyLoss
  /-- ATTACH_TIMEOUT (R504): One second passes without a valid wire request, and attachment ends. -/
  | attachTimeout
  /-- RESUMED (R511): The resume instant is reached, the halted tide starts at tick offset 0 and SINGLE_HALT is raised for a single halt.
  -/
  | resumed
  /-- JETTY_PLL_LOCK (R363): The jetty PLL locks again after a loss of lock, and the ports leave electrical idle. -/
  | jettyPllLock
  /-- ISLAND_POWER_UP (R498): The Lighthouse island gains its supply from VDD_LH or from the wire, starts, and restores the fault log,
  wear bins and tracker samples from island memory. -/
  | islandPowerUp
  deriving DecidableEq, Repr

end Sys2Proof
end

