-- ==== Sys2Proof/Decode.lean ====
section
/-! DEFINITION. Decode.lean: the command that a word spells by the bits of spec/opcode_table.json. No row of the table gives bits: the
part takes commands, not instruction words. -/

namespace Sys2Proof

/-- The command of a word: none, since no row of the table has an encoding. -/
def decodeTableWord (_nbits _w : Nat) : Option Instr := none

end Sys2Proof
end

