-- ==== Sys2Proof/Machine/Crypto.lean ====
section
/-! DEFINITION. Machine/Crypto.lean: AES-256 and the modes the device uses: XTS (R285), counter mode and CMAC (R286, R294), key wrap
(R289), GCM (R309). Byte strings are lists of numbers below 256; a 16-byte block's first byte is the most significant byte of the
128-bit value. -/

namespace Sys2Proof.Machine.Aes

/-- The substitution box. -/
def sbox : List Nat :=
  [0x63, 0x7C, 0x77, 0x7B, 0xF2, 0x6B, 0x6F, 0xC5, 0x30, 0x01, 0x67, 0x2B, 0xFE, 0xD7, 0xAB, 0x76, 0xCA, 0x82, 0xC9, 0x7D, 0xFA, 0x59, 0x47, 0xF0, 0xAD, 0xD4, 0xA2, 0xAF, 0x9C, 0xA4, 0x72, 0xC0] ++
  [0xB7, 0xFD, 0x93, 0x26, 0x36, 0x3F, 0xF7, 0xCC, 0x34, 0xA5, 0xE5, 0xF1, 0x71, 0xD8, 0x31, 0x15, 0x04, 0xC7, 0x23, 0xC3, 0x18, 0x96, 0x05, 0x9A, 0x07, 0x12, 0x80, 0xE2, 0xEB, 0x27, 0xB2, 0x75] ++
  [0x09, 0x83, 0x2C, 0x1A, 0x1B, 0x6E, 0x5A, 0xA0, 0x52, 0x3B, 0xD6, 0xB3, 0x29, 0xE3, 0x2F, 0x84, 0x53, 0xD1, 0x00, 0xED, 0x20, 0xFC, 0xB1, 0x5B, 0x6A, 0xCB, 0xBE, 0x39, 0x4A, 0x4C, 0x58, 0xCF] ++
  [0xD0, 0xEF, 0xAA, 0xFB, 0x43, 0x4D, 0x33, 0x85, 0x45, 0xF9, 0x02, 0x7F, 0x50, 0x3C, 0x9F, 0xA8, 0x51, 0xA3, 0x40, 0x8F, 0x92, 0x9D, 0x38, 0xF5, 0xBC, 0xB6, 0xDA, 0x21, 0x10, 0xFF, 0xF3, 0xD2] ++
  [0xCD, 0x0C, 0x13, 0xEC, 0x5F, 0x97, 0x44, 0x17, 0xC4, 0xA7, 0x7E, 0x3D, 0x64, 0x5D, 0x19, 0x73, 0x60, 0x81, 0x4F, 0xDC, 0x22, 0x2A, 0x90, 0x88, 0x46, 0xEE, 0xB8, 0x14, 0xDE, 0x5E, 0x0B, 0xDB] ++
  [0xE0, 0x32, 0x3A, 0x0A, 0x49, 0x06, 0x24, 0x5C, 0xC2, 0xD3, 0xAC, 0x62, 0x91, 0x95, 0xE4, 0x79, 0xE7, 0xC8, 0x37, 0x6D, 0x8D, 0xD5, 0x4E, 0xA9, 0x6C, 0x56, 0xF4, 0xEA, 0x65, 0x7A, 0xAE, 0x08] ++
  [0xBA, 0x78, 0x25, 0x2E, 0x1C, 0xA6, 0xB4, 0xC6, 0xE8, 0xDD, 0x74, 0x1F, 0x4B, 0xBD, 0x8B, 0x8A, 0x70, 0x3E, 0xB5, 0x66, 0x48, 0x03, 0xF6, 0x0E, 0x61, 0x35, 0x57, 0xB9, 0x86, 0xC1, 0x1D, 0x9E] ++
  [0xE1, 0xF8, 0x98, 0x11, 0x69, 0xD9, 0x8E, 0x94, 0x9B, 0x1E, 0x87, 0xE9, 0xCE, 0x55, 0x28, 0xDF, 0x8C, 0xA1, 0x89, 0x0D, 0xBF, 0xE6, 0x42, 0x68, 0x41, 0x99, 0x2D, 0x0F, 0xB0, 0x54, 0xBB, 0x16]

def sub (x : Nat) : Nat := sbox.getD x 0
/-- The inverse substitution. -/
def unsub (x : Nat) : Nat := sbox.findIdx (· == x)

/-- Doubling in the AES field. -/
def xtime (x : Nat) : Nat := if 128 ≤ x then Nat.xor (2 * x % 256) 0x1B else 2 * x

/-- Multiplication in the AES field. -/
def mul (a b : Nat) : Nat :=
  (List.range 8).foldl (fun r i => let d := xtime r; if nbit b (7 - i) then Nat.xor d a else d) 0

/-- Exclusive-or of byte strings. -/
def bxor (a b : List Nat) : List Nat := List.zipWith Nat.xor a b

/-- Round constants of the AES-256 key schedule. -/
def rcon : List Nat := [1, 2, 4, 8, 16, 32, 64]

/-- The next eight words of the key schedule, from the last eight. -/
def expandStep (k : List (List Nat)) (rc : Nat) : List (List Nat) :=
  let w (i : Nat) : List Nat := k.getD i []
  let rot := (w 7).tail ++ (w 7).take 1
  let g := bxor (rot.map sub) [rc, 0, 0, 0]
  let a0 := bxor (w 0) g
  let a1 := bxor (w 1) a0
  let a2 := bxor (w 2) a1
  let a3 := bxor (w 3) a2
  let a4 := bxor (w 4) (a3.map sub)
  let a5 := bxor (w 5) a4
  let a6 := bxor (w 6) a5
  [a0, a1, a2, a3, a4, a5, a6, bxor (w 7) a6]

/-- Cuts a list into pieces of `n`, at most `k` of them. -/
def chunks {α : Type} (n : Nat) : Nat → List α → List (List α)
  | 0, _ => []
  | k + 1, l => l.take n :: chunks n k (l.drop n)

/-- The fifteen round keys of a 32-byte key, 16 bytes each. -/
def schedule (key : List Nat) : List (List Nat) :=
  let k0 := chunks 4 8 key
  let words := (rcon.foldl (fun (acc : List (List Nat) × List (List Nat)) rc =>
    let k := expandStep acc.2 rc
    (acc.1 ++ k, k)) (k0, k0)).1
  (List.range 15).map (fun r => ((words.drop (4 * r)).take 4).flatten)

/-- ShiftRows and its inverse on the 16-byte state, column by column. -/
def shiftRows (s : List Nat) : List Nat := (List.range 16).map (fun i => s.getD ((i + 4 * (i % 4)) % 16) 0)
def unshiftRows (s : List Nat) : List Nat := (List.range 16).map (fun i => s.getD ((i + 16 - 4 * (i % 4)) % 16) 0)

/-- MixColumns with a row of coefficients. -/
def mixWith (c : List Nat) (s : List Nat) : List Nat :=
  (List.range 16).map (fun i => (List.range 4).foldl (fun a j =>
    Nat.xor a (mul (s.getD (4 * (i / 4) + j) 0) (c.getD ((j + 4 - i % 4) % 4) 0))) 0)

/-- AES-256 of one block under round keys. -/
def encWith (ks : List (List Nat)) (b : List Nat) : List Nat :=
  let s := (List.range 13).foldl (fun s r =>
    bxor (mixWith [2, 3, 1, 1] (shiftRows (s.map sub))) (ks.getD (r + 1) [])) (bxor b (ks.getD 0 []))
  bxor (shiftRows (s.map sub)) (ks.getD 14 [])

/-- Inverse AES-256 of one block under round keys. -/
def decWith (ks : List (List Nat)) (b : List Nat) : List Nat :=
  let s := (List.range 13).foldl (fun s r =>
    mixWith [14, 11, 13, 9] (bxor ((unshiftRows s).map unsub) (ks.getD (13 - r) []))) (bxor b (ks.getD 14 []))
  bxor ((unshiftRows s).map unsub) (ks.getD 0 [])

/-- A 256-bit key as its 32 bytes, byte 0 the lowest byte of the number. -/
def keyBytes (k : BitVec 256) : List Nat := (leBytes 32 k.toNat).map (·.toNat)

/-- A 128-bit value as a block, most significant byte first. -/
def block128 (n : Nat) : List Nat := (List.range 16).map (fun i => n >>> (8 * (15 - i)) % 256)

/-- The value of a byte string, most significant byte first. -/
def value (b : List Nat) : Nat := b.foldl (fun a x => 256 * a + x) 0

/-- Doubling of a block in GF(2^128) as CMAC has it. -/
def dbl (b : List Nat) : List Nat :=
  let n := value b
  block128 (Nat.xor (2 * n % 2 ^ 128) (if nbit n 127 then 0x87 else 0))

/-- AES-CMAC of a byte string (NIST SP 800-38B). -/
def cmac (key : BitVec 256) (m : List Nat) : List Nat :=
  let ks := schedule (keyBytes key)
  let k1 := dbl (encWith ks (List.replicate 16 0))
  let n := if m.isEmpty then 1 else (m.length + 15) / 16
  let whole := !m.isEmpty && m.length % 16 == 0
  let last := m.drop (16 * (n - 1))
  let tail := if whole then bxor last k1
    else bxor (last ++ [0x80] ++ List.replicate (15 - last.length) 0) (dbl k1)
  encWith ks (bxor (((chunks 16 (n - 1) m).foldl (fun x b => encWith ks (bxor x b)) (List.replicate 16 0))) tail)

/-- The first 64 bits of a CMAC (R286, R294), its first byte in bits [7:0]. -/
def mac64 (key : BitVec 256) (m : List Nat) : BitVec 64 :=
  BitVec.ofNat 64 (ofLeBytes (((cmac key m).take 8).map (BitVec.ofNat 8)))

/-- The 64-byte keystream of a line in counter mode (R286). -/
def keystream (key : BitVec 256) (line major minor : Nat) : List Nat :=
  let ks := schedule (keyBytes key)
  (List.range 4).flatMap (fun j =>
    encWith ks (block128 (major * 2 ^ 64 + minor % 128 * 2 ^ 57 + line % 2 ^ 29 * 2 ^ 28 + j * 2 ^ 26)))

/-- Multiplication of an XTS tweak by alpha: the block is a number with its first byte lowest. -/
def xtsAlpha (t : List Nat) : List Nat :=
  let n := t.foldr (fun x a => 256 * a + x) 0
  let d := Nat.xor (2 * n % 2 ^ 128) (if nbit n 127 then 0x87 else 0)
  (List.range 16).map (fun i => d >>> (8 * i) % 256)

/-- XTS-AES-256 over one 64-byte line (R285). -/
def xtsLine (dec : Bool) (data mac : BitVec 256) (line : Nat) (b : List Nat) : List Nat :=
  let k1 := schedule (keyBytes data)
  let t0 := encWith (schedule (keyBytes mac)) ((leBytes 16 line).map (·.toNat))
  ((chunks 16 4 b).foldl (fun (acc : List Nat × List Nat) p =>
    let x := bxor p acc.2
    (acc.1 ++ bxor (if dec then decWith k1 x else encWith k1 x) acc.2, xtsAlpha acc.2)) ([], t0)).1

/-- One step of key unwrapping (NIST SP 800-38F, KW): A and the n registers. -/
def unwrapStep (ks : List (List Nat)) (n : Nat) (acc : List Nat × List (List Nat)) (t : Nat) : List Nat × List (List Nat) :=
  let i := (t - 1) % n
  let a := bxor acc.1 ((List.range 8).map (fun k => t >>> (8 * (7 - k)) % 256))
  let b := decWith ks (a ++ acc.2.getD i [])
  (b.take 8, acc.2.set i (b.drop 8))

/-- Unwraps a wrapped key of n 8-byte registers after the integrity register; none where the check fails. -/
def unwrap (kek : BitVec 256) (c : List Nat) : Option (List Nat) :=
  let n := c.length / 8 - 1
  let r := (List.range (6 * n)).foldl (fun acc k => unwrapStep (schedule (keyBytes kek)) n acc (6 * n - k))
    (c.take 8, chunks 8 n (c.drop 8))
  if r.1 == List.replicate 8 0xA6 then some r.2.flatten else none

/-- Multiplication in GF(2^128) as GHASH has it: bit 127 of a value is its first bit. -/
def ghMul (x y : Nat) : Nat :=
  ((List.range 128).foldl (fun (acc : Nat × Nat) i =>
    let z := if nbit x (127 - i) then Nat.xor acc.1 acc.2 else acc.1
    (z, if nbit acc.2 0 then Nat.xor (acc.2 / 2) (0xE1 * 2 ^ 120) else acc.2 / 2)) (0, y)).1

/-- Zero padding to whole blocks. -/
def padBlocks (m : List Nat) : List Nat := m ++ List.replicate ((16 - m.length % 16) % 16) 0

/-- AES-256-GCM encryption (NIST SP 800-38D): ciphertext, and the 128-bit tag over it. In decryption the ciphertext is given. -/
def gcm (key : BitVec 256) (iv aad m : List Nat) (dec : Bool) : List Nat × List Nat :=
  let ks := schedule (keyBytes key)
  let h := value (encWith ks (List.replicate 16 0))
  let n := (m.length + 15) / 16
  let stream := (List.range n).flatMap (fun k => encWith ks (iv ++ (block128 (k + 2)).drop 12))
  let out := bxor m (stream.take m.length)
  let c := if dec then m else out
  let x := padBlocks aad ++ padBlocks c ++ block128 (8 * aad.length * 2 ^ 64 + 8 * c.length)
  let s := (chunks 16 (x.length / 16) x).foldl (fun y b => ghMul (Nat.xor y (value b)) h) 0
  (out, bxor (block128 s) (encWith ks (iv ++ [0, 0, 0, 1])))

end Sys2Proof.Machine.Aes
end

