-- ==== Sys2Proof/Machine/Codes.lean ====
section
/-! DEFINITION. Machine/Codes.lean: the codes that stand beside data: the (72,64) code of R175, cyclic redundancy checks,
the Reed–Solomon line code of R259. -/

namespace Sys2Proof.Machine

/-- Columns of the check matrix for data bits 0 to 63 (R175). -/
def secColumns : List (BitVec 8) :=
  [0x07, 0x0B, 0x13, 0x23, 0x43, 0x83, 0x0D, 0x15, 0x25, 0x45, 0x85, 0x19, 0x29, 0x49, 0x89, 0x31] ++
  [0x51, 0x91, 0x61, 0xA1, 0xC1, 0x0E, 0x16, 0x26, 0x46, 0x86, 0x1A, 0x2A, 0x4A, 0x8A, 0x32, 0x52] ++
  [0x92, 0x62, 0xA2, 0xC2, 0x1C, 0x2C, 0x4C, 0x8C, 0x34, 0x54, 0x94, 0x64, 0xA4, 0xC4, 0x38, 0x58] ++
  [0x98, 0x68, 0xA8, 0xC8, 0x70, 0xB0, 0xD0, 0xE0, 0x1F, 0x2F, 0x4F, 0x8F, 0x37, 0x57, 0x97, 0x67]

/-- Exclusive-or of the low n bits of a number. -/
def parityOf : Nat → Nat → Bool
  | 0, _ => false
  | n + 1, x => (x % 2 == 1) != parityOf n (x / 2)

/-- The check byte of a data word (R175). -/
def secCheck (d : DWord) : Byte :=
  ((List.range 64).zip secColumns).foldl (fun c (i, col) => if d.getLsbD i then c ^^^ col else c) 0

/-- What a decoder of the (72,64) code finds (R175): nothing, one bit (0 to 63 data, 64 to 71 check), or an uncorrectable
error. -/
inductive Decoded where
  | clean
  | bit (i : Nat)
  | uncorr
  deriving DecidableEq, Repr

/-- Decodes a syndrome (R175). -/
def secDecode (syn : Byte) : Decoded :=
  if syn = 0 then .clean
  else match secColumns.findIdx? (· == syn) with
    | some i => .bit i
    | none => match (List.range 8).find? (fun k => syn == BitVec.ofNat 8 (2 ^ k)) with
      | some k => .bit (64 + k)
      | none => .uncorr

/-- The syndrome that an error pattern makes (bits 0 to 63 data, 64 to 71 check): the code is linear, so the syndrome of a
stored word depends on its errors alone. -/
def secSyndrome (e : BitVec 72) : Byte := secCheck (e.extractLsb' 0 64) ^^^ e.extractLsb' 64 8

/-- The syndrome of the poison word (R175). -/
def poisonSyn : Byte := 0xFF

/-- One bit into a cyclic redundancy check of width n, most significant bit first. -/
def crcBit (n poly acc : Nat) (b : Bool) : Nat :=
  let top := nbit acc (n - 1) != b
  let sh := (2 * acc) % 2 ^ n
  if top then Nat.xor sh poly else sh

/-- Bytes into a cyclic redundancy check, each most significant bit first. -/
def crcBytes (n poly acc : Nat) (bs : List Byte) : Nat :=
  bs.foldl (fun a b => (List.range 8).foldl (fun a i => crcBit n poly a (b.getLsbD (7 - i))) a) acc

/-- The CRC-8 of the Daminaosh wire (R499). -/
def crc8 (bs : List Byte) : Byte := BitVec.ofNat 8 (crcBytes 8 0x07 0xFF bs)

/-- Multiplication in GF(2^8) with x^8 + x^4 + x^3 + x^2 + 1 (R259): Horner over the bits of b. -/
def gfMul (a b : Nat) : Nat :=
  (List.range 8).foldl (fun r i =>
    let d := if nbit r 7 then Nat.xor (2 * r % 256) 0x1D else 2 * r
    if nbit b (7 - i) then Nat.xor d a else d) 0

/-- Powers of the root alpha = 2. -/
def gfPow : Nat → Nat
  | 0 => 1
  | n + 1 => gfMul (gfPow n) 2

/-- The four syndromes of 68 symbols, symbol 0 first (R259): the code word is the polynomial whose highest coefficient is
symbol 0. Syndrome j is its value at alpha^j. -/
def rsSyndromes (sym : List Byte) : List Nat :=
  (List.range 4).map (fun j => sym.foldl (fun a b => Nat.xor (gfMul a (gfPow j)) b.toNat) 0)

/-- The coefficients of the generator polynomial below its leading one, highest first: product of (x + alpha^i), i = 0 to 3
(R259). -/
def rsGen : List Nat :=
  ((List.range 4).foldl (fun g i =>
    List.zipWith Nat.xor (g ++ [0]) (0 :: g.map (fun c => gfMul c (gfPow i)))) [1]).tail

/-- The four check bytes of 64 data bytes (R259): the remainder of division by the generator, check symbol 0 first. -/
def rsCheck (data : List Byte) : List Byte :=
  (data.foldl (fun (r : List Nat) b =>
    let f := Nat.xor b.toNat (r.headD 0)
    List.zipWith Nat.xor (r.tail ++ [0]) (rsGen.map (gfMul f))) [0, 0, 0, 0]).map (BitVec.ofNat 8)

/-- What the decoder of a line finds (R259): nothing, corrected symbols with their error values, or an uncorrectable line. -/
inductive RsResult where
  | clean
  | fix (errs : List (Nat × Nat))
  | uncorr
  deriving DecidableEq, Repr

/-- Discrete logarithm: the least n below 255 with alpha^n = x. -/
def gfLog (x : Nat) : Option Nat := (List.range 255).find? (fun n => gfPow n == x)

/-- Inverse in the field: x^254. -/
def gfInv (x : Nat) : Nat := (List.range 253).foldl (fun a _ => gfMul a x) x

/-- One error in symbol p with value v makes these syndromes (symbol p is the coefficient of x^(67 - p)). -/
def rsOne (p v : Nat) : List Nat := (List.range 4).map (fun j => gfMul v (gfPow (j * (67 - p) % 255)))

/-- The single-symbol error that explains the syndromes, if any. -/
def rsSingle (syn : List Nat) : Option (Nat × Nat) :=
  (List.range 68).findSome? (fun p => if rsOne p (syn.headD 0) == syn && syn.headD 0 != 0 then some (p, syn.headD 0) else none)

/-- The two-symbol error that explains the syndromes, if any: for positions p < q with locators X and Y, the values solve
v + w = S0 and vX + wY = S1. -/
def rsDouble (syn : List Nat) : Option (List (Nat × Nat)) :=
  (List.range 68).findSome? (fun p => (List.range p).findSome? (fun q =>
    let x := gfPow (67 - p)
    let y := gfPow (67 - q)
    let s0 := syn.getD 0 0
    let s1 := syn.getD 1 0
    let w := gfMul (Nat.xor s1 (gfMul s0 x)) (gfInv (Nat.xor x y))
    let v := Nat.xor s0 w
    if v != 0 && w != 0 && List.zipWith Nat.xor (rsOne p v) (rsOne q w) == syn then some [(p, v), (q, w)] else none))

/-- Decodes a line of 68 symbols in an ECC_MODE: 0 C2, 1 C1D3, 2 D4 (R259). -/
def rsDecode (mode : Nat) (sym : List Byte) : RsResult :=
  let syn := rsSyndromes sym
  if syn.all (· == 0) then .clean
  else if mode = 2 then .uncorr
  else match rsSingle syn with
    | some e => .fix [e]
    | none =>
      if mode = 0 then (match rsDouble syn with
        | some es => .fix es
        | none => .uncorr)
      else .uncorr

end Sys2Proof.Machine
end

