-- ==== Sys2Proof/Config.lean ====
section
/-! DEFINITION. Config.lean: the free values: constants without a body, so that no proof can see what they are. Each is
applied to what it depends on, or to the counter `State.free`, which every use advances. -/

namespace Sys2Proof.Config

/-- A register bit pattern that the spec leaves undefined: row registers after reset and after Slack (R119). -/
opaque freeRow : (epoch key : Nat) → BitVec 2304

/-- The carry out of a grain that is not in ARITH mode, at a device tick (R94 defines it for ARITH only). -/
opaque freeCarry : (tick dune grain : Nat) → Bool

/-- Output of the random number generator: the n-th draw (R433). -/
opaque drbg : (draw : Nat) → BitVec 256

/-- Whether an ML-DSA-65 signature verifies: public key, message, signature (R397, R437). -/
opaque mldsaVerify : (pk msg sig : List (BitVec 8)) → Bool

/-- The ML-DSA-65 signature, 3,309 bytes, that the identity key makes over a message with a draw of the generator
(R443): byte k. -/
opaque mldsaSign : (life : Nat) → (msg : List (BitVec 8)) → (draw k : Nat) → BitVec 8

/-- The vendor's fixed public keys (R428, R437): vendor test key 0, vendor image key 1, vendor session key 2: byte k. -/
opaque vendorKey : (which k : Nat) → BitVec 8

/-- The identity public key in a life-cycle state (R432): byte k. -/
opaque identityKey : (life k : Nat) → BitVec 8

/-- The vendor's signature over the identity public key and the serial (R442): byte k. -/
opaque identityCert : (life k : Nat) → BitVec 8

/-- The frame that the test engine writes into plane 7 of a dune for a FABRIC slice (R524): the spec gives no pattern. -/
opaque testFrame : (dune : Nat) → Nat

/-- The set of a metadata cache, one of 1,024, that a line belongs to (R277): the spec gives no indexing. -/
opaque cacheSet : (line : Nat) → Nat

/-- The DQ lane of its channel, 0 to 7, that carries a bit of the training FIFO (R275): the order is the memory standard's. -/
opaque fifoLane : (bit : Nat) → Nat

/-- A free word for a value the spec leaves open: the n-th use. -/
opaque freeWord : (use : Nat) → BitVec 64

/-- A free choice the spec leaves open: the n-th use. -/
opaque freeBool : (use : Nat) → Bool

end Sys2Proof.Config
end

