-- ==== Sys2Proof/Machine/RegTypes.lean ====
section
/-! DEFINITION. Machine/RegTypes.lean: what a register table of spec/ says of a register: access codes (R4), reset
domains (R7), fields, and the kinds of register block with the block index table of R217. -/

namespace Sys2Proof.Machine

/-- The kinds of register block (the block index table of R217). -/
inductive BlkKind where
  | lh | clk | pwr | thm | cfg | sec | tide | dbg | hn | adm | mce | pcie | eth | csp | lgt | dmc | cw | jp | erg
  | hold | bist | scrb | wdg
  deriving DecidableEq, Repr

/-- Access codes (R4). -/
inductive Acc where
  | ro | rw | wo | w1c | w1s | rwl
  deriving DecidableEq, Repr

/-- Reset domains (R7). -/
inductive Dom where
  | full | isl | moor
  deriving DecidableEq, Repr

/-- A field of a register table: lowest bit, width, access code, reset value. -/
structure FieldDef where
  lo : Nat
  w : Nat
  acc : Acc
  reset : Nat
  deriving DecidableEq, Repr

/-- A register, or an array of `count` registers `stride` bytes apart. `first`: only the first block of the kind has
it (a monitor that stands in HOLD0 alone). -/
structure RegDef where
  name : String
  off : Nat
  stride : Nat
  count : Nat
  dom : Dom
  first : Bool
  fields : List FieldDef
  deriving DecidableEq, Repr

/-- A field by its place: offset of its register in the block, lowest bit, width. -/
structure Fld where
  off : Nat
  lo : Nat
  w : Nat
  deriving DecidableEq, Repr

/-- Block index of the first block of a kind: BLK_ID.KIND (R8). -/
def BlkKind.base : BlkKind → Nat
  | .lh => 0x00 | .clk => 0x01 | .pwr => 0x02 | .thm => 0x03 | .cfg => 0x04 | .sec => 0x05 | .tide => 0x06
  | .dbg => 0x07 | .hn => 0x08 | .adm => 0x09 | .mce => 0x0A | .pcie => 0x0C | .eth => 0x0D | .csp => 0x0E
  | .lgt => 0x0F | .dmc => 0x10 | .cw => 0x18 | .jp => 0x28 | .erg => 0x30 | .hold => 0x50 | .bist => 0x58
  | .scrb => 0x59 | .wdg => 0x5A

/-- The kind of block index `b`; none where the index table has no block (R217). -/
def blkKind (b : Nat) : Option BlkKind :=
  if b < 0x10 then
    match b with
    | 0 => some .lh | 1 => some .clk | 2 => some .pwr | 3 => some .thm | 4 => some .cfg | 5 => some .sec
    | 6 => some .tide | 7 => some .dbg | 8 => some .hn | 9 => some .adm | 10 => some .mce | 12 => some .pcie
    | 13 => some .eth | 14 => some .csp | 15 => some .lgt | _ => none
  else if b < 0x18 then some .dmc
  else if b < 0x28 then some .cw
  else if b < 0x30 then some .jp
  else if b < 0x50 then some .erg
  else if b < 0x58 then some .hold
  else if b = 0x58 then some .bist
  else if b = 0x59 then some .scrb
  else if b = 0x5A then some .wdg
  else none

/-- Whether the blocks of a kind keep stored-data codes and so have the ECC_FLIP registers (R14). -/
def BlkKind.flips : BlkKind → Bool
  | .dmc | .hold | .mce | .scrb => true
  | _ => false

/-- FREEZE_MODE at reset: 1 is STOP (the freeze table of "Daminaosh Wire Debug and Run Control"). -/
def BlkKind.freezeReset : BlkKind → Nat
  | .tide | .erg | .lgt | .bist | .wdg => 1
  | _ => 0

/-- Whether FREEZE_MODE of the block can be written (the freeze table, R9). -/
def BlkKind.freezeWritable : BlkKind → Bool
  | .cfg | .pcie | .csp | .lgt | .hold | .bist | .scrb | .wdg => true
  | _ => false

end Sys2Proof.Machine
end

