-- ==== Sys2Proof/Machine/RegTable.lean ====
section
/-! DEFINITION. Machine/RegTable.lean: every register of the register window, from the register tables of spec/
(the header of R8; R46, R89, R141, R170, R209, R252, R278, R312, R343, R366, R390, R425, R448, R469, R495, R518, R540):
offset within its block, stride and count of an array, reset domain (R7), and of each field the place, the access code
(R4) and the reset value. Reserved bits are the bits no field covers (R5). `O` holds the offsets, `F` the fields.
Reset values that the spec gives only as a range or per device are the choices of notes/assumptions/3.md. -/

namespace Sys2Proof.Machine

/-- BLK_ID of R8. -/
def O.BLK_ID : Nat := 0x0000
def F.BLK_ID_INDEX : Fld := ⟨0x0000, 0, 8⟩
def F.BLK_ID_BLK_REV : Fld := ⟨0x0000, 8, 8⟩
def F.BLK_ID_KIND : Fld := ⟨0x0000, 16, 8⟩
def F.BLK_ID_FAMILY : Fld := ⟨0x0000, 24, 8⟩
/-- BLK_CTRL of R8. -/
def O.BLK_CTRL : Nat := 0x0004
def F.BLK_CTRL_IRQ_EN : Fld := ⟨0x0004, 0, 1⟩
def F.BLK_CTRL_REFUSE_CLR : Fld := ⟨0x0004, 1, 1⟩
def F.BLK_CTRL_BLK_OPT : Fld := ⟨0x0004, 8, 8⟩
def F.BLK_CTRL_LOCK : Fld := ⟨0x0004, 31, 1⟩
/-- BLK_STATUS of R8. -/
def O.BLK_STATUS : Nat := 0x0008
def F.BLK_STATUS_LAST_STATUS : Fld := ⟨0x0008, 0, 4⟩
def F.BLK_STATUS_BUSY : Fld := ⟨0x0008, 4, 1⟩
def F.BLK_STATUS_REFUSE_CNT : Fld := ⟨0x0008, 16, 16⟩
/-- BLK_FREEZE of R8. -/
def O.BLK_FREEZE : Nat := 0x000C
def F.BLK_FREEZE_FREEZE_MODE : Fld := ⟨0x000C, 0, 2⟩
/-- EVT_STATUS of R9. -/
def O.EVT_STATUS : Nat := 0x0010
def F.EVT_STATUS_EVT : Fld := ⟨0x0010, 0, 31⟩
def F.EVT_STATUS_C_OVF : Fld := ⟨0x0010, 31, 1⟩
/-- EVT_ENABLE of R9. -/
def O.EVT_ENABLE : Nat := 0x0014
def F.EVT_ENABLE_EN : Fld := ⟨0x0014, 0, 32⟩
/-- EVT_FORCE of R9. -/
def O.EVT_FORCE : Nat := 0x0018
def F.EVT_FORCE_FORCE : Fld := ⟨0x0018, 0, 32⟩
/-- EVT_BUCKET of R9. -/
def O.EVT_BUCKET : Nat := 0x001C
def F.EVT_BUCKET_LEVEL : Fld := ⟨0x001C, 0, 12⟩
def F.EVT_BUCKET_THRESH : Fld := ⟨0x001C, 12, 12⟩
def F.EVT_BUCKET_LEAK : Fld := ⟨0x001C, 24, 4⟩
/-- ECC_FLIP_LO of R9. -/
def O.ECC_FLIP_LO : Nat := 0x0020
def F.ECC_FLIP_LO_FLIP_LO : Fld := ⟨0x0020, 0, 32⟩
/-- ECC_FLIP_HI of R9. -/
def O.ECC_FLIP_HI : Nat := 0x0024
def F.ECC_FLIP_HI_FLIP_HI : Fld := ⟨0x0024, 0, 32⟩
/-- STK_BUNDLE_SEL of R46. -/
def O.STK_BUNDLE_SEL : Nat := 0x0800
def F.STK_BUNDLE_SEL_ID : Fld := ⟨0x0800, 0, 26⟩
/-- STK_BUNDLE_LANES of R46. -/
def O.STK_BUNDLE_LANES : Nat := 0x0804
def F.STK_BUNDLE_LANES_LANE0 : Fld := ⟨0x0804, 0, 7⟩
def F.STK_BUNDLE_LANES_V0 : Fld := ⟨0x0804, 7, 1⟩
def F.STK_BUNDLE_LANES_LANE1 : Fld := ⟨0x0804, 8, 7⟩
def F.STK_BUNDLE_LANES_V1 : Fld := ⟨0x0804, 15, 1⟩
def F.STK_BUNDLE_LANES_LANE2 : Fld := ⟨0x0804, 16, 7⟩
def F.STK_BUNDLE_LANES_V2 : Fld := ⟨0x0804, 23, 1⟩
def F.STK_BUNDLE_LANES_LANE3 : Fld := ⟨0x0804, 24, 7⟩
def F.STK_BUNDLE_LANES_V3 : Fld := ⟨0x0804, 31, 1⟩
/-- STK_BUNDLE_STATE of R46. -/
def O.STK_BUNDLE_STATE : Nat := 0x0808
def F.STK_BUNDLE_STATE_SPARES_FREE : Fld := ⟨0x0808, 0, 3⟩
def F.STK_BUNDLE_STATE_SENTINEL_ON : Fld := ⟨0x0808, 3, 1⟩
def F.STK_BUNDLE_STATE_SUSPECT : Fld := ⟨0x0808, 4, 1⟩
def F.STK_BUNDLE_STATE_EXHAUSTED : Fld := ⟨0x0808, 5, 1⟩
def F.STK_BUNDLE_STATE_PENDING : Fld := ⟨0x0808, 6, 1⟩
def F.STK_BUNDLE_STATE_SENTINEL_MISS : Fld := ⟨0x0808, 16, 16⟩
/-- STK_SUMMARY of R46. -/
def O.STK_SUMMARY : Nat := 0x080C
def F.STK_SUMMARY_STEERED : Fld := ⟨0x080C, 0, 16⟩
def F.STK_SUMMARY_THIN_CNT : Fld := ⟨0x080C, 16, 12⟩
/-- STK_SHOAL_CMD of R46. -/
def O.STK_SHOAL_CMD : Nat := 0x0810
def F.STK_SHOAL_CMD_OP : Fld := ⟨0x0810, 0, 2⟩
def F.STK_SHOAL_CMD_INDEX : Fld := ⟨0x0810, 16, 13⟩
/-- STK_SHOAL_ENTRY_LO of R46. -/
def O.STK_SHOAL_ENTRY_LO : Nat := 0x0814
def F.STK_SHOAL_ENTRY_LO_LO : Fld := ⟨0x0814, 0, 32⟩
/-- STK_SHOAL_ENTRY_HI of R46. -/
def O.STK_SHOAL_ENTRY_HI : Nat := 0x0818
def F.STK_SHOAL_ENTRY_HI_HI : Fld := ⟨0x0818, 0, 32⟩
/-- STK_SHOAL_STAT of R46. -/
def O.STK_SHOAL_STAT : Nat := 0x081C
def F.STK_SHOAL_STAT_COUNT : Fld := ⟨0x081C, 0, 13⟩
def F.STK_SHOAL_STAT_NV_RO : Fld := ⟨0x081C, 13, 1⟩
def F.STK_SHOAL_STAT_SHOAL_LOST : Fld := ⟨0x081C, 14, 1⟩
def F.STK_SHOAL_STAT_REMAP_LOST : Fld := ⟨0x081C, 15, 1⟩
def F.STK_SHOAL_STAT_PERSISTED : Fld := ⟨0x081C, 16, 13⟩
/-- TIDE_CTRL of R89. -/
def O.TIDE_CTRL : Nat := 0x0100
def F.TIDE_CTRL_CMD : Fld := ⟨0x0100, 0, 2⟩
def F.TIDE_CTRL_BREACH_CLR : Fld := ⟨0x0100, 2, 1⟩
def F.TIDE_CTRL_MASTER : Fld := ⟨0x0100, 8, 1⟩
def F.TIDE_CTRL_FOLLOW : Fld := ⟨0x0100, 9, 1⟩
/-- TIDE_LEN of R89. -/
def O.TIDE_LEN : Nat := 0x0104
def F.TIDE_LEN_LEN : Fld := ⟨0x0104, 0, 17⟩
/-- TIDE_NUM_LO of R89. -/
def O.TIDE_NUM_LO : Nat := 0x0108
def F.TIDE_NUM_LO_NUM_LO : Fld := ⟨0x0108, 0, 32⟩
/-- TIDE_NUM_HI of R89. -/
def O.TIDE_NUM_HI : Nat := 0x010C
def F.TIDE_NUM_HI_NUM_HI : Fld := ⟨0x010C, 0, 32⟩
/-- TIDE_START_LO of R89. -/
def O.TIDE_START_LO : Nat := 0x0110
def F.TIDE_START_LO_START_LO : Fld := ⟨0x0110, 0, 32⟩
/-- TIDE_START_HI of R89. -/
def O.TIDE_START_HI : Nat := 0x0114
def F.TIDE_START_HI_START_HI : Fld := ⟨0x0114, 0, 32⟩
/-- TURN_TIME_LO of R89. -/
def O.TURN_TIME_LO : Nat := 0x0118
def F.TURN_TIME_LO_TIME_LO : Fld := ⟨0x0118, 0, 32⟩
/-- TURN_TIME_HI of R89. -/
def O.TURN_TIME_HI : Nat := 0x011C
def F.TURN_TIME_HI_TIME_HI : Fld := ⟨0x011C, 0, 32⟩
/-- TIDE_SKEW of R89. -/
def O.TIDE_SKEW : Nat := 0x0120
def F.TIDE_SKEW_SKEW_MAX : Fld := ⟨0x0120, 0, 12⟩
def F.TIDE_SKEW_LINK : Fld := ⟨0x0120, 12, 4⟩
/-- BREACH_POLICY of R89. -/
def O.BREACH_POLICY : Nat := 0x0124
def F.BREACH_POLICY_POLICY : Fld := ⟨0x0124, 0, 2⟩
/-- BREACH_CNT of R89. -/
def O.BREACH_CNT : Nat := 0x0128
def F.BREACH_CNT_COUNT : Fld := ⟨0x0128, 0, 16⟩
def F.BREACH_CNT_XING_SLIP : Fld := ⟨0x0128, 16, 16⟩
/-- BREACH_FIRST0 of R89. -/
def O.BREACH_FIRST0 : Nat := 0x0130
def F.BREACH_FIRST0_CAUSE : Fld := ⟨0x0130, 0, 4⟩
def F.BREACH_FIRST0_ERG : Fld := ⟨0x0130, 4, 5⟩
def F.BREACH_FIRST0_DECL : Fld := ⟨0x0130, 16, 13⟩
/-- BREACH_FIRST1 of R89. -/
def O.BREACH_FIRST1 : Nat := 0x0134
def F.BREACH_FIRST1_TIDE : Fld := ⟨0x0134, 0, 32⟩
/-- BREACH_LAST0 of R89. -/
def O.BREACH_LAST0 : Nat := 0x0138
def F.BREACH_LAST0_LAST0 : Fld := ⟨0x0138, 0, 32⟩
/-- BREACH_LAST1 of R89. -/
def O.BREACH_LAST1 : Nat := 0x013C
def F.BREACH_LAST1_LAST1 : Fld := ⟨0x013C, 0, 32⟩
/-- ADM_RESULT of R89. -/
def O.ADM_RESULT : Nat := 0x0100
def F.ADM_RESULT_STATUS : Fld := ⟨0x0100, 0, 4⟩
def F.ADM_RESULT_REASON : Fld := ⟨0x0100, 4, 4⟩
def F.ADM_RESULT_DECL : Fld := ⟨0x0100, 8, 13⟩
def F.ADM_RESULT_VALID : Fld := ⟨0x0100, 31, 1⟩
/-- ADM_RESOURCE of R89. -/
def O.ADM_RESOURCE : Nat := 0x0104
def F.ADM_RESOURCE_KIND : Fld := ⟨0x0104, 0, 4⟩
def F.ADM_RESOURCE_INDEX : Fld := ⟨0x0104, 4, 13⟩
/-- ADM_RESOURCE_TIDE of R89. -/
def O.ADM_RESOURCE_TIDE : Nat := 0x0110
def F.ADM_RESOURCE_TIDE_TIDE : Fld := ⟨0x0110, 0, 20⟩
/-- ADM_BOUND_SEL of R89. -/
def O.ADM_BOUND_SEL : Nat := 0x0108
def F.ADM_BOUND_SEL_DECL : Fld := ⟨0x0108, 0, 13⟩
/-- ADM_BOUND of R89. -/
def O.ADM_BOUND : Nat := 0x010C
def F.ADM_BOUND_TICKS : Fld := ⟨0x010C, 0, 24⟩
/-- ERG_STATUS of R141. -/
def O.ERG_STATUS : Nat := 0x0100
def F.ERG_STATUS_PLANE : Fld := ⟨0x0100, 0, 3⟩
def F.ERG_STATUS_SCHEDULED : Fld := ⟨0x0100, 3, 1⟩
def F.ERG_STATUS_FENCED : Fld := ⟨0x0100, 4, 1⟩
def F.ERG_STATUS_PENDING : Fld := ⟨0x0100, 5, 1⟩
def F.ERG_STATUS_SLACK : Fld := ⟨0x0100, 6, 1⟩
def F.ERG_STATUS_TRACK_LEN : Fld := ⟨0x0100, 16, 7⟩
/-- ERG_CTRL of R141. -/
def O.ERG_CTRL : Nat := 0x0104
def F.ERG_CTRL_NOTE_THERM : Fld := ⟨0x0104, 0, 1⟩
def F.ERG_CTRL_NOTE_BREACH : Fld := ⟨0x0104, 1, 1⟩
/-- ERG_NOTE_POST of R141. -/
def O.ERG_NOTE_POST : Nat := 0x0108
def F.ERG_NOTE_POST_BERTH : Fld := ⟨0x0108, 0, 4⟩
def F.ERG_NOTE_POST_POST : Fld := ⟨0x0108, 4, 1⟩
/-- ERG_BERTH_SEL of R141. -/
def O.ERG_BERTH_SEL : Nat := 0x010C
def F.ERG_BERTH_SEL_BERTH : Fld := ⟨0x010C, 0, 4⟩
/-- ERG_BERTH_STAT of R141. -/
def O.ERG_BERTH_STAT : Nat := 0x0110
def F.ERG_BERTH_STAT_OUT_CREDITS : Fld := ⟨0x0110, 0, 6⟩
def F.ERG_BERTH_STAT_RQ_CREDITS : Fld := ⟨0x0110, 6, 5⟩
def F.ERG_BERTH_STAT_TAGS_BUSY : Fld := ⟨0x0110, 11, 8⟩
def F.ERG_BERTH_STAT_NOTES_QUEUED : Fld := ⟨0x0110, 19, 3⟩
/-- ERG_BERTH_CNT of R141. -/
def O.ERG_BERTH_CNT : Nat := 0x0114
def F.ERG_BERTH_CNT_PROTO_CNT : Fld := ⟨0x0114, 0, 16⟩
def F.ERG_BERTH_CNT_TIMEOUT_CNT : Fld := ⟨0x0114, 16, 16⟩
/-- ERG_FAULT of R141. -/
def O.ERG_FAULT : Nat := 0x0118
def F.ERG_FAULT_KIND : Fld := ⟨0x0118, 0, 4⟩
def F.ERG_FAULT_BERTH : Fld := ⟨0x0118, 4, 4⟩
def F.ERG_FAULT_TAG : Fld := ⟨0x0118, 8, 3⟩
/-- ERG_PLANE_CMD of R170. -/
def O.ERG_PLANE_CMD : Nat := 0x0200
def F.ERG_PLANE_CMD_OP : Fld := ⟨0x0200, 0, 4⟩
def F.ERG_PLANE_CMD_PLANE : Fld := ⟨0x0200, 4, 3⟩
/-- ERG_PLANE_STATE of R170. -/
def O.ERG_PLANE_STATE : Nat := 0x0204
def F.ERG_PLANE_STATE_P0 : Fld := ⟨0x0204, 0, 4⟩
def F.ERG_PLANE_STATE_P1 : Fld := ⟨0x0204, 4, 4⟩
def F.ERG_PLANE_STATE_P2 : Fld := ⟨0x0204, 8, 4⟩
def F.ERG_PLANE_STATE_P3 : Fld := ⟨0x0204, 12, 4⟩
def F.ERG_PLANE_STATE_P4 : Fld := ⟨0x0204, 16, 4⟩
def F.ERG_PLANE_STATE_P5 : Fld := ⟨0x0204, 20, 4⟩
def F.ERG_PLANE_STATE_P6 : Fld := ⟨0x0204, 24, 4⟩
def F.ERG_PLANE_STATE_P7 : Fld := ⟨0x0204, 28, 4⟩
/-- ERG_PLANE_OWNER_LO of R170. -/
def O.ERG_PLANE_OWNER_LO : Nat := 0x0208
def F.ERG_PLANE_OWNER_LO_OWNER0 : Fld := ⟨0x0208, 0, 8⟩
def F.ERG_PLANE_OWNER_LO_OWNER1 : Fld := ⟨0x0208, 8, 8⟩
def F.ERG_PLANE_OWNER_LO_OWNER2 : Fld := ⟨0x0208, 16, 8⟩
def F.ERG_PLANE_OWNER_LO_OWNER3 : Fld := ⟨0x0208, 24, 8⟩
/-- ERG_PLANE_OWNER_HI of R170. -/
def O.ERG_PLANE_OWNER_HI : Nat := 0x020C
def F.ERG_PLANE_OWNER_HI_OWNER4 : Fld := ⟨0x020C, 0, 8⟩
def F.ERG_PLANE_OWNER_HI_OWNER5 : Fld := ⟨0x020C, 8, 8⟩
def F.ERG_PLANE_OWNER_HI_OWNER6 : Fld := ⟨0x020C, 16, 8⟩
def F.ERG_PLANE_OWNER_HI_OWNER7 : Fld := ⟨0x020C, 24, 8⟩
/-- ERG_ACT of R170. -/
def O.ERG_ACT : Nat := 0x0210
def F.ERG_ACT_PENDING : Fld := ⟨0x0210, 0, 2⟩
def F.ERG_ACT_FENCE_LEFT : Fld := ⟨0x0210, 2, 4⟩
def F.ERG_ACT_CANCEL_CAUSE : Fld := ⟨0x0210, 8, 3⟩
def F.ERG_ACT_ACT_TIDE : Fld := ⟨0x0210, 16, 16⟩
/-- ERG_SWITCH of R170. -/
def O.ERG_SWITCH : Nat := 0x0214
def F.ERG_SWITCH_SW_PER_TIDE : Fld := ⟨0x0214, 0, 7⟩
def F.ERG_SWITCH_ACT_CNT : Fld := ⟨0x0214, 16, 16⟩
/-- PSW_CTRL of R170. -/
def O.PSW_CTRL : Nat := 0x0200
def F.PSW_CTRL_WINDOW : Fld := ⟨0x0200, 0, 16⟩
/-- PSW_LIMIT of R170. -/
def O.PSW_LIMIT : Nat := 0x0204
def F.PSW_LIMIT_LIMIT : Fld := ⟨0x0204, 0, 24⟩
/-- PSW_NOW of R170. -/
def O.PSW_NOW : Nat := 0x0208
def F.PSW_NOW_COUNT : Fld := ⟨0x0208, 0, 24⟩
/-- PSW_MAX of R170. -/
def O.PSW_MAX : Nat := 0x020C
def F.PSW_MAX_MAX : Fld := ⟨0x020C, 0, 24⟩
def F.PSW_MAX_OVER_CNT : Fld := ⟨0x020C, 24, 8⟩
/-- HOLD_CFG of R209. -/
def O.HOLD_CFG : Nat := 0x0100
def F.HOLD_CFG_PACE : Fld := ⟨0x0100, 0, 4⟩
/-- HOLD_ERR_ADDR of R209. -/
def O.HOLD_ERR_ADDR : Nat := 0x0104
def F.HOLD_ERR_ADDR_WORD_INDEX : Fld := ⟨0x0104, 0, 27⟩
/-- HOLD_ERR_INFO of R209. -/
def O.HOLD_ERR_INFO : Nat := 0x0108
def F.HOLD_ERR_INFO_SYNDROME : Fld := ⟨0x0108, 0, 8⟩
def F.HOLD_ERR_INFO_SOURCE : Fld := ⟨0x0108, 8, 4⟩
def F.HOLD_ERR_INFO_UNCORR_CNT : Fld := ⟨0x0108, 16, 16⟩
/-- HOLD_HL_CNT of R209. -/
def O.HOLD_HL_CNT : Nat := 0x010C
def F.HOLD_HL_CNT_PACE_CNT : Fld := ⟨0x010C, 0, 16⟩
def F.HOLD_HL_CNT_DROP_CNT : Fld := ⟨0x010C, 16, 16⟩
/-- HOLD_REMAP_CMD of R209. -/
def O.HOLD_REMAP_CMD : Nat := 0x0110
def F.HOLD_REMAP_CMD_OP : Fld := ⟨0x0110, 0, 2⟩
def F.HOLD_REMAP_CMD_ENTRY : Fld := ⟨0x0110, 2, 3⟩
def F.HOLD_REMAP_CMD_BANK : Fld := ⟨0x0110, 16, 10⟩
/-- HOLD_REMAP_ENTRY of R209. -/
def O.HOLD_REMAP_ENTRY : Nat := 0x0114
def F.HOLD_REMAP_ENTRY_ROW : Fld := ⟨0x0114, 0, 9⟩
def F.HOLD_REMAP_ENTRY_WORD : Fld := ⟨0x0114, 9, 5⟩
def F.HOLD_REMAP_ENTRY_VALID : Fld := ⟨0x0114, 14, 1⟩
def F.HOLD_REMAP_ENTRY_USED : Fld := ⟨0x0114, 16, 4⟩
/-- HOLD_XFER_WINDOW of R209. -/
def O.HOLD_XFER_WINDOW : Nat := 0x0200
def F.HOLD_XFER_WINDOW_WINDOW : Fld := ⟨0x0200, 0, 16⟩
/-- HOLD_XFER_LIMIT of R209. -/
def O.HOLD_XFER_LIMIT : Nat := 0x0204
def F.HOLD_XFER_LIMIT_LIMIT : Fld := ⟨0x0204, 0, 24⟩
/-- HOLD_XFER_NOW of R209. -/
def O.HOLD_XFER_NOW : Nat := 0x0208
def F.HOLD_XFER_NOW_COUNT : Fld := ⟨0x0208, 0, 24⟩
/-- HOLD_XFER_MAX of R209. -/
def O.HOLD_XFER_MAX : Nat := 0x020C
def F.HOLD_XFER_MAX_MAX : Fld := ⟨0x020C, 0, 24⟩
def F.HOLD_XFER_MAX_OVER_CNT : Fld := ⟨0x020C, 24, 8⟩
/-- HOLD_BOND_CMD of R209. -/
def O.HOLD_BOND_CMD : Nat := 0x0300
def F.HOLD_BOND_CMD_OP : Fld := ⟨0x0300, 0, 2⟩
def F.HOLD_BOND_CMD_ERG_A : Fld := ⟨0x0300, 2, 5⟩
def F.HOLD_BOND_CMD_EN_A : Fld := ⟨0x0300, 7, 1⟩
def F.HOLD_BOND_CMD_ERG_B : Fld := ⟨0x0300, 8, 5⟩
def F.HOLD_BOND_CMD_EN_B : Fld := ⟨0x0300, 13, 1⟩
/-- HOLD_BOND_STAT of R209. -/
def O.HOLD_BOND_STAT : Nat := 0x0304
def F.HOLD_BOND_STAT_ERG_A : Fld := ⟨0x0304, 0, 5⟩
def F.HOLD_BOND_STAT_EN_A : Fld := ⟨0x0304, 5, 1⟩
def F.HOLD_BOND_STAT_ERG_B : Fld := ⟨0x0304, 6, 5⟩
def F.HOLD_BOND_STAT_EN_B : Fld := ⟨0x0304, 11, 1⟩
def F.HOLD_BOND_STAT_WIPING : Fld := ⟨0x0304, 12, 1⟩
def F.HOLD_BOND_STAT_WIPE_CNT : Fld := ⟨0x0304, 16, 16⟩
/-- SCRB_CMD of R209. -/
def O.SCRB_CMD : Nat := 0x0100
def F.SCRB_CMD_OP : Fld := ⟨0x0100, 0, 2⟩
/-- SCRB_START of R209. -/
def O.SCRB_START : Nat := 0x0104
def F.SCRB_START_ROW : Fld := ⟨0x0104, 0, 22⟩
/-- SCRB_ROWS of R209. -/
def O.SCRB_ROWS : Nat := 0x0108
def F.SCRB_ROWS_COUNT : Fld := ⟨0x0108, 0, 23⟩
/-- SCRB_CORR of R209. -/
def O.SCRB_CORR : Nat := 0x010C
def F.SCRB_CORR_CORR : Fld := ⟨0x010C, 0, 32⟩
/-- SCRB_UNCORR of R209. -/
def O.SCRB_UNCORR : Nat := 0x0110
def F.SCRB_UNCORR_UNCORR : Fld := ⟨0x0110, 0, 16⟩
def F.SCRB_UNCORR_SKIPPED : Fld := ⟨0x0110, 16, 14⟩
def F.SCRB_UNCORR_ABORTED : Fld := ⟨0x0110, 30, 1⟩
/-- SCRB_FIRST of R209. -/
def O.SCRB_FIRST : Nat := 0x0114
def F.SCRB_FIRST_WORD_INDEX : Fld := ⟨0x0114, 0, 27⟩
def F.SCRB_FIRST_VALID : Fld := ⟨0x0114, 31, 1⟩
/-- SCRB_LAST of R209. -/
def O.SCRB_LAST : Nat := 0x0118
def F.SCRB_LAST_WORD_INDEX : Fld := ⟨0x0118, 0, 27⟩
def F.SCRB_LAST_VALID : Fld := ⟨0x0118, 31, 1⟩
/-- SCRB_IDLE_CTRL of R209. -/
def O.SCRB_IDLE_CTRL : Nat := 0x011C
def F.SCRB_IDLE_CTRL_EN : Fld := ⟨0x011C, 0, 1⟩
/-- SCRB_IDLE_LAP of R209. -/
def O.SCRB_IDLE_LAP : Nat := 0x0120
def F.SCRB_IDLE_LAP_LAP_US : Fld := ⟨0x0120, 0, 32⟩
/-- MARCH_CMD of R209. -/
def O.MARCH_CMD : Nat := 0x0900
def F.MARCH_CMD_OP : Fld := ⟨0x0900, 0, 2⟩
def F.MARCH_CMD_TARGET : Fld := ⟨0x0900, 2, 1⟩
def F.MARCH_CMD_ERG_FIRST : Fld := ⟨0x0900, 3, 5⟩
def F.MARCH_CMD_ERG_LAST : Fld := ⟨0x0900, 8, 5⟩
/-- MARCH_FAIL0 of R209. -/
def O.MARCH_FAIL0 : Nat := 0x0904
def F.MARCH_FAIL0_BANK : Fld := ⟨0x0904, 0, 13⟩
def F.MARCH_FAIL0_ROW : Fld := ⟨0x0904, 13, 10⟩
def F.MARCH_FAIL0_WORD : Fld := ⟨0x0904, 23, 5⟩
/-- MARCH_FAIL1 of R209. -/
def O.MARCH_FAIL1 : Nat := 0x0908
def F.MARCH_FAIL1_BIT : Fld := ⟨0x0908, 0, 7⟩
def F.MARCH_FAIL1_VALID : Fld := ⟨0x0908, 7, 1⟩
def F.MARCH_FAIL1_FAIL_CNT : Fld := ⟨0x0908, 16, 16⟩
/-- HN_ID of R252. -/
def O.HN_ID : Nat := 0x0100
def F.HN_ID_DEVX : Fld := ⟨0x0100, 0, 3⟩
def F.HN_ID_DEVY : Fld := ⟨0x0100, 3, 3⟩
def F.HN_ID_MAXX : Fld := ⟨0x0100, 8, 3⟩
def F.HN_ID_MAXY : Fld := ⟨0x0100, 11, 3⟩
/-- HN_SCH_WAIT of R252. -/
def O.HN_SCH_WAIT : Nat := 0x0104
def F.HN_SCH_WAIT_WLINK : Fld := ⟨0x0104, 0, 8⟩
/-- HN_SCH_MAXWAIT of R252. -/
def O.HN_SCH_MAXWAIT : Nat := 0x0108
def F.HN_SCH_MAXWAIT_MAX : Fld := ⟨0x0108, 0, 8⟩
def F.HN_SCH_MAXWAIT_OVER_CNT : Fld := ⟨0x0108, 16, 16⟩
/-- HN_QG_MISC of R252. -/
def O.HN_QG_MISC : Nat := 0x010C
def F.HN_QG_MISC_HOST : Fld := ⟨0x010C, 0, 4⟩
def F.HN_QG_MISC_LIGHTER : Fld := ⟨0x010C, 4, 4⟩
def F.HN_QG_MISC_SYSTEM : Fld := ⟨0x010C, 8, 4⟩
def F.HN_QG_MISC_WIRE : Fld := ⟨0x010C, 12, 4⟩
/-- HN_TO of R252. -/
def O.HN_TO (n : Nat) : Nat := 0x0110 + 0x4 * n
def F.HN_TO_TIMEOUT (n : Nat) : Fld := ⟨0x0110 + 0x4 * n, 0, 21⟩
/-- HN_ERR_CNT of R252. -/
def O.HN_ERR_CNT : Nat := 0x0130
def F.HN_ERR_CNT_UNCORR_CNT : Fld := ⟨0x0130, 0, 16⟩
def F.HN_ERR_CNT_STALE_CNT : Fld := ⟨0x0130, 16, 16⟩
/-- HN_TO_CNT of R252. -/
def O.HN_TO_CNT : Nat := 0x0134
def F.HN_TO_CNT_TIMEOUT_CNT : Fld := ⟨0x0134, 0, 16⟩
def F.HN_TO_CNT_BUSY_CNT : Fld := ⟨0x0134, 16, 16⟩
/-- HN_MISC_CNT of R252. -/
def O.HN_MISC_CNT : Nat := 0x0138
def F.HN_MISC_CNT_LEASE_EXP_CNT : Fld := ⟨0x0138, 0, 16⟩
def F.HN_MISC_CNT_DROP_CNT : Fld := ⟨0x0138, 16, 16⟩
/-- HN_QG_ERG of R252. -/
def O.HN_QG_ERG (n : Nat) : Nat := 0x0200 + 0x4 * n
def F.HN_QG_ERG_SCH_QG (n : Nat) : Fld := ⟨0x0200 + 0x4 * n, 0, 4⟩
def F.HN_QG_ERG_BE_QG (n : Nat) : Fld := ⟨0x0200 + 0x4 * n, 4, 4⟩
/-- ARB_PRIO_MAP0 of R252. -/
def O.ARB_PRIO_MAP0 : Nat := 0x0400
def F.ARB_PRIO_MAP0_G0 : Fld := ⟨0x0400, 0, 4⟩
def F.ARB_PRIO_MAP0_G1 : Fld := ⟨0x0400, 4, 4⟩
def F.ARB_PRIO_MAP0_G2 : Fld := ⟨0x0400, 8, 4⟩
def F.ARB_PRIO_MAP0_G3 : Fld := ⟨0x0400, 12, 4⟩
def F.ARB_PRIO_MAP0_G4 : Fld := ⟨0x0400, 16, 4⟩
def F.ARB_PRIO_MAP0_G5 : Fld := ⟨0x0400, 20, 4⟩
def F.ARB_PRIO_MAP0_G6 : Fld := ⟨0x0400, 24, 4⟩
def F.ARB_PRIO_MAP0_G7 : Fld := ⟨0x0400, 28, 4⟩
/-- ARB_PRIO_MAP1 of R252. -/
def O.ARB_PRIO_MAP1 : Nat := 0x0404
def F.ARB_PRIO_MAP1_G8 : Fld := ⟨0x0404, 0, 4⟩
def F.ARB_PRIO_MAP1_G9 : Fld := ⟨0x0404, 4, 4⟩
def F.ARB_PRIO_MAP1_G10 : Fld := ⟨0x0404, 8, 4⟩
def F.ARB_PRIO_MAP1_G11 : Fld := ⟨0x0404, 12, 4⟩
def F.ARB_PRIO_MAP1_G12 : Fld := ⟨0x0404, 16, 4⟩
def F.ARB_PRIO_MAP1_G13 : Fld := ⟨0x0404, 20, 4⟩
def F.ARB_PRIO_MAP1_G14 : Fld := ⟨0x0404, 24, 4⟩
def F.ARB_PRIO_MAP1_G15 : Fld := ⟨0x0404, 28, 4⟩
/-- ARB_CFG of R252. -/
def O.ARB_CFG : Nat := 0x0408
def F.ARB_CFG_HOLD_LIM : Fld := ⟨0x0408, 0, 4⟩
def F.ARB_CFG_WIN : Fld := ⟨0x0408, 8, 16⟩
/-- ARB_FLAG of R252. -/
def O.ARB_FLAG : Nat := 0x040C
def F.ARB_FLAG_CUT : Fld := ⟨0x040C, 0, 16⟩
def F.ARB_FLAG_MASKED : Fld := ⟨0x040C, 16, 16⟩
/-- ARB_CUT_CNT of R252. -/
def O.ARB_CUT_CNT : Nat := 0x0410
def F.ARB_CUT_CNT_CUT_CNT : Fld := ⟨0x0410, 0, 16⟩
/-- ARB_QUOTA of R252. -/
def O.ARB_QUOTA (n : Nat) : Nat := 0x0440 + 0x4 * n
def F.ARB_QUOTA_QUOTA (n : Nat) : Fld := ⟨0x0440 + 0x4 * n, 0, 16⟩
def F.ARB_QUOTA_USED (n : Nat) : Fld := ⟨0x0440 + 0x4 * n, 16, 16⟩
/-- DMC_CFG of R278. -/
def O.DMC_CFG : Nat := 0x0100
def F.DMC_CFG_DENSITY : Fld := ⟨0x0100, 0, 2⟩
def F.DMC_CFG_RATE : Fld := ⟨0x0100, 8, 6⟩
def F.DMC_CFG_ECC_MODE : Fld := ⟨0x0100, 16, 2⟩
/-- DMC_CMD of R278. -/
def O.DMC_CMD : Nat := 0x0104
def F.DMC_CMD_OP : Fld := ⟨0x0104, 0, 3⟩
def F.DMC_CMD_MAINT_TIDES : Fld := ⟨0x0104, 8, 8⟩
/-- DMC_MAINT_TIDE of R278. -/
def O.DMC_MAINT_TIDE : Nat := 0x0108
def F.DMC_MAINT_TIDE_TIDE : Fld := ⟨0x0108, 0, 32⟩
/-- DMC_STATE of R278. -/
def O.DMC_STATE : Nat := 0x010C
def F.DMC_STATE_STATE : Fld := ⟨0x010C, 0, 2⟩
def F.DMC_STATE_PENDING : Fld := ⟨0x010C, 2, 1⟩
def F.DMC_STATE_MAINT_LEFT : Fld := ⟨0x010C, 8, 8⟩
def F.DMC_STATE_RD_Q : Fld := ⟨0x010C, 16, 9⟩
/-- DMC_TIMING0 of R278. -/
def O.DMC_TIMING0 : Nat := 0x0200
def F.DMC_TIMING0_TRC : Fld := ⟨0x0200, 0, 8⟩
def F.DMC_TIMING0_TRCD : Fld := ⟨0x0200, 8, 8⟩
def F.DMC_TIMING0_RL : Fld := ⟨0x0200, 16, 8⟩
def F.DMC_TIMING0_TBURST : Fld := ⟨0x0200, 24, 8⟩
/-- DMC_TIMING1 of R278. -/
def O.DMC_TIMING1 : Nat := 0x0204
def F.DMC_TIMING1_TRFCPB : Fld := ⟨0x0204, 0, 8⟩
def F.DMC_TIMING1_TREFIPB : Fld := ⟨0x0204, 8, 16⟩
def F.DMC_TIMING1_REF_2X : Fld := ⟨0x0204, 24, 1⟩
/-- DMC_BOUND0 of R278. -/
def O.DMC_BOUND0 : Nat := 0x0208
def F.DMC_BOUND0_TLINE_PS : Fld := ⟨0x0208, 0, 16⟩
/-- DMC_BOUND1 of R278. -/
def O.DMC_BOUND1 : Nat := 0x020C
def F.DMC_BOUND1_TACC : Fld := ⟨0x020C, 0, 11⟩
def F.DMC_BOUND1_TREF : Fld := ⟨0x020C, 16, 8⟩
def F.DMC_BOUND1_TWACC : Fld := ⟨0x020C, 24, 8⟩
/-- DMC_LANE_SEL of R278. -/
def O.DMC_LANE_SEL : Nat := 0x0300
def F.DMC_LANE_SEL_LANE : Fld := ⟨0x0300, 0, 6⟩
/-- DMC_LANE_CFG of R278. -/
def O.DMC_LANE_CFG : Nat := 0x0304
def F.DMC_LANE_CFG_RX_DLY : Fld := ⟨0x0304, 0, 7⟩
def F.DMC_LANE_CFG_TX_DLY : Fld := ⟨0x0304, 8, 7⟩
def F.DMC_LANE_CFG_VREF_HI : Fld := ⟨0x0304, 16, 7⟩
def F.DMC_LANE_CFG_VREF_LO : Fld := ⟨0x0304, 24, 7⟩
/-- DMC_LANE_ERR of R278. -/
def O.DMC_LANE_ERR : Nat := 0x0308
def F.DMC_LANE_ERR_ERR_CNT : Fld := ⟨0x0308, 0, 16⟩
/-- DMC_TRAIN_CMD of R278. -/
def O.DMC_TRAIN_CMD : Nat := 0x030C
def F.DMC_TRAIN_CMD_OP : Fld := ⟨0x030C, 0, 2⟩
def F.DMC_TRAIN_CMD_CH : Fld := ⟨0x030C, 2, 2⟩
def F.DMC_TRAIN_CMD_COUNT : Fld := ⟨0x030C, 16, 16⟩
/-- DMC_MRW of R278. -/
def O.DMC_MRW : Nat := 0x0310
def F.DMC_MRW_DATA : Fld := ⟨0x0310, 0, 12⟩
def F.DMC_MRW_MR : Fld := ⟨0x0310, 12, 8⟩
def F.DMC_MRW_CH : Fld := ⟨0x0310, 20, 2⟩
def F.DMC_MRW_ALL : Fld := ⟨0x0310, 22, 1⟩
def F.DMC_MRW_GO : Fld := ⟨0x0310, 31, 1⟩
/-- DMC_ERR_ADDR_LO of R278. -/
def O.DMC_ERR_ADDR_LO : Nat := 0x0500
def F.DMC_ERR_ADDR_LO_ADDR_LO : Fld := ⟨0x0500, 0, 32⟩
/-- DMC_ERR_ADDR_HI of R278. -/
def O.DMC_ERR_ADDR_HI : Nat := 0x0504
def F.DMC_ERR_ADDR_HI_ADDR_HI : Fld := ⟨0x0504, 0, 16⟩
/-- DMC_ERR_SYND of R278. -/
def O.DMC_ERR_SYND : Nat := 0x0508
def F.DMC_ERR_SYND_SYND : Fld := ⟨0x0508, 0, 32⟩
/-- DMC_ERR_INFO of R278. -/
def O.DMC_ERR_INFO : Nat := 0x050C
def F.DMC_ERR_INFO_KIND : Fld := ⟨0x050C, 0, 4⟩
def F.DMC_ERR_INFO_WRITE : Fld := ⟨0x050C, 4, 1⟩
def F.DMC_ERR_INFO_UNCORR_CNT : Fld := ⟨0x050C, 16, 16⟩
/-- DMC_CMP of R278. -/
def O.DMC_CMP (n : Nat) : Nat := 0x0600 + 0x4 * n
def F.DMC_CMP_BYTES (n : Nat) : Fld := ⟨0x0600 + 0x4 * n, 0, 32⟩
/-- DMC_MAP_IDX of R278. -/
def O.DMC_MAP_IDX : Nat := 0x0700
def F.DMC_MAP_IDX_IDX : Fld := ⟨0x0700, 0, 4⟩
/-- DMC_MAP_LO of R278. -/
def O.DMC_MAP_LO : Nat := 0x0704
def F.DMC_MAP_LO_MASK_LO : Fld := ⟨0x0704, 0, 32⟩
/-- DMC_MAP_HI of R278. -/
def O.DMC_MAP_HI : Nat := 0x0708
def F.DMC_MAP_HI_MASK_HI : Fld := ⟨0x0708, 0, 16⟩
/-- DMC_MAP_CMD of R278. -/
def O.DMC_MAP_CMD : Nat := 0x070C
def F.DMC_MAP_CMD_APPLY : Fld := ⟨0x070C, 0, 1⟩
/-- MCACHE_CFG of R278. -/
def O.MCACHE_CFG : Nat := 0x0800
def F.MCACHE_CFG_ECC_WAYS : Fld := ⟨0x0800, 0, 5⟩
/-- MCACHE_CNT of R278. -/
def O.MCACHE_CNT : Nat := 0x0804
def F.MCACHE_CNT_ECC_MISS : Fld := ⟨0x0804, 0, 16⟩
def F.MCACHE_CNT_REFETCH : Fld := ⟨0x0804, 16, 16⟩
/-- MCE_RANGE_SEL of R312. -/
def O.MCE_RANGE_SEL : Nat := 0x0100
def F.MCE_RANGE_SEL_RANGE : Fld := ⟨0x0100, 0, 4⟩
/-- MCE_RANGE_CFG of R312. -/
def O.MCE_RANGE_CFG : Nat := 0x0104
def F.MCE_RANGE_CFG_BASE : Fld := ⟨0x0104, 0, 9⟩
def F.MCE_RANGE_CFG_SIZE_M1 : Fld := ⟨0x0104, 9, 9⟩
def F.MCE_RANGE_CFG_MODE : Fld := ⟨0x0104, 18, 2⟩
def F.MCE_RANGE_CFG_KEY_ID : Fld := ⟨0x0104, 20, 6⟩
/-- MCE_RANGE_META of R312. -/
def O.MCE_RANGE_META : Nat := 0x0108
def F.MCE_RANGE_META_FIRST_SLOT : Fld := ⟨0x0108, 0, 9⟩
/-- MCE_RANGE_CMD of R312. -/
def O.MCE_RANGE_CMD : Nat := 0x010C
def F.MCE_RANGE_CMD_OP : Fld := ⟨0x010C, 0, 3⟩
def F.MCE_RANGE_CMD_NEW_KEY : Fld := ⟨0x010C, 4, 6⟩
/-- MCE_RANGE_STAT of R312. -/
def O.MCE_RANGE_STAT : Nat := 0x0110
def F.MCE_RANGE_STAT_STATE : Fld := ⟨0x0110, 0, 2⟩
def F.MCE_RANGE_STAT_WALKING : Fld := ⟨0x0110, 2, 1⟩
def F.MCE_RANGE_STAT_POISON_ALL : Fld := ⟨0x0110, 3, 1⟩
def F.MCE_RANGE_STAT_MODE : Fld := ⟨0x0110, 4, 2⟩
def F.MCE_RANGE_STAT_KEY_ID : Fld := ⟨0x0110, 6, 6⟩
def F.MCE_RANGE_STAT_WALK_PTR : Fld := ⟨0x0110, 16, 14⟩
/-- MCE_META_CFG of R312. -/
def O.MCE_META_CFG : Nat := 0x0120
def F.MCE_META_CFG_BASE : Fld := ⟨0x0120, 0, 9⟩
def F.MCE_META_CFG_SLOTS : Fld := ⟨0x0120, 9, 10⟩
/-- MCE_KEY_CMD of R312. -/
def O.MCE_KEY_CMD : Nat := 0x0200
def F.MCE_KEY_CMD_OP : Fld := ⟨0x0200, 0, 3⟩
def F.MCE_KEY_CMD_LINK : Fld := ⟨0x0200, 3, 1⟩
def F.MCE_KEY_CMD_ID : Fld := ⟨0x0200, 4, 6⟩
/-- MCE_KEY_SEL of R312. -/
def O.MCE_KEY_SEL : Nat := 0x0204
def F.MCE_KEY_SEL_ID : Fld := ⟨0x0204, 0, 6⟩
def F.MCE_KEY_SEL_LINK : Fld := ⟨0x0204, 6, 1⟩
/-- MCE_KEY_STAT of R312. -/
def O.MCE_KEY_STAT : Nat := 0x0208
def F.MCE_KEY_STAT_STATE : Fld := ⟨0x0208, 0, 2⟩
def F.MCE_KEY_STAT_GEN : Fld := ⟨0x0208, 16, 16⟩
/-- MCE_WRAP of R312. -/
def O.MCE_WRAP (n : Nat) : Nat := 0x0240 + 0x4 * n
def F.MCE_WRAP_BYTES (n : Nat) : Fld := ⟨0x0240 + 0x4 * n, 0, 32⟩
/-- MCE_BOUND0 of R312. -/
def O.MCE_BOUND0 : Nat := 0x0300
def F.MCE_BOUND0_TMETA : Fld := ⟨0x0300, 0, 12⟩
def F.MCE_BOUND0_TREENC : Fld := ⟨0x0300, 16, 12⟩
/-- MCE_BOUND1 of R312. -/
def O.MCE_BOUND1 : Nat := 0x0304
def F.MCE_BOUND1_TDEC : Fld := ⟨0x0304, 0, 8⟩
/-- MCE_POISON_SEL of R312. -/
def O.MCE_POISON_SEL : Nat := 0x0310
def F.MCE_POISON_SEL_ENTRY : Fld := ⟨0x0310, 0, 6⟩
/-- MCE_POISON_ENTRY of R312. -/
def O.MCE_POISON_ENTRY : Nat := 0x0314
def F.MCE_POISON_ENTRY_RANGE : Fld := ⟨0x0314, 0, 4⟩
def F.MCE_POISON_ENTRY_LEVEL : Fld := ⟨0x0314, 4, 2⟩
def F.MCE_POISON_ENTRY_VALID : Fld := ⟨0x0314, 6, 1⟩
def F.MCE_POISON_ENTRY_NODE : Fld := ⟨0x0314, 8, 21⟩
/-- MCE_ERR_CNT of R312. -/
def O.MCE_ERR_CNT : Nat := 0x0318
def F.MCE_ERR_CNT_DENIED_CNT : Fld := ⟨0x0318, 0, 16⟩
def F.MCE_ERR_CNT_LOST_CNT : Fld := ⟨0x0318, 16, 16⟩
/-- CW_KEY_CFG of R312. -/
def O.CW_KEY_CFG : Nat := 0x0700
def F.CW_KEY_CFG_TX_ID : Fld := ⟨0x0700, 0, 5⟩
def F.CW_KEY_CFG_TX_EN : Fld := ⟨0x0700, 5, 1⟩
def F.CW_KEY_CFG_RX_ID : Fld := ⟨0x0700, 8, 5⟩
def F.CW_KEY_CFG_RX_EN : Fld := ⟨0x0700, 13, 1⟩
/-- CW_CTRL of R343. -/
def O.CW_CTRL : Nat := 0x0100
def F.CW_CTRL_EN : Fld := ⟨0x0100, 0, 1⟩
def F.CW_CTRL_RETRAIN : Fld := ⟨0x0100, 1, 1⟩
def F.CW_CTRL_KEY_SWITCH : Fld := ⟨0x0100, 2, 1⟩
/-- CW_STATUS of R343. -/
def O.CW_STATUS : Nat := 0x0104
def F.CW_STATUS_STATE : Fld := ⟨0x0104, 0, 2⟩
def F.CW_STATUS_TIME_PEER : Fld := ⟨0x0104, 2, 1⟩
def F.CW_STATUS_FWD_PEER : Fld := ⟨0x0104, 3, 1⟩
def F.CW_STATUS_SHORT_CREDIT : Fld := ⟨0x0104, 4, 1⟩
def F.CW_STATUS_ENC_ON : Fld := ⟨0x0104, 5, 1⟩
def F.CW_STATUS_KPH : Fld := ⟨0x0104, 6, 1⟩
def F.CW_STATUS_LANE_POL : Fld := ⟨0x0104, 8, 8⟩
/-- CW_PEER of R343. -/
def O.CW_PEER : Nat := 0x0108
def F.CW_PEER_DEV : Fld := ⟨0x0108, 0, 6⟩
def F.CW_PEER_LINK : Fld := ⟨0x0108, 6, 4⟩
def F.CW_PEER_VERSION : Fld := ⟨0x0108, 16, 8⟩
/-- CW_CREDIT of R343. -/
def O.CW_CREDIT : Nat := 0x010C
def F.CW_CREDIT_RSPS : Fld := ⟨0x010C, 0, 8⟩
def F.CW_CREDIT_RSPB : Fld := ⟨0x010C, 8, 8⟩
def F.CW_CREDIT_SCH : Fld := ⟨0x010C, 16, 8⟩
def F.CW_CREDIT_BE : Fld := ⟨0x010C, 24, 8⟩
/-- CW_CNT0 of R343. -/
def O.CW_CNT0 : Nat := 0x0110
def F.CW_CNT0_RETRY_CNT : Fld := ⟨0x0110, 0, 16⟩
def F.CW_CNT0_RELOCK_CNT : Fld := ⟨0x0110, 16, 16⟩
/-- CW_CNT1 of R343. -/
def O.CW_CNT1 : Nat := 0x0114
def F.CW_CNT1_DOWN_CNT : Fld := ⟨0x0114, 0, 16⟩
def F.CW_CNT1_HDR_ERR_CNT : Fld := ⟨0x0114, 16, 16⟩
/-- CW_BOUND of R343. -/
def O.CW_BOUND : Nat := 0x0200
def F.CW_BOUND_HOP : Fld := ⟨0x0200, 0, 10⟩
def F.CW_BOUND_RETRY : Fld := ⟨0x0200, 16, 10⟩
/-- CW_DELAY of R343. -/
def O.CW_DELAY : Nat := 0x0204
def F.CW_DELAY_FLIGHT : Fld := ⟨0x0204, 0, 24⟩
def F.CW_DELAY_SKEW : Fld := ⟨0x0204, 24, 8⟩
/-- CW_OFFSET of R343. -/
def O.CW_OFFSET : Nat := 0x0208
def F.CW_OFFSET_OFFSET : Fld := ⟨0x0208, 0, 32⟩
/-- CW_KEY_NEXT of R343. -/
def O.CW_KEY_NEXT : Nat := 0x0704
def F.CW_KEY_NEXT_TX_NEXT : Fld := ⟨0x0704, 0, 5⟩
def F.CW_KEY_NEXT_RX_NEXT : Fld := ⟨0x0704, 8, 5⟩
/-- JP_PORT_SEL of R366. -/
def O.JP_PORT_SEL : Nat := 0x0100
def F.JP_PORT_SEL_PORT : Fld := ⟨0x0100, 0, 5⟩
def F.JP_PORT_SEL_FRAME : Fld := ⟨0x0100, 5, 2⟩
/-- JP_PORT_STAT of R366. -/
def O.JP_PORT_STAT : Nat := 0x0104
def F.JP_PORT_STAT_RX_SYNC : Fld := ⟨0x0104, 0, 2⟩
def F.JP_PORT_STAT_TX_SRC : Fld := ⟨0x0104, 2, 2⟩
def F.JP_PORT_STAT_REASON : Fld := ⟨0x0104, 4, 4⟩
def F.JP_PORT_STAT_NOFRAME_WHY : Fld := ⟨0x0104, 8, 3⟩
/-- JP_RX_CNT0 of R366. -/
def O.JP_RX_CNT0 : Nat := 0x0108
def F.JP_RX_CNT0_CRC_CNT : Fld := ⟨0x0108, 0, 16⟩
def F.JP_RX_CNT0_CODE_CNT : Fld := ⟨0x0108, 16, 16⟩
/-- JP_RX_CNT1 of R366. -/
def O.JP_RX_CNT1 : Nat := 0x010C
def F.JP_RX_CNT1_NOFRAME_CNT : Fld := ⟨0x010C, 0, 16⟩
def F.JP_RX_CNT1_OVERRUN_CNT : Fld := ⟨0x010C, 16, 16⟩
/-- JP_RX_CNT2 of R366. -/
def O.JP_RX_CNT2 : Nat := 0x0110
def F.JP_RX_CNT2_FORMAT_CNT : Fld := ⟨0x0110, 0, 16⟩
def F.JP_RX_CNT2_SYNC_LOST_CNT : Fld := ⟨0x0110, 16, 16⟩
/-- JP_TX_CNT of R366. -/
def O.JP_TX_CNT : Nat := 0x0114
def F.JP_TX_CNT_SKIP_CNT : Fld := ⟨0x0114, 0, 16⟩
def F.JP_TX_CNT_TX_FORMAT_CNT : Fld := ⟨0x0114, 16, 16⟩
/-- JP_MOOR_CFG of R366. -/
def O.JP_MOOR_CFG : Nat := 0x0200
def F.JP_MOOR_CFG_EN : Fld := ⟨0x0200, 0, 1⟩
def F.JP_MOOR_CFG_COUNT : Fld := ⟨0x0200, 1, 3⟩
def F.JP_MOOR_CFG_INTERVAL : Fld := ⟨0x0200, 4, 5⟩
def F.JP_MOOR_CFG_ANCHOR_HOLD : Fld := ⟨0x0200, 9, 1⟩
/-- JP_MOOR_LO of R366. -/
def O.JP_MOOR_LO : Nat := 0x0204
def F.JP_MOOR_LO_PAYLOAD_LO : Fld := ⟨0x0204, 0, 32⟩
/-- JP_MOOR_MID of R366. -/
def O.JP_MOOR_MID : Nat := 0x0208
def F.JP_MOOR_MID_PAYLOAD_MID : Fld := ⟨0x0208, 0, 32⟩
/-- JP_MOOR_HI of R366. -/
def O.JP_MOOR_HI : Nat := 0x020C
def F.JP_MOOR_HI_PAYLOAD_HI : Fld := ⟨0x020C, 0, 16⟩
/-- PCIE_ID of R390. -/
def O.PCIE_ID : Nat := 0x0100
def F.PCIE_ID_DEVICE : Fld := ⟨0x0100, 0, 16⟩
def F.PCIE_ID_VENDOR : Fld := ⟨0x0100, 16, 16⟩
/-- PCIE_LINK of R390. -/
def O.PCIE_LINK : Nat := 0x0104
def F.PCIE_LINK_SPEED : Fld := ⟨0x0104, 0, 3⟩
def F.PCIE_LINK_WIDTH : Fld := ⟨0x0104, 3, 5⟩
def F.PCIE_LINK_FLIT : Fld := ⟨0x0104, 8, 1⟩
def F.PCIE_LINK_BAR4_SIZE : Fld := ⟨0x0104, 9, 3⟩
/-- PCIE_CTRL of R390. -/
def O.PCIE_CTRL : Nat := 0x0108
def F.PCIE_CTRL_ERR_CPL : Fld := ⟨0x0108, 0, 1⟩
/-- PCIE_ERR of R390. -/
def O.PCIE_ERR : Nat := 0x010C
def F.PCIE_ERR_STATUS : Fld := ⟨0x010C, 0, 4⟩
def F.PCIE_ERR_WRITE : Fld := ⟨0x010C, 4, 1⟩
def F.PCIE_ERR_BAR : Fld := ⟨0x010C, 5, 2⟩
def F.PCIE_ERR_CNT : Fld := ⟨0x010C, 16, 16⟩
/-- PCIE_VEC_MAP of R390. -/
def O.PCIE_VEC_MAP (n : Nat) : Nat := 0x0200 + 0x4 * n
def F.PCIE_VEC_MAP_VECTOR (n : Nat) : Fld := ⟨0x0200 + 0x4 * n, 0, 8⟩
def F.PCIE_VEC_MAP_EN (n : Nat) : Fld := ⟨0x0200 + 0x4 * n, 8, 1⟩
/-- LGT_CFG of R390. -/
def O.LGT_CFG (n : Nat) : Nat := 0x0100 + 0x20 * n
def F.LGT_CFG_MODE (n : Nat) : Fld := ⟨0x0100 + 0x20 * n, 0, 2⟩
def F.LGT_CFG_PORT (n : Nat) : Fld := ⟨0x0100 + 0x20 * n, 2, 2⟩
def F.LGT_CFG_RING_LOG2 (n : Nat) : Fld := ⟨0x0100 + 0x20 * n, 4, 4⟩
def F.LGT_CFG_SLOT_LOG2 (n : Nat) : Fld := ⟨0x0100 + 0x20 * n, 8, 4⟩
def F.LGT_CFG_EN (n : Nat) : Fld := ⟨0x0100 + 0x20 * n, 12, 1⟩
def F.LGT_CFG_RING_HOST (n : Nat) : Fld := ⟨0x0100 + 0x20 * n, 13, 1⟩
/-- LGT_BASE_LO of R390. -/
def O.LGT_BASE_LO (n : Nat) : Nat := 0x0104 + 0x20 * n
def F.LGT_BASE_LO_BASE_LO (n : Nat) : Fld := ⟨0x0104 + 0x20 * n, 0, 32⟩
/-- LGT_BASE_HI of R390. -/
def O.LGT_BASE_HI (n : Nat) : Nat := 0x0108 + 0x20 * n
def F.LGT_BASE_HI_BASE_HI (n : Nat) : Fld := ⟨0x0108 + 0x20 * n, 0, 32⟩
/-- LGT_PROD of R390. -/
def O.LGT_PROD (n : Nat) : Nat := 0x010C + 0x20 * n
def F.LGT_PROD_PROD (n : Nat) : Fld := ⟨0x010C + 0x20 * n, 0, 12⟩
/-- LGT_STAT of R390. -/
def O.LGT_STAT (n : Nat) : Nat := 0x0110 + 0x20 * n
def F.LGT_STAT_CONS (n : Nat) : Fld := ⟨0x0110 + 0x20 * n, 0, 12⟩
def F.LGT_STAT_STATE (n : Nat) : Fld := ⟨0x0110 + 0x20 * n, 12, 2⟩
def F.LGT_STAT_ERR_STATUS (n : Nat) : Fld := ⟨0x0110 + 0x20 * n, 16, 4⟩
/-- LGT_CMD of R390. -/
def O.LGT_CMD (n : Nat) : Nat := 0x0114 + 0x20 * n
def F.LGT_CMD_OP (n : Nat) : Fld := ⟨0x0114 + 0x20 * n, 0, 2⟩
/-- ETH_CFG of R390. -/
def O.ETH_CFG (n : Nat) : Nat := 0x0100 + 0x20 * n
def F.ETH_CFG_EN (n : Nat) : Fld := ⟨0x0100 + 0x20 * n, 0, 1⟩
def F.ETH_CFG_SPEED (n : Nat) : Fld := ⟨0x0100 + 0x20 * n, 1, 1⟩
def F.ETH_CFG_RSFEC (n : Nat) : Fld := ⟨0x0100 + 0x20 * n, 2, 1⟩
def F.ETH_CFG_PROMISC (n : Nat) : Fld := ⟨0x0100 + 0x20 * n, 3, 1⟩
def F.ETH_CFG_MCAST (n : Nat) : Fld := ⟨0x0100 + 0x20 * n, 4, 1⟩
def F.ETH_CFG_ONESTEP (n : Nat) : Fld := ⟨0x0100 + 0x20 * n, 5, 1⟩
def F.ETH_CFG_LINK_UP (n : Nat) : Fld := ⟨0x0100 + 0x20 * n, 8, 1⟩
/-- ETH_MAC_LO of R390. -/
def O.ETH_MAC_LO (n : Nat) : Nat := 0x0104 + 0x20 * n
def F.ETH_MAC_LO_MAC_LO (n : Nat) : Fld := ⟨0x0104 + 0x20 * n, 0, 32⟩
/-- ETH_MAC_HI of R390. -/
def O.ETH_MAC_HI (n : Nat) : Nat := 0x0108 + 0x20 * n
def F.ETH_MAC_HI_MAC_HI (n : Nat) : Fld := ⟨0x0108 + 0x20 * n, 0, 16⟩
/-- ETH_CNT of R390. -/
def O.ETH_CNT (n : Nat) : Nat := 0x010C + 0x20 * n
def F.ETH_CNT_BAD_CNT (n : Nat) : Fld := ⟨0x010C + 0x20 * n, 0, 16⟩
def F.ETH_CNT_FULL_CNT (n : Nat) : Fld := ⟨0x010C + 0x20 * n, 16, 16⟩
/-- ST_CTRL of R390. -/
def O.ST_CTRL : Nat := 0x0200
def F.ST_CTRL_SRC : Fld := ⟨0x0200, 0, 2⟩
def F.ST_CTRL_LINK : Fld := ⟨0x0200, 2, 4⟩
def F.ST_CTRL_STEP : Fld := ⟨0x0200, 8, 1⟩
/-- ST_STAT of R390. -/
def O.ST_STAT : Nat := 0x0204
def F.ST_STAT_VALID : Fld := ⟨0x0204, 0, 1⟩
def F.ST_STAT_LOCK : Fld := ⟨0x0204, 1, 1⟩
def F.ST_STAT_OFFSET : Fld := ⟨0x0204, 16, 16⟩
/-- ST_NOW_LO of R390. -/
def O.ST_NOW_LO : Nat := 0x0208
def F.ST_NOW_LO_NS_LO : Fld := ⟨0x0208, 0, 32⟩
/-- ST_NOW_HI of R390. -/
def O.ST_NOW_HI : Nat := 0x020C
def F.ST_NOW_HI_NS_HI : Fld := ⟨0x020C, 0, 32⟩
/-- ST_NOW_FRAC of R390. -/
def O.ST_NOW_FRAC : Nat := 0x0210
def F.ST_NOW_FRAC_FRAC : Fld := ⟨0x0210, 0, 32⟩
/-- ST_STEP_LO of R390. -/
def O.ST_STEP_LO : Nat := 0x0214
def F.ST_STEP_LO_STEP_LO : Fld := ⟨0x0214, 0, 32⟩
/-- ST_STEP_HI of R390. -/
def O.ST_STEP_HI : Nat := 0x0218
def F.ST_STEP_HI_STEP_HI : Fld := ⟨0x0218, 0, 32⟩
/-- ST_RATE of R390. -/
def O.ST_RATE : Nat := 0x021C
def F.ST_RATE_RATE : Fld := ⟨0x021C, 0, 32⟩
/-- ST_PPS_CFG of R390. -/
def O.ST_PPS_CFG : Nat := 0x0220
def F.ST_PPS_CFG_OUT_EN : Fld := ⟨0x0220, 0, 1⟩
def F.ST_PPS_CFG_IN_EN : Fld := ⟨0x0220, 1, 1⟩
def F.ST_PPS_CFG_WIDTH : Fld := ⟨0x0220, 2, 9⟩
/-- ST_PPS_CAP_LO of R390. -/
def O.ST_PPS_CAP_LO : Nat := 0x0224
def F.ST_PPS_CAP_LO_CAP_LO : Fld := ⟨0x0224, 0, 32⟩
/-- ST_PPS_CAP_HI of R390. -/
def O.ST_PPS_CAP_HI : Nat := 0x0228
def F.ST_PPS_CAP_HI_CAP_HI : Fld := ⟨0x0228, 0, 32⟩
/-- CSP_STAT of R390. -/
def O.CSP_STAT : Nat := 0x0100
def F.CSP_STAT_MODE : Fld := ⟨0x0100, 0, 2⟩
def F.CSP_STAT_OWNER : Fld := ⟨0x0100, 2, 1⟩
def F.CSP_STAT_READY : Fld := ⟨0x0100, 3, 1⟩
def F.CSP_STAT_ERR_CNT : Fld := ⟨0x0100, 16, 16⟩
/-- CFG_ID of R425. -/
def O.CFG_ID : Nat := 0x0100
def F.CFG_ID_STACK_REV : Fld := ⟨0x0100, 0, 8⟩
def F.CFG_ID_FAMILY : Fld := ⟨0x0100, 8, 8⟩
def F.CFG_ID_DEVICE : Fld := ⟨0x0100, 16, 16⟩
/-- CFG_SERIAL of R425. -/
def O.CFG_SERIAL (n : Nat) : Nat := 0x0104 + 0x4 * n
def F.CFG_SERIAL_BYTES (n : Nat) : Fld := ⟨0x0104 + 0x4 * n, 0, 32⟩
/-- CFG_CMD of R425. -/
def O.CFG_CMD : Nat := 0x0120
def F.CFG_CMD_OP : Fld := ⟨0x0120, 0, 3⟩
def F.CFG_CMD_SLOT : Fld := ⟨0x0120, 3, 2⟩
/-- CFG_ACT_CTRL of R425. -/
def O.CFG_ACT_CTRL : Nat := 0x0124
def F.CFG_ACT_CTRL_AUTO : Fld := ⟨0x0124, 0, 1⟩
def F.CFG_ACT_CTRL_USE_TIDE : Fld := ⟨0x0124, 1, 1⟩
def F.CFG_ACT_CTRL_FENCE_TIDES : Fld := ⟨0x0124, 4, 4⟩
/-- CFG_ACT_TIDE_LO of R425. -/
def O.CFG_ACT_TIDE_LO : Nat := 0x0128
def F.CFG_ACT_TIDE_LO_TIDE_LO : Fld := ⟨0x0128, 0, 32⟩
/-- CFG_ACT_TIDE_HI of R425. -/
def O.CFG_ACT_TIDE_HI : Nat := 0x012C
def F.CFG_ACT_TIDE_HI_TIDE_HI : Fld := ⟨0x012C, 0, 32⟩
/-- CFG_PIPE of R425. -/
def O.CFG_PIPE : Nat := 0x0130
def F.CFG_PIPE_STATE : Fld := ⟨0x0130, 0, 3⟩
def F.CFG_PIPE_OWNER : Fld := ⟨0x0130, 3, 2⟩
def F.CFG_PIPE_HANDLE : Fld := ⟨0x0130, 8, 8⟩
/-- CFG_PROGRESS of R425. -/
def O.CFG_PROGRESS : Nat := 0x0134
def F.CFG_PROGRESS_BYTES : Fld := ⟨0x0134, 0, 32⟩
/-- CFG_RESULT of R425. -/
def O.CFG_RESULT : Nat := 0x0138
def F.CFG_RESULT_STATUS : Fld := ⟨0x0138, 0, 4⟩
def F.CFG_RESULT_STAGE : Fld := ⟨0x0138, 4, 4⟩
def F.CFG_RESULT_RECORD : Fld := ⟨0x0138, 8, 17⟩
def F.CFG_RESULT_VALID : Fld := ⟨0x0138, 31, 1⟩
/-- CFG_BOOT_STAT of R425. -/
def O.CFG_BOOT_STAT : Nat := 0x0140
def F.CFG_BOOT_STAT_SLOT : Fld := ⟨0x0140, 0, 2⟩
def F.CFG_BOOT_STAT_FALLBACK : Fld := ⟨0x0140, 2, 1⟩
def F.CFG_BOOT_STAT_POLICY : Fld := ⟨0x0140, 3, 1⟩
def F.CFG_BOOT_STAT_WAIT_TO : Fld := ⟨0x0140, 4, 1⟩
def F.CFG_BOOT_STAT_A_STATUS : Fld := ⟨0x0140, 8, 4⟩
def F.CFG_BOOT_STAT_B_STATUS : Fld := ⟨0x0140, 12, 4⟩
def F.CFG_BOOT_STAT_A_STAGE : Fld := ⟨0x0140, 16, 4⟩
def F.CFG_BOOT_STAT_B_STAGE : Fld := ⟨0x0140, 20, 4⟩
/-- CFG_NV_SEL of R425. -/
def O.CFG_NV_SEL : Nat := 0x0150
def F.CFG_NV_SEL_SECTOR : Fld := ⟨0x0150, 0, 9⟩
/-- CFG_NV_STAT of R425. -/
def O.CFG_NV_STAT : Nat := 0x0154
def F.CFG_NV_STAT_ERASES : Fld := ⟨0x0154, 0, 14⟩
def F.CFG_NV_STAT_RO : Fld := ⟨0x0154, 14, 1⟩
def F.CFG_NV_STAT_RO_CNT : Fld := ⟨0x0154, 16, 10⟩
/-- SEC_LC of R448. -/
def O.SEC_LC : Nat := 0x0100
def F.SEC_LC_STATE : Fld := ⟨0x0100, 0, 3⟩
def F.SEC_LC_TAMPER_SEEN : Fld := ⟨0x0100, 3, 1⟩
def F.SEC_LC_SCAN_OK : Fld := ⟨0x0100, 4, 1⟩
/-- SEC_CMD of R448. -/
def O.SEC_CMD : Nat := 0x0104
def F.SEC_CMD_OP : Fld := ⟨0x0104, 0, 4⟩
def F.SEC_CMD_TARGET : Fld := ⟨0x0104, 4, 3⟩
def F.SEC_CMD_ROLE : Fld := ⟨0x0104, 7, 1⟩
/-- SEC_SESS of R448. -/
def O.SEC_SESS : Nat := 0x0108
def F.SEC_SESS_STATE : Fld := ⟨0x0108, 0, 2⟩
def F.SEC_SESS_IFACE : Fld := ⟨0x0108, 2, 2⟩
def F.SEC_SESS_LOCKED : Fld := ⟨0x0108, 4, 1⟩
def F.SEC_SESS_FAIL_CONSEC : Fld := ⟨0x0108, 8, 4⟩
def F.SEC_SESS_AUTH_FAIL_CNT : Fld := ⟨0x0108, 16, 16⟩
/-- SEC_MBOX_CTRL of R448. -/
def O.SEC_MBOX_CTRL : Nat := 0x010C
def F.SEC_MBOX_CTRL_LEN : Fld := ⟨0x010C, 0, 14⟩
/-- SEC_MBOX_DATA of R448. -/
def O.SEC_MBOX_DATA : Nat := 0x0110
def F.SEC_MBOX_DATA_DATA : Fld := ⟨0x0110, 0, 32⟩
/-- SEC_NONCE of R448. -/
def O.SEC_NONCE (n : Nat) : Nat := 0x0120 + 0x4 * n
def F.SEC_NONCE_BYTES (n : Nat) : Fld := ⟨0x0120 + 0x4 * n, 0, 32⟩
/-- SEC_TAMPER_CFG of R448. -/
def O.SEC_TAMPER_CFG : Nat := 0x0140
def F.SEC_TAMPER_CFG_IN_EN : Fld := ⟨0x0140, 0, 4⟩
def F.SEC_TAMPER_CFG_VMON_EN : Fld := ⟨0x0140, 4, 1⟩
def F.SEC_TAMPER_CFG_GLITCH_EN : Fld := ⟨0x0140, 5, 1⟩
def F.SEC_TAMPER_CFG_TEMP_EN : Fld := ⟨0x0140, 6, 1⟩
/-- SEC_TAMPER_STAT of R448. -/
def O.SEC_TAMPER_STAT : Nat := 0x0144
def F.SEC_TAMPER_STAT_LAST_SRC : Fld := ⟨0x0144, 0, 4⟩
def F.SEC_TAMPER_STAT_TAMPER_CNT : Fld := ⟨0x0144, 16, 16⟩
/-- SEC_RNG_STAT of R448. -/
def O.SEC_RNG_STAT : Nat := 0x0148
def F.SEC_RNG_STAT_RUN : Fld := ⟨0x0148, 0, 1⟩
def F.SEC_RNG_STAT_FAIL_CNT : Fld := ⟨0x0148, 16, 16⟩
/-- LH_PART of R469. -/
def O.LH_PART : Nat := 0x0100
def F.LH_PART_GRADE : Fld := ⟨0x0100, 0, 4⟩
def F.LH_PART_TEMP : Fld := ⟨0x0100, 4, 1⟩
/-- LH_MODE of R469. -/
def O.LH_MODE : Nat := 0x0104
def F.LH_MODE_MODE : Fld := ⟨0x0104, 0, 4⟩
def F.LH_MODE_PREV : Fld := ⟨0x0104, 4, 4⟩
def F.LH_MODE_EMULATED : Fld := ⟨0x0104, 8, 1⟩
/-- LH_RST_CAUSE of R469. -/
def O.LH_RST_CAUSE : Nat := 0x0108
def F.LH_RST_CAUSE_LAST : Fld := ⟨0x0108, 0, 4⟩
def F.LH_RST_CAUSE_ALL : Fld := ⟨0x0108, 4, 6⟩
/-- LH_RST_CNT of R469. -/
def O.LH_RST_CNT : Nat := 0x010C
def F.LH_RST_CNT_WDG : Fld := ⟨0x010C, 0, 16⟩
def F.LH_RST_CNT_TOTAL : Fld := ⟨0x010C, 16, 16⟩
/-- LH_RST_CMD of R469. -/
def O.LH_RST_CMD : Nat := 0x0110
def F.LH_RST_CMD_KEY : Fld := ⟨0x0110, 0, 32⟩
/-- LH_OSC_CFG of R469. -/
def O.LH_OSC_CFG : Nat := 0x0114
def F.LH_OSC_CFG_CODE : Fld := ⟨0x0114, 0, 4⟩
def F.LH_OSC_CFG_ACTIVE : Fld := ⟨0x0114, 4, 4⟩
def F.LH_OSC_CFG_COMMIT : Fld := ⟨0x0114, 8, 1⟩
/-- CLK_TICK_CFG of R469. -/
def O.CLK_TICK_CFG : Nat := 0x0100
def F.CLK_TICK_CFG_MULT : Fld := ⟨0x0100, 0, 8⟩
def F.CLK_TICK_CFG_ACTIVE : Fld := ⟨0x0100, 8, 8⟩
/-- CLK_HCLK_CFG of R469. -/
def O.CLK_HCLK_CFG : Nat := 0x0104
def F.CLK_HCLK_CFG_MULT : Fld := ⟨0x0104, 0, 8⟩
def F.CLK_HCLK_CFG_ACTIVE : Fld := ⟨0x0104, 8, 8⟩
/-- CLK_NCLK_CFG of R469. -/
def O.CLK_NCLK_CFG : Nat := 0x0108
def F.CLK_NCLK_CFG_MULT : Fld := ⟨0x0108, 0, 8⟩
def F.CLK_NCLK_CFG_ACTIVE : Fld := ⟨0x0108, 8, 8⟩
/-- CLK_MCLK_CFG of R469. -/
def O.CLK_MCLK_CFG : Nat := 0x010C
def F.CLK_MCLK_CFG_MULT : Fld := ⟨0x010C, 0, 8⟩
def F.CLK_MCLK_CFG_ACTIVE : Fld := ⟨0x010C, 8, 8⟩
/-- CLK_CMD of R469. -/
def O.CLK_CMD : Nat := 0x0110
def F.CLK_CMD_APPLY : Fld := ⟨0x0110, 0, 1⟩
/-- CLK_STAT of R469. -/
def O.CLK_STAT : Nat := 0x0114
def F.CLK_STAT_REF : Fld := ⟨0x0114, 0, 1⟩
def F.CLK_STAT_BUSY : Fld := ⟨0x0114, 1, 1⟩
def F.CLK_STAT_LOCK : Fld := ⟨0x0114, 2, 6⟩
/-- CLK_EN0 of R469. -/
def O.CLK_EN0 : Nat := 0x0120
def F.CLK_EN0_EN : Fld := ⟨0x0120, 0, 32⟩
/-- CLK_EN1 of R469. -/
def O.CLK_EN1 : Nat := 0x0124
def F.CLK_EN1_EN : Fld := ⟨0x0124, 0, 32⟩
/-- CLK_EN2 of R469. -/
def O.CLK_EN2 : Nat := 0x0128
def F.CLK_EN2_EN : Fld := ⟨0x0128, 0, 27⟩
/-- CLKMON_CFG of R469. -/
def O.CLKMON_CFG : Nat := 0x0130
def F.CLKMON_CFG_SRC : Fld := ⟨0x0130, 0, 4⟩
def F.CLKMON_CFG_DIV_M1 : Fld := ⟨0x0130, 4, 12⟩
def F.CLKMON_CFG_EN : Fld := ⟨0x0130, 16, 1⟩
/-- WDG_CFG of R469. -/
def O.WDG_CFG : Nat := 0x0100
def F.WDG_CFG_EN : Fld := ⟨0x0100, 0, 1⟩
def F.WDG_CFG_STRICT : Fld := ⟨0x0100, 1, 1⟩
/-- WDG_LOAD of R469. -/
def O.WDG_LOAD : Nat := 0x0104
def F.WDG_LOAD_LOAD : Fld := ⟨0x0104, 0, 24⟩
/-- WDG_WARN of R469. -/
def O.WDG_WARN : Nat := 0x0108
def F.WDG_WARN_WARN : Fld := ⟨0x0108, 0, 24⟩
/-- WDG_FEED of R469. -/
def O.WDG_FEED : Nat := 0x010C
def F.WDG_FEED_KEY : Fld := ⟨0x010C, 0, 32⟩
/-- WDG_COUNT of R469. -/
def O.WDG_COUNT : Nat := 0x0110
def F.WDG_COUNT_COUNT : Fld := ⟨0x0110, 0, 24⟩
/-- WDG_BAD_FEED of R469. -/
def O.WDG_BAD_FEED : Nat := 0x0114
def F.WDG_BAD_FEED_BAD_FEED_CNT : Fld := ⟨0x0114, 0, 16⟩
/-- PWR_STAT of R495. -/
def O.PWR_STAT : Nat := 0x0100
def F.PWR_STAT_RAIL_OK : Fld := ⟨0x0100, 0, 8⟩
def F.PWR_STAT_PWR_OK : Fld := ⟨0x0100, 8, 1⟩
def F.PWR_STAT_HLD_RET : Fld := ⟨0x0100, 9, 1⟩
/-- PWR_CFG of R495. -/
def O.PWR_CFG : Nat := 0x0104
def F.PWR_CFG_HLD_RET_EN : Fld := ⟨0x0104, 0, 1⟩
/-- PWR_SLEEP_CMD of R495. -/
def O.PWR_SLEEP_CMD : Nat := 0x0108
def F.PWR_SLEEP_CMD_OP : Fld := ⟨0x0108, 0, 3⟩
/-- PWR_ERG_MASK of R495. -/
def O.PWR_ERG_MASK : Nat := 0x010C
def F.PWR_ERG_MASK_MASK : Fld := ⟨0x010C, 0, 32⟩
/-- PWR_ERG_SLACK of R495. -/
def O.PWR_ERG_SLACK : Nat := 0x0110
def F.PWR_ERG_SLACK_SLACK : Fld := ⟨0x0110, 0, 32⟩
/-- PWR_ERG_SEL of R495. -/
def O.PWR_ERG_SEL : Nat := 0x0114
def F.PWR_ERG_SEL_ERG : Fld := ⟨0x0114, 0, 5⟩
/-- PWR_ERG_EST of R495. -/
def O.PWR_ERG_EST : Nat := 0x0118
def F.PWR_ERG_EST_FAB : Fld := ⟨0x0118, 0, 12⟩
def F.PWR_ERG_EST_HLD : Fld := ⟨0x0118, 12, 10⟩
def F.PWR_ERG_EST_PLN : Fld := ⟨0x0118, 22, 10⟩
/-- PWR_RAIL_SEL of R495. -/
def O.PWR_RAIL_SEL : Nat := 0x011C
def F.PWR_RAIL_SEL_RAIL : Fld := ⟨0x011C, 0, 4⟩
/-- PWR_RAIL_I of R495. -/
def O.PWR_RAIL_I : Nat := 0x0120
def F.PWR_RAIL_I_NOW : Fld := ⟨0x0120, 0, 16⟩
def F.PWR_RAIL_I_MAX : Fld := ⟨0x0120, 16, 16⟩
/-- PWR_OVER_CNT of R495. -/
def O.PWR_OVER_CNT : Nat := 0x0124
def F.PWR_OVER_CNT_ERG_OVER_CNT : Fld := ⟨0x0124, 0, 16⟩
def F.PWR_OVER_CNT_RAIL_OVER_CNT : Fld := ⟨0x0124, 16, 16⟩
/-- THM_SEL of R495. -/
def O.THM_SEL : Nat := 0x0100
def F.THM_SEL_SENSOR : Fld := ⟨0x0100, 0, 8⟩
/-- THM_VALUE of R495. -/
def O.THM_VALUE : Nat := 0x0104
def F.THM_VALUE_RAW : Fld := ⟨0x0104, 0, 12⟩
def F.THM_VALUE_ACTING : Fld := ⟨0x0104, 16, 12⟩
def F.THM_VALUE_SUSPECT : Fld := ⟨0x0104, 28, 1⟩
def F.THM_VALUE_FAILED : Fld := ⟨0x0104, 29, 1⟩
/-- THM_LIM of R495. -/
def O.THM_LIM (n : Nat) : Nat := 0x0110 + 0x4 * n
def F.THM_LIM_HI_WARN (n : Nat) : Fld := ⟨0x0110 + 0x4 * n, 0, 8⟩
def F.THM_LIM_HI_CRIT (n : Nat) : Fld := ⟨0x0110 + 0x4 * n, 8, 8⟩
def F.THM_LIM_LO_WARN (n : Nat) : Fld := ⟨0x0110 + 0x4 * n, 16, 8⟩
def F.THM_LIM_LO_CRIT (n : Nat) : Fld := ⟨0x0110 + 0x4 * n, 24, 8⟩
/-- THM_CFG of R495. -/
def O.THM_CFG : Nat := 0x0120
def F.THM_CFG_MODEL_TOL : Fld := ⟨0x0120, 0, 4⟩
/-- THM_THETA of R495. -/
def O.THM_THETA : Nat := 0x0124
def F.THM_THETA_THETA0 : Fld := ⟨0x0124, 0, 8⟩
def F.THM_THETA_THETA1 : Fld := ⟨0x0124, 8, 8⟩
def F.THM_THETA_THETA2 : Fld := ⟨0x0124, 16, 8⟩
/-- THM_STAT of R495. -/
def O.THM_STAT : Nat := 0x0128
def F.THM_STAT_WARN_ANY : Fld := ⟨0x0128, 0, 1⟩
def F.THM_STAT_CRIT : Fld := ⟨0x0128, 1, 1⟩
def F.THM_STAT_CRIT_LOW : Fld := ⟨0x0128, 2, 1⟩
def F.THM_STAT_COOL : Fld := ⟨0x0128, 3, 1⟩
def F.THM_STAT_HOT : Fld := ⟨0x0128, 8, 8⟩
def F.THM_STAT_SUSPECT_NOW : Fld := ⟨0x0128, 16, 8⟩
/-- THM_CMD of R495. -/
def O.THM_CMD : Nat := 0x012C
def F.THM_CMD_RESUME : Fld := ⟨0x012C, 0, 1⟩
/-- LH_HEAT_CFG of R495. -/
def O.LH_HEAT_CFG : Nat := 0x0200
def F.LH_HEAT_CFG_EN : Fld := ⟨0x0200, 0, 1⟩
def F.LH_HEAT_CFG_LEVEL : Fld := ⟨0x0200, 1, 2⟩
/-- LH_WEAR_BIN of R495. -/
def O.LH_WEAR_BIN (n : Nat) : Nat := 0x0210 + 0x4 * n
def F.LH_WEAR_BIN_COUNT (n : Nat) : Fld := ⟨0x0210 + 0x4 * n, 0, 32⟩
/-- LH_LIFE of R495. -/
def O.LH_LIFE : Nat := 0x0220
def F.LH_LIFE_LIFE : Fld := ⟨0x0220, 0, 16⟩
/-- DBG_CTRL of R518. -/
def O.DBG_CTRL : Nat := 0x0100
def F.DBG_CTRL_OP : Fld := ⟨0x0100, 0, 2⟩
def F.DBG_CTRL_LOCKSTEP : Fld := ⟨0x0100, 2, 1⟩
/-- DBG_STAT of R518. -/
def O.DBG_STAT : Nat := 0x0104
def F.DBG_STAT_ATTACHED : Fld := ⟨0x0104, 0, 1⟩
def F.DBG_STAT_PENDING : Fld := ⟨0x0104, 1, 1⟩
def F.DBG_STAT_HALTED : Fld := ⟨0x0104, 2, 1⟩
def F.DBG_STAT_RESUMING : Fld := ⟨0x0104, 3, 1⟩
def F.DBG_STAT_LOCKSTEP : Fld := ⟨0x0104, 4, 1⟩
def F.DBG_STAT_CAUSE : Fld := ⟨0x0104, 8, 4⟩
def F.DBG_STAT_STEP_LEFT : Fld := ⟨0x0104, 16, 16⟩
/-- DBG_HALT_TIDE_LO of R518. -/
def O.DBG_HALT_TIDE_LO : Nat := 0x0108
def F.DBG_HALT_TIDE_LO_TIDE_LO : Fld := ⟨0x0108, 0, 32⟩
/-- DBG_HALT_TIDE_HI of R518. -/
def O.DBG_HALT_TIDE_HI : Nat := 0x010C
def F.DBG_HALT_TIDE_HI_TIDE_HI : Fld := ⟨0x010C, 0, 32⟩
/-- DBG_STEP of R518. -/
def O.DBG_STEP : Nat := 0x0110
def F.DBG_STEP_COUNT : Fld := ⟨0x0110, 0, 16⟩
/-- DBG_BP_CFG of R518. -/
def O.DBG_BP_CFG : Nat := 0x0114
def F.DBG_BP_CFG_TIDE_EN : Fld := ⟨0x0114, 0, 1⟩
def F.DBG_BP_CFG_BREACH_EN : Fld := ⟨0x0114, 1, 1⟩
def F.DBG_BP_CFG_EVT_EN : Fld := ⟨0x0114, 2, 1⟩
def F.DBG_BP_CFG_LOCKSTEP : Fld := ⟨0x0114, 3, 1⟩
def F.DBG_BP_CFG_EVT_BLOCK : Fld := ⟨0x0114, 8, 8⟩
def F.DBG_BP_CFG_EVT_BIT : Fld := ⟨0x0114, 16, 5⟩
/-- DBG_BP_TIDE_LO of R518. -/
def O.DBG_BP_TIDE_LO : Nat := 0x0118
def F.DBG_BP_TIDE_LO_TIDE_LO : Fld := ⟨0x0118, 0, 32⟩
/-- DBG_BP_TIDE_HI of R518. -/
def O.DBG_BP_TIDE_HI : Nat := 0x011C
def F.DBG_BP_TIDE_HI_TIDE_HI : Fld := ⟨0x011C, 0, 32⟩
/-- DBG_RESUME_AT_LO of R518. -/
def O.DBG_RESUME_AT_LO : Nat := 0x0120
def F.DBG_RESUME_AT_LO_NS_LO : Fld := ⟨0x0120, 0, 32⟩
/-- DBG_RESUME_AT_HI of R518. -/
def O.DBG_RESUME_AT_HI : Nat := 0x0124
def F.DBG_RESUME_AT_HI_NS_HI : Fld := ⟨0x0124, 0, 32⟩
/-- DBG_WIRE_CNT of R518. -/
def O.DBG_WIRE_CNT : Nat := 0x0128
def F.DBG_WIRE_CNT_CRC_CNT : Fld := ⟨0x0128, 0, 16⟩
def F.DBG_WIRE_CNT_FRAME_CNT : Fld := ⟨0x0128, 16, 16⟩
/-- BIST_DD_SEL of R540. -/
def O.BIST_DD_SEL : Nat := 0x0A00
def F.BIST_DD_SEL_ERG : Fld := ⟨0x0A00, 0, 5⟩
def F.BIST_DD_SEL_KIND : Fld := ⟨0x0A00, 5, 2⟩
/-- BIST_DD_LAP of R540. -/
def O.BIST_DD_LAP : Nat := 0x0A04
def F.BIST_DD_LAP_SLICE : Fld := ⟨0x0A04, 0, 10⟩
def F.BIST_DD_LAP_LAPS : Fld := ⟨0x0A04, 16, 16⟩
/-- BIST_DD_LAPTIME of R540. -/
def O.BIST_DD_LAPTIME : Nat := 0x0A08
def F.BIST_DD_LAPTIME_TIDES : Fld := ⟨0x0A08, 0, 32⟩
/-- BIST_DD_CNT of R540. -/
def O.BIST_DD_CNT : Nat := 0x0A0C
def F.BIST_DD_CNT_SKIP_CNT : Fld := ⟨0x0A0C, 0, 16⟩
def F.BIST_DD_CNT_FAIL_CNT : Fld := ⟨0x0A0C, 16, 16⟩
/-- BIST_DD_CMD of R540. -/
def O.BIST_DD_CMD : Nat := 0x0A10
def F.BIST_DD_CMD_OP : Fld := ⟨0x0A10, 0, 2⟩
def F.BIST_DD_CMD_ERG_FIRST : Fld := ⟨0x0A10, 2, 5⟩
def F.BIST_DD_CMD_ERG_LAST : Fld := ⟨0x0A10, 7, 5⟩
/-- BIST_RES_STAT of R540. -/
def O.BIST_RES_STAT : Nat := 0x0A14
def F.BIST_RES_STAT_QUEUED : Fld := ⟨0x0A14, 0, 7⟩
def F.BIST_RES_STAT_LOST_CNT : Fld := ⟨0x0A14, 16, 16⟩
/-- BIST_RES_LO of R540. -/
def O.BIST_RES_LO : Nat := 0x0A18
def F.BIST_RES_LO_LO : Fld := ⟨0x0A18, 0, 32⟩
/-- BIST_RES_HI of R540. -/
def O.BIST_RES_HI : Nat := 0x0A1C
def F.BIST_RES_HI_HI : Fld := ⟨0x0A1C, 0, 32⟩
/-- BIST_SCAN_CTRL of R540. -/
def O.BIST_SCAN_CTRL : Nat := 0x0B00
def F.BIST_SCAN_CTRL_CHAIN : Fld := ⟨0x0B00, 0, 8⟩
def F.BIST_SCAN_CTRL_EN : Fld := ⟨0x0B00, 8, 1⟩
/-- BIST_SCAN_DATA of R540. -/
def O.BIST_SCAN_DATA : Nat := 0x0B04
def F.BIST_SCAN_DATA_DATA : Fld := ⟨0x0B04, 0, 32⟩
/-- SCRB_PS_SEL of R540. -/
def O.SCRB_PS_SEL : Nat := 0x0200
def F.SCRB_PS_SEL_ERG : Fld := ⟨0x0200, 0, 5⟩
/-- SCRB_PS_LAP of R540. -/
def O.SCRB_PS_LAP : Nat := 0x0204
def F.SCRB_PS_LAP_LAP_US : Fld := ⟨0x0204, 0, 16⟩
def F.SCRB_PS_LAP_LAPS : Fld := ⟨0x0204, 16, 16⟩
/-- SCRB_PS_CNT of R540. -/
def O.SCRB_PS_CNT : Nat := 0x0208
def F.SCRB_PS_CNT_CORR : Fld := ⟨0x0208, 0, 16⟩
def F.SCRB_PS_CNT_VOTE_FIX : Fld := ⟨0x0208, 16, 16⟩
/-- LH_FLOG_STAT of R540. -/
def O.LH_FLOG_STAT : Nat := 0x0300
def F.LH_FLOG_STAT_UNREAD : Fld := ⟨0x0300, 0, 10⟩
def F.LH_FLOG_STAT_LOST_CNT : Fld := ⟨0x0300, 16, 16⟩
/-- LH_FLOG_PORT of R540. -/
def O.LH_FLOG_PORT : Nat := 0x0304
def F.LH_FLOG_PORT_WORD : Fld := ⟨0x0304, 0, 32⟩
/-- LH_QCAUSE of R540. -/
def O.LH_QCAUSE : Nat := 0x0308
def F.LH_QCAUSE_CAUSE : Fld := ⟨0x0308, 0, 11⟩
def F.LH_QCAUSE_Q_CNT : Fld := ⟨0x0308, 16, 16⟩

/-- The header of every block (R8). -/
def headerRegs : List RegDef :=
  [⟨"BLK_ID", 0x0000, 0x0, 1, .full, false, [⟨0, 8, .ro, 0x0⟩, ⟨8, 8, .ro, 0x1⟩, ⟨16, 8, .ro, 0x0⟩, ⟨24, 8, .ro, 0xA2⟩]⟩,
   ⟨"BLK_CTRL", 0x0004, 0x0, 1, .full, false, [⟨0, 1, .rw, 0x0⟩, ⟨1, 1, .wo, 0x0⟩, ⟨8, 8, .rw, 0x0⟩, ⟨31, 1, .w1s, 0x0⟩]⟩,
   ⟨"BLK_STATUS", 0x0008, 0x0, 1, .full, false, [⟨0, 4, .ro, 0x0⟩, ⟨4, 1, .ro, 0x0⟩, ⟨16, 16, .ro, 0x0⟩]⟩,
   ⟨"BLK_FREEZE", 0x000C, 0x0, 1, .full, false, [⟨0, 2, .rw, 0x0⟩]⟩,
   ⟨"EVT_STATUS", 0x0010, 0x0, 1, .full, false, [⟨0, 31, .w1c, 0x0⟩, ⟨31, 1, .w1c, 0x0⟩]⟩,
   ⟨"EVT_ENABLE", 0x0014, 0x0, 1, .full, false, [⟨0, 32, .rw, 0x0⟩]⟩,
   ⟨"EVT_FORCE", 0x0018, 0x0, 1, .full, false, [⟨0, 32, .wo, 0x0⟩]⟩,
   ⟨"EVT_BUCKET", 0x001C, 0x0, 1, .full, false, [⟨0, 12, .ro, 0x0⟩, ⟨12, 12, .rwl, 0x100⟩, ⟨24, 4, .rwl, 0x4⟩]⟩]

/-- The error-injection registers of the blocks with stored-data codes (R13, R14). -/
def flipRegs : List RegDef :=
  [⟨"ECC_FLIP_LO", 0x0020, 0x0, 1, .full, false, [⟨0, 32, .rw, 0x0⟩]⟩,
   ⟨"ECC_FLIP_HI", 0x0024, 0x0, 1, .full, false, [⟨0, 32, .rw, 0x0⟩]⟩]

/-- The registers of a LH block (R469, R495, R540). -/
def regsLH : List RegDef :=
  [⟨"LH_PART", 0x0100, 0x0, 1, .isl, false, [⟨0, 4, .ro, 0x3⟩, ⟨4, 1, .ro, 0x0⟩]⟩,
   ⟨"LH_MODE", 0x0104, 0x0, 1, .isl, false, [⟨0, 4, .ro, 0x0⟩, ⟨4, 4, .ro, 0x0⟩, ⟨8, 1, .ro, 0x0⟩]⟩,
   ⟨"LH_RST_CAUSE", 0x0108, 0x0, 1, .isl, false, [⟨0, 4, .ro, 0x0⟩, ⟨4, 6, .ro, 0x0⟩]⟩,
   ⟨"LH_RST_CNT", 0x010C, 0x0, 1, .isl, false, [⟨0, 16, .ro, 0x0⟩, ⟨16, 16, .ro, 0x0⟩]⟩,
   ⟨"LH_RST_CMD", 0x0110, 0x0, 1, .isl, false, [⟨0, 32, .wo, 0x0⟩]⟩,
   ⟨"LH_OSC_CFG", 0x0114, 0x0, 1, .isl, false, [⟨0, 4, .rw, 0x0⟩, ⟨4, 4, .ro, 0x8⟩, ⟨8, 1, .wo, 0x0⟩]⟩,
   ⟨"LH_HEAT_CFG", 0x0200, 0x0, 1, .isl, false, [⟨0, 1, .rw, 0x1⟩, ⟨1, 2, .rw, 0x1⟩]⟩,
   ⟨"LH_WEAR_BINn", 0x0210, 0x4, 4, .isl, false, [⟨0, 32, .ro, 0x0⟩]⟩,
   ⟨"LH_LIFE", 0x0220, 0x0, 1, .isl, false, [⟨0, 16, .ro, 0x0⟩]⟩,
   ⟨"LH_FLOG_STAT", 0x0300, 0x0, 1, .isl, false, [⟨0, 10, .ro, 0x0⟩, ⟨16, 16, .ro, 0x0⟩]⟩,
   ⟨"LH_FLOG_PORT", 0x0304, 0x0, 1, .isl, false, [⟨0, 32, .ro, 0x0⟩]⟩,
   ⟨"LH_QCAUSE", 0x0308, 0x0, 1, .isl, false, [⟨0, 11, .ro, 0x0⟩, ⟨16, 16, .ro, 0x0⟩]⟩]

/-- The registers of a CLK block (R469). -/
def regsCLK : List RegDef :=
  [⟨"CLK_TICK_CFG", 0x0100, 0x0, 1, .full, false, [⟨0, 8, .rw, 0x78⟩, ⟨8, 8, .ro, 0x78⟩]⟩,
   ⟨"CLK_HCLK_CFG", 0x0104, 0x0, 1, .full, false, [⟨0, 8, .rw, 0x3C⟩, ⟨8, 8, .ro, 0x3C⟩]⟩,
   ⟨"CLK_NCLK_CFG", 0x0108, 0x0, 1, .full, false, [⟨0, 8, .rw, 0x50⟩, ⟨8, 8, .ro, 0x50⟩]⟩,
   ⟨"CLK_MCLK_CFG", 0x010C, 0x0, 1, .full, false, [⟨0, 8, .rw, 0x50⟩, ⟨8, 8, .ro, 0x50⟩]⟩,
   ⟨"CLK_CMD", 0x0110, 0x0, 1, .full, false, [⟨0, 1, .wo, 0x0⟩]⟩,
   ⟨"CLK_STAT", 0x0114, 0x0, 1, .full, false, [⟨0, 1, .ro, 0x0⟩, ⟨1, 1, .ro, 0x0⟩, ⟨2, 6, .ro, 0x0⟩]⟩,
   ⟨"CLK_EN0", 0x0120, 0x0, 1, .full, false, [⟨0, 32, .rw, 0xFFFFFFFF⟩]⟩,
   ⟨"CLK_EN1", 0x0124, 0x0, 1, .full, false, [⟨0, 32, .rw, 0xFFFFFFFF⟩]⟩,
   ⟨"CLK_EN2", 0x0128, 0x0, 1, .full, false, [⟨0, 27, .rw, 0x7FFFFFF⟩]⟩,
   ⟨"CLKMON_CFG", 0x0130, 0x0, 1, .full, false, [⟨0, 4, .rw, 0x0⟩, ⟨4, 12, .rw, 0x0⟩, ⟨16, 1, .rw, 0x0⟩]⟩]

/-- The registers of a PWR block (R495). -/
def regsPWR : List RegDef :=
  [⟨"PWR_STAT", 0x0100, 0x0, 1, .full, false, [⟨0, 8, .ro, 0x0⟩, ⟨8, 1, .ro, 0x0⟩, ⟨9, 1, .ro, 0x0⟩]⟩,
   ⟨"PWR_CFG", 0x0104, 0x0, 1, .full, false, [⟨0, 1, .rwl, 0x0⟩]⟩,
   ⟨"PWR_SLEEP_CMD", 0x0108, 0x0, 1, .full, false, [⟨0, 3, .wo, 0x0⟩]⟩,
   ⟨"PWR_ERG_MASK", 0x010C, 0x0, 1, .full, false, [⟨0, 32, .rw, 0x0⟩]⟩,
   ⟨"PWR_ERG_SLACK", 0x0110, 0x0, 1, .full, false, [⟨0, 32, .ro, 0x0⟩]⟩,
   ⟨"PWR_ERG_SEL", 0x0114, 0x0, 1, .full, false, [⟨0, 5, .rw, 0x0⟩]⟩,
   ⟨"PWR_ERG_EST", 0x0118, 0x0, 1, .full, false, [⟨0, 12, .ro, 0x0⟩, ⟨12, 10, .ro, 0x0⟩, ⟨22, 10, .ro, 0x0⟩]⟩,
   ⟨"PWR_RAIL_SEL", 0x011C, 0x0, 1, .full, false, [⟨0, 4, .rw, 0x0⟩]⟩,
   ⟨"PWR_RAIL_I", 0x0120, 0x0, 1, .full, false, [⟨0, 16, .ro, 0x0⟩, ⟨16, 16, .ro, 0x0⟩]⟩,
   ⟨"PWR_OVER_CNT", 0x0124, 0x0, 1, .full, false, [⟨0, 16, .ro, 0x0⟩, ⟨16, 16, .ro, 0x0⟩]⟩]

/-- The registers of a THM block (R495). -/
def regsTHM : List RegDef :=
  [⟨"THM_SEL", 0x0100, 0x0, 1, .full, false, [⟨0, 8, .rw, 0x0⟩]⟩,
   ⟨"THM_VALUE", 0x0104, 0x0, 1, .full, false, [⟨0, 12, .ro, 0x0⟩, ⟨16, 12, .ro, 0x0⟩, ⟨28, 1, .ro, 0x0⟩, ⟨29, 1, .ro, 0x0⟩]⟩,
   ⟨"THM_LIMn", 0x0110, 0x4, 4, .full, false, [⟨0, 8, .rwl, 0x5F⟩, ⟨8, 8, .rwl, 0x6E⟩, ⟨16, 8, .rwl, 0xDD⟩, ⟨24, 8, .rwl, 0xD3⟩]⟩,
   ⟨"THM_CFG", 0x0120, 0x0, 1, .full, false, [⟨0, 4, .rwl, 0x8⟩]⟩,
   ⟨"THM_THETA", 0x0124, 0x0, 1, .full, false, [⟨0, 8, .ro, 0x28⟩, ⟨8, 8, .ro, 0x3C⟩, ⟨16, 8, .ro, 0x78⟩]⟩,
   ⟨"THM_STAT", 0x0128, 0x0, 1, .full, false, [⟨0, 1, .ro, 0x0⟩, ⟨1, 1, .ro, 0x0⟩, ⟨2, 1, .ro, 0x0⟩, ⟨3, 1, .ro, 0x0⟩, ⟨8, 8, .ro, 0x0⟩, ⟨16, 8, .ro, 0x0⟩]⟩,
   ⟨"THM_CMD", 0x012C, 0x0, 1, .full, false, [⟨0, 1, .wo, 0x0⟩]⟩]

/-- The registers of a CFG block (R425). -/
def regsCFG : List RegDef :=
  [⟨"CFG_ID", 0x0100, 0x0, 1, .full, false, [⟨0, 8, .ro, 0x1⟩, ⟨8, 8, .ro, 0xA2⟩, ⟨16, 16, .ro, 0x8192⟩]⟩,
   ⟨"CFG_SERIALn", 0x0104, 0x4, 4, .full, false, [⟨0, 32, .ro, 0x0⟩]⟩,
   ⟨"CFG_CMD", 0x0120, 0x0, 1, .full, false, [⟨0, 3, .wo, 0x0⟩, ⟨3, 2, .wo, 0x0⟩]⟩,
   ⟨"CFG_ACT_CTRL", 0x0124, 0x0, 1, .full, false, [⟨0, 1, .rw, 0x1⟩, ⟨1, 1, .rw, 0x0⟩, ⟨4, 4, .rw, 0x0⟩]⟩,
   ⟨"CFG_ACT_TIDE_LO", 0x0128, 0x0, 1, .full, false, [⟨0, 32, .rw, 0x0⟩]⟩,
   ⟨"CFG_ACT_TIDE_HI", 0x012C, 0x0, 1, .full, false, [⟨0, 32, .rw, 0x0⟩]⟩,
   ⟨"CFG_PIPE", 0x0130, 0x0, 1, .full, false, [⟨0, 3, .ro, 0x0⟩, ⟨3, 2, .ro, 0x0⟩, ⟨8, 8, .ro, 0x0⟩]⟩,
   ⟨"CFG_PROGRESS", 0x0134, 0x0, 1, .full, false, [⟨0, 32, .ro, 0x0⟩]⟩,
   ⟨"CFG_RESULT", 0x0138, 0x0, 1, .full, false, [⟨0, 4, .ro, 0x0⟩, ⟨4, 4, .ro, 0x0⟩, ⟨8, 17, .ro, 0x0⟩, ⟨31, 1, .ro, 0x0⟩]⟩,
   ⟨"CFG_BOOT_STAT", 0x0140, 0x0, 1, .full, false, [⟨0, 2, .ro, 0x0⟩, ⟨2, 1, .ro, 0x0⟩, ⟨3, 1, .ro, 0x0⟩, ⟨4, 1, .ro, 0x0⟩, ⟨8, 4, .ro, 0x0⟩, ⟨12, 4, .ro, 0x0⟩, ⟨16, 4, .ro, 0x0⟩, ⟨20, 4, .ro, 0x0⟩]⟩,
   ⟨"CFG_NV_SEL", 0x0150, 0x0, 1, .full, false, [⟨0, 9, .rw, 0x0⟩]⟩,
   ⟨"CFG_NV_STAT", 0x0154, 0x0, 1, .full, false, [⟨0, 14, .ro, 0x0⟩, ⟨14, 1, .ro, 0x0⟩, ⟨16, 10, .ro, 0x0⟩]⟩]

/-- The registers of a SEC block (R448). -/
def regsSEC : List RegDef :=
  [⟨"SEC_LC", 0x0100, 0x0, 1, .isl, false, [⟨0, 3, .ro, 0x1⟩, ⟨3, 1, .ro, 0x0⟩, ⟨4, 1, .ro, 0x0⟩]⟩,
   ⟨"SEC_CMD", 0x0104, 0x0, 1, .full, false, [⟨0, 4, .wo, 0x0⟩, ⟨4, 3, .wo, 0x0⟩, ⟨7, 1, .wo, 0x0⟩]⟩,
   ⟨"SEC_SESS", 0x0108, 0x0, 1, .full, false, [⟨0, 2, .ro, 0x0⟩, ⟨2, 2, .ro, 0x0⟩, ⟨4, 1, .ro, 0x0⟩, ⟨8, 4, .ro, 0x0⟩, ⟨16, 16, .ro, 0x0⟩]⟩,
   ⟨"SEC_MBOX_CTRL", 0x010C, 0x0, 1, .full, false, [⟨0, 14, .rw, 0x0⟩]⟩,
   ⟨"SEC_MBOX_DATA", 0x0110, 0x0, 1, .full, false, [⟨0, 32, .rw, 0x0⟩]⟩,
   ⟨"SEC_NONCEn", 0x0120, 0x4, 8, .full, false, [⟨0, 32, .ro, 0x0⟩]⟩,
   ⟨"SEC_TAMPER_CFG", 0x0140, 0x0, 1, .full, false, [⟨0, 4, .rwl, 0xF⟩, ⟨4, 1, .rwl, 0x1⟩, ⟨5, 1, .rwl, 0x1⟩, ⟨6, 1, .rwl, 0x1⟩]⟩,
   ⟨"SEC_TAMPER_STAT", 0x0144, 0x0, 1, .isl, false, [⟨0, 4, .ro, 0x0⟩, ⟨16, 16, .ro, 0x0⟩]⟩,
   ⟨"SEC_RNG_STAT", 0x0148, 0x0, 1, .full, false, [⟨0, 1, .ro, 0x0⟩, ⟨16, 16, .ro, 0x0⟩]⟩]

/-- The registers of a TIDE block (R89, R170). -/
def regsTIDE : List RegDef :=
  [⟨"TIDE_CTRL", 0x0100, 0x0, 1, .full, false, [⟨0, 2, .wo, 0x0⟩, ⟨2, 1, .wo, 0x0⟩, ⟨8, 1, .rwl, 0x0⟩, ⟨9, 1, .rwl, 0x0⟩]⟩,
   ⟨"TIDE_LEN", 0x0104, 0x0, 1, .full, false, [⟨0, 17, .ro, 0x2EE⟩]⟩,
   ⟨"TIDE_NUM_LO", 0x0108, 0x0, 1, .full, false, [⟨0, 32, .ro, 0x0⟩]⟩,
   ⟨"TIDE_NUM_HI", 0x010C, 0x0, 1, .full, false, [⟨0, 32, .ro, 0x0⟩]⟩,
   ⟨"TIDE_START_LO", 0x0110, 0x0, 1, .full, false, [⟨0, 32, .rw, 0x0⟩]⟩,
   ⟨"TIDE_START_HI", 0x0114, 0x0, 1, .full, false, [⟨0, 32, .rw, 0x0⟩]⟩,
   ⟨"TURN_TIME_LO", 0x0118, 0x0, 1, .full, false, [⟨0, 32, .ro, 0x0⟩]⟩,
   ⟨"TURN_TIME_HI", 0x011C, 0x0, 1, .full, false, [⟨0, 32, .ro, 0x0⟩]⟩,
   ⟨"TIDE_SKEW", 0x0120, 0x0, 1, .full, false, [⟨0, 12, .ro, 0x0⟩, ⟨12, 4, .ro, 0x0⟩]⟩,
   ⟨"BREACH_POLICY", 0x0124, 0x0, 1, .full, false, [⟨0, 2, .rwl, 0x1⟩]⟩,
   ⟨"BREACH_CNT", 0x0128, 0x0, 1, .full, false, [⟨0, 16, .ro, 0x0⟩, ⟨16, 16, .ro, 0x0⟩]⟩,
   ⟨"BREACH_FIRST0", 0x0130, 0x0, 1, .full, false, [⟨0, 4, .ro, 0x0⟩, ⟨4, 5, .ro, 0x0⟩, ⟨16, 13, .ro, 0x0⟩]⟩,
   ⟨"BREACH_FIRST1", 0x0134, 0x0, 1, .full, false, [⟨0, 32, .ro, 0x0⟩]⟩,
   ⟨"BREACH_LAST0", 0x0138, 0x0, 1, .full, false, [⟨0, 32, .ro, 0x0⟩]⟩,
   ⟨"BREACH_LAST1", 0x013C, 0x0, 1, .full, false, [⟨0, 32, .ro, 0x0⟩]⟩,
   ⟨"PSW_CTRL", 0x0200, 0x0, 1, .full, false, [⟨0, 16, .rwl, 0xBB8⟩]⟩,
   ⟨"PSW_LIMIT", 0x0204, 0x0, 1, .full, false, [⟨0, 24, .rwl, 0x2EE000⟩]⟩,
   ⟨"PSW_NOW", 0x0208, 0x0, 1, .full, false, [⟨0, 24, .ro, 0x0⟩]⟩,
   ⟨"PSW_MAX", 0x020C, 0x0, 1, .full, false, [⟨0, 24, .ro, 0x0⟩, ⟨24, 8, .ro, 0x0⟩]⟩]

/-- The registers of a DBG block (R518). -/
def regsDBG : List RegDef :=
  [⟨"DBG_CTRL", 0x0100, 0x0, 1, .full, false, [⟨0, 2, .wo, 0x0⟩, ⟨2, 1, .wo, 0x0⟩]⟩,
   ⟨"DBG_STAT", 0x0104, 0x0, 1, .full, false, [⟨0, 1, .ro, 0x0⟩, ⟨1, 1, .ro, 0x0⟩, ⟨2, 1, .ro, 0x0⟩, ⟨3, 1, .ro, 0x0⟩, ⟨4, 1, .ro, 0x0⟩, ⟨8, 4, .ro, 0x0⟩, ⟨16, 16, .ro, 0x0⟩]⟩,
   ⟨"DBG_HALT_TIDE_LO", 0x0108, 0x0, 1, .full, false, [⟨0, 32, .ro, 0x0⟩]⟩,
   ⟨"DBG_HALT_TIDE_HI", 0x010C, 0x0, 1, .full, false, [⟨0, 32, .ro, 0x0⟩]⟩,
   ⟨"DBG_STEP", 0x0110, 0x0, 1, .full, false, [⟨0, 16, .rw, 0x1⟩]⟩,
   ⟨"DBG_BP_CFG", 0x0114, 0x0, 1, .full, false, [⟨0, 1, .rw, 0x0⟩, ⟨1, 1, .rw, 0x0⟩, ⟨2, 1, .rw, 0x0⟩, ⟨3, 1, .rw, 0x0⟩, ⟨8, 8, .rw, 0x0⟩, ⟨16, 5, .rw, 0x0⟩]⟩,
   ⟨"DBG_BP_TIDE_LO", 0x0118, 0x0, 1, .full, false, [⟨0, 32, .rw, 0x0⟩]⟩,
   ⟨"DBG_BP_TIDE_HI", 0x011C, 0x0, 1, .full, false, [⟨0, 32, .rw, 0x0⟩]⟩,
   ⟨"DBG_RESUME_AT_LO", 0x0120, 0x0, 1, .full, false, [⟨0, 32, .ro, 0x0⟩]⟩,
   ⟨"DBG_RESUME_AT_HI", 0x0124, 0x0, 1, .full, false, [⟨0, 32, .ro, 0x0⟩]⟩,
   ⟨"DBG_WIRE_CNT", 0x0128, 0x0, 1, .full, false, [⟨0, 16, .ro, 0x0⟩, ⟨16, 16, .ro, 0x0⟩]⟩]

/-- The registers of a HN block (R252). -/
def regsHN : List RegDef :=
  [⟨"HN_ID", 0x0100, 0x0, 1, .full, false, [⟨0, 3, .ro, 0x0⟩, ⟨3, 3, .ro, 0x0⟩, ⟨8, 3, .rwl, 0x0⟩, ⟨11, 3, .rwl, 0x0⟩]⟩,
   ⟨"HN_SCH_WAIT", 0x0104, 0x0, 1, .full, false, [⟨0, 8, .rwl, 0x8⟩]⟩,
   ⟨"HN_SCH_MAXWAIT", 0x0108, 0x0, 1, .full, false, [⟨0, 8, .ro, 0x0⟩, ⟨16, 16, .ro, 0x0⟩]⟩,
   ⟨"HN_QG_MISC", 0x010C, 0x0, 1, .full, false, [⟨0, 4, .rw, 0x8⟩, ⟨4, 4, .rw, 0x9⟩, ⟨8, 4, .rw, 0xC⟩, ⟨12, 4, .rw, 0xD⟩]⟩,
   ⟨"HN_TOn", 0x0110, 0x4, 8, .full, false, [⟨0, 21, .rwl, 0x1E848⟩]⟩,
   ⟨"HN_ERR_CNT", 0x0130, 0x0, 1, .full, false, [⟨0, 16, .ro, 0x0⟩, ⟨16, 16, .ro, 0x0⟩]⟩,
   ⟨"HN_TO_CNT", 0x0134, 0x0, 1, .full, false, [⟨0, 16, .ro, 0x0⟩, ⟨16, 16, .ro, 0x0⟩]⟩,
   ⟨"HN_MISC_CNT", 0x0138, 0x0, 1, .full, false, [⟨0, 16, .ro, 0x0⟩, ⟨16, 16, .ro, 0x0⟩]⟩,
   ⟨"HN_QG_ERGn", 0x0200, 0x4, 32, .full, false, [⟨0, 4, .rw, 0x1⟩, ⟨4, 4, .rw, 0x4⟩]⟩]

/-- The registers of a ADM block (R89). -/
def regsADM : List RegDef :=
  [⟨"ADM_RESULT", 0x0100, 0x0, 1, .full, false, [⟨0, 4, .ro, 0x0⟩, ⟨4, 4, .ro, 0x0⟩, ⟨8, 13, .ro, 0x0⟩, ⟨31, 1, .ro, 0x0⟩]⟩,
   ⟨"ADM_RESOURCE", 0x0104, 0x0, 1, .full, false, [⟨0, 4, .ro, 0x0⟩, ⟨4, 13, .ro, 0x0⟩]⟩,
   ⟨"ADM_RESOURCE_TIDE", 0x0110, 0x0, 1, .full, false, [⟨0, 20, .ro, 0x0⟩]⟩,
   ⟨"ADM_BOUND_SEL", 0x0108, 0x0, 1, .full, false, [⟨0, 13, .rw, 0x0⟩]⟩,
   ⟨"ADM_BOUND", 0x010C, 0x0, 1, .full, false, [⟨0, 24, .ro, 0x0⟩]⟩]

/-- The registers of a MCE block (R312). -/
def regsMCE : List RegDef :=
  [⟨"MCE_RANGE_SEL", 0x0100, 0x0, 1, .full, false, [⟨0, 4, .rw, 0x0⟩]⟩,
   ⟨"MCE_RANGE_CFG", 0x0104, 0x0, 1, .full, false, [⟨0, 9, .rw, 0x0⟩, ⟨9, 9, .rw, 0x0⟩, ⟨18, 2, .rw, 0x0⟩, ⟨20, 6, .rw, 0x0⟩]⟩,
   ⟨"MCE_RANGE_META", 0x0108, 0x0, 1, .full, false, [⟨0, 9, .rw, 0x0⟩]⟩,
   ⟨"MCE_RANGE_CMD", 0x010C, 0x0, 1, .full, false, [⟨0, 3, .wo, 0x0⟩, ⟨4, 6, .wo, 0x0⟩]⟩,
   ⟨"MCE_RANGE_STAT", 0x0110, 0x0, 1, .full, false, [⟨0, 2, .ro, 0x0⟩, ⟨2, 1, .ro, 0x0⟩, ⟨3, 1, .ro, 0x0⟩, ⟨4, 2, .ro, 0x0⟩, ⟨6, 6, .ro, 0x0⟩, ⟨16, 14, .ro, 0x0⟩]⟩,
   ⟨"MCE_META_CFG", 0x0120, 0x0, 1, .full, false, [⟨0, 9, .rw, 0x0⟩, ⟨9, 10, .rw, 0x0⟩]⟩,
   ⟨"MCE_KEY_CMD", 0x0200, 0x0, 1, .full, false, [⟨0, 3, .wo, 0x0⟩, ⟨3, 1, .wo, 0x0⟩, ⟨4, 6, .wo, 0x0⟩]⟩,
   ⟨"MCE_KEY_SEL", 0x0204, 0x0, 1, .full, false, [⟨0, 6, .rw, 0x0⟩, ⟨6, 1, .rw, 0x0⟩]⟩,
   ⟨"MCE_KEY_STAT", 0x0208, 0x0, 1, .full, false, [⟨0, 2, .ro, 0x0⟩, ⟨16, 16, .ro, 0x0⟩]⟩,
   ⟨"MCE_WRAPn", 0x0240, 0x4, 18, .full, false, [⟨0, 32, .wo, 0x0⟩]⟩,
   ⟨"MCE_BOUND0", 0x0300, 0x0, 1, .full, false, [⟨0, 12, .ro, 0x198⟩, ⟨16, 12, .ro, 0x6C8⟩]⟩,
   ⟨"MCE_BOUND1", 0x0304, 0x0, 1, .full, false, [⟨0, 8, .ro, 0x10⟩]⟩,
   ⟨"MCE_POISON_SEL", 0x0310, 0x0, 1, .full, false, [⟨0, 6, .rw, 0x0⟩]⟩,
   ⟨"MCE_POISON_ENTRY", 0x0314, 0x0, 1, .full, false, [⟨0, 4, .ro, 0x0⟩, ⟨4, 2, .ro, 0x0⟩, ⟨6, 1, .ro, 0x0⟩, ⟨8, 21, .ro, 0x0⟩]⟩,
   ⟨"MCE_ERR_CNT", 0x0318, 0x0, 1, .full, false, [⟨0, 16, .ro, 0x0⟩, ⟨16, 16, .ro, 0x0⟩]⟩]

/-- The registers of a PCIE block (R390). -/
def regsPCIE : List RegDef :=
  [⟨"PCIE_ID", 0x0100, 0x0, 1, .full, false, [⟨0, 16, .ro, 0x8192⟩, ⟨16, 16, .ro, 0x1F6A⟩]⟩,
   ⟨"PCIE_LINK", 0x0104, 0x0, 1, .full, false, [⟨0, 3, .ro, 0x0⟩, ⟨3, 5, .ro, 0x0⟩, ⟨8, 1, .ro, 0x0⟩, ⟨9, 3, .ro, 0x5⟩]⟩,
   ⟨"PCIE_CTRL", 0x0108, 0x0, 1, .full, false, [⟨0, 1, .rwl, 0x0⟩]⟩,
   ⟨"PCIE_ERR", 0x010C, 0x0, 1, .full, false, [⟨0, 4, .ro, 0x0⟩, ⟨4, 1, .ro, 0x0⟩, ⟨5, 2, .ro, 0x0⟩, ⟨16, 16, .ro, 0x0⟩]⟩,
   ⟨"PCIE_VEC_MAPn", 0x0200, 0x4, 91, .full, false, [⟨0, 8, .rw, 0x0⟩, ⟨8, 1, .rw, 0x0⟩]⟩]

/-- The registers of a ETH block (R390). -/
def regsETH : List RegDef :=
  [⟨"ETH_CFGp", 0x0100, 0x20, 4, .full, false, [⟨0, 1, .rw, 0x0⟩, ⟨1, 1, .rw, 0x0⟩, ⟨2, 1, .rw, 0x0⟩, ⟨3, 1, .rw, 0x0⟩, ⟨4, 1, .rw, 0x0⟩, ⟨5, 1, .rw, 0x0⟩, ⟨8, 1, .ro, 0x0⟩]⟩,
   ⟨"ETH_MAC_LOp", 0x0104, 0x20, 4, .full, false, [⟨0, 32, .rw, 0x0⟩]⟩,
   ⟨"ETH_MAC_HIp", 0x0108, 0x20, 4, .full, false, [⟨0, 16, .rw, 0x0⟩]⟩,
   ⟨"ETH_CNTp", 0x010C, 0x20, 4, .full, false, [⟨0, 16, .ro, 0x0⟩, ⟨16, 16, .ro, 0x0⟩]⟩,
   ⟨"ST_CTRL", 0x0200, 0x0, 1, .full, false, [⟨0, 2, .rw, 0x0⟩, ⟨2, 4, .rw, 0x0⟩, ⟨8, 1, .wo, 0x0⟩]⟩,
   ⟨"ST_STAT", 0x0204, 0x0, 1, .full, false, [⟨0, 1, .ro, 0x0⟩, ⟨1, 1, .ro, 0x0⟩, ⟨16, 16, .ro, 0x0⟩]⟩,
   ⟨"ST_NOW_LO", 0x0208, 0x0, 1, .full, false, [⟨0, 32, .ro, 0x0⟩]⟩,
   ⟨"ST_NOW_HI", 0x020C, 0x0, 1, .full, false, [⟨0, 32, .ro, 0x0⟩]⟩,
   ⟨"ST_NOW_FRAC", 0x0210, 0x0, 1, .full, false, [⟨0, 32, .ro, 0x0⟩]⟩,
   ⟨"ST_STEP_LO", 0x0214, 0x0, 1, .full, false, [⟨0, 32, .rw, 0x0⟩]⟩,
   ⟨"ST_STEP_HI", 0x0218, 0x0, 1, .full, false, [⟨0, 32, .rw, 0x0⟩]⟩,
   ⟨"ST_RATE", 0x021C, 0x0, 1, .full, false, [⟨0, 32, .rw, 0x0⟩]⟩,
   ⟨"ST_PPS_CFG", 0x0220, 0x0, 1, .full, false, [⟨0, 1, .rw, 0x0⟩, ⟨1, 1, .rw, 0x0⟩, ⟨2, 9, .rw, 0x64⟩]⟩,
   ⟨"ST_PPS_CAP_LO", 0x0224, 0x0, 1, .full, false, [⟨0, 32, .ro, 0x0⟩]⟩,
   ⟨"ST_PPS_CAP_HI", 0x0228, 0x0, 1, .full, false, [⟨0, 32, .ro, 0x0⟩]⟩]

/-- The registers of a CSP block (R390). -/
def regsCSP : List RegDef :=
  [⟨"CSP_STAT", 0x0100, 0x0, 1, .full, false, [⟨0, 2, .ro, 0x0⟩, ⟨2, 1, .ro, 0x0⟩, ⟨3, 1, .ro, 0x0⟩, ⟨16, 16, .ro, 0x0⟩]⟩]

/-- The registers of a LGT block (R390). -/
def regsLGT : List RegDef :=
  [⟨"LGT_CFGn", 0x0100, 0x20, 16, .full, false, [⟨0, 2, .rw, 0x0⟩, ⟨2, 2, .rw, 0x0⟩, ⟨4, 4, .rw, 0x4⟩, ⟨8, 4, .rw, 0xB⟩, ⟨12, 1, .rw, 0x0⟩, ⟨13, 1, .rw, 0x0⟩]⟩,
   ⟨"LGT_BASE_LOn", 0x0104, 0x20, 16, .full, false, [⟨0, 32, .rw, 0x0⟩]⟩,
   ⟨"LGT_BASE_HIn", 0x0108, 0x20, 16, .full, false, [⟨0, 32, .rw, 0x0⟩]⟩,
   ⟨"LGT_PRODn", 0x010C, 0x20, 16, .full, false, [⟨0, 12, .rw, 0x0⟩]⟩,
   ⟨"LGT_STATn", 0x0110, 0x20, 16, .full, false, [⟨0, 12, .ro, 0x0⟩, ⟨12, 2, .ro, 0x0⟩, ⟨16, 4, .ro, 0x0⟩]⟩,
   ⟨"LGT_CMDn", 0x0114, 0x20, 16, .full, false, [⟨0, 2, .wo, 0x0⟩]⟩]

/-- The registers of a DMC block (R252, R278). -/
def regsDMC : List RegDef :=
  [⟨"ARB_PRIO_MAP0", 0x0400, 0x0, 1, .full, false, [⟨0, 4, .rw, 0x0⟩, ⟨4, 4, .rw, 0x1⟩, ⟨8, 4, .rw, 0x2⟩, ⟨12, 4, .rw, 0x3⟩, ⟨16, 4, .rw, 0x4⟩, ⟨20, 4, .rw, 0x5⟩, ⟨24, 4, .rw, 0x6⟩, ⟨28, 4, .rw, 0x7⟩]⟩,
   ⟨"ARB_PRIO_MAP1", 0x0404, 0x0, 1, .full, false, [⟨0, 4, .rw, 0x8⟩, ⟨4, 4, .rw, 0x9⟩, ⟨8, 4, .rw, 0xA⟩, ⟨12, 4, .rw, 0xB⟩, ⟨16, 4, .rw, 0xC⟩, ⟨20, 4, .rw, 0xD⟩, ⟨24, 4, .rw, 0xE⟩, ⟨28, 4, .rw, 0xF⟩]⟩,
   ⟨"ARB_CFG", 0x0408, 0x0, 1, .full, false, [⟨0, 4, .rwl, 0x4⟩, ⟨8, 16, .rwl, 0x100⟩]⟩,
   ⟨"ARB_FLAG", 0x040C, 0x0, 1, .full, false, [⟨0, 16, .w1c, 0x0⟩, ⟨16, 16, .ro, 0x0⟩]⟩,
   ⟨"ARB_CUT_CNT", 0x0410, 0x0, 1, .full, false, [⟨0, 16, .ro, 0x0⟩]⟩,
   ⟨"ARB_QUOTAn", 0x0440, 0x4, 16, .full, false, [⟨0, 16, .rwl, 0x0⟩, ⟨16, 16, .ro, 0x0⟩]⟩,
   ⟨"DMC_CFG", 0x0100, 0x0, 1, .full, false, [⟨0, 2, .rwl, 0x2⟩, ⟨8, 6, .rwl, 0x20⟩, ⟨16, 2, .rwl, 0x0⟩]⟩,
   ⟨"DMC_CMD", 0x0104, 0x0, 1, .full, false, [⟨0, 3, .wo, 0x0⟩, ⟨8, 8, .wo, 0x0⟩]⟩,
   ⟨"DMC_MAINT_TIDE", 0x0108, 0x0, 1, .full, false, [⟨0, 32, .rw, 0x0⟩]⟩,
   ⟨"DMC_STATE", 0x010C, 0x0, 1, .full, false, [⟨0, 2, .ro, 0x0⟩, ⟨2, 1, .ro, 0x0⟩, ⟨8, 8, .ro, 0x0⟩, ⟨16, 9, .ro, 0x0⟩]⟩,
   ⟨"DMC_TIMING0", 0x0200, 0x0, 1, .full, false, [⟨0, 8, .rw, 0x50⟩, ⟨8, 8, .rw, 0x1C⟩, ⟨16, 8, .rw, 0x18⟩, ⟨24, 8, .rw, 0x4⟩]⟩,
   ⟨"DMC_TIMING1", 0x0204, 0x0, 1, .full, false, [⟨0, 8, .rw, 0xF0⟩, ⟨8, 16, .rw, 0x77⟩, ⟨24, 1, .rw, 0x0⟩]⟩,
   ⟨"DMC_BOUND0", 0x0208, 0x0, 1, .full, false, [⟨0, 16, .ro, 0x9C4⟩]⟩,
   ⟨"DMC_BOUND1", 0x020C, 0x0, 1, .full, false, [⟨0, 11, .ro, 0x88⟩, ⟨16, 8, .ro, 0xF0⟩, ⟨24, 8, .ro, 0x8⟩]⟩,
   ⟨"DMC_LANE_SEL", 0x0300, 0x0, 1, .full, false, [⟨0, 6, .rw, 0x0⟩]⟩,
   ⟨"DMC_LANE_CFG", 0x0304, 0x0, 1, .full, false, [⟨0, 7, .rw, 0x20⟩, ⟨8, 7, .rw, 0x20⟩, ⟨16, 7, .rw, 0x55⟩, ⟨24, 7, .rw, 0x2A⟩]⟩,
   ⟨"DMC_LANE_ERR", 0x0308, 0x0, 1, .full, false, [⟨0, 16, .ro, 0x0⟩]⟩,
   ⟨"DMC_TRAIN_CMD", 0x030C, 0x0, 1, .full, false, [⟨0, 2, .wo, 0x0⟩, ⟨2, 2, .wo, 0x0⟩, ⟨16, 16, .wo, 0x0⟩]⟩,
   ⟨"DMC_MRW", 0x0310, 0x0, 1, .full, false, [⟨0, 12, .wo, 0x0⟩, ⟨12, 8, .wo, 0x0⟩, ⟨20, 2, .wo, 0x0⟩, ⟨22, 1, .wo, 0x0⟩, ⟨31, 1, .wo, 0x0⟩]⟩,
   ⟨"DMC_ERR_ADDR_LO", 0x0500, 0x0, 1, .full, false, [⟨0, 32, .ro, 0x0⟩]⟩,
   ⟨"DMC_ERR_ADDR_HI", 0x0504, 0x0, 1, .full, false, [⟨0, 16, .ro, 0x0⟩]⟩,
   ⟨"DMC_ERR_SYND", 0x0508, 0x0, 1, .full, false, [⟨0, 32, .ro, 0x0⟩]⟩,
   ⟨"DMC_ERR_INFO", 0x050C, 0x0, 1, .full, false, [⟨0, 4, .ro, 0x0⟩, ⟨4, 1, .ro, 0x0⟩, ⟨16, 16, .ro, 0x0⟩]⟩,
   ⟨"DMC_CMPn", 0x0600, 0x4, 16, .full, false, [⟨0, 32, .rw, 0x0⟩]⟩,
   ⟨"DMC_MAP_IDX", 0x0700, 0x0, 1, .full, true, [⟨0, 4, .rw, 0x0⟩]⟩,
   ⟨"DMC_MAP_LO", 0x0704, 0x0, 1, .full, true, [⟨0, 32, .rw, 0x0⟩]⟩,
   ⟨"DMC_MAP_HI", 0x0708, 0x0, 1, .full, true, [⟨0, 16, .rw, 0x0⟩]⟩,
   ⟨"DMC_MAP_CMD", 0x070C, 0x0, 1, .full, true, [⟨0, 1, .wo, 0x0⟩]⟩,
   ⟨"MCACHE_CFG", 0x0800, 0x0, 1, .full, false, [⟨0, 5, .rwl, 0x4⟩]⟩,
   ⟨"MCACHE_CNT", 0x0804, 0x0, 1, .full, false, [⟨0, 16, .ro, 0x0⟩, ⟨16, 16, .ro, 0x0⟩]⟩]

/-- The registers of a CW block (R312, R343). -/
def regsCW : List RegDef :=
  [⟨"CW_KEY_CFG", 0x0700, 0x0, 1, .full, false, [⟨0, 5, .rw, 0x0⟩, ⟨5, 1, .rw, 0x0⟩, ⟨8, 5, .rw, 0x0⟩, ⟨13, 1, .rw, 0x0⟩]⟩,
   ⟨"CW_CTRL", 0x0100, 0x0, 1, .full, false, [⟨0, 1, .rw, 0x0⟩, ⟨1, 1, .wo, 0x0⟩, ⟨2, 1, .wo, 0x0⟩]⟩,
   ⟨"CW_STATUS", 0x0104, 0x0, 1, .full, false, [⟨0, 2, .ro, 0x0⟩, ⟨2, 1, .ro, 0x0⟩, ⟨3, 1, .ro, 0x0⟩, ⟨4, 1, .ro, 0x0⟩, ⟨5, 1, .ro, 0x0⟩, ⟨6, 1, .ro, 0x0⟩, ⟨8, 8, .ro, 0x0⟩]⟩,
   ⟨"CW_PEER", 0x0108, 0x0, 1, .full, false, [⟨0, 6, .ro, 0x0⟩, ⟨6, 4, .ro, 0x0⟩, ⟨16, 8, .ro, 0x0⟩]⟩,
   ⟨"CW_CREDIT", 0x010C, 0x0, 1, .full, false, [⟨0, 8, .ro, 0x0⟩, ⟨8, 8, .ro, 0x0⟩, ⟨16, 8, .ro, 0x0⟩, ⟨24, 8, .ro, 0x0⟩]⟩,
   ⟨"CW_CNT0", 0x0110, 0x0, 1, .full, false, [⟨0, 16, .ro, 0x0⟩, ⟨16, 16, .ro, 0x0⟩]⟩,
   ⟨"CW_CNT1", 0x0114, 0x0, 1, .full, false, [⟨0, 16, .ro, 0x0⟩, ⟨16, 16, .ro, 0x0⟩]⟩,
   ⟨"CW_BOUND", 0x0200, 0x0, 1, .full, false, [⟨0, 10, .ro, 0x5A⟩, ⟨16, 10, .ro, 0xA8⟩]⟩,
   ⟨"CW_DELAY", 0x0204, 0x0, 1, .full, false, [⟨0, 24, .ro, 0x0⟩, ⟨24, 8, .ro, 0x0⟩]⟩,
   ⟨"CW_OFFSET", 0x0208, 0x0, 1, .full, false, [⟨0, 32, .ro, 0x0⟩]⟩,
   ⟨"CW_KEY_NEXT", 0x0704, 0x0, 1, .full, false, [⟨0, 5, .rw, 0x0⟩, ⟨8, 5, .rw, 0x0⟩]⟩]

/-- The registers of a JP block (R366). -/
def regsJP : List RegDef :=
  [⟨"JP_PORT_SEL", 0x0100, 0x0, 1, .full, false, [⟨0, 5, .rw, 0x0⟩, ⟨5, 2, .rw, 0x0⟩]⟩,
   ⟨"JP_PORT_STAT", 0x0104, 0x0, 1, .full, false, [⟨0, 2, .ro, 0x0⟩, ⟨2, 2, .ro, 0x0⟩, ⟨4, 4, .ro, 0x0⟩, ⟨8, 3, .ro, 0x0⟩]⟩,
   ⟨"JP_RX_CNT0", 0x0108, 0x0, 1, .full, false, [⟨0, 16, .ro, 0x0⟩, ⟨16, 16, .ro, 0x0⟩]⟩,
   ⟨"JP_RX_CNT1", 0x010C, 0x0, 1, .full, false, [⟨0, 16, .ro, 0x0⟩, ⟨16, 16, .ro, 0x0⟩]⟩,
   ⟨"JP_RX_CNT2", 0x0110, 0x0, 1, .full, false, [⟨0, 16, .ro, 0x0⟩, ⟨16, 16, .ro, 0x0⟩]⟩,
   ⟨"JP_TX_CNT", 0x0114, 0x0, 1, .full, false, [⟨0, 16, .ro, 0x0⟩, ⟨16, 16, .ro, 0x0⟩]⟩,
   ⟨"JP_MOOR_CFG", 0x0200, 0x0, 1, .moor, false, [⟨0, 1, .ro, 0x0⟩, ⟨1, 3, .ro, 0x0⟩, ⟨4, 5, .ro, 0x0⟩, ⟨9, 1, .ro, 0x0⟩]⟩,
   ⟨"JP_MOOR_LO", 0x0204, 0x0, 1, .moor, false, [⟨0, 32, .ro, 0x0⟩]⟩,
   ⟨"JP_MOOR_MID", 0x0208, 0x0, 1, .moor, false, [⟨0, 32, .ro, 0x0⟩]⟩,
   ⟨"JP_MOOR_HI", 0x020C, 0x0, 1, .moor, false, [⟨0, 16, .ro, 0x0⟩]⟩]

/-- The registers of a ERG block (R141, R170). -/
def regsERG : List RegDef :=
  [⟨"ERG_STATUS", 0x0100, 0x0, 1, .full, false, [⟨0, 3, .ro, 0x0⟩, ⟨3, 1, .ro, 0x0⟩, ⟨4, 1, .ro, 0x0⟩, ⟨5, 1, .ro, 0x0⟩, ⟨6, 1, .ro, 0x0⟩, ⟨16, 7, .ro, 0x0⟩]⟩,
   ⟨"ERG_CTRL", 0x0104, 0x0, 1, .full, false, [⟨0, 1, .rw, 0x0⟩, ⟨1, 1, .rw, 0x0⟩]⟩,
   ⟨"ERG_NOTE_POST", 0x0108, 0x0, 1, .full, false, [⟨0, 4, .wo, 0x0⟩, ⟨4, 1, .wo, 0x0⟩]⟩,
   ⟨"ERG_BERTH_SEL", 0x010C, 0x0, 1, .full, false, [⟨0, 4, .rw, 0x0⟩]⟩,
   ⟨"ERG_BERTH_STAT", 0x0110, 0x0, 1, .full, false, [⟨0, 6, .ro, 0x0⟩, ⟨6, 5, .ro, 0x0⟩, ⟨11, 8, .ro, 0x0⟩, ⟨19, 3, .ro, 0x0⟩]⟩,
   ⟨"ERG_BERTH_CNT", 0x0114, 0x0, 1, .full, false, [⟨0, 16, .ro, 0x0⟩, ⟨16, 16, .ro, 0x0⟩]⟩,
   ⟨"ERG_FAULT", 0x0118, 0x0, 1, .full, false, [⟨0, 4, .ro, 0x0⟩, ⟨4, 4, .ro, 0x0⟩, ⟨8, 3, .ro, 0x0⟩]⟩,
   ⟨"ERG_PLANE_CMD", 0x0200, 0x0, 1, .full, false, [⟨0, 4, .wo, 0x0⟩, ⟨4, 3, .wo, 0x0⟩]⟩,
   ⟨"ERG_PLANE_STATE", 0x0204, 0x0, 1, .full, false, [⟨0, 4, .ro, 0x0⟩, ⟨4, 4, .ro, 0x0⟩, ⟨8, 4, .ro, 0x0⟩, ⟨12, 4, .ro, 0x0⟩, ⟨16, 4, .ro, 0x0⟩, ⟨20, 4, .ro, 0x0⟩, ⟨24, 4, .ro, 0x0⟩, ⟨28, 4, .ro, 0x0⟩]⟩,
   ⟨"ERG_PLANE_OWNER_LO", 0x0208, 0x0, 1, .full, false, [⟨0, 8, .ro, 0x0⟩, ⟨8, 8, .ro, 0x0⟩, ⟨16, 8, .ro, 0x0⟩, ⟨24, 8, .ro, 0x0⟩]⟩,
   ⟨"ERG_PLANE_OWNER_HI", 0x020C, 0x0, 1, .full, false, [⟨0, 8, .ro, 0x0⟩, ⟨8, 8, .ro, 0x0⟩, ⟨16, 8, .ro, 0x0⟩, ⟨24, 8, .ro, 0x0⟩]⟩,
   ⟨"ERG_ACT", 0x0210, 0x0, 1, .full, false, [⟨0, 2, .ro, 0x0⟩, ⟨2, 4, .ro, 0x0⟩, ⟨8, 3, .ro, 0x0⟩, ⟨16, 16, .ro, 0x0⟩]⟩,
   ⟨"ERG_SWITCH", 0x0214, 0x0, 1, .full, false, [⟨0, 7, .ro, 0x0⟩, ⟨16, 16, .ro, 0x0⟩]⟩]

/-- The registers of a HOLD block (R209, R252). -/
def regsHOLD : List RegDef :=
  [⟨"HOLD_CFG", 0x0100, 0x0, 1, .full, false, [⟨0, 4, .ro, 0x8⟩]⟩,
   ⟨"HOLD_ERR_ADDR", 0x0104, 0x0, 1, .full, false, [⟨0, 27, .ro, 0x0⟩]⟩,
   ⟨"HOLD_ERR_INFO", 0x0108, 0x0, 1, .full, false, [⟨0, 8, .ro, 0x0⟩, ⟨8, 4, .ro, 0x0⟩, ⟨16, 16, .ro, 0x0⟩]⟩,
   ⟨"HOLD_HL_CNT", 0x010C, 0x0, 1, .full, false, [⟨0, 16, .ro, 0x0⟩, ⟨16, 16, .ro, 0x0⟩]⟩,
   ⟨"HOLD_REMAP_CMD", 0x0110, 0x0, 1, .full, false, [⟨0, 2, .wo, 0x0⟩, ⟨2, 3, .rw, 0x0⟩, ⟨16, 10, .rw, 0x0⟩]⟩,
   ⟨"HOLD_REMAP_ENTRY", 0x0114, 0x0, 1, .full, false, [⟨0, 9, .rw, 0x0⟩, ⟨9, 5, .rw, 0x0⟩, ⟨14, 1, .ro, 0x0⟩, ⟨16, 4, .ro, 0x0⟩]⟩,
   ⟨"HOLD_XFER_WINDOW", 0x0200, 0x0, 1, .full, true, [⟨0, 16, .rwl, 0xBB8⟩]⟩,
   ⟨"HOLD_XFER_LIMIT", 0x0204, 0x0, 1, .full, true, [⟨0, 24, .rwl, 0x16E360⟩]⟩,
   ⟨"HOLD_XFER_NOW", 0x0208, 0x0, 1, .full, true, [⟨0, 24, .ro, 0x0⟩]⟩,
   ⟨"HOLD_XFER_MAX", 0x020C, 0x0, 1, .full, true, [⟨0, 24, .ro, 0x0⟩, ⟨24, 8, .ro, 0x0⟩]⟩,
   ⟨"HOLD_BOND_CMD", 0x0300, 0x0, 1, .full, true, [⟨0, 2, .wo, 0x0⟩, ⟨2, 5, .wo, 0x0⟩, ⟨7, 1, .wo, 0x0⟩, ⟨8, 5, .wo, 0x0⟩, ⟨13, 1, .wo, 0x0⟩]⟩,
   ⟨"HOLD_BOND_STAT", 0x0304, 0x0, 1, .full, true, [⟨0, 5, .ro, 0x0⟩, ⟨5, 1, .ro, 0x0⟩, ⟨6, 5, .ro, 0x0⟩, ⟨11, 1, .ro, 0x0⟩, ⟨12, 1, .ro, 0x0⟩, ⟨16, 16, .ro, 0x0⟩]⟩,
   ⟨"ARB_PRIO_MAP0", 0x0400, 0x0, 1, .full, false, [⟨0, 4, .rw, 0x0⟩, ⟨4, 4, .rw, 0x1⟩, ⟨8, 4, .rw, 0x2⟩, ⟨12, 4, .rw, 0x3⟩, ⟨16, 4, .rw, 0x4⟩, ⟨20, 4, .rw, 0x5⟩, ⟨24, 4, .rw, 0x6⟩, ⟨28, 4, .rw, 0x7⟩]⟩,
   ⟨"ARB_PRIO_MAP1", 0x0404, 0x0, 1, .full, false, [⟨0, 4, .rw, 0x8⟩, ⟨4, 4, .rw, 0x9⟩, ⟨8, 4, .rw, 0xA⟩, ⟨12, 4, .rw, 0xB⟩, ⟨16, 4, .rw, 0xC⟩, ⟨20, 4, .rw, 0xD⟩, ⟨24, 4, .rw, 0xE⟩, ⟨28, 4, .rw, 0xF⟩]⟩,
   ⟨"ARB_CFG", 0x0408, 0x0, 1, .full, false, [⟨0, 4, .rwl, 0x4⟩, ⟨8, 16, .rwl, 0x100⟩]⟩,
   ⟨"ARB_FLAG", 0x040C, 0x0, 1, .full, false, [⟨0, 16, .w1c, 0x0⟩, ⟨16, 16, .ro, 0x0⟩]⟩,
   ⟨"ARB_CUT_CNT", 0x0410, 0x0, 1, .full, false, [⟨0, 16, .ro, 0x0⟩]⟩,
   ⟨"ARB_QUOTAn", 0x0440, 0x4, 16, .full, false, [⟨0, 16, .rwl, 0x0⟩, ⟨16, 16, .ro, 0x0⟩]⟩]

/-- The registers of a BIST block (R46, R209, R540). -/
def regsBIST : List RegDef :=
  [⟨"STK_BUNDLE_SEL", 0x0800, 0x0, 1, .full, false, [⟨0, 26, .rw, 0x0⟩]⟩,
   ⟨"STK_BUNDLE_LANES", 0x0804, 0x0, 1, .full, false, [⟨0, 7, .ro, 0x0⟩, ⟨7, 1, .ro, 0x0⟩, ⟨8, 7, .ro, 0x0⟩, ⟨15, 1, .ro, 0x0⟩, ⟨16, 7, .ro, 0x0⟩, ⟨23, 1, .ro, 0x0⟩, ⟨24, 7, .ro, 0x0⟩, ⟨31, 1, .ro, 0x0⟩]⟩,
   ⟨"STK_BUNDLE_STATE", 0x0808, 0x0, 1, .full, false, [⟨0, 3, .ro, 0x4⟩, ⟨3, 1, .ro, 0x1⟩, ⟨4, 1, .ro, 0x0⟩, ⟨5, 1, .ro, 0x0⟩, ⟨6, 1, .ro, 0x0⟩, ⟨16, 16, .ro, 0x0⟩]⟩,
   ⟨"STK_SUMMARY", 0x080C, 0x0, 1, .full, false, [⟨0, 16, .ro, 0x0⟩, ⟨16, 12, .ro, 0x0⟩]⟩,
   ⟨"STK_SHOAL_CMD", 0x0810, 0x0, 1, .full, false, [⟨0, 2, .wo, 0x0⟩, ⟨16, 13, .rw, 0x0⟩]⟩,
   ⟨"STK_SHOAL_ENTRY_LO", 0x0814, 0x0, 1, .full, false, [⟨0, 32, .rw, 0x0⟩]⟩,
   ⟨"STK_SHOAL_ENTRY_HI", 0x0818, 0x0, 1, .full, false, [⟨0, 32, .rw, 0x0⟩]⟩,
   ⟨"STK_SHOAL_STAT", 0x081C, 0x0, 1, .full, false, [⟨0, 13, .ro, 0x0⟩, ⟨13, 1, .ro, 0x0⟩, ⟨14, 1, .ro, 0x0⟩, ⟨15, 1, .ro, 0x0⟩, ⟨16, 13, .ro, 0x0⟩]⟩,
   ⟨"MARCH_CMD", 0x0900, 0x0, 1, .full, false, [⟨0, 2, .wo, 0x0⟩, ⟨2, 1, .wo, 0x0⟩, ⟨3, 5, .wo, 0x0⟩, ⟨8, 5, .wo, 0x0⟩]⟩,
   ⟨"MARCH_FAIL0", 0x0904, 0x0, 1, .full, false, [⟨0, 13, .ro, 0x0⟩, ⟨13, 10, .ro, 0x0⟩, ⟨23, 5, .ro, 0x0⟩]⟩,
   ⟨"MARCH_FAIL1", 0x0908, 0x0, 1, .full, false, [⟨0, 7, .ro, 0x0⟩, ⟨7, 1, .ro, 0x0⟩, ⟨16, 16, .ro, 0x0⟩]⟩,
   ⟨"BIST_DD_SEL", 0x0A00, 0x0, 1, .full, false, [⟨0, 5, .rw, 0x0⟩, ⟨5, 2, .rw, 0x0⟩]⟩,
   ⟨"BIST_DD_LAP", 0x0A04, 0x0, 1, .full, false, [⟨0, 10, .ro, 0x0⟩, ⟨16, 16, .ro, 0x0⟩]⟩,
   ⟨"BIST_DD_LAPTIME", 0x0A08, 0x0, 1, .full, false, [⟨0, 32, .ro, 0x0⟩]⟩,
   ⟨"BIST_DD_CNT", 0x0A0C, 0x0, 1, .full, false, [⟨0, 16, .ro, 0x0⟩, ⟨16, 16, .ro, 0x0⟩]⟩,
   ⟨"BIST_DD_CMD", 0x0A10, 0x0, 1, .full, false, [⟨0, 2, .wo, 0x0⟩, ⟨2, 5, .wo, 0x0⟩, ⟨7, 5, .wo, 0x0⟩]⟩,
   ⟨"BIST_RES_STAT", 0x0A14, 0x0, 1, .full, false, [⟨0, 7, .ro, 0x0⟩, ⟨16, 16, .ro, 0x0⟩]⟩,
   ⟨"BIST_RES_LO", 0x0A18, 0x0, 1, .full, false, [⟨0, 32, .ro, 0x0⟩]⟩,
   ⟨"BIST_RES_HI", 0x0A1C, 0x0, 1, .full, false, [⟨0, 32, .ro, 0x0⟩]⟩,
   ⟨"BIST_SCAN_CTRL", 0x0B00, 0x0, 1, .full, false, [⟨0, 8, .rw, 0x0⟩, ⟨8, 1, .rw, 0x0⟩]⟩,
   ⟨"BIST_SCAN_DATA", 0x0B04, 0x0, 1, .full, false, [⟨0, 32, .rw, 0x0⟩]⟩]

/-- The registers of a SCRB block (R209, R540). -/
def regsSCRB : List RegDef :=
  [⟨"SCRB_CMD", 0x0100, 0x0, 1, .full, false, [⟨0, 2, .wo, 0x0⟩]⟩,
   ⟨"SCRB_START", 0x0104, 0x0, 1, .full, false, [⟨0, 22, .rw, 0x0⟩]⟩,
   ⟨"SCRB_ROWS", 0x0108, 0x0, 1, .full, false, [⟨0, 23, .rw, 0x0⟩]⟩,
   ⟨"SCRB_CORR", 0x010C, 0x0, 1, .full, false, [⟨0, 32, .ro, 0x0⟩]⟩,
   ⟨"SCRB_UNCORR", 0x0110, 0x0, 1, .full, false, [⟨0, 16, .ro, 0x0⟩, ⟨16, 14, .ro, 0x0⟩, ⟨30, 1, .ro, 0x0⟩]⟩,
   ⟨"SCRB_FIRST", 0x0114, 0x0, 1, .full, false, [⟨0, 27, .ro, 0x0⟩, ⟨31, 1, .ro, 0x0⟩]⟩,
   ⟨"SCRB_LAST", 0x0118, 0x0, 1, .full, false, [⟨0, 27, .ro, 0x0⟩, ⟨31, 1, .ro, 0x0⟩]⟩,
   ⟨"SCRB_IDLE_CTRL", 0x011C, 0x0, 1, .full, false, [⟨0, 1, .rw, 0x0⟩]⟩,
   ⟨"SCRB_IDLE_LAP", 0x0120, 0x0, 1, .full, false, [⟨0, 32, .ro, 0x0⟩]⟩,
   ⟨"SCRB_PS_SEL", 0x0200, 0x0, 1, .full, false, [⟨0, 5, .rw, 0x0⟩]⟩,
   ⟨"SCRB_PS_LAP", 0x0204, 0x0, 1, .full, false, [⟨0, 16, .ro, 0x0⟩, ⟨16, 16, .ro, 0x0⟩]⟩,
   ⟨"SCRB_PS_CNT", 0x0208, 0x0, 1, .full, false, [⟨0, 16, .ro, 0x0⟩, ⟨16, 16, .ro, 0x0⟩]⟩]

/-- The registers of a WDG block (R469). -/
def regsWDG : List RegDef :=
  [⟨"WDG_CFG", 0x0100, 0x0, 1, .full, false, [⟨0, 1, .w1s, 0x0⟩, ⟨1, 1, .rwl, 0x0⟩]⟩,
   ⟨"WDG_LOAD", 0x0104, 0x0, 1, .full, false, [⟨0, 24, .rwl, 0xF4240⟩]⟩,
   ⟨"WDG_WARN", 0x0108, 0x0, 1, .full, false, [⟨0, 24, .rwl, 0x0⟩]⟩,
   ⟨"WDG_FEED", 0x010C, 0x0, 1, .full, false, [⟨0, 32, .wo, 0x0⟩]⟩,
   ⟨"WDG_COUNT", 0x0110, 0x0, 1, .full, false, [⟨0, 24, .ro, 0xF4240⟩]⟩,
   ⟨"WDG_BAD_FEED", 0x0114, 0x0, 1, .full, false, [⟨0, 16, .ro, 0x0⟩]⟩]

/-- The registers of a block of kind `k` beyond the header. -/
def kindRegs : BlkKind → List RegDef
  | .lh => regsLH
  | .clk => regsCLK
  | .pwr => regsPWR
  | .thm => regsTHM
  | .cfg => regsCFG
  | .sec => regsSEC
  | .tide => regsTIDE
  | .dbg => regsDBG
  | .hn => regsHN
  | .adm => regsADM
  | .mce => regsMCE
  | .pcie => regsPCIE
  | .eth => regsETH
  | .csp => regsCSP
  | .lgt => regsLGT
  | .dmc => regsDMC
  | .cw => regsCW
  | .jp => regsJP
  | .erg => regsERG
  | .hold => regsHOLD
  | .bist => regsBIST
  | .scrb => regsSCRB
  | .wdg => regsWDG

end Sys2Proof.Machine
end

