-- ==== Sys2Proof/Machine/StateA.lean ====
section
/-! DEFINITION. Machine/StateA.lean: the parts of the state of the management side: the stack, the tide, run control,
resets and clocks, security, the fault log and self-test (chapters 01, 02, 13, 14, 16, 17). -/

namespace Sys2Proof.Machine

/-- One vertical bundle (R25, R30): lanes steered out, faulty lanes that await their turn, and its marks; the shoal-map cause of the lane
marked latest (R36). -/
structure BundleSt where
  steered : List Nat := []
  waiting : List Nat := []
  suspect : Bool := false
  exhausted : Bool := false
  cause : Nat := 2
  miss : Nat := 0
  deriving DecidableEq, Repr

/-- One shoal-map entry (R36). -/
structure ShoalEntry where
  lo : Word
  hi : Word
  deriving DecidableEq, Repr

/-- The stack: bundles by bundle ID and the volatile shoal map (R35). `dirty`: entries wait for their non-volatile write
(R38). `lost`: the latest Boot found no valid copy; `both`: the next write writes both copies (R39). `updates`: UPDATE_COUNT of the copy in use. `fences`: ergs that
an exhausted bundle fences at the next turn (R33). -/
structure StackSt where
  bundles : Map BundleSt := []
  shoal : List ShoalEntry := []
  persisted : Nat := 0
  dirty : Bool := false
  lost : Bool := false
  both : Bool := false
  updates : Nat := 0
  lastCopy : Nat := 1
  fences : List Nat := []
  deriving DecidableEq, Repr

/-- One declaration of the traffic manifest (R72). -/
structure Decl where
  srcBerth : Nat
  kind : Nat
  destDev : Nat
  remote : Bool
  destAddr : Nat
  size : Nat
  period : Nat
  phase : Nat
  issueTick : Nat
  releaseOffset : Nat
  remoteTicks : Nat
  deriving DecidableEq, Repr

/-- What the schedule gate has done for a declaration in a tide (R67): nothing, holds a request, has sent one, has cancelled the
issue. -/
inductive GateSt where
  | idle
  | held (len : Nat) (tag : Nat) (data : List Byte)
  | accepted
  | cancelled
  deriving DecidableEq, Repr

/-- A scheduled transfer that has been issued and not yet been delivered (R66 to R69): the berth whose release buffer takes its
data, or the source berth of a WRITE_MEM; whether another device issued it; whether it is complete, in time, with which status
and data. -/
structure Transfer where
  decl : Nat
  issueTide : Nat
  releaseTide : Nat
  berth : Nat
  kind : Nat
  remote : Bool := false
  done : Bool := false
  onTime : Bool := false
  status : Status := .ok
  data : List Byte := []
  deriving DecidableEq, Repr

/-- What crosses a bounded-release queue (R59): a row command, a row, a berth's request, a message to a berth, a jetty burst, a request for
the memory behind an arbiter, a response from it. -/
inductive XItem where
  | rowCommand (erg dune row : Nat) (lower : Bool)
  | row (erg dune : Nat)
  | message (berth : Nat)
  | delivery (berth : Nat)
  | request (arb : Nat)
  | response (arb : Nat)
  | burst (port : Nat)
  deriving DecidableEq, Repr

/-- An entry of a bounded-release queue: the tick count stamped on it and its release tick (R59). -/
structure XEntry where
  stamp : Nat
  release : Nat
  item : XItem
  deriving DecidableEq, Repr

/-- Why tides stop at a turn (R58, R84). -/
inductive StopReason where
  | stop | breach
  deriving DecidableEq, Repr

/-- Tides (chapter 02). `num` is the tide number, `tick` the tick offset, `count` the device tick count, which runs wherever TICK does;
`exec` counts its ticks without those of a debug halt (R182). `armed`: the
start time in ns, once it is known, `started`: START has been accepted (R57, R87). `stopAt`: the tide number at whose turn tides stop. `startSeen`: the start
time and L passed on latest (R87). `flags`: the (code, target) of BREACH, HALT and RESUME flags sent or received since tide 0 (R334). `turnTime`: station time of the latest turn in units of 2^-32 ns. `turns`: the low 20 bits of the tide number and the station time in 1/64 ns of the latest 64
turns since tide 0, newest first. `gates`: keyed 2·declaration + parity of the tide. -/
structure TideSt where
  num : Nat := 0
  tick : Nat := 0
  count : Nat := 0
  exec : Nat := 0
  activated : Bool := false
  armed : Option Nat := none
  started : Bool := false
  stopAt : Option (Nat × StopReason) := none
  policyFixed : Bool := false
  turnTime : Nat := 0
  turns : List (Nat × Nat) := []
  decls : List Decl := []
  bounds : List Nat := []
  gates : Map GateSt := []
  transfers : List Transfer := []
  startSeen : Option (Nat × Nat) := none
  flags : List (Nat × Nat) := []
  xing : Map (List XEntry) := []
  released : Map (List XEntry) := []
  deriving DecidableEq, Repr

/-- Run control (R513). `haltAt`: a pending halt with its target tide, whether it is lockstep and its cause. `resumeAt`: a pending
resume instant in ns; `resumeShown`: the one DBG_RESUME_AT shows. `flagAt`: a RESUME flag that leaves at an instant, with its target.
`haltLockstep`: the present halt is lockstep. `stepLockstep`: the step under way began with a lockstep resume. -/
structure RunSt where
  haltAt : Option (Nat × Bool × Nat) := none
  resumeAt : Option Nat := none
  resumeShown : Nat := 0
  flagAt : Option (Nat × Nat) := none
  haltTide : Nat := 0
  haltLockstep : Bool := false
  stepLockstep : Bool := false
  stepping : Bool := false
  deriving DecidableEq, Repr

/-- The latest operation on a wire tag (R502). -/
structure WireOp where
  used : Bool := false
  pending : Bool := false
  isRead : Bool := false
  status : Status := .ok
  data : Word := 0
  deriving DecidableEq, Repr

/-- The Daminaosh wire: its four tags, the time of the latest request that passed its CRC (in 2 ns cycles), whether the wire waits for
a break after a framing error (R496, R502, R504). The reply made ready stands in `Dev.replyBytes`. -/
structure WireSt where
  ops : Map WireOp := []
  lastRequest : Nat := 0
  waitBreak : Bool := false
  deriving DecidableEq, Repr

/-- How far a reset or Boot has come (R461, R463). `moor`: step 1 of R420 is due; `moorAgain`: for slot B, after the bundle test. -/
inductive BootPhase where
  | off | selfRefresh | held | oscWait | plls | moor | bundleTest | temperature | moorAgain | image | apply | waiting | done
  deriving DecidableEq, Repr

/-- Clocks, resets and power entry (chapters 14, 15). `time`: cycles of the 500 MHz time clock. `applying`: the domains an APPLY relocks
(0 TICK, 1 HOLD, 2 NET, 3 MEM). `jettyLock`: the JETTY PLL is locked. `island`, `mainPower`: which supplies stand. `feedAt`: the time of
the first word of a feed. `oscNv`: the stored oscillator code. `cspMode`: the CSP_MODE straps. `slackFrom`: the mode device-wide Slack was
entered from. `criticalHeld`: a high critical crossing of Boot or Cold hold is kept (R466). `refXtal`: the reference is the crystal. -/
structure ClkSt where
  time : Nat := 0
  phase : BootPhase := .off
  applying : List Nat := []
  jettyLock : Bool := false
  mainPower : Bool := false
  island : Bool := true
  feedAt : Option Nat := none
  oscNv : Nat := 8
  cspMode : Nat := 0
  slackFrom : Mode := .moored
  criticalHeld : Bool := false
  refXtal : Bool := true
  deriving DecidableEq, Repr

/-- A security interface's own view (R435). -/
structure IfaceSt where
  sess : Nat := 0
  locked : Bool := false
  failConsec : Nat := 0
  authFail : Nat := 0
  len : Nat := 0
  ptr : Nat := 0
  mbox : Map Byte := []
  nonce : BitVec 256 := 0
  fresh : Bool := false
  deriving DecidableEq, Repr

/-- The owner record (R431). -/
structure Owner where
  passwordEn : Bool
  imagePk : List Byte
  sessionPk : List Byte
  passwordHash : BitVec 256
  kwk : BitVec 256
  deriving DecidableEq, Repr

/-- Security (chapter 13). `owner`: the owner record in use, `ownerUpdates` how often it was written (R431). `keysUp`: the identity key and the
key that wraps KWK stand (R432). `draws`: numbers drawn from the generator (R433). `tamperedBeacon`: a tamper input fired in Beacon (R446). -/
structure SecSt where
  ifaces : Map IfaceSt := []
  owner : Option Owner := none
  ownerUpdates : Nat := 0
  keysUp : Bool := false
  draws : Nat := 0
  tamperedBeacon : Bool := false
  deriving DecidableEq, Repr

/-- One fault-log entry of 32 bytes (R536). -/
abbrev FaultEntry := BitVec 256

/-- The fault log (R535): 512 entries, write and read index, word of the oldest unread entry, the copy in island
non-volatile memory. -/
structure LogSt where
  ring : Map FaultEntry := []
  wr : Nat := 0
  rd : Nat := 0
  unread : Nat := 0
  word : Nat := 0
  seq : Nat := 0
  nvRing : Map FaultEntry := []
  nvWr : Nat := 0
  nvRd : Nat := 0
  nvUnread : Nat := 0
  deriving DecidableEq, Repr

/-- A result record of the test engine (R525). -/
structure ResultRec where
  lo : Word
  hi : Word
  deriving DecidableEq, Repr

/-- The lap of one erg and kind of dry-dock slot (R527). -/
structure LapSt where
  slice : Nat := 0
  laps : Nat := 0
  lapTides : Nat := 0
  lapStart : Nat := 0
  skips : Nat := 0
  fails : Nat := 0
  deriving DecidableEq, Repr

/-- A dry-dock slot record (R521). -/
structure DockSlot where
  tick : Nat
  dwell : Nat
  erg : Nat
  kind : Nat
  period : Nat
  phase : Nat
  deriving DecidableEq, Repr

/-- A march under way (R201, R203, R520): target, form, erg range. -/
structure March where
  planeStore : Bool
  preserving : Bool
  first : Nat
  last : Nat
  aborted : Bool
  deriving DecidableEq, Repr

/-- The plane-store scrubber of one erg (R530, R531, R533): duration of its latest lap and laps completed, whether it has stopped, the
next place of its walk (dune, plane and word in one number), places queued by the drivers, the time its heartbeat last came. -/
structure PsScrub where
  lapUs : Nat := 0
  laps : Nat := 0
  stopped : Bool := false
  place : Nat := 0
  queue : List Nat := []
  beat : Option Nat := none
  deriving DecidableEq, Repr

/-- Self-test (chapter 17): result queue, laps keyed 4·erg + kind, slots of the active images, the march and the Dry dock
run under way, patterns written into plane 7 (erg and slice), the scan word shifted out, the plane-store scrubbers with the time they
started and the cycles they have paused; the slots whose ticks have been served, by erg. -/
structure BistSt where
  results : List ResultRec := []
  laps : Map LapSt := []
  slots : List DockSlot := []
  march : Option March := none
  ddRun : Option (Nat × Nat) := none
  ddAborting : Bool := false
  patterns : List (Nat × Nat) := []
  scanOut : Word := 0
  ps : Map PsScrub := []
  psFrom : Nat := 0
  psPause : Nat := 0
  served : Map Nat := []
  deriving DecidableEq, Repr

end Sys2Proof.Machine
end

