-- ==== Sys2Proof/Machine/StateC.lean ====
section
/-! DEFINITION. Machine/StateC.lean: the parts of the state that hold images: the image pipeline, the images in effect
and the non-volatile sectors (chapter 12). -/

namespace Sys2Proof.Machine

/-- A register-write entry (R407): offset in the register window, operation, value, mask, the record it stands in. -/
structure RegEntry where
  off : Nat
  op : Nat
  value : Word
  mask : Word
  record : Nat := 0
  deriving DecidableEq, Repr

/-- A TRACK record (R403): the plane mask and the entries as stored. -/
structure TrackRec where
  mask : Nat
  entries : List Nat
  deriving DecidableEq, Repr

/-- A port entry of a MOOR record (R410): the first word and the four payloads. -/
structure MoorEntry where
  word : Nat
  payloads : List Nat
  deriving DecidableEq, Repr

/-- What the records of an image say, as they verify (R399 to R410). Use maps are kept as the number their 1,152 bytes
spell, fence records as their 163,840 bits, declarations as their 256 bits. `seen`: record types met. `frames`: targets of the frames that have come.
`bounds`: what admission composed for its declarations (R78). -/
structure Image where
  handle : Nat := 0
  resident : Bool := false
  ergMask : Nat := 0
  imageId : Nat := 0
  root : BitVec 256 := 0
  recordCount : Nat := 0
  imageLen : Nat := 0
  tideLen : Option Nat := none
  tracks : Map (Option TrackRec) := []
  useMaps : Map (Option Nat) := []
  fences : Map (Option Nat) := []
  tickKhz : Option Nat := none
  decls : List Nat := []
  jetty : Option (List Byte) := none
  drydock : Option (List Byte) := none
  regs : List RegEntry := []
  boot : Option Nat := none
  moor : Option (List MoorEntry) := none
  seen : List Nat := []
  frames : List Nat := []
  bounds : List Nat := []
  deriving DecidableEq, Repr

/-- What the stream is waiting for (R394). -/
inductive Expect where
  | header | signature | digest | leaf (block : Nat) | record (n : Nat) | finished
  deriving DecidableEq, Repr

/-- Who owns the image stream (R412). -/
inductive StreamOwner where
  | csp | lighter (n : Nat)
  deriving DecidableEq, Repr

/-- A committed activation (R155 to R157): the activation turn, the turn at which the image takes effect (each named by the tide it
begins), and whether the commit named an ACT_TIDE. -/
structure Commit where
  first : Nat
  due : Nat
  named : Bool
  deriving DecidableEq, Repr

/-- The image pipeline (R412 to R417). `buf`: bytes received and not yet consumed. `answer`: what the owner's further
bytes are answered with once the image has ended (R413). `sigWait`: the signature is being verified. `live`: the images
in effect. `coming`: the image staged or committed, or the one in load. `slot`: the slot PROGRAMMING writes (1 A, 2 B).
`bytesIn`: stream position. `moving`: a transfer of the owner is under way. -/
structure CfgSt where
  owner : Option StreamOwner := none
  buf : List Byte := []
  bytesIn : Nat := 0
  expect : Expect := .header
  header : List Byte := []
  digests : List (List Byte) := []
  leaves : List (List Byte) := []
  sigWait : Option (List Byte) := none
  answer : Option Status := none
  coming : Image := {}
  live : List Image := []
  commit : Option Commit := none
  slot : Nat := 0
  written : List Byte := []
  moving : Bool := false
  resident : Image := {}
  deriving DecidableEq, Repr

/-- The base-die non-volatile cells (R392): what each sector holds from its first byte, erased beyond; erases of each
sector (R424). Island sectors: 512 fault log, 513 oscillator code, 514 wear bins. -/
structure NvSt where
  sectors : Map (List Byte) := []
  erases : Map Nat := []
  deriving DecidableEq, Repr

end Sys2Proof.Machine
end

