-- ==== Sys2Proof/Machine/StateE.lean ====
section
/-! DEFINITION. Machine/StateE.lean: the parts of the state that hold external memory (chapter 07). Data stand in the
device's memory at their physical place (R256), check bytes with them, in the carve-out (R260). -/

namespace Sys2Proof.Machine

/-- A lane of a DMC (R274): its configuration word and ERR_CNT. -/
structure LaneSt where
  cfg : Word := 0x2A552020
  err : Nat := 0
  deriving DecidableEq, Repr

/-- A pattern operation under way (R275): 1 WR_FIFO, 2 RD_FIFO, 3 CA_LOOP. -/
structure PatternOp where
  op : Nat
  ch : Nat
  count : Nat
  deriving DecidableEq, Repr

/-- A piece in a DMC's queue (R265): the request it is, its address and length, a write's data with the numbers of its words that
arrived poisoned (R223). `meta_`: a cipher metadata request. `carried`: the lines whose bytes stand in an older pending write (R267).
`verified`: the fetch of its metadata has completed (R298). -/
structure Piece where
  msg : Msg
  addr : Nat
  len : Nat
  data : List Byte
  poison : List Nat := []
  write : Bool
  meta_ : Bool := false
  carried : List Nat := []
  verified : Bool := false
  deriving DecidableEq, Repr

/-- A DMC's maintenance window (R276): none; pending, with its start tide and length; running, with whether END waits and
whether MAINT_TIDES still counts. -/
inductive Window where
  | none
  | pending (start len : Nat)
  | running (endWaits counts : Bool)
  deriving DecidableEq, Repr

/-- One DMC. `selfRefresh`: its device is in self-refresh. `modeRegs`: what MRW wrote, keyed 256·channel + register.
`pieces`: granted pieces in grant order; `meta_`: metadata requests. `nextRef`: next bank of each channel's rotation; `refAt`: when its
latest refresh was. `recent`: the latest pieces served, newest first. `retried`: the line whose write the device has rejected once.
`eccLines`, `metaLines`: what the metadata cache holds, newest first: lines of check bytes by physical place divided by 64, metadata lines
of ranges by address divided by 64 (R277, R298). -/
structure DmcSt where
  lanes : Map LaneSt := []
  fifo : Map (List Byte) := []
  op : Option PatternOp := none
  pieces : List Piece := []
  meta_ : List Piece := []
  window : Window := .none
  modeRegs : Map Nat := []
  nextRef : Map Nat := []
  refAt : Map Nat := []
  selfRefresh : Bool := false
  recent : List Piece := []
  retried : Option Nat := none
  eccLines : List Nat := []
  metaLines : List Nat := []
  deriving DecidableEq, Repr

/-- The masks at reset (R257). -/
def resetMask : Nat → Nat
  | 0 => 0x40200100 | 1 => 0x80400200 | 2 => 0x100800400 | 3 => 0x201000800 | 4 => 0x402001000
  | 5 => 0x04002000 | 6 => 0x08004000 | 7 => 0x10008000 | 8 => 0x20010000 | _ => 0

/-- External memory: controllers, staged and active masks. -/
structure ExtSt where
  dmcs : Map DmcSt := []
  staged : Map Nat := []
  active : Map Nat := []
  deriving DecidableEq, Repr

end Sys2Proof.Machine
end

