-- ==== Sys2Proof/Machine/StateF.lean ====
section
/-! DEFINITION. Machine/StateF.lean: the parts of the state that hold the cipher engines (chapter 08). What a protected
range stores is kept as the spec lets it be computed: the lines written since the range was initialised stand as
ciphertext in the device's memory, every other line of the range is the encryption of zeros under the range's key, and the
metadata lines are computed from the counters. -/

namespace Sys2Proof.Machine

/-- States of a key ID (R290). -/
inductive KeyState where
  | free | active | draining | retired
  deriving DecidableEq, Repr

/-- The value of a key state in MCE_KEY_STAT (R312). -/
def KeyState.code : KeyState → Nat
  | .free => 0 | .active => 1 | .draining => 2 | .retired => 3

/-- A key ID (R288). A link key ID uses `data` alone. -/
structure KeySt where
  st : KeyState := .free
  gen : Nat := 0
  data : BitVec 256 := 0
  mac : BitVec 256 := 0
  deriving DecidableEq, Repr

/-- A counter block (R292). -/
structure CtrBlock where
  major : Nat := 0
  minors : BitVec 448 := 0
  deriving DecidableEq, Repr

/-- What a range has stored: its place and keys, its counters, tree nodes and data MACs, and the lines written since
initialisation. `base` and `size` in units of 64 MiB; pages and lines count from the base. Nodes are keyed
8·index + level and hold eight 56-bit counters. Pages below `split` 2 MiB units stand under the new key. `written` is keyed by line
number, address divided by 64. `masks`: the address map it was made under. For what a range left behind: `metaOnly`, that its data
lines were zeroised; `gone`, address intervals overwritten as a whole since, each with the map they were overwritten under. -/
structure RangeImg where
  base : Nat
  size : Nat
  mode : Nat
  slot : Nat
  metaBase : Nat
  dataKey : BitVec 256
  macKey : BitVec 256
  newData : BitVec 256 := 0
  newMac : BitVec 256 := 0
  split : Nat := 0
  masks : Map Nat := []
  ctrs : Map CtrBlock := []
  nodes : Map (BitVec 448) := []
  macs : Map (Option (BitVec 64)) := []
  written : Map Bool := []
  metaOnly : Bool := false
  gone : List (Map Nat × Nat × Nat) := []
  deriving DecidableEq, Repr

/-- States of a range (R281). -/
inductive RangeState where
  | disabled | init | enabled | zeroising
  deriving DecidableEq, Repr

/-- The value of a range state in MCE_RANGE_STAT (R312). -/
def RangeState.code : RangeState → Nat
  | .disabled => 0 | .init => 1 | .enabled => 2 | .zeroising => 3

/-- A range (R279): what is staged, what is in effect. -/
structure RangeSt where
  cfg : Word := 0
  first : Word := 0
  st : RangeState := .disabled
  keyId : Nat := 0
  walking : Option Nat := none
  poisonAll : Bool := false
  img : Option RangeImg := none
  deriving DecidableEq, Repr

/-- The rekey walker (R307): range, NEW, next 2 MiB unit, whether ABORT came. -/
structure Walker where
  range : Nat
  newId : Nat
  unit : Nat
  aborting : Bool := false
  deriving DecidableEq, Repr

/-- A poison-table entry (R303). -/
structure PoisonEntry where
  range : Nat
  level : Nat
  node : Nat
  deriving DecidableEq, Repr

/-- A page re-encryption under way in an engine (R299): range, page, and the write that waits. -/
structure Reenc where
  range : Nat
  page : Nat
  waits : Option Piece
  deriving DecidableEq, Repr

/-- A round of metadata reads that an engine makes (R298): for which page of which range, its lines, those still to ask for, those asked
for and not answered; all by address. -/
structure FetchRound where
  range : Nat
  page : Nat
  engine : Fin 4
  lines : List Nat
  todo : List Nat
  wanted : List Nat := []
  deriving DecidableEq, Repr

/-- The cipher engines. Memory key IDs 0 to 63, link key IDs 64 to 95. `former`: what ranges left in external memory when
their keys were erased (R283). `rounds`: metadata fetches under way. `rootFlips`: error pattern of a root-store word, keyed ((8·range + level)·2^21 + node)·8 + word. -/
structure MceSt where
  keys : Map KeySt := []
  ranges : Map RangeSt := []
  poison : Map (Option PoisonEntry) := []
  walker : Option Walker := none
  reencs : Map (Option Reenc) := []
  rootFlips : Map DWord := []
  former : List RangeImg := []
  rounds : List FetchRound := []
  deriving DecidableEq, Repr

end Sys2Proof.Machine
end

