-- ==== Sys2Proof/Machine/StateG.lean ====
section
/-! DEFINITION. Machine/StateG.lean: the parts of the state that hold the causeway links (chapter 09). -/

namespace Sys2Proof.Machine

/-- How far a link's training has come (R324): not training, TS1 rows, TS2 rows, an SOF row awaited, frames awaited or
flowing. -/
inductive TrainStep where
  | idle | ts1 | ts2 | sof | frames
  deriving DecidableEq, Repr

/-- A frame kept for replay (R326): SEQ, its forty 64-bit blocks, how often it has been replayed. -/
structure KeptFrame where
  seq : Nat
  blocks : List DWord
  replays : Nat := 0
  deriving DecidableEq, Repr

/-- One causeway link. `rows1`, `rows2`: consecutive rows in which ACCEPT has been both sent and received. `nextSeq`: SEQ
of the next frame formed; `expect`: SEQ awaited; `failed`: a SEQ whose CRC failed and that is awaited again, with whether
it has failed once already. `replayAt`: SEQ the replay has reached. Credits held, credits to return and received flits by
class code. `txOpen`, `rxOpen`: class codes whose packet has started. Service messages: `flags` queues of codes 1 to 3,
`pend` the single pending messages of the other codes, `startB` the START_B that follows. `gotA`: the payload of a START_A whose
START_B is awaited. `rowsSeen`, `hdrBad`: rows received, and the lane
and row of each invalid sync header among the last 1,024 (R327). `turnRx`: a TURN marker that came before this device's own turn (R337). `rxPhase`: the receive key phase (R338). `rxEnc`: RX_EN
as training has put it into effect (R324).
Times in 1/64 ns (R337). `sent`: what left on the pins last. -/
structure LinkSt where
  step : TrainStep := .idle
  rows1 : Nat := 0
  rows2 : Nat := 0
  ownAccept : Bool := false
  peerTime : Bool := false
  nextSeq : Nat := 0
  expect : Nat := 0
  failed : Option (Nat × Bool) := none
  nak : Bool := false
  replay : List KeptFrame := []
  replayAt : Option Nat := none
  credits : Map Nat := []
  give : Map Nat := []
  rx : Map (List Flit) := []
  txOpen : List Nat := []
  rxOpen : List Nat := []
  flags : List (Nat × Nat) := []
  pend : Map (Option Nat) := []
  startB : Option Nat := none
  gotA : Option Nat := none
  rowsSeen : Nat := 0
  hdrBad : List (Nat × Nat) := []
  turnRx : Option Nat := none
  rxPhase : Bool := false
  rxEnc : Bool := false
  lastTxId : Option Nat := none
  t1 : Option Nat := none
  t2 : Option Nat := none
  t3 : Option Nat := none
  t4 : Option Nat := none
  sent : List DWord := []
  deriving DecidableEq, Repr

end Sys2Proof.Machine
end

