-- ==== Sys2Proof/Machine/Dev.lean ====
section
/-! DEFINITION. Machine/Dev.lean: the block's state but for its queue of commands: what the spec gives the device. A
command's meaning is a change of this. -/

namespace Sys2Proof.Machine

/-- The ordering codes offered (R2): speed grade and junction range. -/
inductive OrderCode where
  | grade3I | grade2I | grade2X
  deriving DecidableEq, Repr

/-- The speed grade of an ordering code (R2, R469). -/
def OrderCode.grade : OrderCode → Nat
  | .grade3I => 3
  | .grade2I => 2
  | .grade2X => 2

/-- Bit TEMP of LH_PART (R469): set in range X. -/
def OrderCode.rangeX : OrderCode → Bool
  | .grade2X => true
  | _ => false

/-- What the part is (R2, R432, R441): fixed at manufacture. Nothing in the model changes it. -/
structure PartSt where
  code : OrderCode := .grade3I
  serial : BitVec 128 := 0
  deriving DecidableEq, Repr

/-- The output pins of R546 and the interrupt requests of R8, as they stand after a command. `clkmon`: the source that drives CLKMON and
its divisor; none while the pin is low (R458). -/
structure PinSt where
  clkmon : Option (Nat × Nat) := none
  cfgErrLow : Bool := false
  hldRet : Bool := false
  irq : List Nat := []
  deriving DecidableEq, Repr

/-- The device. `regs`: every register of the register window that does not read as a view of another part, by its offset
in the window, the reset value where nothing is listed. `mem`: bytes of external memory by physical place and of the hold.
`reply`: the answer to the latest access or wire request. `free`: how many free values have been drawn. `flipArmed`: the
blocks whose flip mask is armed (R13). -/
structure Dev where
  regs : Map Word := []
  mem : List Host.Cell := []
  reply : Option Reply := none
  replyBytes : List Byte := []
  free : Nat := 0
  flipArmed : List Nat := []
  part : PartSt := {}
  pins : PinSt := {}
  stack : StackSt := {}
  tide : TideSt := {}
  run : RunSt := {}
  wire : WireSt := {}
  clk : ClkSt := {}
  sec : SecSt := {}
  log : LogSt := {}
  bist : BistSt := {}
  fab : FabSt := {}
  berths : Map BerthSt := []
  ergs : Map ErgSt := []
  cfg : CfgSt := {}
  nv : NvSt := {}
  hold : HoldSt := {}
  net : NetSt := {}
  ext : ExtSt := {}
  mce : MceSt := {}
  links : Map LinkSt := []
  ports : Map PortSt := []
  pcie : PcieSt := {}
  lgts : Map LgtSt := []
  eth : EthSt := {}
  pwr : PwrSt := {}
  thm : ThmSt := {}
  wear : WearSt := {}
  psw : List Nat := []
  deriving DecidableEq, Repr

end Sys2Proof.Machine
end

