-- ==== Sys2Proof/Machine/Ops.lean ====
section
/-! DEFINITION. Machine/Ops.lean: the named operations every command is made of: registers and their fields, times, events
with the breakpoints they hit, class C, U and D errors, the fault log, command statuses. -/

namespace Sys2Proof.Machine

/-- Whether a register definition stands at offset `off` of its block. -/
def RegDef.covers (d : RegDef) (off : Nat) : Bool :=
  if d.stride = 0 then off == d.off
  else decide (d.off ≤ off) && (off - d.off) % d.stride == 0 && decide ((off - d.off) / d.stride < d.count)

/-- The register at offset `off` of block `blk`; none at a reserved offset (R5) and outside the blocks (R217). -/
def regFind (blk off : Nat) : Option RegDef :=
  match blkKind blk with
  | none => none
  | some k => (headerRegs ++ (if k.flips then flipRegs else []) ++ kindRegs k).find?
      (fun d => d.covers off && (!d.first || blk == k.base))

/-- The word that the fields of a register reset to. -/
def RegDef.resetWord (d : RegDef) : Nat := d.fields.foldl (fun a f => a + f.reset % 2 ^ f.w * 2 ^ f.lo) 0

/-- The reset value of the register at offset `o` of the register window; zero where there is none (R5). -/
def regReset (o : Nat) : Word :=
  match blkKind (o / blockBytes), regFind (o / blockBytes) (o % blockBytes) with
  | some k, some d =>
    BitVec.ofNat 32 (d.resetWord +
      (if o % blockBytes = O.BLK_ID then o / blockBytes + 65536 * k.base
       else if o % blockBytes = O.BLK_FREEZE then k.freezeReset else 0))
  | _, _ => 0

/-- The reset domain of the register at offset `o` of the window (R7, R8). -/
def regDom (o : Nat) : Dom :=
  if o / blockBytes = B.LH then .isl
  else match regFind (o / blockBytes) (o % blockBytes) with
    | some d => d.dom
    | none => .full

/-- The stored word of a register. -/
def Dev.reg (s : Dev) (blk off : Nat) : Word := Map.get regReset s.regs (blockBytes * blk + off)

/-- Stores a register. -/
def Dev.setReg (s : Dev) (blk off : Nat) (w : Word) : Dev :=
  { s with regs := Map.set regReset s.regs (blockBytes * blk + off) w }

/-- A field of a register. -/
def Dev.fld (s : Dev) (blk : Nat) (f : Fld) : Nat := nfield (s.reg blk f.off).toNat f.lo f.w

/-- A one-bit field. -/
def Dev.flag (s : Dev) (blk : Nat) (f : Fld) : Bool := s.fld blk f != 0

/-- A word with a field replaced. -/
def putField (w lo n v : Nat) : Nat := w - nfield w lo n * 2 ^ lo + v % 2 ^ n * 2 ^ lo

/-- Replaces a field of a register. -/
def Dev.setFld (s : Dev) (blk : Nat) (f : Fld) (v : Nat) : Dev :=
  s.setReg blk f.off (BitVec.ofNat 32 (putField (s.reg blk f.off).toNat f.lo f.w v))

/-- Sets a one-bit field. -/
def Dev.setFlag (s : Dev) (blk : Nat) (f : Fld) (b : Bool) : Dev := s.setFld blk f b.toNat

/-- Adds to a counter field, which saturates (R17). -/
def Dev.addFld (s : Dev) (blk : Nat) (f : Fld) (n : Nat) : Dev := s.setFld blk f (satAdd f.w (s.fld blk f) n)

/-- Counts one in a counter field. -/
def Dev.count (s : Dev) (blk : Nat) (f : Fld) : Dev := s.addFld blk f 1

/-- A 64-bit value held in two registers. -/
def Dev.reg64 (s : Dev) (blk lo hi : Nat) : Nat := (s.reg blk lo).toNat + 2 ^ 32 * (s.reg blk hi).toNat

/-- Mode of the device (R465). -/
def Dev.mode (s : Dev) : Mode := Mode.ofCode (s.fld B.LH F.LH_MODE_MODE)

/-- Life-cycle state (R426). -/
def Dev.life (s : Dev) : Life := Life.ofCode (s.fld B.SEC F.SEC_LC_STATE)

/-- Station time in whole nanoseconds (R383). -/
def Dev.ns (s : Dev) : Nat := s.eth.time / 2 ^ 32 % 2 ^ 64

/-- Station time in 1/64 ns modulo 2^56 (R332). -/
def Dev.t56 (s : Dev) : Nat := s.eth.time / 2 ^ 26 % 2 ^ 56

/-- Device coordinate 8y + x (R213). -/
def Dev.coord (s : Dev) : Nat := s.fld B.HN F.HN_ID_DEVX + 8 * s.fld B.HN F.HN_ID_DEVY

/-- Tide length L in ticks. -/
def Dev.tideLen (s : Dev) : Nat := s.fld B.TIDE F.TIDE_LEN_LEN

/-- Parts of the state that are tables, read and changed by index. -/
def Dev.erg (s : Dev) (e : Nat) : ErgSt := Map.get (fun _ => {}) s.ergs e
def Dev.setErg (s : Dev) (e : Nat) (x : ErgSt) : Dev := { s with ergs := Map.set (fun _ => {}) s.ergs e x }
def Dev.berth (s : Dev) (b : Nat) : BerthSt := Map.get (fun _ => {}) s.berths b
def Dev.setBerth (s : Dev) (b : Nat) (x : BerthSt) : Dev := { s with berths := Map.set (fun _ => {}) s.berths b x }
def Dev.bank (s : Dev) (b : Nat) : BankSt := Map.get (fun _ => {}) s.hold.banks b
def Dev.setBank (s : Dev) (b : Nat) (x : BankSt) : Dev :=
  { s with hold := { s.hold with banks := Map.set (fun _ => {}) s.hold.banks b x } }
def Dev.dmc (s : Dev) (k : Nat) : DmcSt := Map.get (fun _ => {}) s.ext.dmcs k
def Dev.setDmc (s : Dev) (k : Nat) (x : DmcSt) : Dev :=
  { s with ext := { s.ext with dmcs := Map.set (fun _ => {}) s.ext.dmcs k x } }
def Dev.link (s : Dev) (n : Nat) : LinkSt := Map.get (fun _ => {}) s.links n
def Dev.setLink (s : Dev) (n : Nat) (x : LinkSt) : Dev := { s with links := Map.set (fun _ => {}) s.links n x }
def Dev.port (s : Dev) (p : Nat) : PortSt := Map.get (fun _ => {}) s.ports p
def Dev.setPort (s : Dev) (p : Nat) (x : PortSt) : Dev := { s with ports := Map.set (fun _ => {}) s.ports p x }
def Dev.lgt (s : Dev) (n : Nat) : LgtSt := Map.get (fun _ => {}) s.lgts n
def Dev.setLgt (s : Dev) (n : Nat) (x : LgtSt) : Dev := { s with lgts := Map.set (fun _ => {}) s.lgts n x }
def Dev.iface (s : Dev) (i : Nat) : IfaceSt := Map.get (fun _ => {}) s.sec.ifaces i
def Dev.setIface (s : Dev) (i : Nat) (x : IfaceSt) : Dev :=
  { s with sec := { s.sec with ifaces := Map.set (fun _ => {}) s.sec.ifaces i x } }
def Dev.arb (s : Dev) (a : Nat) : ArbSt := Map.get (fun _ => {}) s.net.arbs a
def Dev.setArb (s : Dev) (a : Nat) (x : ArbSt) : Dev :=
  { s with net := { s.net with arbs := Map.set (fun _ => {}) s.net.arbs a x } }
def Dev.key (s : Dev) (k : Nat) : KeySt := Map.get (fun _ => {}) s.mce.keys k
def Dev.setKey (s : Dev) (k : Nat) (x : KeySt) : Dev :=
  { s with mce := { s.mce with keys := Map.set (fun _ => {}) s.mce.keys k x } }
def Dev.range (s : Dev) (r : Nat) : RangeSt := Map.get (fun _ => {}) s.mce.ranges r
def Dev.setRange (s : Dev) (r : Nat) (x : RangeSt) : Dev :=
  { s with mce := { s.mce with ranges := Map.set (fun _ => {}) s.mce.ranges r x } }
def Dev.bundle (s : Dev) (id : Nat) : BundleSt := Map.get (fun _ => {}) s.stack.bundles id
def Dev.setBundle (s : Dev) (id : Nat) (x : BundleSt) : Dev :=
  { s with stack := { s.stack with bundles := Map.set (fun _ => {}) s.stack.bundles id x } }

/-- A fresh free value (guide: a value the spec leaves open), and the state that has used it up. -/
def Dev.freeWord (s : Dev) : BitVec 64 × Dev := (Config.freeWord s.free, { s with free := s.free + 1 })
def Dev.freeBool (s : Dev) : Bool × Dev := (Config.freeBool s.free, { s with free := s.free + 1 })

/-- The blocks whose clock can be gated (the table of R457). -/
def gateable : BlkKind → Bool
  | .dmc | .hold | .erg | .jp | .eth | .pcie | .lgt | .csp | .bist | .scrb => true
  | _ => false

/-- Whether the clock of a block is gated (R456). -/
def Dev.gated (s : Dev) (blk : Nat) : Bool :=
  match blkKind blk with
  | some k => gateable k && !nbit (s.reg B.CLK (O.CLK_EN0 + 4 * (blk / 32))).toNat (blk % 32)
  | none => false

/-- Whether a block stands still in a debug halt: BLK_FREEZE STOP in Anchored (R8, R514). -/
def Dev.halted (s : Dev) (blk : Nat) : Bool :=
  s.mode == .anchored && s.fld blk F.BLK_FREEZE_FREEZE_MODE == 1

/-- Whether a causeway link is UP (the State field of CW_STATUS). -/
def Dev.linkUp (s : Dev) (n : Nat) : Bool := s.fld (B.CW n) F.CW_STATUS_STATE == 2

/-- The links on which a flag goes out: every trained link but the one it came from (R334). -/
def Dev.flagLinks (s : Dev) (from_ : Option Nat) : List Nat :=
  (List.range 16).filter (fun n => decide (2 ≤ s.fld (B.CW n) F.CW_STATUS_STATE) && from_ != some n)

/-- Queues a BREACH, HALT or RESUME flag on a link, up to 4 of one code (R333); the flag says whether it was dropped. -/
def LinkSt.queueFlag (l : LinkSt) (code pay : Nat) : LinkSt × Bool :=
  if 4 ≤ (l.flags.filter (fun x => x.1 == code)).length then (l, true)
  else ({ l with flags := l.flags ++ [(code, pay)] }, false)

/-- Sets an event bit without evaluating breakpoints; a gated block raises no event (R456). -/
def Dev.raiseBit (s : Dev) (blk n : Nat) : Dev :=
  if s.gated blk then s
  else s.setReg blk O.EVT_STATUS (s.reg blk O.EVT_STATUS ||| BitVec.ofNat 32 (2 ^ n))

/-- Sends a BREACH (1), HALT (2) or RESUME (3) flag with a target tide on every trained link but the one it came from, and
remembers it there as handled (R334). A fifth flag is dropped and raises SVC_DROP, bit 10 of the CW block (R333). -/
def Dev.sendFlag (s : Dev) (code target coord : Nat) (from_ : Option Nat) : Dev :=
  let s0 := { s with tide := { s.tide with flags := s.tide.flags.filter (· != (code, target % 2 ^ 50)) ++ [(code, target % 2 ^ 50)] } }
  (s.flagLinks from_).foldl (fun s n =>
    let (l, dropped) := (s.link n).queueFlag code (target % 2 ^ 50 + 2 ^ 50 * coord)
    let s1 := s.setLink n l
    if dropped then s1.raiseBit (B.CW n) 10 else s1) s0

/-- Asks for a halt at the turn into tide `target` (R507, R513): acted on in Underway alone, an earlier target is kept; a halt
at the target of a lockstep halt is lockstep (R509). -/
def Dev.haltAt (s : Dev) (target : Nat) (lockstep : Bool) (cause : Nat) : Dev :=
  if s.mode ≠ .underway then s
  else match s.run.haltAt with
    | some (t, _, _) =>
      if t < target then s
      else if t = target then { s with run := { s.run with haltAt := s.run.haltAt.map (fun (t, l, c) => (t, l || lockstep, c)) } }
      else { s with run := { s.run with haltAt := some (target, lockstep, cause), haltTide := target } }
    | none =>
      let s1 := s.setFlag B.DBG F.DBG_STAT_PENDING true
      { s1 with run := { s1.run with haltAt := some (target, lockstep, cause), haltTide := target } }

/-- A halt asked for in the current tide (R507): at the turn into T+1, or in lockstep into T+2 with the HALT flag. -/
def Dev.haltRequest (s : Dev) (lockstep : Bool) (cause : Nat) : Dev :=
  if s.mode ≠ .underway then s
  else if lockstep then
    let s1 := s.haltAt (s.tide.num + 2) true cause
    if (match s.run.haltAt with | some (t, _, _) => decide (s.tide.num + 2 < t) | none => true) then s1.sendFlag 2 (s.tide.num + 2) s.coord none else s1
  else s.haltAt (s.tide.num + 1) false cause

/-- Whether the event breakpoint is armed on bit `n` of block `blk` (R510). -/
def Dev.bpArmed (s : Dev) (blk n : Nat) : Bool :=
  s.flag B.DBG F.DBG_BP_CFG_EVT_EN && s.fld B.DBG F.DBG_BP_CFG_EVT_BLOCK == blk &&
    s.fld B.DBG F.DBG_BP_CFG_EVT_BIT == n

/-- An event is raised: its EVT_STATUS bit is set, and where the bit rises the event breakpoint is evaluated (R8, R510). -/
def Dev.event (s : Dev) (blk n : Nat) : Dev :=
  let was := nbit (s.reg blk O.EVT_STATUS).toNat n
  let s1 := s.raiseBit blk n
  if !was && !s.gated blk && s.bpArmed blk n then s1.haltRequest (s.flag B.DBG F.DBG_BP_CFG_LOCKSTEP) 6 else s1

/-- A class C error is counted in the block's bucket; C_OVF is set where LEVEL rises to THRESH, and at every error where THRESH
is zero (R12, R20, R534). -/
def Dev.classC (s : Dev) (blk : Nat) : Dev :=
  let was := s.fld blk F.EVT_BUCKET_LEVEL
  let now := satAdd 12 was 1
  let th := s.fld blk F.EVT_BUCKET_THRESH
  let s1 := s.setFld blk F.EVT_BUCKET_LEVEL now
  if th = 0 || (was < th && th ≤ now) then s1.event blk 31 else s1

/-- Counts `n` class C errors. -/
def Dev.classCs (s : Dev) (blk : Nat) : Nat → Dev
  | 0 => s
  | n + 1 => (s.classC blk).classCs blk n

/-- The word of an error class in a fault-log entry (R536). -/
def ErrClass.log : ErrClass → Nat
  | .c => 0 | .u => 1 | .d => 2 | .f => 3

/-- A fault-log entry (R536). -/
def faultEntry (cls : ErrClass) (st : Status) (blk evt seq total ns addr coord synd info : Nat) : FaultEntry :=
  BitVec.ofNat 256 (cls.log + 4 * st.code + 2 ^ 8 * blk + 2 ^ 16 * evt + 2 ^ 32 * seq + 2 ^ 56 * (total % 256) +
    2 ^ 64 * ns + 2 ^ 128 * (addr % 2 ^ 48 + 2 ^ 48 * (coord % 64)) + 2 ^ 192 * (synd % 2 ^ 32) + 2 ^ 224 * (info % 2 ^ 32))

/-- The fault log is copied to island non-volatile memory (R535). -/
def Dev.logPersist (s : Dev) : Dev :=
  { s with log := { s.log with nvRing := s.log.ring, nvWr := s.log.wr, nvRd := s.log.rd, nvUnread := s.log.unread } }

/-- Writes one entry to the fault log (R535 to R537). An entry that overwrites one not yet read counts it lost and raises
FLOG_LOST, bit 2 of LH. A class F entry copies the log to non-volatile memory. -/
def Dev.logError (s : Dev) (cls : ErrClass) (st : Status) (blk evt addr : Nat) (coord synd info : Nat := 0) : Dev :=
  let seq := satAdd 24 s.log.seq 1
  let e := faultEntry cls st blk evt s.log.seq (s.fld B.LH F.LH_RST_CNT_TOTAL) s.ns addr coord synd info
  let full := decide (512 ≤ s.log.unread)
  let log := { s.log with
    ring := Map.set (fun _ => 0) s.log.ring s.log.wr e, wr := (s.log.wr + 1) % 512, seq,
    rd := if full then (s.log.rd + 1) % 512 else s.log.rd,
    word := if full then 0 else s.log.word,
    unread := if full then 512 else s.log.unread + 1 }
  let s1 := { s with log }.setFld B.LH F.LH_FLOG_STAT_UNREAD log.unread
  let s2 := if full then (s1.count B.LH F.LH_FLOG_STAT_LOST_CNT).event B.LH 2 else s1
  if cls = .f then s2.logPersist else s2

/-- The status of a command completed through a block's command registers (R8). -/
def Dev.done (s : Dev) (blk : Nat) (st : Status) : Dev := s.setFld blk F.BLK_STATUS_LAST_STATUS st.code

/-- Counts in the block's REFUSE_CNT (R6, R15). -/
def Dev.refuse (s : Dev) (blk : Nat) : Dev := s.count blk F.BLK_STATUS_REFUSE_CNT

/-- A command ends with a status; STATE counts as a refusal (R15). -/
def Dev.finish (s : Dev) (blk : Nat) (st : Status) : Dev :=
  if st = .state then (s.done blk st).refuse blk else s.done blk st

/-- A command that meets the first of its refusal conditions (R557) ends with it; else it runs. -/
def Dev.guarded (s : Dev) (blk : Nat) (cs : List (Bool × Status)) (run : Dev → Dev) : Dev :=
  match firstRefusal cs with
  | some st => s.finish blk st
  | none => run s

/-- A mode change writes PREV, sets MODE and raises MODE_CHG (R466). -/
def Dev.setMode (s : Dev) (m : Mode) : Dev :=
  if s.mode = m then s
  else ((s.setFld B.LH F.LH_MODE_PREV s.mode.code).setFld B.LH F.LH_MODE_MODE m.code).event B.LH 0

/-- Queues a note at a berth, up to 4 (R131); the flag says whether it was dropped. -/
def Dev.pushNote (s : Dev) (b code : Nat) : Dev × Bool :=
  let x := s.berth b
  if 4 ≤ x.notes.length then (s, true)
  else (s.setBerth b { x with notes := x.notes ++ [⟨code, s.tide.num⟩] }, false)

/-- Whether notes are queued for the berths of an erg: it is RUNNING, awake, and tides run (R248, R559). -/
def Dev.takesNotes (s : Dev) (e : Nat) : Bool :=
  (s.erg e).mode == .running && (s.erg e).slack.runs && (s.mode == .underway || s.mode == .anchored)

/-- A note goes to all 16 berths of an erg; a berth whose queue is full drops it and raises NOTE_DROP, bit 1 of the ERG block
(R131). -/
def Dev.noteErg (s : Dev) (e code : Nat) : Dev :=
  if !s.takesNotes e then s
  else (List.range 16).foldl (fun s i =>
    let (s1, dropped) := s.pushNote (16 * e + i) code
    if dropped then s1.event (B.ERG e) 1 else s1) s

/-- When tides stop for a breach (R83): nothing further once a stop is due (R84). -/
def Dev.stopTides (s : Dev) (at_ : Nat) (why : StopReason) : Dev :=
  match s.tide.stopAt with
  | some (t, _) => if t ≤ at_ then s else { s with tide := { s.tide with stopAt := some (at_, why) } }
  | none => { s with tide := { s.tide with stopAt := some (at_, why) } }

/-- What BREACH_POLICY has a breach do (R83): nothing, moor at T+1, or flag the mesh and moor at T+2. -/
def Dev.breachPolicy (s : Dev) : Dev :=
  if s.mode ≠ .underway && s.mode ≠ .anchored then s
  else match s.fld B.TIDE F.BREACH_POLICY_POLICY with
    | 1 => if s.tide.policyFixed then s
           else { s with tide := { s.tide with policyFixed := true } }.stopTides (s.tide.num + 1) .breach
    | 2 => if s.tide.policyFixed then s
           else ({ s with tide := { s.tide with policyFixed := true } }.stopTides (s.tide.num + 2) .breach).sendFlag 1
                  (s.tide.num + 2) s.coord none
    | _ => s

/-- A breach is recorded (R82, R85): first and last records, count, event, log entry, BREACH notes, the breach breakpoint
(R510: not for SINGLE_HALT, cause 6). -/
def Dev.breachRecord (s : Dev) (cause e decl : Nat) : Dev :=
  let w := BitVec.ofNat 32 (cause + 16 * (e % 32) + 65536 * (decl % 8192))
  let t := BitVec.ofNat 32 s.tide.num
  let s1 := if s.fld B.TIDE F.BREACH_FIRST0_CAUSE = 0 then
      (s.setReg B.TIDE O.BREACH_FIRST0 w).setReg B.TIDE O.BREACH_FIRST1 t else s
  let s2 := ((s1.setReg B.TIDE O.BREACH_LAST0 w).setReg B.TIDE O.BREACH_LAST1 t).count B.TIDE F.BREACH_CNT_COUNT
  let s3 := (s2.event B.TIDE 0).logError .d .ok B.TIDE 0 0 0 0 (s2.reg B.TIDE O.BREACH_FIRST0).toNat
  let s4 := (List.range 32).foldl (fun s k => if s.flag (B.ERG k) F.ERG_CTRL_NOTE_BREACH then s.noteErg k 3 else s) s3
  if cause ≠ 6 && s4.flag B.DBG F.DBG_BP_CFG_BREACH_EN then
    s4.haltRequest (s4.flag B.DBG F.DBG_BP_CFG_LOCKSTEP) 5 else s4

/-- A breach of the determinism contract, class D (R82, R83). -/
def Dev.breach (s : Dev) (cause e decl : Nat) : Dev := (s.breachRecord cause e decl).breachPolicy

/-- A class U error of a block: its event and its log entry (R20, R537). -/
def Dev.classU (s : Dev) (blk evt : Nat) (st : Status) (addr : Nat) (coord synd info : Nat := 0) : Dev :=
  (s.event blk evt).logError .u st blk evt addr coord synd info

/-- What a byte of memory that nothing has written reads as: zero (DESIGN CHOICE, notes/assumptions/5.md). -/
def memDefault : Nat → Byte := fun _ => 0

/-- The byte at a key of memory. -/
def memByte (m : List Host.Cell) (k : Nat) : Byte := Map.get memDefault m k

/-- Stores a byte; writing the unlisted value takes the entry away. -/
def memPut (m : List Host.Cell) (k : Nat) (b : Byte) : List Host.Cell := Map.set memDefault m k b

/-- `n` bytes from key `k` upward. -/
def memBytes (m : List Host.Cell) (k : Nat) : Nat → List Byte
  | 0 => []
  | n + 1 => memByte m k :: memBytes m (k + 1) n

/-- Stores bytes from key `k` upward. -/
def memStore (m : List Host.Cell) (k : Nat) : List Byte → List Host.Cell
  | [] => m
  | b :: bs => memStore (memPut m k b) (k + 1) bs

/-- The canonical form of memory: addresses strictly rising, no entry equal to what an unlisted address reads as. -/
def Memory.wf (m : List Host.Cell) : Bool := Map.wf memDefault m

/-- The flip mask a stored-data write of block `blk` takes, and the state in which it is spent: both registers clear (R13). -/
def Dev.takeFlip (s : Dev) (blk : Nat) : DWord × Dev :=
  if s.flipArmed.contains blk then
    ((s.reg blk O.ECC_FLIP_HI ++ s.reg blk O.ECC_FLIP_LO : BitVec 64),
     ({ s with flipArmed := s.flipArmed.filter (· != blk) }.setReg blk O.ECC_FLIP_LO 0).setReg blk O.ECC_FLIP_HI 0)
  else (0, s)

/-- An entry for a bounded-release queue, stamped `stamp` (R59, R60); entries stand in the order in which they are written. Queues: 0 to
8191 row commands of a dune, 8192 upward the rows that return to it, 16384 upward the requests of a berth, 16896 upward the messages to
it, 17408 upward the receive bursts of a jetty port, 17664 upward its transmit bursts, 17920 upward what goes from a router to the
DMC or bank of an arbiter, 26120 upward what comes back from it. -/
def Dev.xingPush (s : Dev) (q stamp offset : Nat) (item : XItem) : Dev :=
  { s with tide := { s.tide with
      xing := Map.modify (fun _ => []) s.tide.xing q (fun l =>
        l.takeWhile (fun x => decide (x.stamp ≤ stamp)) ++ ⟨stamp, stamp + offset, item⟩ ::
          l.dropWhile (fun x => decide (x.stamp ≤ stamp))) } }

/-- Whether what was written into a queue at a stamp has been released to its reading side (R59). -/
def Dev.crossed (s : Dev) (q stamp : Nat) : Bool := !(Map.get (fun _ => []) s.tide.xing q).any (fun x => x.stamp == stamp)

/-- Applies a change for each index below `n`. -/
def Dev.forN (s : Dev) (n : Nat) (f : Dev → Nat → Dev) : Dev := (List.range n).foldl f s

end Sys2Proof.Machine
end

