-- ==== Sys2Proof/Machine/NetBase.lean ====
section
/-! DEFINITION. Machine/NetBase.lean: node IDs, the address map, packet headers, and how an initiator issues requests and
a target answers them (R210 to R236, R255, R256). -/

namespace Sys2Proof.Machine

/-- A node ID from device coordinate, router column and row, and unit (R212). -/
def nodeId (dev rx ry unit : Nat) : Nat := dev % 64 + 64 * rx + 1024 * ry + 8192 * unit

/-- The device coordinate of a node (R212). -/
def nodeDev (n : Nat) : Nat := n % 64
/-- The router of a node, 12·y + x. -/
def nodeRouter (n : Nat) : Nat := n / 64 % 16 + 12 * (n / 1024 % 8)
/-- The unit of a node. -/
def nodeUnit (n : Nat) : Nat := n / 8192 % 512

/-- The router of erg `e` (R210), as 12·y + x. -/
def ergRouter (e : Nat) : Nat := 12 * (1 + e / 8) + (2 + e % 8)
/-- The erg of a router; none at the perimeter. -/
def routerErg (r : Nat) : Option Nat :=
  if 2 ≤ r % 12 && r % 12 ≤ 9 && 1 ≤ r / 12 && r / 12 ≤ 4 then some ((r / 12 - 1) * 8 + (r % 12 - 2)) else none

/-- The router of a DMC (R211). -/
def dmcRouter (k : Nat) : Nat :=
  match k % 8 with
  | 0 => 2 | 1 => 5 | 2 => 6 | 3 => 9 | 4 => 62 | 5 => 65 | 6 => 66 | _ => 69
/-- The router of a causeway link (R211). -/
def linkRouter (n : Nat) : Nat :=
  match n % 16 with
  | 0 => 3 | 1 => 4 | 2 => 7 | 3 => 8 | 4 => 22 | 5 => 34 | 6 => 46 | 7 => 58
  | 8 => 63 | 9 => 64 | 10 => 67 | 11 => 68 | 12 => 13 | 13 => 25 | 14 => 37 | _ => 49
/-- The router of a jetty cluster (R211). -/
def jettyRouter (k : Nat) : Nat :=
  match k % 8 with
  | 0 => 1 | 1 => 61 | 2 => 10 | 3 => 70 | 4 => 23 | 5 => 35 | 6 => 47 | _ => 59
/-- The router of a cipher engine (R211). -/
def engineRouter (k : Nat) : Nat :=
  match k % 4 with
  | 0 => 0 | 1 => 60 | 2 => 11 | _ => 71

/-- The router that serves a register block (R217). -/
def blockRouter (blk : Nat) : Nat :=
  match blkKind blk with
  | some .lh | some .clk | some .pwr | some .thm | some .dbg | some .wdg => 36
  | some .mce => 0
  | some .pcie | some .lgt => 12
  | some .eth => 48
  | some .dmc => dmcRouter (blk - 0x10)
  | some .cw => linkRouter (blk - 0x18)
  | some .jp => jettyRouter (blk - 0x28)
  | some .erg => ergRouter (blk - 0x30)
  | some .hold => ergRouter (4 * (blk - 0x50))
  | _ => 24

/-- The node of unit `u` at router `r` of this device. -/
def Dev.node (s : Dev) (r u : Nat) : Nat := nodeId s.coord (r % 12) (r / 12) u

/-- The node of an initiator (R211, R212, R232). -/
def Dev.srcNode (s : Dev) : Src → Nat
  | .host => s.node 12 0
  | .lighter n => s.node 12 (0x20 + n.val)
  | .csp => s.node 24 0
  | .cfgctl => s.node 24 0
  | .wire => s.node 36 0x11
  | .berth b => s.node (ergRouter (b.val / 16)) (b.val % 16)
  | .engine k => s.node (engineRouter k.val) 0
  | .remote d => nodeId d.val 0 1 0

/-- The initiator a node names (R435: the interface of a request is decided by its source node). The node of the
configuration controller makes register requests for the CSP alone. -/
def Dev.nodeSrc (s : Dev) (n : Nat) : Src :=
  if nodeDev n ≠ s.coord then .remote (Fin.ofNat 64 (nodeDev n))
  else
    let r := nodeRouter n
    let u := nodeUnit n
    match routerErg r with
    | some e => .berth (Fin.ofNat 512 (16 * e + u % 16))
    | none =>
      if r = 12 then (if 0x20 ≤ u then .lighter (Fin.ofNat 16 (u - 0x20)) else .host)
      else if r = 24 then .csp
      else if r = 36 then .wire
      else .engine (if r = 0 then 0 else if r = 60 then 1 else if r = 11 then 2 else 3)

/-- The header of a packet (R220). -/
structure Hdr where
  op : Nat
  status : Nat := 0
  tag : Nat := 0
  sch : Bool := false
  peek : Bool := false
  last : Bool := true
  pkt : Nat := 0
  qg : Nat := 0
  dst : Nat := 0
  src : Nat := 0
  addr : Nat := 0
  len : Nat := 0
  plen : Nat := 0
  stamp : Nat := 0
  rtag : Nat := 0
  decl : Nat := 0
  lease : Nat := 0
  deriving DecidableEq, Repr

/-- The header flit of a header (R220). -/
def Hdr.enc (h : Hdr) : BitVec 256 :=
  BitVec.ofNat 256 (h.op % 16 + 2 ^ 4 * (h.status % 16) + 2 ^ 8 * (h.tag % 512) + 2 ^ 17 * h.sch.toNat + 2 ^ 18 * h.peek.toNat +
    2 ^ 19 * h.last.toNat + 2 ^ 20 * (h.pkt % 128) + 2 ^ 27 * (h.qg % 16) + 2 ^ 32 * (h.dst % 2 ^ 22) +
    2 ^ 54 * (h.src % 2 ^ 22) + 2 ^ 80 * (h.addr % 2 ^ 48) + 2 ^ 128 * (h.len % 2 ^ 17) + 2 ^ 145 * (h.plen % 1024) +
    2 ^ 160 * (h.stamp % 2 ^ 32) + 2 ^ 192 * (h.rtag % 2 ^ 16) + 2 ^ 208 * (h.decl % 2 ^ 13) + 2 ^ 224 * (h.lease % 2 ^ 16))

/-- The header that a header flit spells (R220). -/
def Hdr.dec (b : BitVec 256) : Hdr :=
  let n := b.toNat
  { op := nfield n 0 4, status := nfield n 4 4, tag := nfield n 8 9, sch := nbit n 17, peek := nbit n 18, last := nbit n 19,
    pkt := nfield n 20 7, qg := nfield n 27 4, dst := nfield n 32 22, src := nfield n 54 22, addr := nfield n 80 48,
    len := nfield n 128 17, plen := nfield n 145 10, stamp := nfield n 160 32, rtag := nfield n 192 16,
    decl := nfield n 208 13, lease := nfield n 224 16 }

/-- Whether every reserved bit of a header flit is zero (R220). -/
def hdrClean (b : BitVec 256) : Bool :=
  let n := b.toNat
  nfield n 31 1 == 0 && nfield n 76 4 == 0 && nfield n 155 5 == 0 && nfield n 221 3 == 0 && nfield n 240 16 == 0

/-- The header of a message. -/
def Msg.h (m : Msg) : Hdr := Hdr.dec m.hdr

/-- A message from a header and data. -/
def Hdr.msg (h : Hdr) (data : List Byte := []) (poison : List Nat := []) : Msg :=
  { hdr := { h with plen := min h.plen 512, last := decide (h.plen ≤ 512) }.enc, data, poison }

/-- Windows of the address map (R214). -/
inductive Win where
  | ext | hold | berth | regs | stream
  deriving DecidableEq, Repr

/-- The window an address lies in (R214). -/
def addrWin (a : Nat) : Option Win :=
  if a < 0x000800000000 then some .ext
  else if 0x001000000000 ≤ a && a < 0x001040000000 then some .hold
  else if 0x002000000000 ≤ a && a < 0x002020000000 then some .berth
  else if 0x003000000000 ≤ a && a < 0x003001000000 then some .regs
  else if 0x003100000000 ≤ a && a < 0x003100001000 then some .stream
  else none

/-- The end of the region a byte range may not cross (R216): window, berth window or bank. -/
def winEnd (a : Nat) : Win → Nat
  | .ext => 0x000800000000
  | .hold => (a / 0x20000 + 1) * 0x20000
  | .berth => (a / 0x100000 + 1) * 0x100000
  | .regs => 0x003001000000
  | .stream => 0x003100001000

/-- Whether an initiator interface refuses a request on its own device with RANGE (R216). -/
def addrBad (a len : Nat) : Bool :=
  match addrWin a with
  | none => true
  | some w => decide (winEnd a w < a + len) || (w == .regs && !(a % 4 == 0 && len == 4))

/-- The bank a hold address lies in (R171). -/
def holdBank (a : Nat) : Nat := a / 0x20000 % 8192

/-- A set of select masks (R257): the reset mask where nothing is listed. -/
def maskOf (m : Map Nat) (i : Nat) : Nat := Map.get resetMask m i

/-- Select bits `i` upward, `w` of them, of an address (R256). -/
def selects (m : Map Nat) (a i : Nat) : Nat → Nat
  | 0 => 0
  | w + 1 => (parityOf 48 (Nat.land a (maskOf m i))).toNat + 2 * selects m a (i + 1) w

/-- The physical place of a byte of external memory (R256): {DMC, channel, bank group, bank, row, column}. -/
def placeWith (m : Map Nat) (a : Nat) : Nat :=
  ((((selects m a 0 3 * 4 + selects m a 3 2) * 4 + selects m a 5 2) * 4 + selects m a 7 2) * 32768 + a / 2 ^ 20 % 32768) * 2048 +
    (a / 2 ^ 17 % 8 * 256 + a % 256)

/-- The address whose physical place is `p` (R256: the map is a bijection). -/
def unplaceWith (m : Map Nat) (p : Nat) : Nat :=
  let upper := p / 2048 % 32768 * 2 ^ 20 + p % 2048 / 256 * 2 ^ 17
  let sel (i : Nat) : Nat :=
    (if i < 3 then p / 2 ^ (32 + i) else if i < 5 then p / 2 ^ (27 + i) else if i < 7 then p / 2 ^ (23 + i) else p / 2 ^ (19 + i)) % 2
  (List.range 9).foldl (fun a i =>
    a + ((sel i + (parityOf 48 (Nat.land upper (maskOf m i))).toNat) % 2) * 2 ^ (8 + i)) (upper + p % 256)

/-- The physical place of an address under the active map. -/
def Dev.place (s : Dev) (a : Nat) : Nat := placeWith s.ext.active a

/-- The DMC an address reaches (R256). -/
def Dev.dmcOf (s : Dev) (a : Nat) : Nat := selects s.ext.active a 0 3

/-- The first unusable address of external memory for a density (R255). -/
def usable (density : Nat) : Nat :=
  match density with
  | 0 => 0x0003C0000000 | 1 => 0x0005A0000000 | _ => 0x000780000000

/-- The destination node of a request on this device (R214, R217); 0 where the address lies in no window. -/
def Dev.destNode (s : Dev) (a : Nat) : Nat :=
  match addrWin a with
  | some .ext => s.node (dmcRouter (s.dmcOf a)) 0
  | some .hold => s.node (ergRouter (holdBank a / 256)) (0x100 + holdBank a % 256)
  | some .berth => s.node (ergRouter (a / 0x1000000 % 32)) (a / 0x100000 % 16)
  | some .regs => s.node (blockRouter (a / blockBytes % 256)) 0x10
  | some .stream => s.node 24 0
  | none => 0

/-- Pieces of an external-memory request at aligned 256-byte units (R222): offset and length of each. -/
def extPieces (a len : Nat) : List (Nat × Nat) :=
  if len = 0 then [(0, 0)]
  else (List.range ((a % 256 + len + 255) / 256)).map (fun i =>
    let lo := if i = 0 then 0 else 256 * i - a % 256
    let hi := min len (256 * (i + 1) - a % 256)
    (lo, hi - lo))

/-- Puts a message into a router's local input (R251: it leaves as the router's wheel lets it). -/
def Dev.issueAt (s : Dev) (r : Nat) (m : Msg) : Dev :=
  { s with net := { s.net with issued := Map.modify (fun _ => []) s.net.issued r (· ++ [m]) } }

/-- Puts a message into its source's router. -/
def Dev.issue (s : Dev) (m : Msg) : Dev := s.issueAt (nodeRouter m.h.src) m

/-- The response to a request (R220, R222, R234): it goes back to SRC under the same TAG, SCH and STAMP; data and LEN only for
a read that ends OK. -/
def mkResponse (q : Hdr) (st : Status) (data : List Byte := []) (poison : List Nat := []) : Msg :=
  let isRead := q.op == 1 || q.op == 7
  let good := st == .ok && isRead
  { Hdr.msg { op := 4, status := st.code, tag := q.tag, sch := q.sch, dst := q.src, src := q.dst,
              addr := if isRead then q.addr else 0, len := if good then data.length else 0,
              plen := if good then data.length else 0, stamp := q.stamp }
            (if good then data else []) with poison := if good then poison else [] }

/-- A target answers a request. -/
def Dev.respond (s : Dev) (q : Hdr) (st : Status) (data : List Byte := []) (poison : List Nat := []) : Dev :=
  s.issue (mkResponse q st data poison)

/-- The timeout class of a request (R235): 6 LOCK, 3 REMOTE, then by initiator. -/
def timeClass (src : Src) (op addr : Nat) (remote : Bool) : Nat :=
  if op = 5 then 6
  else if remote then 3
  else match src with
    | .berth _ => (match addrWin addr with
      | some .hold => 0
      | some .ext => 1
      | _ => 2)
    | .host => 4
    | .lighter _ => 5
    | _ => 7

/-- The time-clock cycle by which the time of a timer of `units` of 8 ns started now has elapsed (R236). -/
def timerEnd (now units : Nat) : Nat := now + 4 * units

/-- Whether a timer whose time elapses at `t` has expired: at the first 8 ns boundary at or after it (R236). -/
def timerOver (t now : Nat) : Bool := decide ((t + 3) / 4 * 4 ≤ now)

/-- The arbiter group of a request (R241, R252). -/
def Dev.group (s : Dev) (src : Src) (sch : Bool) : Nat :=
  match src with
  | .berth b => if sch then s.fld B.HN (F.HN_QG_ERG_SCH_QG (b.val / 16)) else s.fld B.HN (F.HN_QG_ERG_BE_QG (b.val / 16))
  | .host => s.fld B.HN F.HN_QG_MISC_HOST
  | .lighter _ => s.fld B.HN F.HN_QG_MISC_LIGHTER
  | .wire => s.fld B.HN F.HN_QG_MISC_WIRE
  | .csp => s.fld B.HN F.HN_QG_MISC_SYSTEM
  | .cfgctl => s.fld B.HN F.HN_QG_MISC_SYSTEM
  | .engine _ => 0
  | .remote _ => 0

/-- Number of tag slots of an initiator (R232). -/
def Src.slots : Src → Nat
  | .berth _ => 8 | .host => 256 | .lighter _ => 16 | .csp => 16 | .cfgctl => 16 | .wire => 4 | .engine _ => 64 | .remote _ => 0

/-- The configuration controller uses one set of tags for itself and for the CSP. -/
def Src.sameSlots (a b : Src) : Bool :=
  a == b || ((a == .csp || a == .cfgctl) && (b == .csp || b == .cfgctl))

/-- The first free tag of an initiator. -/
def Dev.freeTag (s : Dev) (src : Src) : Option Nat :=
  (List.range src.slots).find? (fun t => !s.net.outs.any (fun o => o.src.sameSlots src && o.tag == t))

/-- What an initiator asks for. -/
structure Req where
  src : Src
  tag : Nat
  op : Nat
  addr : Nat
  len : Nat := 0
  data : List Byte := []
  dst : Nat
  sch : Bool := false
  peek : Bool := false
  rtag : Nat := 0
  decl : Nat := 0
  lease : Nat := 0
  sched : Option (Nat × Nat) := none

/-- The messages of a request: one, or one for each 256-byte unit of external memory on this device (R222). -/
def Dev.reqMsgs (s : Dev) (q : Req) : List Msg :=
  let one (off len dst : Nat) : Msg :=
    Hdr.msg { op := q.op, tag := q.tag, sch := q.sch, peek := q.peek, qg := s.group q.src q.sch, dst, src := s.srcNode q.src,
              addr := q.addr + off, len, plen := if q.op = 2 || q.op = 8 then len else 0, stamp := s.ns % 2 ^ 32,
              rtag := if q.sch then q.rtag else 0, decl := if q.sch then q.decl else 0,
              lease := if q.op = 5 then q.lease else 0 }
            ((q.data.drop off).take len)
  if addrWin q.addr = some .ext && (q.op = 1 || q.op = 2) then
    (extPieces q.addr q.len).map (fun (off, len) => one off len (s.destNode (q.addr + off) / 64 * 64 + nodeDev q.dst))
  else [one 0 q.len q.dst]

/-- A message is written into a bounded-release queue (R59, R60). -/
def Dev.crossMsg (s : Dev) (q : Nat) (item : XItem) (m : Msg) : Dev :=
  { s with net := { s.net with crossing := Map.modify (fun _ => []) s.net.crossing q (· ++ [(s.tide.count, m)]) } }.xingPush q s.tide.count 8 item

/-- Bytes of 64 MiB and of a metadata slot (R279, R295). -/
def unit64 : Nat := 0x4000000
def slotBytes : Nat := 0x1000000

/-- Whether an address lies in the data of a range. -/
def RangeImg.covers (g : RangeImg) (a : Nat) : Bool :=
  !g.metaOnly && decide (g.base * unit64 ≤ a) && decide (a < (g.base + g.size) * unit64)

/-- Whether an address lies in the metadata slots of a range (R295). -/
def RangeImg.metaCovers (g : RangeImg) (a : Nat) : Bool :=
  g.mode == 2 && decide (g.metaBase * unit64 + g.slot * slotBytes ≤ a) &&
    decide (a < g.metaBase * unit64 + (g.slot + g.size) * slotBytes)

/-- The range that protects an address: not DISABLED, mode XTS or CTR_MAC (R279). -/
def Dev.rangeAt (s : Dev) (a : Nat) : Option Nat :=
  (List.range 16).find? (fun r => (s.range r).st != .disabled &&
    (match (s.range r).img with
     | some g => g.mode != 0 && g.covers a
     | none => false))

/-- Whether a byte range touches the metadata region (R297). -/
def Dev.touchesMeta (s : Dev) (a n : Nat) : Bool :=
  let lo := s.fld B.MCE F.MCE_META_CFG_BASE * unit64
  let hi := lo + s.fld B.MCE F.MCE_META_CFG_SLOTS * slotBytes
  decide (a < hi) && decide (lo < a + n)

/-- Whether a source is one that protected ranges serve: a berth or the configuration controller, of any device (R287). -/
def trustedSource (node : Nat) : Bool :=
  (routerErg (nodeRouter node)).isSome || nodeRouter node == 24

/-- Whether R287 refuses a request for `n` bytes: an enabled range that its first or last byte touches, where its source may not reach it or a
key of it is retired, or the metadata region. A range that is being written or zeroised has requests wait (R281). -/
def Dev.protDenied (s : Dev) (srcNode a n : Nat) : Bool :=
  let hit (x : Nat) : Bool :=
    match s.rangeAt x with
    | some r => (s.range r).st == .enabled && (!trustedSource srcNode || (s.key (s.range r).keyId).st == .retired ||
        (match (s.range r).walking with | some k => (s.key k).st == .retired | none => false))
    | none => false
  n != 0 && (s.touchesMeta a n || hit a || hit (a + n - 1))

/-- The bytes that a request touches: its length, one for a lock request (R238). -/
def touched (op len : Nat) : Nat := if op = 5 || op = 6 then 1 else len

/-- First unusable address of external memory: the lowest that the eight densities give (R255). -/
def Dev.usableEnd (s : Dev) : Nat :=
  (List.range 8).foldl (fun e k => min e (usable (s.fld (B.DMC k) F.DMC_CFG_DENSITY))) (usable 2)

/-- Whether a request that reaches DMC `k` lies beyond the external memory that its density makes usable (R255): its first byte too, where it
has no length. -/
def Dev.beyondUsable (s : Dev) (k a len : Nat) : Bool := decide (usable (s.fld (B.DMC k) F.DMC_CFG_DENSITY) < a + max len 1)

/-- Whether a request of this device for its external memory is refused whole (R287): where every piece lies within what is usable (R255). -/
def Dev.refusedWhole (s : Dev) (q : Req) : Bool :=
  nodeDev q.dst == s.coord && addrWin q.addr == some .ext && ([1, 2, 5, 6] : List Nat).contains q.op &&
    (s.reqMsgs q).all (fun m => !s.beyondUsable (s.dmcOf m.h.addr) m.h.addr m.h.len) &&
    s.protDenied (s.srcNode q.src) q.addr (touched q.op q.len)

/-- An initiator issues a request (R232 to R236): its messages go to its router, those of a berth but for scheduled ones, which its gate
sends, through the queue between TICK and NCLK (R60); its timer starts. One that R287 refuses is refused whole, at once, and counted once. -/
def Dev.request (s : Dev) (q : Req) : Dev :=
  let ms := s.reqMsgs q
  let cls := timeClass q.src q.op q.addr (nodeDev q.dst != s.coord)
  let o : Out := { src := q.src, tag := q.tag, stamp := s.ns % 2 ^ 32, op := q.op, addr := q.addr, len := q.len, dst := q.dst, cls,
                   deadline := timerEnd s.clk.time (s.fld B.HN (F.HN_TO_TIMEOUT cls)), left := ms.length, decl := q.sched,
                   peek := q.peek }
  let s1 := if s.refusedWhole q then ms.foldl (fun (s : Dev) m => s.respond m.h .denied) (s.count B.MCE F.MCE_ERR_CNT_DENIED_CNT)
    else match q.src, q.sch with
    | .berth b, false => ms.foldl (fun (s : Dev) m => s.crossMsg (16384 + b.val) (.message b.val) m) s
    | _, _ => ms.foldl Dev.issue s
  { s1 with net := { s1.net with outs := s1.net.outs ++ [o] } }

/-- The slot of an initiator is freed. -/
def Dev.dropOut (s : Dev) (src : Src) (tag : Nat) : Dev :=
  { s with net := { s.net with outs := s.net.outs.filter (fun o => !(o.src.sameSlots src && o.tag == tag)) } }

/-- Sideband fields of a flit (R218). -/
def Flit.vc (f : Flit) : Nat := nfield f.side.toNat 0 4
def Flit.head (f : Flit) : Bool := nbit f.side.toNat 4
def Flit.tail (f : Flit) : Bool := nbit f.side.toNat 5
def Flit.poison (f : Flit) : Bool := nbit f.side.toNat 6

/-- Word k of a flit's body and its check byte. -/
def Flit.word (f : Flit) (k : Nat) : DWord := f.body.extractLsb' (64 * k) 64
def Flit.chk (f : Flit) (k : Nat) : Byte := f.side.extractLsb' (8 + 8 * k) 8

/-- A router and a change of it. -/
def Dev.router (s : Dev) (r : Nat) : RouterSt := Map.get (fun _ => {}) s.net.routers r
def Dev.setRouter (s : Dev) (r : Nat) (x : RouterSt) : Dev :=
  { s with net := { s.net with routers := Map.set (fun _ => {}) s.net.routers r x } }

/-- The causeway link at a router, if any (R211). -/
def routerLink (r : Nat) : Option Nat := (List.range 16).find? (fun n => linkRouter n == r)

/-- The packet whose header stands first in an input buffer is discarded: its flits in the buffer go, and those still to come (R223,
R231). -/
def Dev.dropPacket (s : Dev) (r b : Nat) : Dev :=
  let x := s.router r
  let buf := Map.get (fun _ => []) x.inq b
  match buf.findIdx? (fun f => f.flit.tail) with
  | some i => s.setRouter r { x with inq := Map.set (fun _ => []) x.inq b (buf.drop (i + 1)), route := Map.erase x.route b }
  | none => s.setRouter r { x with inq := Map.erase x.inq b, route := Map.set (fun _ => none) x.route b (some .discard) }

/-- A packet meets an untrained link (R231): discarded; a request is answered RANGE by the router at the link; LINK_DROP. -/
def Dev.linkDrop (s : Dev) (n : Nat) (h : Hdr) : Dev :=
  let s1 := (s.count B.HN F.HN_MISC_CNT_DROP_CNT).classU B.HN 3 .range n (nodeDev h.src)
  if h.op = 4 then s1 else s1.issueAt (linkRouter n) (mkResponse h .range)

/-- What waits for a causeway link is discarded (R231, R328, R339): packets begun go without a word, those not begun are handled under R231,
and what follows of a packet that is still in the router is discarded there. -/
def Dev.linkFlush (s : Dev) (n : Nat) : Dev :=
  let r := linkRouter n
  let fs := Map.get (fun _ => []) s.net.toLink n
  let s0 := { s with net := { s.net with toLink := Map.erase s.net.toLink n } }
  [0, 1, 3, 4].foldl (fun s c =>
    let q := fs.filter (fun f => f.vc == c)
    let q1 := if (s.link n).txOpen.contains c then (q.dropWhile (fun f => !f.tail)).tail else q
    let s1 := (q1.filter Flit.head).foldl (fun s f => s.linkDrop n (Hdr.dec f.body)) s
    match Map.get (fun _ => none) (s1.router r).busy (16 * 5 + c) with
    | some b =>
      let s2 := s1.dropPacket r b
      s2.setRouter r { s2.router r with busy := Map.erase (s2.router r).busy (16 * 5 + c) }
    | none => s1) s0

/-- Bytes of symbols 1 to 13 of a jetty frame (R347). -/
def JFrame.bytes (f : JFrame) : List Byte :=
  [f.type ++ f.seq] ++ leBytes 2 f.stamp.toNat ++ leBytes 10 f.payload.toNat

/-- The CRC of a frame (R348). -/
def JFrame.crc (f : JFrame) : BitVec 16 := BitVec.ofNat 16 (crcBytes 16 0x1021 0xFFFF f.bytes)

/-- The 16 symbols of a frame as a port sends it: SOF, which is K28.5, the bytes, the CRC with its high byte first (R345, R347, R348). -/
def JFrame.symbols (f : JFrame) : List JSymbol :=
  ⟨true, 0xBC⟩ :: (f.bytes ++ [f.crc.extractLsb' 8 8, f.crc.extractLsb' 0 8]).map (fun b => ⟨false, b⟩)

/-- A burst that a port sampled reaches the symbol clock: the frame built from it, if any, leaves the pins (R354). -/
def Dev.burstLeaves (s : Dev) (p stamp : Nat) : Dev :=
  let x := s.port p
  let x1 := { x with leaving := x.leaving.filter (fun f => f.1 != stamp) }
  match x.leaving.find? (fun f => f.1 == stamp) with
  | some f => s.setPort p { x1 with sent := f.2.symbols }
  | none => s

/-- How far before the start of a tick the last edge of the symbol clock lies, in ticks: less than one symbol time (R356). The phase of the
clock is a free value (R357). -/
def Dev.edgePhase (s : Dev) : Nat × Dev :=
  let (w, s1) := s.freeWord
  (w.toNat % max 1 ((s.fld B.CLK F.CLK_TICK_CFG_ACTIVE + 11) / 12), s1)

/-- The first receive slot after, a START or a resumption takes only frames that completed after the capture edge of tick
offset 0, 16 ticks before the turn (R356). -/
def Dev.rxOpen (s : Dev) (p : Nat) : Dev :=
  let (phase, s1) := s.edgePhase
  let x := s1.port p
  s1.setPort p { x with fresh := x.fresh.filter (fun f => decide (s.tide.count < f.1 + 16 + phase)),
                        faults := x.faults.filter (fun f => decide (s.tide.count < f.1 + 16 + phase)) }

/-- The piece that a request is. -/
def pieceOf (m : Msg) : Piece :=
  { msg := m, addr := m.h.addr, len := m.h.len, data := m.data, poison := m.poison, write := m.h.op == 2 || m.h.op == 8,
    meta_ := m.h.op == 7 || m.h.op == 8 }

/-- NCLK and HCLK in MHz (R452). -/
def Dev.nclk (s : Dev) : Nat := 25 * s.fld B.CLK F.CLK_NCLK_CFG_ACTIVE
def Dev.hclk (s : Dev) : Nat := 25 * s.fld B.CLK F.CLK_HCLK_CFG_ACTIVE

/-- A request stands at a port arbiter (R241): it waits there in order of arrival. Its input is found when grants are decided (R245). -/
def Dev.arbEnter (s : Dev) (a : Nat) (m : Msg) : Dev :=
  let x := s.arb a
  s.setArb a { x with queue := x.queue ++ [{ input := 0, msg := m }] }

/-- A request leaves its router for the DMC or bank behind an arbiter (R60). -/
def Dev.arbPush (s : Dev) (a : Nat) (m : Msg) : Dev := s.crossMsg (17920 + a) (.request a) m

/-- The DMC or bank behind an arbiter answers a request: the response goes back to its router (R60). -/
def Dev.respondFrom (s : Dev) (a : Nat) (q : Hdr) (st : Status) (data : List Byte := []) (poison : List Nat := []) : Dev :=
  s.crossMsg (26120 + a) (.response a) (mkResponse q st data poison)

/-- A message comes out of a bounded-release queue: a metadata request joins the reserved queue of its DMC (R251), another request its
arbiter, and what is for the network its router. -/
def Dev.crossOut (s : Dev) (q : Nat) (m : Msg) : Dev :=
  if 17920 ≤ q && q < 26120 then
    (if m.h.op = 7 || m.h.op = 8 then s.setDmc (q - 17920) { s.dmc (q - 17920) with meta_ := (s.dmc (q - 17920)).meta_ ++ [pieceOf m] }
     else s.arbEnter (q - 17920) m)
  else s.issue m

/-- The entries at the head of a queue that were written together are released, in order (R59): those that reach the reading side after
their release tick are counted as slips (R61). -/
def Dev.xingTake (s : Dev) (q : Nat) (late : Bool) : Dev :=
  match Map.get (fun _ => []) s.tide.xing q with
  | [] => s
  | e :: rest =>
    let same := e :: rest.takeWhile (fun x => x.stamp == e.stamp)
    let s1 := { s with tide := { s.tide with
      xing := Map.set (fun _ => []) s.tide.xing q (rest.dropWhile (fun x => x.stamp == e.stamp)),
      released := Map.set (fun _ => []) s.tide.released q same } }
    let s2 := if late then s1.addFld B.TIDE F.BREACH_CNT_XING_SLIP same.length else s1
    let ms := Map.get (fun _ => []) s2.net.crossing q
    let s3 := { s2 with net := { s2.net with crossing := Map.set (fun _ => []) s2.net.crossing q (ms.filter (fun m => m.1 != e.stamp)) } }
    let s4 := (ms.filter (fun m => m.1 == e.stamp)).foldl (fun s m => s.crossOut q m.2) s3
    if 17664 ≤ q && q < 17920 then s4.burstLeaves (q - 17664) e.stamp else s4

/-- Whether the entries at the head of a queue have come to their release tick. -/
def Dev.xingRipe (s : Dev) (q : Nat) : Bool :=
  match Map.get (fun _ => []) s.tide.xing q with
  | [] => false
  | e :: _ => decide (e.release ≤ s.tide.count)

/-- A queue gives out what has come to its release tick. -/
def Dev.xingRun (q : Nat) : Nat → Dev → Dev
  | 0, s => s
  | n + 1, s => if s.xingRipe q then Dev.xingRun q n (s.xingTake q false) else s

/-- Every queue gives out what has come to its release tick and no command has released yet (R59). -/
def Dev.xingDue (s : Dev) : Dev := s.tide.xing.foldl (fun s x => Dev.xingRun x.1 x.2.length s) s

end Sys2Proof.Machine
end

