-- ==== Sys2Proof/Machine/Locks.lean ====
section
/-! DEFINITION. Machine/Locks.lean: the lock tables of the DMCs and of the erg routers (R237 to R240). -/

namespace Sys2Proof.Machine

/-- The lock table of an address of external memory or the hold: 0 to 7 the DMCs, 8 + e erg e (R237). -/
def Dev.lockTable (s : Dev) (a : Nat) : Nat :=
  match addrWin a with
  | some .hold => 8 + holdBank a / 256
  | _ => s.dmcOf a

/-- The arbiter of an address of external memory or the hold: 0 to 7 the DMCs, 8 + b bank b (R241). -/
def Dev.arbOf (s : Dev) (a : Nat) : Nat :=
  match addrWin a with
  | some .hold => 8 + holdBank a
  | _ => s.dmcOf a

/-- Entries of a lock table (R237), and of its wait queue (R239). -/
def lockRoom (t : Nat) : Nat := if t < 8 then 64 else 16
def waitRoom : Nat := 16

/-- The locks of a table, and the requests that wait there in order of arrival. -/
def Dev.locks (s : Dev) (t : Nat) : List Lock := Map.get (fun _ => []) s.net.locks t
def Dev.setLocks (s : Dev) (t : Nat) (l : List Lock) : Dev :=
  { s with net := { s.net with locks := Map.set (fun _ => []) s.net.locks t l } }
def Dev.lockWaiters (s : Dev) (t : Nat) : List Msg := Map.get (fun _ => []) s.net.waiters t
def Dev.setWaiters (s : Dev) (t : Nat) (l : List Msg) : Dev :=
  { s with net := { s.net with waiters := Map.set (fun _ => []) s.net.waiters t l } }

/-- Whether a lock of another node than `src` covers a byte of a range (R239). -/
def lockedFor (ls : List Lock) (src a len : Nat) : Bool :=
  ls.any (fun l => l.holder != src && decide (a / 64 ≤ l.line) && decide (l.line ≤ (a + max len 1 - 1) / 64))

/-- Whether a request meets a lock of another node (R239): scheduled requests and peek reads ignore locks (R239, R505). -/
def Dev.lockMeets (s : Dev) (m : Msg) : Bool :=
  !m.h.sch && !m.h.peek && lockedFor (s.locks (s.lockTable m.h.addr)) m.h.src m.h.addr m.h.len

/-- A request waits at a table for a lock to be freed, where the wait queue has room (R239). -/
def Dev.lockWait (s : Dev) (m : Msg) : Dev :=
  let t := s.lockTable m.h.addr
  if waitRoom ≤ (s.lockWaiters t).length then s.respondFrom (s.arbOf m.h.addr) m.h .busy else s.setWaiters t (s.lockWaiters t ++ [m])

/-- READ, WRITE and ACQUIRE meet the locks, and go on to the port arbiter where none stops them (R239, R241). -/
def Dev.lockGate (s : Dev) (m : Msg) : Dev := if s.lockMeets m then s.lockWait m else s.arbPush (s.arbOf m.h.addr) m

/-- An ACQUIRE is granted (R238): the lock is held from now on, unless the line or the table has none to give. -/
def Dev.lockTake (s : Dev) (m : Msg) : Dev :=
  let h := m.h
  let t := s.lockTable h.addr
  let ls := s.locks t
  let a := s.arbOf h.addr
  if ls.any (fun l => l.line == h.addr / 64) then s.respondFrom a h .state
  else if lockRoom t ≤ ls.length then s.respondFrom a h .busy
  else (s.setLocks t (ls ++ [{ line := h.addr / 64, holder := h.src, expires := timerEnd s.clk.time (8 * h.lease) }])).respondFrom a h .ok

/-- A request that has waited for a line goes on, where no other lock stops it: an ACQUIRE takes the lock, the others go to the port
arbiter (R238, R239). -/
def Dev.waiterGo (s : Dev) (m : Msg) : Dev :=
  if s.lockMeets m then s.lockWait m else if m.h.op = 5 then s.lockTake m else s.arbPush (s.arbOf m.h.addr) m

/-- Lines have become free: the requests that wait at a table go on in order of arrival, as far as they can (R238, R239). -/
def Dev.waitersGo (s : Dev) (t : Nat) : Dev := (s.lockWaiters t).foldl Dev.waiterGo (s.setWaiters t [])

/-- RELINQUISH (R238): OK for the holder, STATE for anyone else and for a line not locked. -/
def Dev.lockFree (s : Dev) (m : Msg) : Dev :=
  let h := m.h
  let t := s.lockTable h.addr
  let a := s.arbOf h.addr
  let mine (l : Lock) : Bool := l.line == h.addr / 64 && l.holder == h.src
  if (s.locks t).any mine then ((s.setLocks t ((s.locks t).filter (fun l => !mine l))).respondFrom a h .ok).waitersGo t
  else s.respondFrom a h .state

/-- A lock request that its arbiter has granted (R238, R241). -/
def Dev.lockServe (s : Dev) (m : Msg) : Dev :=
  if m.h.op = 6 then s.lockFree m else if s.lockMeets m then s.lockWait m else s.lockTake m

/-- A request that may be served reaches the lock table of its target (R16, R239): one of length zero is answered OK at once and moves no
byte; RELINQUISH meets no lock before its arbiter. -/
def Dev.lockEnter (s : Dev) (m : Msg) : Dev :=
  let h := m.h
  if h.op ≤ 2 && h.len = 0 then s.respond h .ok
  else if h.op = 6 then s.arbPush (s.arbOf h.addr) m
  else s.lockGate m

/-- Whether a lock's lease stands still: its holder is a berth, and the device is halted (R240). -/
def Dev.leaseStands (s : Dev) (l : Lock) : Bool := s.mode == .anchored && (routerErg (nodeRouter l.holder)).isSome

/-- LEASE_EXP (R240): the lease of a table's lock on a line has expired; the lock is freed and the oldest waiter proceeds. -/
def Dev.leaseExp (s : Dev) (t line : Nat) : Dev :=
  match (s.locks t).find? (fun l => l.line == line) with
  | none => s
  | some l =>
    if !timerOver l.expires s.clk.time || s.leaseStands l then s
    else
      (((s.setLocks t ((s.locks t).filter (· != l))).count B.HN F.HN_MISC_CNT_LEASE_EXP_CNT).classU B.HN 4 .ok (64 * line)
        (nodeDev l.holder)).waitersGo t

/-- The register block whose BLK_FREEZE stops an initiator's timers (R236, R514); none for those that never stop. -/
def Src.freezeBlock : Src → Option Nat
  | .berth b => some (B.ERG (b.val / 16))
  | .host => some B.PCIE
  | .lighter _ => some B.LGT
  | .csp => some B.CFG
  | .cfgctl => some B.CFG
  | _ => none

/-- Whether a halt stops an initiator. -/
def Dev.srcHalted (s : Dev) (src : Src) : Bool :=
  match src.freezeBlock with
  | some blk => s.halted blk
  | none => false

/-- A cycle of the time clock passes at the timers that a halt has stopped (R236, R240): their ends move with it. -/
def Dev.freezeTimers (s : Dev) : Dev :=
  if s.mode ≠ .anchored then s
  else
    let later (o : Out) : Out := if s.srcHalted o.src then { o with deadline := o.deadline + 1 } else o
    let longer (l : Lock) : Lock := if s.leaseStands l then { l with expires := l.expires + 1 } else l
    { s with net := { s.net with outs := s.net.outs.map later, locks := s.net.locks.map (fun (x : Nat × List Lock) => (x.1, x.2.map longer)) } }

/-! ### Wake and park buffers (R248 to R250) -/

/-- The packets that a message takes in a buffer. -/
def Msg.packets (m : Msg) : Nat := max 1 ((m.data.length + 511) / 512)

/-- The entries of a wake buffer, and of a park buffer of one endpoint (R250). -/
def heldRoom : Nat := 16

/-- Packets that some messages take. -/
def packetsOf (ms : List Msg) : Nat := ms.foldl (fun n m => n + m.packets) 0

/-- A request finds its buffer full (R250): BUSY, counted; BUSY_OUT, bit 7 of HN. -/
def Dev.bufferBusy (s : Dev) (h : Hdr) : Dev := ((s.count B.HN F.HN_TO_CNT_BUSY_CNT).event B.HN 7).respond h .busy

/-- A request is held for a stopped endpoint: a berth by its number, a bank at 512 plus its number, the image stream aperture at 8704
(R250). -/
def Dev.parkMsg (s : Dev) (key : Nat) (m : Msg) : Dev :=
  let held := Map.get (fun _ => []) s.net.park key
  if heldRoom < packetsOf held + m.packets then s.bufferBusy m.h
  else { s with net := { s.net with park := Map.set (fun _ => []) s.net.park key (held ++ [m]) } }

/-- A request to a gated block (R248, R456): OK at once, zero data for a read, a write dropped. -/
def Dev.gatedAnswer (s : Dev) (h : Hdr) : Dev := s.respond h .ok (List.replicate h.len 0)

end Sys2Proof.Machine
end

