-- ==== Sys2Proof/Machine/Hash.lean ====
section
/-! DEFINITION. Machine/Hash.lean: SHAKE256 (FIPS 202), the hash the spec names for the shoal map, the image tree, passwords and
key derivation (R35, R398, R432, R438). A state is 25 lanes of 64 bits, lane x + 5y. -/

namespace Sys2Proof.Machine

/-- The round constants of Keccak-f[1600]. -/
def keccakRC : List (BitVec 64) :=
  ([0x0000000000000001, 0x0000000000008082, 0x800000000000808A, 0x8000000080008000] ++
   [0x000000000000808B, 0x0000000080000001, 0x8000000080008081, 0x8000000000008009] ++
   [0x000000000000008A, 0x0000000000000088, 0x0000000080008009, 0x000000008000000A] ++
   [0x000000008000808B, 0x800000000000008B, 0x8000000000008089, 0x8000000000008003] ++
   [0x8000000000008002, 0x8000000000000080, 0x000000000000800A, 0x800000008000000A] ++
   [0x8000000080008081, 0x8000000000008080, 0x0000000080000001, 0x8000000080008008])

/-- The rotation of each lane. -/
def keccakRot : List Nat :=
  ([0, 1, 62, 28, 27] ++
   [36, 44, 6, 55, 20] ++
   [3, 10, 43, 25, 39] ++
   [41, 45, 15, 21, 8] ++
   [18, 2, 61, 56, 14])

/-- A lane of a state. -/
def kLane (a : List (BitVec 64)) (i : Nat) : BitVec 64 := a.getD i 0

/-- One round of Keccak-f[1600]. -/
def keccakRound (a : List (BitVec 64)) (rc : BitVec 64) : List (BitVec 64) :=
  let c := (List.range 5).map (fun x => kLane a x ^^^ kLane a (x + 5) ^^^ kLane a (x + 10) ^^^ kLane a (x + 15) ^^^ kLane a (x + 20))
  let d := (List.range 5).map (fun x => kLane c ((x + 4) % 5) ^^^ (kLane c ((x + 1) % 5)).rotateLeft 1)
  let t := (List.range 25).map (fun i => (kLane a i ^^^ kLane d (i % 5)).rotateLeft (keccakRot.getD i 0))
  let b := (List.range 25).map (fun j => let x' := j % 5; let y' := j / 5; kLane t ((x' + 3 * y') % 5 + 5 * x'))
  (List.range 25).map (fun i =>
    let x := i % 5
    let y := i / 5
    let v := kLane b i ^^^ (~~~(kLane b ((x + 1) % 5 + 5 * y)) &&& kLane b ((x + 2) % 5 + 5 * y))
    if i = 0 then v ^^^ rc else v)

/-- The permutation. -/
def keccakF (a : List (BitVec 64)) : List (BitVec 64) := keccakRC.foldl keccakRound a

/-- A block of 136 bytes into the state. -/
def keccakAbsorb (a : List (BitVec 64)) (blk : List Byte) : List (BitVec 64) :=
  keccakF ((List.range 25).map (fun i =>
    if i < 17 then kLane a i ^^^ BitVec.ofNat 64 (ofLeBytes ((blk.drop (8 * i)).take 8)) else kLane a i))

/-- Absorbs whole blocks of a padded message, `n` of them. -/
def keccakBlocks : Nat → List (BitVec 64) → List Byte → List (BitVec 64)
  | 0, a, _ => a
  | n + 1, a, m => keccakBlocks n (keccakAbsorb a (m.take 136)) (m.drop 136)

/-- The message padded to whole blocks, with SHAKE's domain bits. -/
def shakePad (m : List Byte) : List Byte :=
  let z := 135 - m.length % 136
  if z = 0 then m ++ [0x9F] else m ++ [0x1F] ++ List.replicate (z - 1) 0 ++ [0x80]

/-- SHAKE256 with 32 bytes of output. -/
def shake256 (m : List Byte) : List Byte :=
  let p := shakePad m
  ((keccakBlocks (p.length / 136) (List.replicate 25 0) p).take 4).flatMap (fun l => leBytes 8 l.toNat)

/-- The 256-bit value of a digest, byte 0 lowest. -/
def shakeNum (m : List Byte) : BitVec 256 := BitVec.ofNat 256 (ofLeBytes (shake256 m))

end Sys2Proof.Machine
end

