-- ==== Sys2Proof/Machine/Binary32.lean ====
section
/-! DEFINITION. Machine/Binary32.lean: the fused multiply-add of the oasis block (R113, R114): IEEE 754-2019 binary32,
round to nearest ties to even, subnormal inputs and results flushed to zero with their sign kept. -/

namespace Sys2Proof.Machine

/-- Sign, biased exponent and fraction of a binary32 word. -/
def F32.sign (x : BitVec 32) : Bool := x.getLsbD 31
def F32.expo (x : BitVec 32) : Nat := (x.extractLsb' 23 8).toNat
def F32.frac (x : BitVec 32) : Nat := (x.extractLsb' 0 23).toNat
def F32.isNan (x : BitVec 32) : Bool := F32.expo x == 255 && F32.frac x != 0
def F32.isSNan (x : BitVec 32) : Bool := F32.isNan x && !x.getLsbD 22
def F32.isInf (x : BitVec 32) : Bool := F32.expo x == 255 && F32.frac x == 0
def F32.isSub (x : BitVec 32) : Bool := F32.expo x == 0 && F32.frac x != 0
/-- A zero, or a subnormal, which is flushed to one. -/
def F32.isZero (x : BitVec 32) : Bool := F32.expo x == 0

/-- The 24-bit significand of a normal word; its value is `mant · 2^(expo − 150)`. -/
def F32.mant (x : BitVec 32) : Nat := 2 ^ 23 + F32.frac x

/-- A word from sign, exponent and fraction. -/
def F32.make (s : Bool) (e f : Nat) : BitVec 32 :=
  BitVec.ofNat 32 ((if s then 2 ^ 31 else 0) + e * 2 ^ 23 + f)

/-- The one NaN result (R113). -/
def F32.nan : BitVec 32 := 0x7FC00000

/-- Flags of R114: INVALID [1], OVERFLOW [2], FLUSH [3], INEXACT [4]. -/
def F32.flags (invalid overflow flush inexact : Bool) : BitVec 8 :=
  BitVec.ofNat 8 (invalid.toNat * 2 + overflow.toNat * 4 + flush.toNat * 8 + inexact.toNat * 16)

/-- Rounds the exact magnitude `m · 2^e`, `m` above 0, to 24 bits, ties to even: the significand and its exponent, and
whether bits were lost. -/
def F32.round24 (m : Nat) (e : Int) : Nat × Int × Bool :=
  let len := m.log2 + 1
  if len ≤ 24 then (m <<< (24 - len), e - (24 - len : Nat), false)
  else
    let sh := len - 24
    let q := m >>> sh
    let r := m % 2 ^ sh
    let half := 2 ^ (sh - 1)
    let q' := if half < r || (r == half && q % 2 == 1) then q + 1 else q
    if q' == 2 ^ 24 then (2 ^ 23, e + (sh : Nat) + 1, r != 0) else (q', e + (sh : Nat), r != 0)

/-- The word of the exact value `(−1)^s · m · 2^e`, `m` above 0. A result below the least normal magnitude after
rounding is flushed, and is INEXACT then (log entry 126). -/
def F32.pack (s : Bool) (m : Nat) (e : Int) (flushed : Bool) : BitVec 32 × BitVec 8 :=
  let (q, e', lost) := F32.round24 m e
  let biased := e' + 150
  if 255 ≤ biased then (F32.make s 255 0, F32.flags false true flushed true)
  else if biased ≤ 0 then (F32.make s 0 0, F32.flags false false true true)
  else (F32.make s biased.toNat (q - 2 ^ 23), F32.flags false false flushed lost)

/-- A × B + C, fused, with one rounding. Zero times infinity is INVALID whatever C is (log entry 126). -/
def F32.fma (a b c : BitVec 32) : BitVec 32 × BitVec 8 :=
  let flushed := F32.isSub a || F32.isSub b || F32.isSub c
  let ps := F32.sign a != F32.sign b
  let infProd := (F32.isInf a && !F32.isZero b) || (F32.isInf b && !F32.isZero a)
  if (F32.isInf a && F32.isZero b && !F32.isNan b) || (F32.isInf b && F32.isZero a && !F32.isNan a) then
    (F32.nan, F32.flags true false flushed false)
  else if F32.isNan a || F32.isNan b || F32.isNan c then
    (F32.nan, F32.flags (F32.isSNan a || F32.isSNan b || F32.isSNan c) false flushed false)
  else if infProd && F32.isInf c && ps != F32.sign c then (F32.nan, F32.flags true false flushed false)
  else if infProd then (F32.make ps 255 0, F32.flags false false flushed false)
  else if F32.isInf c then (F32.make (F32.sign c) 255 0, F32.flags false false flushed false)
  else
    let pz := F32.isZero a || F32.isZero b
    let cz := F32.isZero c
    if pz && cz then
      (F32.make (ps && F32.sign c) 0 0, F32.flags false false flushed false)
    else
      let pe : Int := (F32.expo a : Int) + F32.expo b - 300
      let pm : Int := if pz then 0 else (if ps then -1 else 1) * (F32.mant a * F32.mant b : Nat)
      let ce : Int := (F32.expo c : Int) - 150
      let cm : Int := if cz then 0 else (if F32.sign c then -1 else 1) * (F32.mant c : Nat)
      let e : Int := if pz then ce else if cz then pe else min pe ce
      let sum : Int :=
        (if pz then 0 else pm * 2 ^ (pe - e).toNat) + (if cz then 0 else cm * 2 ^ (ce - e).toNat)
      if sum == 0 then (F32.make false 0 0, F32.flags false false flushed false)
      else F32.pack (decide (sum < 0)) sum.natAbs e flushed

end Sys2Proof.Machine
end

