-- ==== Sys2Proof/Machine/FabricCore.lean ====
section
/-! DEFINITION. Machine/FabricCore.lean: what one tick does in the fabric (R90 to R120): signal pools and sinks, grains,
carry, caravan routes, oasis blocks and row registers. Everything here is a function of one picture of the fabric,
`View`: the state of the fabric as the tick begins, and which frame every dune runs in it. -/

namespace Sys2Proof.Machine

/-- Global position of dune `g` = 256·erg + dune (R90). -/
def duneX (g : Nat) : Nat := (g / 256 % 8) * 16 + g % 16
def duneY (g : Nat) : Nat := (g / 256 / 8) * 16 + g % 256 / 16

/-- The dune at a global position (R90). -/
def duneAt (x y : Nat) : Nat := 256 * (8 * (y / 16) + x / 16) + 16 * (y % 16) + x % 16

/-- The erg of a dune. -/
def ergOf (g : Nat) : Nat := g / 256

/-- Berth of a berth dune; berth dunes are 128 to 143 of an erg (R92). -/
def berthDune (g : Nat) : Option Nat :=
  if 128 ≤ g % 256 && g % 256 < 144 then some (16 * ergOf g + (g % 256 - 128)) else none

/-- Jetty port of a jetty dune: dunes 113, 115 to 127 of an erg (R92). -/
def jettyDune (g : Nat) : Option Nat :=
  if 113 ≤ g % 256 && g % 256 < 128 && g % 2 == 1 then some (8 * ergOf g + (g % 256 - 113) / 2) else none

/-- Directions of travel of caravan routes and sides of a dune. -/
inductive Dir where
  | north | east | south | west
  deriving DecidableEq, Repr

/-- The dune next to `g` on a side; none at the device edge (R101). -/
def neighbour (g : Nat) : Dir → Option Nat
  | .north => if duneY g = 0 then none else some (duneAt (duneX g) (duneY g - 1))
  | .south => if duneY g = 63 then none else some (duneAt (duneX g) (duneY g + 1))
  | .east => if duneX g = 127 then none else some (duneAt (duneX g + 1) (duneY g))
  | .west => if duneX g = 0 then none else some (duneAt (duneX g - 1) (duneY g))

/-- The opposite side. -/
def Dir.back : Dir → Dir
  | .north => .south | .south => .north | .east => .west | .west => .east

/-- The section index of a direction of travel: eastbound 0, westbound 1, southbound 2, northbound 3 (R108). -/
def Dir.travel : Dir → Nat
  | .east => 0 | .west => 1 | .south => 2 | .north => 3

/-- Direction of travel by its index. -/
def travelDir : Nat → Dir
  | 0 => .east | 1 => .west | 2 => .south | _ => .north

/-- Frame fields (R97, R100, R108). -/
def frGrain (fr g lo w : Nat) : Nat := nfield fr (80 * g + lo) w
def frInput (fr g i : Nat) : Nat := nfield fr (20480 + 8 * (8 * g + i)) 8
def frSink (fr s : Nat) : Nat := nfield fr (36864 + 8 * s) 8
def frSwitch (fr dir t : Nat) : Nat := nfield fr (57600 + 2 * (1024 * dir + t)) 2
def frRamp (fr dir k : Nat) : Nat := nfield fr (65792 + 10 * (256 * dir + k)) 10
def frOasis (fr lo w : Nat) : Nat := nfield fr (76032 + lo) w
def frH (fr r : Nat) : Nat := nfield fr (76544 + r) 1

/-- The picture a tick works on. `run g`: the plane dune `g` runs in this tick with its frame as driven; none where the
dune's latches are clear. `switchFr g`: the frame whose caravan switch codes stand above dune `g` (a fence keeps them,
R139). `globals e`: the erg global lines (R120). `forced g side link`: the value an erg's edge forces on a neighbour-out
link (R137). `forcedTrack g dir t`: the same where track `t` leaves `g`'s erg; `forcedOnes`: the edge dunes, travel indexes and tracks where
that value is 1. `portsDead g bundle`: the caravan bundle is
exhausted (R105). `iface g`: the berth or jetty path of the dune works. -/
structure View where
  fab : FabSt
  tick : Nat
  run : Nat → Option (Nat × Nat)
  switchFr : Nat → Option Nat
  globals : Nat → BitVec 32
  forced : Nat → Dir → Nat → Option Bool
  forcedTrack : Nat → Dir → Nat → Option Bool
  forcedOnes : List (Nat × Nat × Nat)
  portsDead : Nat → Nat → Bool
  iface : Nat → Bool

/-- Flip-flop bits of a dune in a plane. -/
def View.ff (v : View) (g p : Nat) : BitVec 512 := Map.get (fun _ => 0) v.fab.ffs (8 * g + p)

/-- The oasis block of a dune in a plane. -/
def View.oasis (v : View) (g p : Nat) : OasisSt := Map.get (fun _ => {}) v.fab.oasis (8 * g + p)

/-- What a row register holds where nothing has written it: zero at island power-up (DESIGN CHOICE,
notes/assumptions/4.md), free bits after a reset or Slack (R119). -/
def rowDefault (epoch : Map Nat) (key : Nat) : Row :=
  let e := Map.get (fun _ => 0) epoch (key / 512)
  if e = 0 then {}
  else
    let w := Config.freeRow e key
    { data := w.extractLsb' 0 2048, chk := w.extractLsb' 2048 256 }

/-- Row register `r` (0 RA, 1 RB) of a dune. -/
def FabSt.row (f : FabSt) (g r : Nat) : Row := Map.get (rowDefault f.epoch) f.rows (2 * g + r)

/-- Replaces a row register. -/
def FabSt.setRow (f : FabSt) (g r : Nat) (x : Row) : FabSt :=
  { f with rows := Map.set (rowDefault f.epoch) f.rows (2 * g + r) x }

/-- The plane a dune runs in this tick, 8 where it runs none. A route belongs to the plane of its start dune: no register of it is shared
between planes (R96). -/
def View.plane (v : View) (g : Nat) : Nat :=
  match v.run g with
  | some (p, _) => p
  | none => 8

/-- Key of the caravan register of a track above dune `g`, in plane `p` of the route's start dune. -/
def caravanKey (g dir t p : Nat) : Nat := ((dir * 1024 + t) * 8192 + g) * 9 + p

/-- The caravan register of a track in the metal above a dune (R103), in plane `p` of the route's start dune. -/
def View.reg (v : View) (g dir t p : Nat) : Bool := Map.get (fun _ => false) v.fab.caravan (caravanKey g dir t p)

/-- Switch code of a track above a dune (R102); a dune with no frame above it passes every track. -/
def View.code (v : View) (g dir t : Nat) : Nat :=
  match v.switchFr g with
  | some fr => frSwitch fr dir t
  | none => 0

/-- Where what track `t`, travelling `d`, carries above dune `g` comes from: the dune at which the track last started upstream and its
distance, 1 to 64 (R102, R103), and the nearest erg edge on the way at which a fence drives the track, with its distance and the value
driven (R137, R138). -/
def View.walk (v : View) (d : Dir) (t : Nat) : Nat → Nat → Nat → Option (Nat × Nat × Bool) → Option (Nat × Nat) × Option (Nat × Nat × Bool)
  | 0, _, _, f => (none, f)
  | fuel + 1, g, dist, f =>
    match neighbour g d.back with
    | none => (none, f)
    | some u =>
      let f1 := match f with
        | some x => some x
        | none => (v.forcedTrack u d t).map (fun b => (u, dist + 1, b))
      if v.code u d.travel t = 1 then (some (u, dist + 1), f1)
      else if v.code u d.travel t = 0 then v.walk d t fuel u (dist + 1) f1
      else (none, f1)

/-- The dune `k` steps downstream of `g`. -/
def stepDir (d : Dir) : Nat → Nat → Option Nat
  | 0, g => some g
  | k + 1, g =>
    match neighbour g d with
    | some h => stepDir d k h
    | none => none

/-- What the route's latest register before a dune at distance `dist` from dune `u` holds: the registers stand at `u` and at every eighth
dune from it (R103). -/
def View.lastReg (v : View) (d : Dir) (t u dist p : Nat) : Bool :=
  match stepDir d (8 * ((dist - 1) / 8)) u with
  | some r => v.reg r d.travel t p
  | none => false

/-- What track `t` carries as it arrives above dune `g` (R102 to R104): what the latest register on the way holds, or the value of a fence
that lies after it. A track that a fence alone drives has its registers at every eighth dune from the fence (R135). -/
def View.track (v : View) (g : Nat) (d : Dir) (t : Nat) : Bool :=
  match v.walk d t 64 g 0 none with
  | (some (u, dist), f) =>
    let reg := v.lastReg d t u dist (v.plane u)
    (match f with
     | some (_, fd, b) => if fd ≤ dist - 8 * ((dist - 1) / 8) then b else reg
     | none => reg)
  | (none, some (u, fd, b)) => if fd ≤ 8 then b else v.lastReg d t u fd 8
  | (none, none) => false

/-- Off-ramp `k` of a direction in dune `g` (R104); an off-ramp in the start dune reads 0. Of the 32 caravan bundles the first 16 carry the
on-ramps and the last 16 the off-ramps, by direction and then by ramp (log entry 115: R23 gives no order). -/
def View.offRamp (v : View) (g fr dir k : Nat) : Bool :=
  let t := frRamp fr dir k
  if v.portsDead g ((1024 + 256 * dir + k) / 64) then false
  else if v.code g dir t = 1 then false
  else v.track g (travelDir dir) t

/-- Length bound of a path through neighbour links that does not come back to an entry it has passed: 8,192 dunes with
1,024 neighbour-in entries each. A path that outruns it is a loop, which no configuration makes (R135). -/
def poolFuel : Nat := 8388609

/-- Pool entry `idx` of dune `g` (R98). -/
def View.pool (v : View) : Nat → Nat → Nat → Bool
  | 0, _, _ => false
  | fuel + 1, g, idx =>
    match v.run g with
    | none => false
    | some (p, fr) =>
      if idx < 512 then (v.ff g p).getLsbD idx
      else if idx < 1536 then
        let side : Dir := match (idx - 512) / 256 with
          | 0 => .north | 1 => .east | 2 => .south | _ => .west
        let n := (idx - 512) % 256
        match neighbour g side with
        | none => false
        | some h =>
          match v.forced h side.back n with
          | some b => b
          | none =>
            match v.run h with
            | none => false
            | some (_, fh) =>
              let s := (match side with | .north => 512 | .east => 768 | .south => 0 | .west => 256) + n
              v.pool fuel h (256 * (s % 20) + frSink fh s)
      else if idx < 2560 then v.offRamp g fr ((idx - 1536) / 256) ((idx - 1536) % 256)
      else if idx < 3584 then ((v.fab.row g 0).data).getLsbD (1024 * frH fr 0 + (idx - 2560))
      else if idx < 4608 then ((v.fab.row g 1).data).getLsbD (1024 * frH fr 1 + (idx - 3584))
      else if idx < 4736 then
        let o := v.oasis g p
        if idx < 4704 then o.res.getLsbD (idx - 4608)
        else if idx < 4712 then o.flags.getLsbD (idx - 4704) else false
      else if idx < 5056 then
        if !v.iface g then false
        else match berthDune g, jettyDune g with
          | some b, _ => (Map.get (fun _ => 0) v.fab.iIn b).getLsbD (idx - 4736)
          | none, some j =>
            if idx < 4768 then ((Map.get (fun _ => []) v.fab.rxIn j).headD 0).getLsbD (idx - 4736) else false
          | none, none => false
      else if idx < 5088 then (v.globals (ergOf g)).getLsbD (idx - 5056)
      else idx == 5089

/-- What sink `s` of dune `g` presents (R100). -/
def View.sink (v : View) (g s : Nat) : Bool :=
  match v.run g with
  | none => false
  | some (_, fr) => v.pool poolFuel g (256 * (s % 20) + frSink fr s)

/-- Sinks `s` to `s + w − 1` as a number. -/
def View.sinks (v : View) (g s : Nat) : Nat → Nat
  | 0 => 0
  | w + 1 => (v.sink g s).toNat + 2 * v.sinks g (s + 1) w

/-- Input `i` of grain `k` (R99). -/
def View.input (v : View) (g fr k i : Nat) : Bool :=
  v.pool poolFuel g (256 * ((k + 3 * i) % 20) + frInput fr k i)

/-- CIN of the grain at position 0 of a group (R94). -/
def View.carryIn (v : View) (g p fr k : Nat) : Bool :=
  match frGrain fr k 66 2 with
  | 0 => false
  | 1 => true
  | 2 =>
    if k / 8 = 0 then
      if g % 256 / 16 = 0 then false
      else match v.run (g - 16) with
        | some (q, _) => (v.ff (g - 16) q).getLsbD 511
        | none => false
    else (v.ff g p).getLsbD (2 * (k - 1) + 1)
  | _ => v.input g fr k 5

/-- The two outputs of grain `k` and its carry out, from its carry in (R93). -/
def View.grain (v : View) (g fr k : Nat) (cin : Bool) : Bool × Bool × Bool :=
  let a (i : Nat) : Nat := (v.input g fr k i).toNat
  let m := a 0 + 2 * a 1 + 4 * a 2 + 8 * a 3 + 16 * a 4
  let n := m + 32 * a 5
  let t (i : Nat) : Bool := frGrain fr k i 1 == 1
  match frGrain fr k 64 2 with
  | 0 => (t n, a 0 == 1, Config.freeCarry v.tick g k)
  | 1 => (t m, t (32 + m), Config.freeCarry v.tick g k)
  | 2 =>
    let cout := if t m then cin else t (32 + m)
    (t m != cin, cout, cout)
  | _ => (false, false, Config.freeCarry v.tick g k)

/-- The pair of a grain after the tick (R95): bit 0 FF0, bit 1 FF1. -/
def View.pair (v : View) (g p fr k : Nat) (o0 o1 : Bool) : Nat :=
  let old := v.ff g p
  if frGrain fr k 69 1 == 1 && v.input g fr k 7 then frGrain fr k 70 1 + 2 * frGrain fr k 71 1
  else if frGrain fr k 68 1 == 1 && !v.input g fr k 6 then
    (old.getLsbD (2 * k)).toNat + 2 * (old.getLsbD (2 * k + 1)).toNat
  else o0.toNat + 2 * o1.toNat

/-- The pairs of the `n` grains from grain `k` of one group upward, with the carry that enters (R94). -/
def View.group (v : View) (g p fr : Nat) : Nat → Nat → Bool → Nat
  | 0, _, _ => 0
  | n + 1, k, cin =>
    let (o0, o1, cout) := v.grain g fr k cin
    v.pair g p fr k o0 o1 + 4 * v.group g p fr n (k + 1) cout

/-- The flip-flop bits of a dune's running plane after the tick (R95). -/
def View.nextFf (v : View) (g p fr : Nat) : BitVec 512 :=
  BitVec.ofNat 512 ((List.range 32).foldl
    (fun acc k => acc + (v.group g p fr 8 (8 * k) (v.carryIn g p fr (8 * k))) * 2 ^ (16 * k)) 0)

/-- The initial pairs of a frame: INIT0 and INIT1 of every grain (R96). -/
def frameInit (fr : Nat) : BitVec 512 :=
  BitVec.ofNat 512 ((List.range 256).foldl
    (fun acc k => acc + (frGrain fr k 72 1 + 2 * frGrain fr k 73 1) * 2 ^ (2 * k)) 0)

/-- A field of an operand bus as a signed or unsigned integer. -/
def opInt (x w : Nat) (signed : Bool) : Int :=
  let y := x % 2 ^ w
  if signed && 2 ^ (w - 1) ≤ y then (y : Int) - 2 ^ w else y

/-- Oasis operation of one tick with GO = 1 (R111): the result, its flags and the accumulators after it. `partner`: the
partner block is in mode PARTNER (R112). An unsigned product of MUL48X24 is extended with zeros (log entry 125). -/
def oasisIssue (fr op ctl : Nat) (partner : Bool) (o : OasisSt) : Option OasisOp × BitVec 64 × BitVec 32 :=
  let sg (i : Nat) : Bool := frOasis fr i 1 == 1
  let x0 := nfield op 0 24
  let y0 := nfield op 24 24
  let x1 := nfield op 48 24
  let y1 := nfield op 72 24
  match frOasis fr 0 4 with
  | 1 =>
    let p0 := BitVec.ofInt 48 (opInt x0 24 (sg 4) * opInt y0 24 (sg 5))
    let p1 := BitVec.ofInt 48 (opInt x1 24 (sg 6) * opInt y1 24 (sg 7))
    (some ⟨4, p1 ++ p0, 0⟩, o.acc, o.accF)
  | 2 =>
    let s := opInt x0 24 (sg 4) * opInt y0 24 (sg 5) + opInt x1 24 (sg 6) * opInt y1 24 (sg 7)
    let base : Int := if nbit ctl 1 then 0 else o.acc.toInt
    let r := if nbit ctl 2 then base - s else base + s
    let ovf := decide (r < -2 ^ 63) || decide (2 ^ 63 ≤ r)
    let acc : BitVec 64 :=
      if ovf && sg 8 then (if r < 0 then BitVec.ofInt 64 (-2 ^ 63) else BitVec.ofInt 64 (2 ^ 63 - 1))
      else BitVec.ofInt 64 r
    (some ⟨5, acc.zeroExtend 96, if ovf then 1 else 0⟩, acc, o.accF)
  | 3 =>
    let r := opInt (x0 + x1 * 2 ^ 24) 48 (sg 6) * opInt y0 24 (sg 5)
    (some ⟨5, BitVec.ofInt 96 r, 0⟩, o.acc, o.accF)
  | 4 =>
    if partner then
      let r := opInt (x0 + x1 * 2 ^ 24) 48 (sg 6) * opInt (y0 + y1 * 2 ^ 24) 48 (sg 7)
      (some ⟨7, BitVec.ofInt 96 r, 0⟩, o.acc, o.accF)
    else (some ⟨7, 0, 1⟩, o.acc, o.accF)
  | 6 =>
    if o.went then (none, o.acc, o.accF)
    else
      let (r, f) := F32.fma (BitVec.ofNat 32 op) (BitVec.ofNat 32 (op >>> 32)) (BitVec.ofNat 32 (op >>> 64))
      (some ⟨8, r.zeroExtend 96, f⟩, o.acc, o.accF)
  | 7 =>
    if o.went then (none, o.acc, o.accF)
    else
      let base : BitVec 32 := if nbit ctl 1 then 0 else o.accF
      let (r, f) := F32.fma (BitVec.ofNat 32 op) (BitVec.ofNat 32 (op >>> 32)) base
      (some ⟨8, r.zeroExtend 96, f⟩, o.acc, r)
  | _ => (none, o.acc, o.accF)

/-- Moves a pipeline on by one active tick: operations whose result appears now leave it (R111). -/
def oasisAdvance (pipe : List OasisOp) : List OasisOp × Option OasisOp :=
  let moved := pipe.map (fun x => { x with left := x.left - 1 })
  (moved.filter (fun x => x.left != 0), moved.find? (fun x => x.left == 0))

/-- The oasis block of a dune's running plane after the tick (R111 to R115). FLAGS[5] is VALID. PAIR in a dune at odd local x has no
partner (log entry 116). -/
def View.nextOasis (v : View) (g p fr : Nat) : OasisSt :=
  let o := v.oasis g p
  let mode := frOasis fr 0 4
  if mode = 0 || mode = 5 || 8 ≤ mode then { o with pipe := [], res := 0, flags := 0, went := false }
  else
    let op := v.sinks g 2048 96
    let ctl := v.sinks g 2144 8
    let partner := g % 2 == 0 &&
      (match v.run (g + 1) with
       | some (_, f2) => frOasis f2 0 4 == 5
       | none => false)
    let (new, acc, accF) := if nbit ctl 0 then oasisIssue fr op ctl partner o else (none, o.acc, o.accF)
    let went := nbit ctl 0 && new.isSome && (mode == 6 || mode == 7)
    let (pipe, out) := oasisAdvance (match new with | some x => o.pipe ++ [x] | none => o.pipe)
    match out with
    | some x => { pipe, acc, accF, res := x.res, flags := x.flags ||| 0x20, went }
    | none => { pipe, acc, accF, res := o.res, flags := o.flags &&& 0xDF, went }

/-- Keys of the caravan registers a START above dune `g` feeds: the start dune and every eighth dune up to 56 (R103). -/
def caravanPlaces (d : Dir) (g : Nat) : List (Nat × Nat) :=
  (List.range 8).filterMap (fun k => (stepDir d (8 * k) g).map (fun h => (k, h)))

/-- Key of the relay register of an on-ramp in plane `p` (R107; log entry 127). -/
def relayKey (g dir ramp p : Nat) : Nat := (1024 * g + 256 * dir + ramp) * 9 + p

/-- The pool entry that on-ramp `ramp` of a direction selects (R100). -/
def rampEntry (fr dir ramp : Nat) : Nat :=
  let s := 1024 + 256 * dir + ramp
  256 * (s % 20) + frSink fr s

/-- Whether a pool entry is an off-ramp: an on-ramp that selects one relays a route (R107). -/
def isOffRamp (idx : Nat) : Bool := decide (1536 ≤ idx) && decide (idx < 2560)

/-- The caravan registers of one track that starts above `g` in plane `p`, after the tick (R103): the on-ramp in the start dune, the track
itself at the exit of every eighth dune that still passes it. An on-ramp that selects an off-ramp takes it from its relay register, one
tick later (R107). -/
def View.caravanOf (v : View) (g p fr dir t : Nat) : List (Nat × Bool) :=
  let d := travelDir dir
  (caravanPlaces d g).filterMap (fun (k, h) =>
    if k = 0 then
      let ramp := t % 256
      let idx := rampEntry fr dir ramp
      let x := if isOffRamp idx then Map.get (fun _ => false) v.fab.relay (relayKey g dir ramp p) else v.pool poolFuel g idx
      some (caravanKey h dir t p, !v.portsDead g ((256 * dir + ramp) / 64) && x)
    else match (v.walk d t 64 h 0 none).1 with
      | some (u, _) => if u = g && v.code h dir t = 0 then some (caravanKey h dir t p, v.track h d t) else none
      | none => none)

/-- The caravan registers of a track that a fence alone drives with 1 past dune `u` (R135). -/
def View.forcedOf (v : View) (u dir t : Nat) : List (Nat × Bool) :=
  let d := travelDir dir
  ((caravanPlaces d u).drop 1).filterMap (fun (k, h) =>
    match v.walk d t 64 h 0 none with
    | (none, some (w, fd, _)) => if w = u && fd = 8 * k && v.code h dir t = 0 then some (caravanKey h dir t 8, v.track h d t) else none
    | _ => none)

/-- Every caravan register after the tick, listed where it holds 1. The registers of a route stand in ticks in which its start dune runs
another plane or none (log entry 114). -/
def View.nextCaravan (v : View) (running : List (Nat × Nat × Nat)) : Map Bool :=
  let put (m : Map Bool) (x : Nat × Bool) : Map Bool := Map.set (fun _ => false) m x.1 x.2
  let m1 := running.foldl (fun m (g, p, _) =>
    match v.switchFr g with
    | none => m
    | some fr =>
      (List.range 4).foldl (fun m dir =>
        (List.range 1024).foldl (fun m t =>
          if frSwitch fr dir t = 1 then (v.caravanOf g p fr dir t).foldl put m else m) m) m) v.fab.caravan
  v.forcedOnes.foldl (fun m (u, dir, t) => (v.forcedOf u dir t).foldl put m) (Map.clear (fun k => k % 9 == 8) m1)

/-- The relay registers after the tick (R107): each on-ramp that selects an off-ramp keeps what it read. -/
def View.nextRelay (v : View) (running : List (Nat × Nat × Nat)) : Map Bool :=
  running.foldl (fun m (g, p, fr) =>
    (List.range 4).foldl (fun m dir =>
      (List.range 256).foldl (fun m ramp =>
        let idx := rampEntry fr dir ramp
        if isOffRamp idx then Map.set (fun _ => false) m (relayKey g dir ramp p) (v.pool poolFuel g idx) else m) m) m) v.fab.relay

/-- The check byte of a 64-bit word, given by its code (set by the (72,64) code of R175). -/
abbrev CheckOf := BitVec 64 → BitVec 8

/-- A row with word `w` replaced and its check byte recomputed (R116). -/
def Row.putWord (check : CheckOf) (r : Row) (w : Nat) (x : BitVec 64) : Row :=
  let m : BitVec 2048 := (BitVec.ofNat 2048 (2 ^ 64 - 1)) <<< (64 * w)
  let c : BitVec 256 := (BitVec.ofNat 256 0xFF) <<< (8 * w)
  { data := (r.data &&& ~~~m) ||| ((x.zeroExtend 2048) <<< (64 * w)),
    chk := (r.chk &&& ~~~c) ||| (((check x).zeroExtend 256) <<< (8 * w)) }

/-- Word `w` of a row and its check byte. -/
def Row.word (r : Row) (w : Nat) : BitVec 64 := r.data.extractLsb' (64 * w) 64
def Row.check (r : Row) (w : Nat) : BitVec 8 := r.chk.extractLsb' (8 * w) 8

/-- The word writes of one dune in this tick (R116): register, word, data. -/
def View.rowWrites (v : View) (g : Nat) : List (Nat × Nat × BitVec 64) :=
  (List.range 2).filterMap (fun r =>
    let base := 2152 + 70 * r
    if v.sink g (base + 69) then
      some (r, v.sinks g (base + 64) 5, BitVec.ofNat 64 (v.sinks g base 64))
    else none)

/-- The fabric after a tick, `running` listing (dune, plane, frame) of every dune that runs. Interface inputs last one
tick. -/
def View.next (v : View) (check : CheckOf) (running : List (Nat × Nat × Nat)) : FabSt :=
  let f := v.fab
  let ffs := running.foldl (fun m (g, p, fr) => Map.set (fun _ => 0) m (8 * g + p) (v.nextFf g p fr)) f.ffs
  let oasis := running.foldl (fun m (g, p, fr) => Map.set (fun _ => {}) m (8 * g + p) (v.nextOasis g p fr)) f.oasis
  let f1 := running.foldl (fun f' (g, _, _) =>
      (v.rowWrites g).foldl (fun f'' (r, w, x) => f''.setRow g r ((f''.row g r).putWord check w x)) f') f
  let hl := running.foldl (fun m (g, _, _) => Map.set (fun _ => 0) m g (BitVec.ofNat 12 (v.sinks g 2292 12))) []
  let o := running.foldl (fun m (g, _, _) =>
      match berthDune g with
      | some b => Map.set (fun _ => 0) m b (BitVec.ofNat 288 (v.sinks g 2304 288))
      | none => m) []
  let tx := running.foldl (fun m (g, _, _) =>
      match jettyDune g with
      | some j => Map.set (fun _ => 0) m j (BitVec.ofNat 32 (v.sinks g 2304 32))
      | none => m) []
  let hist := (tx.map (·.1) ++ (f.txHist.map (·.1)).filter (fun j => !tx.any (fun e => e.1 == j))).foldl (fun m j =>
      let last := ((Map.get (fun _ => []) f.txHist j) ++ [Map.get (fun _ => 0) tx j]).reverse.take 4 |>.reverse
      Map.set (fun _ => []) m j (if last.all (· == 0) then [] else last)) f.txHist
  let rx := f.rxIn.filterMap (fun (j, l) => match l with | _ :: b :: bs => some (j, b :: bs) | _ => none)
  { f1 with ffs, oasis, caravan := v.nextCaravan running, relay := v.nextRelay running, iIn := [], rxIn := rx, oOut := o, txOut := tx,
            txHist := hist, hlOut := hl }

end Sys2Proof.Machine
end

