-- ==== Sys2Proof/Machine/Modes.lean ====
section
/-! DEFINITION. Machine/Modes.lean: what several commands share of leaving normal service: discarding an erg's work in flight,
closing sessions, erasing keys, wiping hold banks, taking links down, entering Quarantine (R160, R199, R304, R339, R440,
R538, R559); and what the outputs show after every command: the jetty line sources of R362, interrupt requests, MSI-X
vectors and pins. -/

namespace Sys2Proof.Machine

/-- Base of the hold in the address map and as a memory key (R214). -/
def holdBase : Nat := 0x001000000000

/-- Work in flight at an erg is discarded (R160, R559): served requests that the fabric has not answered are answered by the
router with `st`; tags are freed; notes, messages, release views, release reads and late deliveries go. -/
def Dev.ergDrop (s : Dev) (e : Nat) (st : Status) : Dev :=
  (List.range 16).foldl (fun s i =>
    let b := 16 * e + i
    let x := s.berth b
    let s1 := x.served.foldl (fun s q => s.respond (Hdr.dec q.hdr) st) s
    let s2 := s1.setBerth b { x with tags := [], notes := [], served := [], inq := [], view := [], rr := [], rrLast := none, oMsg := none }
    { s2 with net := { s2.net with outs := s2.net.outs.filter (fun o => o.src != .berth (Fin.ofNat 512 b)) } }) s

/-- Closes the session of an interface, if one is open, and raises SESS_CLOSE, bit 1 of SEC (R440). -/
def Dev.closeSession (s : Dev) (i : Nat) : Dev :=
  let x := s.iface i
  if x.sess = 0 then s else (s.setIface i { x with sess := 0 }).event B.SEC 1

/-- Closes every session (R440). -/
def Dev.closeSessions (s : Dev) : Dev := s.forN 3 Dev.closeSession

/-- Memory and link keys are erased, the root store is zeroed; what protected ranges hold in external memory stays, under keys
that no longer exist (R283, R304). -/
def Dev.eraseKeys (s : Dev) : Dev :=
  { s with mce := { s.mce with
      former := s.mce.former ++ s.mce.ranges.filterMap (fun (_, r) => r.img.filter (fun g => g.mode != 0)),
      keys := [], ranges := [], walker := none, reencs := [], rootFlips := [], poison := [], rounds := [] },
           ext := { s.ext with dmcs := s.ext.dmcs.foldl (fun m (x : Nat × DmcSt) =>
             Map.set (fun _ => {}) m x.1 { x.2 with metaLines := [] }) [] } }

/-- The banks of a set of ergs hold zero data with zero check bytes, spares too, and the row registers of their dunes are
zero (R199). -/
def Dev.wipeErgs (s : Dev) (es : List Nat) : Dev :=
  let inErg (k : Nat) : Bool := decide (holdBase ≤ k) && es.contains ((k - holdBase) / 0x2000000)
  { s with
    mem := Map.clear inErg s.mem,
    hold := { s.hold with syn := Map.clear (fun w => es.contains (w / 0x400000)) s.hold.syn,
                          spares := Map.clear (fun k => es.contains (k / 2048)) s.hold.spares },
    fab := es.foldl (fun f e => (List.range 512).foldl (fun f k => f.setRow (256 * e + k / 2) (k % 2) {}) f) s.fab }

/-- The ergs of a bonded setting (R197). -/
def Bond.ergs (b : Bond) : List Nat := (if b.enA then [b.ergA] else []) ++ (if b.enB then [b.ergB] else [])

/-- A wipe completes (R199): banks in retention have been woken for it; WIPE_CNT counts, and BOND_WIPED, bit 6 of HOLD0, is raised. -/
def Dev.wipeNow (s : Dev) (es : List Nat) : Dev :=
  let s1 := s.wipeErgs es
  let woken := s1.hold.banks.any (fun x => es.contains (x.1 / 256) && x.2.power == .retention)
  let banks := s1.hold.banks.foldl (fun m (x : Nat × BankSt) =>
    if es.contains (x.1 / 256) && x.2.power == .retention then Map.set (fun _ => {}) m x.1 { x.2 with power := .awake } else m) s1.hold.banks
  ({ s1 with hold := { s1.hold with banks }, pins := if woken then { s1.pins with hldRet := false } else s1.pins }.count (B.HOLD 0)
    F.HOLD_BOND_STAT_WIPE_CNT).event (B.HOLD 0) 6

/-- A wipe of the bonded region that needs no command of its own (R200). -/
def Dev.wipeBond (s : Dev) : Dev :=
  if s.hold.bond.ergs.isEmpty then s else s.wipeNow s.hold.bond.ergs

/-- A link goes OFF: what it holds is lost, but for its frame sequence number (R338), and CW_CTRL.EN clears (R339). -/
def Dev.linkOff (s : Dev) (n : Nat) : Dev :=
  let l := (s.link n)
  (((s.linkFlush n).setLink n { nextSeq := l.nextSeq, lastTxId := l.lastTxId }).setFlag (B.CW n) F.CW_CTRL_EN false).setFld (B.CW n) F.CW_STATUS_STATE 0

/-- Every link goes OFF (R339). -/
def Dev.linksOff (s : Dev) : Dev := s.forN 16 Dev.linkOff

/-- Every DMC that is not OFFLINE places its device in self-refresh (R268). -/
def Dev.selfRefresh (s : Dev) : Dev :=
  s.forN 8 (fun s k => if s.fld (B.DMC k) F.DMC_STATE_STATE = 0 then s else s.setDmc k { s.dmc k with selfRefresh := true })

/-- A halt that is pending is discarded (R466). -/
def Dev.dropHalt (s : Dev) : Dev :=
  { s with run := { s.run with haltAt := none } }.setFlag B.DBG F.DBG_STAT_PENDING false

/-- Run control forgets a pending halt, a halt and a pending resume (R513). -/
def Dev.dropRun (s : Dev) : Dev :=
  ((({ s with run := { resumeShown := s.run.resumeShown, haltTide := s.run.haltTide } }.setFlag B.DBG F.DBG_STAT_PENDING false).setFlag B.DBG F.DBG_STAT_HALTED false).setFlag B.DBG
    F.DBG_STAT_RESUMING false).setFld B.DBG F.DBG_STAT_STEP_LEFT 0

/-- A class F cause (R20, R538): keys are erased, the bonded region is wiped, sessions close, links go OFF, external memory
is put in self-refresh, the fault record is written, and the device is in Quarantine. A cause that arises in Quarantine adds
its bit to the record. Beacon and Reset allow no Quarantine (R465), and a reset under way goes before it (R466). -/
def Dev.quarantine (s : Dev) (cause addr blk evt : Nat) (synd : Nat := 0) : Dev :=
  if s.clk.phase = .selfRefresh then s
  else match s.mode with
  | .beacon => s
  | .reset => s
  | .quarantine =>
    let c := Nat.lor (s.fld B.LH F.LH_QCAUSE_CAUSE) (2 ^ cause)
    let k := (s.log.wr + 511) % 512
    let e := Map.get (fun _ => 0) s.log.ring k
    { s with log := { s.log with ring := Map.set (fun _ => 0) s.log.ring k (e ||| BitVec.ofNat 256 (2 ^ (224 + cause))) } }.setFld
      B.LH F.LH_QCAUSE_CAUSE c
  | _ =>
    let s0 := (s.setFlag B.THM F.THM_STAT_CRIT false).setFlag B.THM F.THM_STAT_CRIT_LOW false
    let s1 := ((s0.eraseKeys.wipeBond.closeSessions.linksOff).selfRefresh).dropRun
    let s2 := { s1 with sec := { s1.sec with keysUp := false }, tide := { s1.tide with armed := none, started := false, stopAt := none } }
    let s3 := (s2.setFld B.LH F.LH_QCAUSE_CAUSE (2 ^ cause)).count B.LH F.LH_QCAUSE_Q_CNT
    (s3.logError .f .ok blk evt addr 0 synd (2 ^ cause)).setMode .quarantine

/-- Whether a port's erg is running: RUNNING and not in Slack (R362). -/
def Dev.ergRuns (s : Dev) (e : Nat) : Bool :=
  (s.erg e).mode == .running && (s.erg e).slack.runs

/-- The reason code of a port whose erg does not run (R359, R362). -/
def Dev.idleReason (s : Dev) (e : Nat) : Nat :=
  if (s.erg e).slack.runs then (if (s.erg e).mode = .fenced then 0xB else 0xC) else 0xA

/-- The REASON that mooring frames of port `p` carry in the present mode (R359, R362). -/
def Dev.moorReason (s : Dev) (p : Nat) : Nat :=
  match s.mode with
  | .beacon => 0 | .reset => 1 | .boot => 2 | .coldHold => 3 | .moored => 4
  | .underway => if s.ergRuns (p / 8) then 0xE else s.idleReason (p / 8)
  | .anchored => if s.ergRuns (p / 8) then 5 else s.idleReason (p / 8)
  | .standDown => 6 | .aground => 7 | .quarantine => 8 | .dryDock => 9 | .slack => 0xA

/-- What drives the line of port `p` (R345, R361 to R363): its slot table in Underway where its erg runs and the table is
not empty; else its generator, which sends only IDLE where it holds no frame; electrical idle where the port is disabled,
without main power and while the jetty PLL is out of lock. -/
def Dev.portSource (s : Dev) (p : Nat) : TxSrc :=
  let x := s.port p
  if !x.moor.en || !s.clk.mainPower || !s.clk.jettyLock || s.mode = .beacon then .idle
  else if s.mode = .underway && s.ergRuns (p / 8) && !x.tx.isEmpty then .slots
  else if x.moor.count = 0 then .idles
  else .generator

/-- Every port takes the source that R362 gives it; one that leaves its slot table raises MOOR_ON, bit 5 of its cluster's block (R363;
DEDUCED where the line goes idle, notes/assumptions/51.md). -/
def Dev.settlePorts (s : Dev) : Dev :=
  let ps := s.ports.map (·.1)
  let moved := ps.filter (fun p => (s.port p).txSrc == .slots && s.portSource p != .slots)
  let s1 := { s with ports := ps.foldl (fun m p => Map.set (fun _ => {}) m p { s.port p with txSrc := s.portSource p }) s.ports }
  moved.foldl (fun s p => s.event (B.JP (p / 32 % 8)) 5) s1

/-- The blocks whose interrupt request stands: IRQ_EN and a bit set in both EVT_STATUS and EVT_ENABLE (R8). -/
def Dev.irqBlocks (s : Dev) : List Nat :=
  (List.range 0x5B).filter (fun b =>
    s.flag b F.BLK_CTRL_IRQ_EN && s.reg b O.EVT_STATUS &&& s.reg b O.EVT_ENABLE != 0)

/-- The MSI-X vectors that stand asserted, given the blocks that request (R371). -/
def Dev.vectorsOf (s : Dev) (irq : List Nat) : List Nat :=
  (List.range 256).filter (fun v => irq.any (fun b =>
    s.flag B.PCIE (F.PCIE_VEC_MAP_EN b) && s.fld B.PCIE (F.PCIE_VEC_MAP_VECTOR b) == v))

/-- The settable domain (0 TICK, 1 HOLD, 2 NET, 3 MEM) that a CLKMON source is a clock of (R458). -/
def monDomain (src : Nat) : Option Nat :=
  if src = 1 || src = 2 then some 0 else if src = 3 then some 1 else if src = 4 then some 2 else if src = 5 then some 3 else none

/-- What drives the CLKMON pin; it is low while EN is 0, while its source relocks, and in Reset and Beacon (R458). -/
def Dev.clkmonPin (s : Dev) : Option (Nat × Nat) :=
  let src := s.fld B.CLK F.CLKMON_CFG_SRC
  if !s.flag B.CLK F.CLKMON_CFG_EN || s.mode == .reset || s.mode == .beacon || s.clk.applying.any (fun d => monDomain src == some d) then none
  else some (src, s.fld B.CLK F.CLKMON_CFG_DIV_M1 + 1)

/-- The outputs that follow from the registers: interrupt requests, asserted vectors with those whose message is owed, CFG_ERR_N,
driven low in Aground, and CLKMON (R8, R371, R458, R546). -/
def Dev.settleOutputs (s : Dev) : Dev :=
  let irq := s.irqBlocks
  let asserted := s.vectorsOf irq
  { s with
    pins := { s.pins with irq, cfgErrLow := s.mode == .aground, clkmon := s.clkmonPin },
    pcie := { s.pcie with asserted, owed := s.pcie.owed ++ asserted.filter (fun v => !s.pcie.asserted.contains v) } }

/-- What every command ends with: the outputs show the new state. -/
def Dev.settle (s : Dev) : Dev := s.settlePorts.settleOutputs

end Sys2Proof.Machine
end

