-- ==== Sys2Proof/Machine/StackOps.lean ====
section
/-! DEFINITION. Machine/StackOps.lean: vertical bundles, the shoal map and the non-volatile sectors (R22 to R46, R392, R424). -/

namespace Sys2Proof.Machine

/-- Fields of a bundle ID (R24). -/
def bJoint (id : Nat) : Nat := id % 4
def bErg (id : Nat) : Nat := id / 4 % 32
def bDune (id : Nat) : Nat := id / 128 % 256
def bIndex (id : Nat) : Nat := id / 32768 % 2048

/-- Whether a dune of an erg is a berth dune or a jetty dune (R92). -/
def isBerthDune (d : Nat) : Bool := decide (128 ≤ d) && decide (d < 144)
def isJettyDune (d : Nat) : Bool := decide (113 ≤ d) && decide (d < 128) && d % 2 == 1

/-- Whether a bundle ID names a bundle (R23, R24). -/
def bundleExists (id : Nat) : Bool :=
  let k := bIndex id
  let d := bDune id
  match bJoint id with
  | 2 => decide (k < 1568)
  | 1 => decide (k ≤ 36) || (decide (k ≤ 45) && isBerthDune d) || (k == 46 && isJettyDune d)
  | 0 => decide (k ≤ 2) || (decide (k ≤ 11) && isBerthDune d) || (k == 12 && isJettyDune d)
  | _ => false

/-- The shoal-map kind of what an exhausted bundle takes out of service (R32). -/
def bundleKind (id : Nat) : Nat :=
  let k := bIndex id
  match bJoint id with
  | 2 => if k < 1536 then 1 else 2
  | 1 => if k ≤ 36 then 3 else 5
  | _ => if k ≤ 2 then 7 else 5

/-- The lanes of a bundle that are not steered out, in order (R25). -/
def BundleSt.good (b : BundleSt) : List Nat := (List.range 68).filter (fun l => !b.steered.contains l)

/-- The sentinel lane (R29): the lowest-numbered free spare, the first good lane past the 64 that carry signals. -/
def BundleSt.sentinelLane (b : BundleSt) : Option Nat := b.good[64]?

/-- What the sending end puts on the 68 lanes (R25, R29): the 64 signals, in order, on the lowest-numbered good lanes, even parity over them
on the sentinel; lanes that carry neither are low. -/
def BundleSt.drive (b : BundleSt) (sig : BitVec 64) : BitVec 68 :=
  let bits := (b.good.take 64).zip (List.range 64)
  BitVec.ofNat 68 (bits.foldl (fun a x => a + (sig.getLsbD x.2).toNat * 2 ^ x.1) 0 +
    (match b.sentinelLane with | some l => (parityOf 64 sig.toNat).toNat * 2 ^ l | none => 0))

/-- The 64 signals that the receiving end takes from the lanes (R25). -/
def BundleSt.receive (b : BundleSt) (lanes : BitVec 68) : BitVec 64 :=
  BitVec.ofNat 64 (((b.good.take 64).zip (List.range 64)).foldl (fun a x => a + (lanes.getLsbD x.1).toNat * 2 ^ x.2) 0)

/-- Whether the receiver's sentinel check passes (R29, R30). -/
def BundleSt.sentinelGood (b : BundleSt) (lanes : BitVec 68) : Bool :=
  match b.sentinelLane with
  | some l => lanes.getLsbD l == parityOf 64 (b.receive lanes).toNat
  | none => true

/-- A bundle ID from joint, erg, dune and index (R24). -/
def bundleId (joint e d k : Nat) : Nat := joint + 4 * e + 128 * d + 32768 * k

/-- The image in effect in an erg. -/
def Dev.liveImage (s : Dev) (e : Nat) : Option Image := s.cfg.live.find? (fun i => nbit i.ergMask e)

/-- The use map of the active image of an erg (R405); none named where no image is in effect. -/
def Dev.useMap (s : Dev) (e : Nat) : Nat :=
  match s.liveImage e with
  | some i => (Map.get (fun _ => none) i.useMaps e).getD 0
  | none => 0

/-- Whether a use map names any resource in a dune (R30, R405). -/
def useNames (m d : Nat) : Bool :=
  nbit m d || nbit m (256 + d) || nbit m (512 + d) || (isBerthDune d && nbit m (768 + (d - 128))) ||
    (isJettyDune d && nbit m (784 + (d - 113) / 2)) || nfield m (1024 + 32 * d) 32 != 0

/-- Whether a dune or bank is in use (R30): its erg runs an image whose use map names a resource in it. -/
def Dev.inUse (s : Dev) (e d : Nat) : Bool := (s.erg e).mode == .running && useNames (s.useMap e) d

/-- Whether the resource that an exhausted bundle takes out of service is in use (R32, R33): its erg runs an image whose use map names it. -/
def Dev.lostInUse (s : Dev) (id : Nat) : Bool :=
  let m := s.useMap (bErg id)
  let d := bDune id
  (s.erg (bErg id)).mode == .running && (match bundleKind id with
    | 1 => nbit m d
    | 2 => nbit m (1024 + 32 * d + (bIndex id - 1536))
    | 3 => nbit m (256 + d)
    | 5 => (isBerthDune d && nbit m (768 + (d - 128))) || (isJettyDune d && nbit m (784 + (d - 113) / 2))
    | _ => nbit m (512 + d))

/-- Whether a bundle whose ID meets a condition has been exhausted, or stands in the shoal map under a kind by the device's own finding: an
entry the host added counts for admission alone (R32, R37). -/
def Dev.lostWhere (s : Dev) (kind : Nat) (p : Nat → Bool) : Bool :=
  s.stack.shoal.any (fun x => x.lo.toNat % 16 == kind && x.hi.toNat % 16 != 4 && p (x.lo.toNat / 16 % 2 ^ 26)) ||
    s.stack.bundles.any (fun x => x.2.exhausted && bundleKind x.1 == kind && p x.1)

/-- Whether a resource of a dune is out of service (R32). -/
def Dev.outOf (s : Dev) (kind e d : Nat) : Bool := s.lostWhere kind (fun id => bErg id == e && bDune id == d)

/-- Whether a caravan bundle of a dune is out of service (R32). -/
def Dev.caravanOut (s : Dev) (e d k : Nat) : Bool :=
  s.lostWhere 2 (fun id => bErg id == e && bDune id == d && bIndex id == 1536 + k)

/-- Whether the berth path of a berth, and the jetty path of a port, is out of service (R32, R92). -/
def Dev.berthPathOut (s : Dev) (b : Nat) : Bool := s.outOf 5 (b / 16) (128 + b % 16)
def Dev.jettyPathOut (s : Dev) (p : Nat) : Bool := s.outOf 5 (p / 8) (113 + 2 * (p % 8))

/-- Erases of a sector, and whether it is read-only (R424). -/
def Dev.nvErases (s : Dev) (sec : Nat) : Nat := Map.get (fun _ => 0) s.nv.erases sec
def Dev.nvRo (s : Dev) (sec : Nat) : Bool := decide (10000 ≤ s.nvErases sec)

/-- What a sector holds (R392). -/
def Dev.nvSector (s : Dev) (sec : Nat) : List Byte := Map.get (fun _ => []) s.nv.sectors sec

/-- Erases a sector and writes bytes from its start; a read-only sector stays as it is. The erase that brings its counter to
10,000 makes it read-only and raises NV_RO, bit 4 of CFG (R424). -/
def Dev.nvWrite (s : Dev) (sec : Nat) (bytes : List Byte) : Dev :=
  if s.nvRo sec then s
  else
    let n := s.nvErases sec + 1
    let s1 := { s with nv := { s.nv with erases := Map.set (fun _ => 0) s.nv.erases sec n,
                                         sectors := Map.set (fun _ => []) s.nv.sectors sec bytes } }
    if n = 10000 then s1.event B.CFG 4 else s1

/-- Writes bytes over consecutive sectors of 64 KiB, `n` of them from `sec`. -/
def Dev.nvWriteRun (s : Dev) (sec : Nat) (bytes : List Byte) : Nat → Dev
  | 0 => s
  | n + 1 => (s.nvWrite sec (bytes.take 65536)).nvWriteRun (sec + 1) (bytes.drop 65536) n

/-- A map as it is persisted (R35, R193): header with the digest over header bytes 0x00 to 0x1F and the body. -/
def nvMapBytes (magic count update ns : Nat) (body : List Byte) : List Byte :=
  let h := leBytes 4 magic ++ leBytes 2 1 ++ leBytes 2 count ++ leBytes 4 update ++ leBytes 4 0 ++ leBytes 8 ns ++ leBytes 8 0
  h ++ shake256 (h ++ body) ++ body

/-- Magic numbers of the shoal map and of the remap tables (R35, R193). -/
def shoalMagic : Nat := 0x4C4F4853
def remapMagic : Nat := 0x50414D52

/-- Entries of a shoal map as bytes (R36). -/
def shoalBytes (es : List ShoalEntry) : List Byte := es.flatMap (fun e => leBytes 4 e.lo.toNat ++ leBytes 4 e.hi.toNat)

/-- The shoal entries that bytes spell. -/
def shoalOf : Nat → List Byte → List ShoalEntry
  | 0, _ => []
  | n + 1, b => ⟨BitVec.ofNat 32 (ofLeBytes (b.take 4)), BitVec.ofNat 32 (ofLeBytes ((b.drop 4).take 4))⟩ :: shoalOf n (b.drop 8)

/-- Whether a persisted copy verifies: magic, version and digest (R35, R193). -/
def nvMapValid (magic bodyLen : Nat) (b : List Byte) : Bool :=
  ofLeBytes (b.take 4) == magic && ofLeBytes ((b.drop 4).take 2) == 1 && b.length == 64 + bodyLen &&
    (b.drop 32).take 32 == shake256 (b.take 32 ++ b.drop 64)

/-- ENTRY_COUNT and UPDATE_COUNT of a persisted copy (R35). -/
def nvMapCount (b : List Byte) : Nat := ofLeBytes ((b.drop 6).take 2)
def nvMapUpdate (b : List Byte) : Nat := ofLeBytes ((b.drop 8).take 4)

/-- A device entry is added to the shoal map (R36 to R38): a duplicate of kind and ID adds nothing; TIME is the device's. Where
the persisted map is full, or both its sectors are read-only, the entry stays in the volatile copy and SHOAL_FULL
(bit 12) or SHOAL_NV_RO (bit 13) is raised. -/
def Dev.shoalAdd (s : Dev) (kind id cause : Nat) : Dev :=
  if s.stack.shoal.any (fun x => x.lo.toNat % 2 ^ 30 == kind + 16 * id) then s
  else
    let e : ShoalEntry := ⟨BitVec.ofNat 32 (kind + 16 * id), BitVec.ofNat 32 (cause + 16 * (s.ns / 2 ^ 32))⟩
    let s1 := { s with stack := { s.stack with shoal := s.stack.shoal ++ [e] } }
    if 4096 ≤ s.stack.shoal.length then s1.event B.BIST 12
    else if s.nvRo 386 && s.nvRo 387 then s1.event B.BIST 13
    else { s1 with stack := { s1.stack with dirty := true } }

/-- Which copy a write goes to next, given the copy written last and which are read-only (R35, R38). -/
def nextCopy (last : Nat) (ro0 ro1 : Bool) : Option Nat :=
  if ro0 && ro1 then none else if ro0 then some 1 else if ro1 then some 0 else some (1 - last)

/-- The coalesced shoal entries are written to the alternate sector (R38); after a lost map both copies are written, each with
UPDATE_COUNT 1 (R39). -/
def Dev.shoalPersist (s : Dev) : Dev :=
  if !s.stack.dirty then s
  else
    let es := s.stack.shoal.take 4096
    let body := shoalBytes es
    let both (s : Dev) : Dev := if s.nvRo 386 && s.nvRo 387 then s.event B.BIST 13 else s
    if s.stack.both then
      let b := nvMapBytes shoalMagic es.length 1 s.ns body
      let s1 := (s.nvWrite 386 b).nvWrite 387 b
      both { s1 with stack := { s1.stack with dirty := false, both := false, updates := 1, lastCopy := 1, persisted := es.length } }
    else match nextCopy s.stack.lastCopy (s.nvRo 386) (s.nvRo 387) with
      | none => { s with stack := { s.stack with dirty := false } }
      | some c =>
        let u := satAdd 32 s.stack.updates 1
        let s1 := s.nvWrite (386 + c) (nvMapBytes shoalMagic es.length u s.ns body)
        both { s1 with stack := { s1.stack with dirty := false, updates := u, lastCopy := c, persisted := es.length } }

/-- The remap tables as bytes: 8,192 bank records of 16 bytes (R193). -/
def remapBytes (m : Map (Option (Nat × Nat))) : List Byte :=
  (List.range 65536).flatMap (fun i => match Map.get (fun _ => none) m i with
    | some (row, word) => leBytes 2 (row + 512 * word + 32768)
    | none => leBytes 2 0)

/-- The remap tables that bytes spell, from entry `i` upward. -/
def remapOf : Nat → Nat → List Byte → Map (Option (Nat × Nat))
  | 0, _, _ => []
  | n + 1, i, b =>
    let v := ofLeBytes (b.take 2)
    let rest := remapOf n (i + 1) (b.drop 2)
    if nbit v 15 then (i, some (v % 512, v / 512 % 32)) :: rest else rest

/-- Whether any of three sectors from `k` is read-only. -/
def Dev.nvRo3 (s : Dev) (k : Nat) : Bool := s.nvRo k || s.nvRo (k + 1) || s.nvRo (k + 2)

/-- The remap tables are written to the alternate copy (R193). -/
def Dev.remapPersist (s : Dev) : Dev :=
  if !s.hold.remapDirty then s
  else
    let body := remapBytes s.hold.remap
    if s.hold.remapBoth then
      let b := nvMapBytes remapMagic 0 1 s.ns body
      let s1 := (s.nvWriteRun 388 b 3).nvWriteRun 391 b 3
      { s1 with hold := { s1.hold with remapDirty := false, remapBoth := false, remapUpdates := 1, remapLastCopy := 1 } }
    else match nextCopy s.hold.remapLastCopy (s.nvRo3 388) (s.nvRo3 391) with
      | none => { s with hold := { s.hold with remapDirty := false } }
      | some c =>
        let u := satAdd 32 s.hold.remapUpdates 1
        let s1 := s.nvWriteRun (388 + 3 * c) (nvMapBytes remapMagic 0 u s.ns body) 3
        { s1 with hold := { s1.hold with remapDirty := false, remapUpdates := u, remapLastCopy := c } }

/-- SHOAL_PERSIST: what has waited for its non-volatile write is written (R38, R193). -/
def Dev.persistMaps (s : Dev) : Dev := s.shoalPersist.remapPersist

/-- Modes that run no tides and hold no halt: steering changes take effect at once there (R27). -/
def Mode.steersAtOnce : Mode → Bool
  | .boot | .coldHold | .moored | .slack | .standDown | .dryDock | .aground => true
  | _ => false

/-- Steering of one bundle takes effect (R25, R27): STEERED counts, and a bundle left with no free spare is thin (R31). -/
def Dev.steerBundle (s : Dev) (id cause : Nat) : Dev :=
  let b := s.bundle id
  if b.waiting.isEmpty then s
  else
    let st := b.steered ++ b.waiting
    let s1 := (s.setBundle id { b with steered := st, waiting := [] }).addFld B.BIST F.STK_SUMMARY_STEERED b.waiting.length
    if 4 ≤ st.length && b.steered.length < 4 then
      ((s1.shoalAdd 6 id cause).count B.BIST F.STK_SUMMARY_THIN_CNT).event B.BIST 10
    else s1

/-- Every steering change that waits takes effect (R27, step 3 of R54). -/
def Dev.steerAll (s : Dev) : Dev := (s.stack.bundles.map (·.1)).foldl (fun s id => s.steerBundle id (s.bundle id).cause) s

/-- What exhaustion of a bundle does (R32, R33): the resource goes out of service with its shoal entry, EXHAUST (bit 11) is
raised; if that resource is in use, a class D breach is raised and the erg is to be fenced at the next turn. The lane has been located, so
the bundle is no longer SUSPECT (R46). -/
def Dev.exhaust (s : Dev) (id cause : Nat) : Dev :=
  let e := bErg id
  let used := s.lostInUse id
  let s1 := (s.setBundle id { s.bundle id with exhausted := true, suspect := false }).shoalAdd (bundleKind id) id cause
  let s2 := s1.event B.BIST 11
  if used then
    let s3 := s2.breach 5 e 0
    { s3 with stack := { s3.stack with fences := if s3.stack.fences.contains e then s3.stack.fences else s3.stack.fences ++ [e] } }
  else s2

/-- A lane is found faulty or weak (R25, R28): it waits to be steered out, or exhausts a bundle four of whose lanes are already
marked. Steering happens at once in the modes of R27. -/
def Dev.markLane (s : Dev) (id lane cause : Nat) : Dev :=
  let b := s.bundle id
  if b.exhausted || b.steered.contains lane || b.waiting.contains lane then s
  else if 4 ≤ b.steered.length + b.waiting.length then s.exhaust id cause
  else
    let s1 := s.setBundle id { b with waiting := b.waiting ++ [lane], suspect := false, cause }
    if s.mode.steersAtOnce then s1.steerBundle id cause else s1

/-- Whether a bundle's sentinel lane is active (R29): a lane that awaits its turn still counts as free (R25). -/
def BundleSt.sentinel (b : BundleSt) : Bool := decide (b.steered.length < 4)

/-- SENTINEL_FAIL (R30): the bundle is SUSPECT and its misses count; a class D breach where the dune is in use, else a class C
error. A bundle without a sentinel has none to fail. -/
def Dev.sentinelFail (s : Dev) (id : Nat) : Dev :=
  let b := s.bundle id
  if !bundleExists id || !b.sentinel then s
  else
    let s1 := (s.setBundle id { b with suspect := true, miss := satAdd 16 b.miss 1 }).event B.BIST 9
    if s.inUse (bErg id) (bDune id) then s1.breach 4 (bErg id) 0 else s1.classC B.BIST

/-- STK_BUNDLE_SEL (R46): selects a bundle; an ID that names none sets LAST_STATUS to RANGE. -/
def Dev.bundleSel (s : Dev) (w : Word) : Dev :=
  let id := w.toNat % 2 ^ 26
  let s1 := s.setReg B.BIST O.STK_BUNDLE_SEL (BitVec.ofNat 32 id)
  if bundleExists id then s1 else s1.done B.BIST .range

/-- STK_SHOAL_CMD READ (R46). -/
def Dev.shoalRead (s : Dev) (idx : Nat) : Dev :=
  match s.stack.shoal[idx]? with
  | none => s.finish B.BIST .range
  | some e => ((s.setReg B.BIST O.STK_SHOAL_ENTRY_LO e.lo).setReg B.BIST O.STK_SHOAL_ENTRY_HI e.hi).finish B.BIST .ok

/-- STK_SHOAL_CMD ADD (R37, R46): a KIND or CAUSE the host may not use, or a reserved bit, is FORMAT; a full volatile copy is
RANGE; a duplicate adds nothing, and completes with OK even while the volatile copy is full: the spec gives both outcomes no order
(DESIGN CHOICE, notes/assumptions/120.md). -/
def Dev.shoalHostAdd (s : Dev) : Dev :=
  let lo := (s.reg B.BIST O.STK_SHOAL_ENTRY_LO).toNat
  let hi := (s.reg B.BIST O.STK_SHOAL_ENTRY_HI).toNat
  let kind := lo % 16
  let bad := !(([1, 2, 3, 4, 5, 7] : List Nat).contains kind) || hi % 16 != 4 || lo / 2 ^ 30 != 0
  let dup := s.stack.shoal.any (fun x => x.lo.toNat % 2 ^ 30 == lo % 2 ^ 30)
  if bad then s.finish B.BIST .format
  else if dup then s.finish B.BIST .ok
  else if 4096 ≤ s.stack.shoal.length then s.finish B.BIST .range
  else (s.shoalAdd kind (lo / 16 % 2 ^ 26) 4).finish B.BIST .ok

/-- The shoal map read at Boot from a persisted copy (R35, R39). Of two valid copies with the same UPDATE_COUNT, copy 0 (DESIGN CHOICE,
notes/assumptions/121.md). -/
def Dev.shoalBoot (s : Dev) : Dev :=
  let a := s.nvSector 386
  let b := s.nvSector 387
  let va := nvMapValid shoalMagic (8 * nvMapCount a) a
  let vb := nvMapValid shoalMagic (8 * nvMapCount b) b
  let use_ (c : Nat) (x : List Byte) : Dev :=
    { s with stack := { s.stack with shoal := shoalOf (nvMapCount x) (x.drop 64), persisted := nvMapCount x, updates := nvMapUpdate x,
                                     lastCopy := c, lost := false, both := false, dirty := false } }
  if va && (!vb || nvMapUpdate b ≤ nvMapUpdate a) then use_ 0 a
  else if vb then use_ 1 b
  else
    let s1 := { s with stack := { s.stack with shoal := [], persisted := 0, updates := 0, lost := true, both := true, dirty := false } }
    if a.isEmpty && b.isEmpty then s1 else s1.event B.BIST 16

/-- The bytes of a copy of the remap tables: 64 + 131,072 over three sectors (R193). -/
def Dev.remapCopy (s : Dev) (c : Nat) : List Byte :=
  s.nvSector (388 + 3 * c) ++ s.nvSector (389 + 3 * c) ++ s.nvSector (390 + 3 * c)

/-- The remap tables read at Boot (R193), copy 0 on a tie (DESIGN CHOICE, notes/assumptions/121.md). Entries already in the volatile tables stay. -/
def Dev.remapBoot (s : Dev) : Dev :=
  let a := s.remapCopy 0
  let b := s.remapCopy 1
  let va := nvMapValid remapMagic 131072 a
  let vb := nvMapValid remapMagic 131072 b
  let use_ (c : Nat) (x : List Byte) : Dev :=
    { s with hold := { s.hold with remap := remapOf 65536 0 (x.drop 64), remapUpdates := nvMapUpdate x, remapLastCopy := c,
                                   remapLost := false, remapBoth := false, remapDirty := false } }
  if va && (!vb || nvMapUpdate b ≤ nvMapUpdate a) then use_ 0 a
  else if vb then use_ 1 b
  else
    let s1 := { s with hold := { s.hold with remap := [], remapUpdates := 0, remapLost := true, remapBoth := true, remapDirty := false } }
    if a.isEmpty && b.isEmpty then s1 else s1.event B.BIST 16

/-- What the stack registers show (R46). -/
def Dev.stackView (s : Dev) (off : Nat) : Option Word :=
  let id := s.fld B.BIST F.STK_BUNDLE_SEL_ID
  let b := s.bundle id
  let lanes := b.steered ++ b.waiting
  if off = O.STK_BUNDLE_LANES then
    some (if !bundleExists id then 0 else BitVec.ofNat 32 ((List.range 4).foldl (fun a k =>
      match lanes[k]? with | some l => a + (l + 128) * 256 ^ k | none => a) 0))
  else if off = O.STK_BUNDLE_STATE then
    some (if !bundleExists id then 0 else BitVec.ofNat 32 ((4 - b.steered.length) + 8 * b.sentinel.toNat + 16 * b.suspect.toNat +
      32 * b.exhausted.toNat + 64 * (!b.waiting.isEmpty).toNat + 65536 * b.miss))
  else if off = O.STK_SHOAL_STAT then
    some (BitVec.ofNat 32 (min s.stack.shoal.length 8191 + 8192 * (s.nvRo 386 && s.nvRo 387).toNat + 16384 * s.stack.lost.toNat +
      32768 * s.hold.remapLost.toNat + 65536 * s.stack.persisted))
  else none

end Sys2Proof.Machine
end

