-- ==== Sys2Proof/Machine/Hold.lean ====
section
/-! DEFINITION. Machine/Hold.lean: the hold: words under their code, remap and spares, the row port, the word port, the transfer
monitor, retention, the bonded region and the scrub (R171 to R209). A bank is numbered 256·erg + dune. -/

namespace Sys2Proof.Machine

/-- Word index of a word (R171). -/
def wordIndex (b row w : Nat) : Nat := b * 16384 + row * 32 + w

/-- The word stored in the array at a word index: data and syndrome. -/
def Dev.arrayWord (s : Dev) (wi : Nat) : Spare :=
  ⟨BitVec.ofNat 64 (ofLeBytes (memBytes s.mem (holdBase + 8 * wi) 8)), Map.get (fun _ => 0) s.hold.syn wi⟩

/-- Stores a word in the array. -/
def Dev.putArrayWord (s : Dev) (wi : Nat) (x : Spare) : Dev :=
  { s with mem := memStore s.mem (holdBase + 8 * wi) (leBytes 8 x.data.toNat),
           hold := { s.hold with syn := Map.set (fun _ => 0) s.hold.syn wi x.syn } }

/-- Remap entry `k` of a bank: row and word where it is valid (R191). -/
def Dev.remapAt (s : Dev) (b k : Nat) : Option (Nat × Nat) := Map.get (fun _ => none) s.hold.remap (8 * b + k)

/-- The spare that stands for a word, if one does (R191). -/
def Dev.spareOf (s : Dev) (b row w : Nat) : Option Nat := (List.range 8).find? (fun k => s.remapAt b k == some (row, w))

/-- The word that both ports see at a row and word of a bank (R191). -/
def Dev.holdWord (s : Dev) (b row w : Nat) : Spare :=
  match s.spareOf b row w with
  | some k => Map.get (fun _ => {}) s.hold.spares (8 * b + k)
  | none => s.arrayWord (wordIndex b row w)

/-- Stores a word where both ports see it (R191). -/
def Dev.putHoldWord (s : Dev) (b row w : Nat) (x : Spare) : Dev :=
  match s.spareOf b row w with
  | some k => { s with hold := { s.hold with spares := Map.set (fun _ => {}) s.hold.spares (8 * b + k) x } }
  | none => s.putArrayWord (wordIndex b row w) x

/-- The poison word (R175). -/
def poisonWord : Spare := ⟨0, poisonSyn⟩

/-- A stored word decoded (R175): its data, corrected where one bit is wrong; none where it is uncorrectable. -/
def Spare.value (x : Spare) : Option DWord :=
  match secDecode x.syn with
  | .clean => some x.data
  | .bit i => some (if i < 64 then x.data ^^^ BitVec.ofNat 64 (2 ^ i) else x.data)
  | .uncorr => none

/-- Whether a stored word holds a correctable error. -/
def Spare.correctable (x : Spare) : Bool := x.syn != 0 && x.value.isSome

/-- A word stored under a flip mask: the check byte is computed from the data before the mask inverts it (R176). -/
def flippedWord (d mask : DWord) : Spare := ⟨d ^^^ mask, secCheck mask⟩

/-- The latest uncorrectable word of a HOLD block is recorded: address, syndrome, source, count (R209). -/
def Dev.holdError (s : Dev) (wi source : Nat) (syn : Byte) : Dev :=
  let blk := B.HOLD (wi / 2 ^ 24)
  (((s.setReg blk O.HOLD_ERR_ADDR (BitVec.ofNat 32 wi)).setFld blk F.HOLD_ERR_INFO_SYNDROME syn.toNat).setFld blk
    F.HOLD_ERR_INFO_SOURCE source).count blk F.HOLD_ERR_INFO_UNCORR_CNT

/-- An uncorrectable hold word is a class U error of block `blk`, with its detail record (R180, R188, R192, R205). -/
def Dev.holdUncorr (s : Dev) (blk evt wi source : Nat) (syn : Byte) : Dev :=
  let s1 := s.holdError wi source syn
  s1.classU blk evt .uncorr wi 0 syn.toNat (s1.reg (B.HOLD (wi / 2 ^ 24)) O.HOLD_ERR_INFO).toNat

/-- Whether a bank of erg `b / 256` is under a hold march (R203). -/
def Dev.marched (s : Dev) (b : Nat) : Bool :=
  match s.bist.march with
  | some m => !m.planeStore && decide (m.first ≤ b / 256) && decide (b / 256 ≤ m.last)
  | none => false

/-- Whether a bank is being wiped (R199). -/
def Dev.wiped (s : Dev) (b : Nat) : Bool :=
  match s.hold.wipe with
  | some new => s.hold.bond.ergs.contains (b / 256) || new.ergs.contains (b / 256)
  | none => false

/-- Whether a bank is in retention or waking (R190). -/
def Dev.asleep (s : Dev) (b : Nat) : Bool := (s.bank b).power != .awake

/-- Conditions of R190 that the shoal map gives. -/
def Dev.hoistLost (s : Dev) (b : Nat) : Bool := s.outOf 3 (b / 256) (b % 256)
def Dev.bankOut (s : Dev) (b : Nat) : Bool := s.outOf 4 (b / 256) (b % 256)
def Dev.bankNetLost (s : Dev) (b : Nat) : Bool := s.outOf 7 (b / 256) (b % 256)

/-- Whether a bank ignores row commands (R190). -/
def Dev.rowIgnored (s : Dev) (b : Nat) : Bool := s.hoistLost b || s.bankOut b || s.asleep b || s.wiped b

/-- Whether scrubs skip a bank (R190). -/
def Dev.scrubSkips (s : Dev) (b : Nat) : Bool := s.bankOut b || s.asleep b || s.marched b || s.wiped b

/-- Whether the bonded region shuts an initiator out of a bank (R198): it serves the berths of the bonded erg itself and the
configuration and security controller. -/
def Dev.bondDenied (s : Dev) (src : Src) (b : Nat) : Bool :=
  s.hold.bond.ergs.contains (b / 256) &&
    (match src with
     | .berth x => x.val / 16 != b / 256
     | .cfgctl | .csp => false
     | _ => true)

/-- What a bank answers a word-port request that it does not serve (R190). A bank that is asleep has it held. -/
def Dev.bankRefusal (s : Dev) (src : Src) (b : Nat) : Option Status :=
  if s.bondDenied src b then some .denied
  else if s.marched b || s.wiped b then some .busy
  else if s.bankOut b || s.bankNetLost b then some .uncorr
  else none

/-- A request reaches a bank that is awake: refused under R190, else it meets the locks. -/
def Dev.enterBank (s : Dev) (m : Msg) : Dev :=
  match s.bankRefusal (s.nodeSrc m.h.src) (holdBank m.h.addr) with
  | some st => s.respond m.h st
  | none => s.lockEnter m

/-- A row command is ignored under R190. -/
def Dev.hlDrop (s : Dev) (b : Nat) : Dev :=
  (s.count (B.HOLD (b / 1024)) F.HOLD_HL_CNT_DROP_CNT).event (B.HOLD (b / 1024)) 3

/-- Row commands in the last XFER_WINDOW ticks (R185). -/
def Dev.xferCount (s : Dev) : Nat := min ((s.hold.xfers.take (s.fld (B.HOLD 0) F.HOLD_XFER_WINDOW_WINDOW)).foldl (· + ·) 0) 0xFFFFFF

/-- The transfer monitor shows its count; a rise above the limit raises XFER_OVER (R185). -/
def Dev.xferShow (s : Dev) : Dev :=
  let blk := B.HOLD 0
  let was := s.fld blk F.HOLD_XFER_NOW_COUNT
  let now := s.xferCount
  let lim := s.fld blk F.HOLD_XFER_LIMIT_LIMIT
  let s1 := (s.setFld blk F.HOLD_XFER_NOW_COUNT now).setFld blk F.HOLD_XFER_MAX_MAX (max (s.fld blk F.HOLD_XFER_MAX_MAX) now)
  if was ≤ lim && lim < now then (s1.count blk F.HOLD_XFER_MAX_OVER_CNT).event blk 5 else s1

/-- A list without its trailing zeros. -/
def trimZeros (l : List Nat) : List Nat := (l.reverse.dropWhile (· == 0)).reverse

/-- A tick of TICK passes at the transfer monitor (R185): the window slides. -/
def Dev.xferTick (s : Dev) : Dev :=
  { s with hold := { s.hold with xfers := trimZeros ((0 :: s.hold.xfers).take 65535) } }.xferShow

/-- One more row command that is not ignored was sampled in this tick (R185). -/
def Dev.xferCountOne (s : Dev) : Dev :=
  let l := match s.hold.xfers with
    | [] => [1]
    | n :: r => (n + 1) :: r
  { s with hold := { s.hold with xfers := l } }.xferShow

/-- The row port's pacing in ticks (R178). -/
def Dev.pace (s : Dev) : Nat := s.fld (B.HOLD 0) F.HOLD_CFG_PACE

/-- HOIST, LOWER: a row command is sampled (R177, R178, R181, R190). Fewer than PACE ticks after the dune's previous accepted command it
is ignored as a class U error. A lower captures the register. Nothing is sampled unless the dune's erg runs in a tick; an ignored command
is not counted (R185). -/
def Dev.rowCommand (s : Dev) (lower : Bool) (e d reg row : Nat) : Dev :=
  let b := 256 * e + d
  let blk := B.HOLD (b / 1024)
  let k := s.bank b
  if s.mode ≠ .underway || !s.ergRuns e then s
  else if (match k.lastCmd with | some t => decide (s.tide.count < t + s.pace) | none => false) then
    let s1 := s.count blk F.HOLD_HL_CNT_PACE_CNT
    s1.classU blk 2 .ok (16384 * b + 32 * row) 0 0 (s1.reg blk O.HOLD_HL_CNT).toNat
  else
    let s1 := s.setBank b { k with lastCmd := some s.tide.count }
    if s1.rowIgnored b then s1.hlDrop b
    else
      let c : RowCmd := { lower, reg, row, stamp := s.tide.count, captured := if lower then s.fab.row b reg else {}, at_ := s.tide.exec }
      (s1.xferCountOne.setBank b { s1.bank b with cmds := (s1.bank b).cmds ++ [c] }).xingPush b s.tide.count 8 (.rowCommand e d row lower)

/-- What a hoist makes of one word (R180): corrected, or the poison word; the row is built from its highest word down. -/
def Dev.hoistWord (b row : Nat) (acc : Row × Dev) (w : Nat) : Row × Dev :=
  let (r, s) := acc
  let x := s.holdWord b row w
  match x.value with
  | some d => (r.putWord secCheck w d, if x.correctable then s.classC (B.HOLD (b / 1024)) else s)
  | none =>
    let r1 := r.putWord (fun _ => poisonSyn) w 0
    (r1, s.holdUncorr (B.HOLD (b / 1024)) 1 (wordIndex b row w) 3 x.syn)

/-- The row a hoist brings, with the errors it met. -/
def Dev.hoistRow (s : Dev) (b row : Nat) : Row × Dev := (List.range 32).foldl (Dev.hoistWord b row) ({}, s)

/-- Commits a lowered row to the bank array with the check bytes of its shadow; an armed flip mask takes word 0 (R176, R181). -/
def Dev.lowerRow (s : Dev) (b row : Nat) (r : Row) : Dev :=
  let (mask, s0) := s.takeFlip (B.HOLD (b / 1024))
  (List.range 32).foldl (fun s w =>
    let d := r.word w
    let x : Spare := if w = 0 then ⟨d ^^^ mask, r.check w ^^^ secCheck (d ^^^ mask)⟩ else ⟨d, r.check w ^^^ secCheck d⟩
    s.putHoldWord b row w x) s0

/-- The bank carries out a row command (R177, R179, R181): a lower is committed; a hoisted row goes into the return queue, stamped 32
ticks after the command. A bank that has become unable to is left unchanged (R190). -/
def Dev.rowRun (s : Dev) (b : Nat) (c : RowCmd) : Dev :=
  if s.hoistLost b || s.bankOut b || s.wiped b then s.hlDrop b
  else if c.lower then s.lowerRow b c.row c.captured
  else
    let (r, s1) := s.hoistRow b c.row
    (s1.setBank b { s1.bank b with landings := (s1.bank b).landings ++ [⟨c.at_ + 40, c.reg, r, c.stamp + 32⟩] }).xingPush (8192 + b)
      (c.stamp + 32) 8 (.row (b / 256) (b % 256))

/-- ROW_CYCLE: the bank carries out the oldest row command that waits, once it has been released (R177). -/
def Dev.rowCycle (s : Dev) (b : Nat) : Dev :=
  match (s.bank b).cmds with
  | [] => s
  | c :: rest =>
    if !s.crossed b c.stamp || s.tide.count < c.stamp + 8 then s
    else (s.setBank b { s.bank b with cmds := rest }).rowRun b c

/-- HOIST_LAND: at the end of its tick the oldest returning row replaces its register and shadow (R179, R182); a word write that the tick
made into the register is lost, and ROW_CLASH, bit 2 of ERG, is raised (R117). -/
def Dev.hoistLand (s : Dev) (b : Nat) : Dev :=
  let k := s.bank b
  match k.landings with
  | [] => s
  | l :: rest =>
    if s.tide.exec ≤ l.due || !s.crossed (8192 + b) l.stamp then s
    else
      let s1 := { s.setBank b { k with landings := rest } with fab := s.fab.setRow b l.reg l.row }
      if s.fab.wrote.contains (b, l.reg) then s1.event (B.ERG (b / 256)) 2 else s1

/-- What a bank's row port does by the tick at hand at the latest, where no command has made it so yet (R179, R181): a row command is
carried out within 32 ticks, and a row lands at the end of its tick. -/
def Dev.bankDue (s : Dev) (b : Nat) : Dev :=
  let s1 := match (s.bank b).cmds with
    | c :: _ => if c.stamp + 32 ≤ s.tide.count then s.rowCycle b else s
    | [] => s
  s1.hoistLand b

/-- What falls due at every bank's row port before the tick at hand. -/
def Dev.rowsDue (s : Dev) : Dev := (s.hold.banks.map (·.1)).foldl Dev.bankDue s

/-- Row and word of the n-th word that a hold request touches. -/
def reqWord (a n : Nat) : Nat × Nat := ((a / 8 + n) / 32 % 512, (a / 8 + n) % 32)

/-- Number of words that a hold request touches. -/
def reqWords (a len : Nat) : Nat := if len = 0 then 0 else (a + len - 1) / 8 - a / 8 + 1

/-- The bytes of word n that a request covers: first byte and end within the word. -/
def reqSpan (a len n : Nat) : Nat × Nat :=
  (if n = 0 then a % 8 else 0, min 8 (a % 8 + len - 8 * n))

/-- The grant of a bank has served a word: it ends after 4 words or with the request (R242). A request that is complete is answered; one
that is not waits at the head of the queue again. -/
def Dev.bankServed (s : Dev) (b : Nat) (q : ArbReq) (held : Nat) : Dev :=
  let a := 8 + b
  let x := s.arb a
  let h := q.msg.h
  if reqWords h.addr h.len ≤ q.served then
    (s.setArb a { x with grant := none, heldFor := 0 }).respondFrom a h (q.bad.getD .ok) ((q.got.drop (h.addr % 8)).take h.len)
  else if 4 ≤ held then s.setArb a { x with grant := none, heldFor := 0, queue := q :: x.queue }
  else s.setArb a { x with grant := some q, heldFor := held }

/-- One word of a word-port read (R188): corrected as it is returned, the stored word left as it is; every uncorrectable word is
recorded (R209), the first is logged as the request's error, and the response carries UNCORR. -/
def Dev.portReadWord (s : Dev) (b : Nat) (q : ArbReq) : Dev × ArbReq :=
  let (row, w) := reqWord q.msg.h.addr q.served
  let x := s.holdWord b row w
  match x.value with
  | some d => (if x.correctable then s.classC (B.HOLD (b / 1024)) else s,
               { q with served := q.served + 1, got := q.got ++ leBytes 8 d.toNat })
  | none => (if q.bad.isSome then s.holdError (wordIndex b row w) 1 x.syn else s.holdUncorr (B.HOLD (b / 1024)) 0 (wordIndex b row w) 1 x.syn,
             { q with served := q.served + 1, got := q.got ++ leBytes 8 0, bad := some .uncorr })

/-- Words the port reads in one grant. -/
def Dev.portRead (b : Nat) : Nat → Dev × ArbReq → Dev × ArbReq
  | 0, p => p
  | n + 1, (s, q) =>
    if reqWords q.msg.h.addr q.msg.h.len ≤ q.served then (s, q) else Dev.portRead b n (s.portReadWord b q)

/-- Whether a bank can serve the request under its grant now; if not, the request is answered as R190 says. -/
def Dev.bankGrant (s : Dev) (b : Nat) (serve : Dev → ArbReq → Dev) : Dev :=
  match (s.arb (8 + b)).grant with
  | none => s
  | some q =>
    if s.asleep b then s
    else match s.bankRefusal (s.nodeSrc q.msg.h.src) b with
      | some st => (s.setArb (8 + b) { s.arb (8 + b) with grant := none, heldFor := 0 }).respondFrom (8 + b) q.msg.h st
      | none => serve s q

/-- WORD_PORT_READ: the grant reads up to 4 words (R186, R188, R242). -/
def Dev.wordPortRead (s : Dev) (b : Nat) : Dev :=
  s.bankGrant b (fun s q =>
    if q.msg.h.op ≠ 1 then s
    else
      let (s1, q1) := Dev.portRead b 4 (s, q)
      s1.bankServed b q1 4)

/-- The new bytes of word n of a write, merged into an old word. -/
def mergeWord (old : DWord) (q : ArbReq) : DWord :=
  let (lo, hi) := reqSpan q.msg.h.addr q.msg.h.len q.served
  let at_ := 8 * q.served - q.msg.h.addr % 8
  let new := (q.msg.data.drop at_).take (hi - lo)
  BitVec.ofNat 64 (ofLeBytes (((leBytes 8 old.toNat).take lo) ++ new ++ ((leBytes 8 old.toNat).drop hi)))

/-- Whether the next word of a write is a full word. -/
def fullWord (q : ArbReq) : Bool := reqSpan q.msg.h.addr q.msg.h.len q.served == (0, 8)

/-- Whether the next word of a write arrived poisoned (R223). Words are numbered in the message's data, eight bytes each. -/
def poisonedWord (q : ArbReq) : Bool :=
  q.msg.poison.contains ((8 * q.served - q.msg.h.addr % 8) / 8) ||
    (q.msg.h.addr % 8 != 0 && q.msg.poison.contains ((8 * q.served - q.msg.h.addr % 8 + 7) / 8))

/-- Stores one word of a write: the poison word where its data arrived poisoned, else the data under an armed flip mask (R176,
R223). -/
def Dev.portStore (s : Dev) (b : Nat) (q : ArbReq) (d : DWord) : Dev × ArbReq :=
  let (row, w) := reqWord q.msg.h.addr q.served
  let q1 := { q with served := q.served + 1 }
  if poisonedWord q then (s.putHoldWord b row w poisonWord, { q1 with bad := some .uncorr })
  else
    let (mask, s1) := s.takeFlip (B.HOLD (b / 1024))
    (s1.putHoldWord b row w (flippedWord d mask), q1)

/-- Full words that the port writes in one grant, up to a partial word. -/
def Dev.portWrite (b : Nat) : Nat → Nat → Dev × ArbReq → Dev × ArbReq × Nat
  | 0, held, (s, q) => (s, q, held)
  | n + 1, held, (s, q) =>
    if reqWords q.msg.h.addr q.msg.h.len ≤ q.served || !fullWord q || 4 ≤ held then (s, q, held)
    else Dev.portWrite b n (held + 1) (s.portStore b q (mergeWord 0 q))

/-- WORD_PORT_WRITE: the grant writes full words without reading them (R186, R188). -/
def Dev.wordPortWrite (s : Dev) (b : Nat) : Dev :=
  s.bankGrant b (fun s q =>
    if q.msg.h.op ≠ 2 then s
    else
      let (s1, q1, held) := Dev.portWrite b 4 (s.arb (8 + b)).heldFor (s, q)
      s1.bankServed b q1 held)

/-- PARTIAL_WRITE: the next word of the grant is read, corrected, merged and rewritten; a stored word that is uncorrectable is left
unchanged and the write ends UNCORR (R186, R188). -/
def Dev.partialWrite (s : Dev) (b : Nat) : Dev :=
  s.bankGrant b (fun s q =>
    if q.msg.h.op ≠ 2 || fullWord q || reqWords q.msg.h.addr q.msg.h.len ≤ q.served then s
    else
      let held := (s.arb (8 + b)).heldFor + 1
      let (row, w) := reqWord q.msg.h.addr q.served
      let x := s.holdWord b row w
      match x.value with
      | some d =>
        let s0 := if x.correctable then s.classC (B.HOLD (b / 1024)) else s
        let (s1, q1) := s0.portStore b q (mergeWord d q)
        s1.bankServed b q1 held
      | none =>
        let s1 := if q.bad.isSome then s.holdError (wordIndex b row w) 2 x.syn
          else s.holdUncorr (B.HOLD (b / 1024)) 0 (wordIndex b row w) 2 x.syn
        s1.bankServed b { q with served := q.served + 1, bad := some .uncorr } held)

/-- Valid entries of a bank's remap table. -/
def Dev.remapUsed (s : Dev) (b : Nat) : Nat := ((List.range 8).filter (fun k => (s.remapAt b k).isSome)).length

/-- The first spare of a bank that serves no word and that no test found faulty. -/
def Dev.freeSpare (s : Dev) (b : Nat) : Option Nat :=
  (List.range 8).find? (fun k => (s.remapAt b k).isNone && !s.hold.badSpares.contains (8 * b + k))

/-- Migrates a word into the first free spare of its bank and switches the mapping (R192); an uncorrectable word is replaced by the
poison word and logged. Nothing where no spare is free. -/
def Dev.remapNow (s : Dev) (b row w : Nat) : Dev :=
  match s.freeSpare b with
  | none => s
  | some k =>
    let x := s.holdWord b row w
    let new : Spare := match x.value with
      | some d => ⟨d, 0⟩
      | none => poisonWord
    let s1 := if x.value.isSome then s else s.holdUncorr (B.HOLD (b / 1024)) 0 (wordIndex b row w) 5 x.syn
    { s1 with hold := { s1.hold with
        spares := Map.set (fun _ => {}) s1.hold.spares (8 * b + k) new,
        remap := Map.set (fun _ => none) s1.hold.remap (8 * b + k) (some (row, w)), remapDirty := true } }

/-- HOLD_REMAP_CMD of HOLD block `k`, as written: READ copies an entry, ADD asks for a remap (R192, R209). An ADD while one waits is
BUSY (DESIGN CHOICE, notes/assumptions/21.md). -/
def Dev.remapCmd (s : Dev) (k : Nat) (w : Word) : Dev :=
  let blk := B.HOLD k
  let b := 1024 * k + nfield w.toNat 16 10
  match w.toNat % 4 with
  | 1 =>
    let v := match s.remapAt b (nfield w.toNat 2 3) with
      | some (row, wd) => row + 512 * wd + 16384
      | none => 0
    (s.setReg blk O.HOLD_REMAP_ENTRY (BitVec.ofNat 32 (v + 65536 * s.remapUsed b))).finish blk .ok
  | 2 =>
    let row := s.fld blk F.HOLD_REMAP_ENTRY_ROW
    let wd := s.fld blk F.HOLD_REMAP_ENTRY_WORD
    if (s.spareOf b row wd).isSome then s.finish blk .ok
    else if (s.freeSpare b).isNone then (s.event blk 4).finish blk .range
    else if s.asleep b then s.finish blk .state
    else if s.marched b || s.wiped b || (Map.get (fun _ => none) s.hold.adds k).isSome then s.finish blk .busy
    else { s with hold := { s.hold with adds := Map.set (fun _ => none) s.hold.adds k (some ⟨b, row, wd⟩) } }
  | _ => s

/-- How an ADD ends when a free cycle comes (R192): OK without change where a test has remapped the word meanwhile, RANGE with REMAP_FULL
where no spare is left, else the migration. -/
def Dev.remapEnd (s : Dev) (k : Nat) (a : RemapAdd) : Dev :=
  let blk := B.HOLD k
  if (s.spareOf a.bank a.row a.word).isSome then s.finish blk .ok
  else if (s.freeSpare a.bank).isNone then (s.event blk 4).finish blk .range
  else (s.remapNow a.bank a.row a.word).finish blk .ok

/-- REMAP_MIGRATION: a free cycle of the bank comes, and the ADD that waits completes (R192). -/
def Dev.remapMigration (s : Dev) (k : Nat) : Dev :=
  match Map.get (fun _ => none) s.hold.adds k with
  | none => s
  | some a => { s with hold := { s.hold with adds := Map.erase s.hold.adds k } }.remapEnd k a

/-- REMAP_ADD_TIMEOUT: no free cycle came within 1 ms, and the ADD completes with BUSY (R192). -/
def Dev.remapAddTimeout (s : Dev) (k : Nat) : Dev :=
  match Map.get (fun _ => none) s.hold.adds k with
  | none => s
  | some _ => { s with hold := { s.hold with adds := Map.erase s.hold.adds k } }.finish (B.HOLD k) .busy

/-- Whether every bank of the device is in retention. -/
def Dev.allRetained (s : Dev) : Bool := (List.range 8192).all (fun b => (s.bank b).power == .retention)

/-- Whether a debugger keeps Slack emulated (R516): banks stay at 0.75 V. -/
def Dev.emulated (s : Dev) : Bool := s.flag B.DBG F.DBG_STAT_ATTACHED

/-- HLD_RET rises once every bank is in retention in device-wide Slack, where PWR_CFG enables it (R482). -/
def Dev.hldRetRise (s : Dev) : Dev :=
  if s.mode = .slack && s.flag B.PWR F.PWR_CFG_HLD_RET_EN && s.allRetained then { s with pins := { s.pins with hldRet := true } } else s

/-- BANK_RETENTION_ENTRY: an erg in Slack whose banks have finished their row commands and grants puts them in retention (R195). In an
emulated Slack banks stay awake (R516). -/
def Dev.bankRetention (s : Dev) (e : Nat) : Dev :=
  let bs := (List.range 256).map (256 * e + ·)
  if (s.erg e).slack.runs || (s.erg e).slack = .waking || (s.emulated && s.mode != .standDown) then s
  else if bs.any (fun b => !(s.bank b).cmds.isEmpty || (s.arb (8 + b)).grant.isSome) then s
  else (bs.foldl (fun s b => s.setBank b { s.bank b with power := .retention }) s).hldRetRise

/-- Whether a message is for a bank. -/
def Msg.forBank (m : Msg) (b : Nat) : Bool := addrWin m.h.addr == some .hold && holdBank m.h.addr == b

/-- BANK_WAKE: a bank completes its wake; requests held for it are served in order (R196). -/
def Dev.bankWake (s : Dev) (b : Nat) : Dev :=
  if (s.bank b).power ≠ .waking then s
  else
    let held := Map.get (fun _ => []) s.net.wake (b / 256)
    let s1 := s.setBank b { s.bank b with power := .awake }
    let s2 := { s1 with net := { s1.net with
      wake := Map.set (fun _ => []) s1.net.wake (b / 256) (held.filter (fun m => !m.forBank b)) } }
    (held.filter (fun m => m.forBank b)).foldl Dev.enterBank s2

/-- The bonded setting takes effect (R197). -/
def Dev.setBond (s : Dev) (x : Bond) : Dev :=
  let blk := B.HOLD 0
  (((({ s with hold := { s.hold with bond := x } }.setFld blk F.HOLD_BOND_STAT_ERG_A x.ergA).setFlag blk F.HOLD_BOND_STAT_EN_A
    x.enA).setFld blk F.HOLD_BOND_STAT_ERG_B x.ergB).setFlag blk F.HOLD_BOND_STAT_EN_B x.enB)

/-- Banks in retention are woken for the wipe that is to come (R199): their wakes begin. -/
def Dev.wakeForWipe (s : Dev) : Dev :=
  let es := match s.hold.wipe with
    | some new => s.hold.bond.ergs ++ new.ergs
    | none => []
  s.hold.banks.foldl (fun s (x : Nat × BankSt) =>
    if es.contains (x.1 / 256) && x.2.power == .retention then
      { s.setBank x.1 { x.2 with power := .waking } with pins := { s.pins with hldRet := false } }
    else s) s

/-- HOLD_BOND_CMD (R197, R200): SET and WIPE start a wipe; the new setting takes effect when it completes. A command during a wipe is BUSY
(DESIGN CHOICE, notes/assumptions/21.md). -/
def Dev.bondCmd (s : Dev) (w : Word) : Dev :=
  let blk := B.HOLD 0
  let n := w.toNat
  match n % 4 with
  | 1 =>
    let new : Bond := { ergA := nfield n 2 5, enA := nbit n 7, ergB := nfield n 8 5, enB := nbit n 13 }
    let es := s.hold.bond.ergs ++ new.ergs
    let free (e : Nat) : Bool := (s.erg e).mode != .running && (s.erg e).slack.runs
    s.guarded blk [(new.enA && new.enB && new.ergA == new.ergB, .format), (!es.all free, .state), (s.hold.wipe.isSome, .busy)]
      (fun s => { s with hold := { s.hold with wipe := some new } }.wakeForWipe.setFlag blk F.HOLD_BOND_STAT_WIPING true)
  | 2 =>
    if s.hold.wipe.isSome then s.finish blk .busy
    else { s with hold := { s.hold with wipe := some s.hold.bond } }.wakeForWipe.setFlag blk F.HOLD_BOND_STAT_WIPING true
  | _ => s

/-- BOND_WIPED: the wipe under way completes (R199, R200). Requests held for a bank that the wipe woke are answered when its wake completes
(R196). -/
def Dev.bondWiped (s : Dev) : Dev :=
  match s.hold.wipe with
  | none => s
  | some new =>
    let blk := B.HOLD 0
    let s1 := s.wipeNow (s.hold.bond.ergs ++ new.ergs)
    let s2 := { s1 with hold := { s1.hold with wipe := none } }.setBond new
    (s2.setFlag blk F.HOLD_BOND_STAT_WIPING false).finish blk .ok

/-- SCRB_CMD (R205, R207). A scrub of no rows ends at once: DONE is raised, with an empty summary. -/
def Dev.scrbCmd (s : Dev) (w : Word) : Dev :=
  match w.toNat % 4 with
  | 1 =>
    let first := s.fld B.SCRB F.SCRB_START_ROW
    let n := s.fld B.SCRB F.SCRB_ROWS_COUNT
    s.guarded B.SCRB [(n != 0 && decide (0x400000 < first + n), .range), (s.hold.scrub.isSome, .busy)] (fun s =>
      let s1 := (((s.setReg B.SCRB O.SCRB_CORR 0).setReg B.SCRB O.SCRB_UNCORR 0).setReg B.SCRB O.SCRB_FIRST 0).setReg B.SCRB O.SCRB_LAST 0
      if n = 0 then (s1.event B.SCRB 0).finish B.SCRB .ok
      else { s1 with hold := { s1.hold with scrub := some { first, count := n } } })
  | 2 =>
    match s.hold.scrub with
    | some r => { s with hold := { s.hold with scrub := some { r with aborted := true } } }
    | none => s
  | _ => s

/-- A word that a triggered scrub finds in error is the summary's last failing word, and its first where none was found before
(R207). -/
def Dev.scrubFail (s : Dev) (wi : Nat) : Dev :=
  let v := BitVec.ofNat 32 (wi + 2 ^ 31)
  let s1 := s.setReg B.SCRB O.SCRB_LAST v
  if s.flag B.SCRB F.SCRB_FIRST_VALID then s1 else s1.setReg B.SCRB O.SCRB_FIRST v

/-- One word of a scrubbed row (R205). -/
def Dev.scrubWord (triggered : Bool) (b row : Nat) (s : Dev) (w : Nat) : Dev :=
  let x := s.holdWord b row w
  let wi := wordIndex b row w
  if x.syn = 0 then s
  else match x.value with
    | some d =>
      let s1 := (s.putHoldWord b row w ⟨d, 0⟩).classC (B.HOLD (b / 1024))
      if triggered then (s1.count B.SCRB F.SCRB_CORR_CORR).scrubFail wi else s1
    | none =>
      let s1 := s.holdUncorr B.SCRB 1 wi 4 x.syn
      if triggered then (s1.count B.SCRB F.SCRB_UNCORR_UNCORR).scrubFail wi else s1

/-- Whether the scrub may use a bank's row port: no row command in the last 2 × PACE ticks (R206). -/
def Dev.scrubFree (s : Dev) (b : Nat) : Bool :=
  match (s.bank b).lastCmd with
  | some t => decide (t + 2 * s.pace ≤ s.tide.count)
  | none => true

/-- One row for the scrub (R205, R206). -/
def Dev.scrubOne (s : Dev) (triggered : Bool) (g : Nat) : Dev := (List.range 32).foldl (Dev.scrubWord triggered (g / 512) (g % 512)) s

/-- Global rows of a quadrant, the banks of one HOLD block (R172, R205). -/
def quadrantRows : Nat := 524288

/-- The rows of a triggered scrub that lie in a quadrant: the first, and the end. -/
def ScrubRun.span (r : ScrubRun) (q : Nat) : Nat × Nat := (max r.first (quadrantRows * q), min (r.first + r.count) (quadrantRows * (q + 1)))

/-- The row that a triggered scrub visits next in a quadrant; none where it is through there. -/
def ScrubRun.next (r : ScrubRun) (q : Nat) : Option Nat :=
  let n := (r.span q).1 + Map.get (fun _ => 0) r.visited q
  if n < (r.span q).2 then some n else none

/-- Whether a triggered scrub has visited its rows in every quadrant, or ABORT came. -/
def ScrubRun.over_ (r : ScrubRun) : Bool := r.aborted || (List.range 8).all (fun q => (r.next q).isNone)

/-- Whether a triggered scrub is running in a quadrant (R208). -/
def Dev.scrubIn (s : Dev) (q : Nat) : Bool :=
  match s.hold.scrub with
  | some r => !r.aborted && (r.next q).isSome
  | none => false

/-- The triggered scrub visits its next row in a quadrant when the bank allows (R205 to R207): a bank that R190 has it skip is counted
once. -/
def Dev.scrubStep (s : Dev) (q : Nat) (r : ScrubRun) (g : Nat) : Dev :=
  let b := g / 512
  let on (r : ScrubRun) : ScrubRun := { r with visited := Map.modify (fun _ => 0) r.visited q (· + 1) }
  if s.scrubSkips b then
    let s1 := if r.skipped.contains b then s else s.count B.SCRB F.SCRB_UNCORR_SKIPPED
    { s1 with hold := { s1.hold with
        scrub := some (on { r with skipped := if r.skipped.contains b then r.skipped else r.skipped ++ [b] }) } }
  else if !s.scrubFree b then s
  else
    let s1 := s.scrubOne true g
    { s1 with hold := { s1.hold with scrub := some (on r) } }

/-- The idle scrubber visits its next row in a quadrant, where no triggered scrub is running, when the bank allows; at the end of the
quadrant it waits for the lap to end (R208). -/
def Dev.idleStep (s : Dev) (q : Nat) : Dev :=
  let n := Map.get (fun _ => 0) s.hold.idleRows q
  let b := (quadrantRows * q + n) / 512
  if !s.flag B.SCRB F.SCRB_IDLE_CTRL_EN || s.scrubIn q || quadrantRows ≤ n || !(s.scrubSkips b || s.scrubFree b) then s
  else
    let s1 := if s.scrubSkips b then s else s.scrubOne false (quadrantRows * q + n)
    { s1 with hold := { s1.hold with idleRows := Map.set (fun _ => 0) s1.hold.idleRows q (n + 1) } }

/-- SCRUB_ROW: a quadrant visits one row, for the triggered scrub or, where `idle`, for the idle scrubber (R205 to R208). -/
def Dev.scrubRow (s : Dev) (idle : Bool) (q : Nat) : Dev :=
  if idle then s.idleStep q
  else match s.hold.scrub with
    | none => s
    | some r =>
      match r.aborted, r.next q with
      | false, some g => s.scrubStep q r g
      | _, _ => s

/-- DONE: a triggered scrub that has visited its rows, or that ABORT stopped, ends (R207). -/
def Dev.scrubDone (s : Dev) : Dev :=
  match s.hold.scrub with
  | none => s
  | some r =>
    if !r.over_ then s
    else (({ s with hold := { s.hold with scrub := none } }.setFlag B.SCRB F.SCRB_UNCORR_ABORTED r.aborted).event B.SCRB 0).finish
      B.SCRB .ok

/-- LAP: the idle scrubber has swept every quadrant, in `us` microseconds, and begins its next lap (R208). -/
def Dev.scrubLap (s : Dev) (us : Nat) : Dev :=
  if !s.flag B.SCRB F.SCRB_IDLE_CTRL_EN || !(List.range 8).all (fun q => decide (quadrantRows ≤ Map.get (fun _ => 0) s.hold.idleRows q)) then s
  else
    let s1 := { s with hold := { s.hold with idleRows := [] } }
    ((s1.setFld B.SCRB F.SCRB_IDLE_LAP_LAP_US (min us 0xFFFFFFFF)).event B.SCRB 2)

/-- HOLD_REMAP_ENTRY as it reads: USED counts the valid entries of the bank selected (R209). -/
def Dev.holdView (s : Dev) (k off : Nat) : Option Word :=
  let blk := B.HOLD k
  if off = O.HOLD_REMAP_ENTRY then
    some (BitVec.ofNat 32 (putField (s.reg blk off).toNat 16 4 (s.remapUsed (1024 * k + s.fld blk F.HOLD_REMAP_CMD_BANK))))
  else none

end Sys2Proof.Machine
end

