-- ==== Sys2Proof/Machine/Mce.lean ====
section
/-! DEFINITION. Machine/Mce.lean: the inline cipher and integrity tree: keys, protected ranges, counters, tree nodes, MACs, poison,
page re-encryption and the rekey walker (R279 to R312). -/

namespace Sys2Proof.Machine

/-- Page of an address, counted within its range, and line within the page. -/
def RangeImg.page (g : RangeImg) (a : Nat) : Nat := (a - g.base * unit64) / 4096
def lineInPage (a : Nat) : Nat := a / 64 % 64

/-- Data and MAC key in force for a page (R307). -/
def RangeImg.keys (g : RangeImg) (page : Nat) : BitVec 256 × BitVec 256 :=
  if page / 512 < g.split then (g.newData, g.newMac) else (g.dataKey, g.macKey)

/-- Counter block of a page and the minor counter of a line (R292). -/
def RangeImg.ctr (g : RangeImg) (page : Nat) : CtrBlock := Map.get (fun _ => {}) g.ctrs page
def CtrBlock.minor (c : CtrBlock) (i : Nat) : Nat := (c.minors.toNat >>> (7 * i)) % 128
/-- The block with the minor counter of a line replaced. -/
def CtrBlock.setMinor (c : CtrBlock) (i v : Nat) : CtrBlock :=
  { c with minors := BitVec.ofNat 448 (putField c.minors.toNat (7 * i) 7 v) }

/-- Bytes and numbers. -/
def toNats (b : List Byte) : List Nat := b.map (·.toNat)
def toBytes (b : List Nat) : List Byte := b.map (BitVec.ofNat 8)
def leNats (k n : Nat) : List Nat := toNats (leBytes k n)

/-- Encrypts or decrypts the 64 bytes of the line at `a` (R285, R286). -/
def RangeImg.crypt (g : RangeImg) (dec : Bool) (a : Nat) (b : List Byte) : List Byte :=
  let p := g.page a
  let (dk, kk) := g.keys p
  let n := toNats b
  if g.mode = 1 then toBytes (Aes.xtsLine dec dk kk (a / 64) n)
  else
    let c := g.ctr p
    toBytes (Aes.bxor n (Aes.keystream dk (a / 64) c.major (c.minor (lineInPage a))))

/-- MAC of the line at `a` over its ciphertext (R286). The inputs are concatenated as little-endian bytes (DESIGN CHOICE,
notes/assumptions/22.md). -/
def RangeImg.lineMac (g : RangeImg) (a : Nat) (cipher : List Byte) : BitVec 64 :=
  let p := g.page a
  let c := g.ctr p
  Aes.mac64 (g.keys p).2 (leNats 4 (a / 64) ++ leNats 8 c.major ++ leNats 1 (c.minor (lineInPage a)) ++ toNats cipher)

/-- The data MAC stored for the line at `a`; a line not written since initialisation has that of encrypted zeros (R281). -/
def RangeImg.storedMac (g : RangeImg) (a : Nat) : BitVec 64 :=
  match Map.get (fun _ => none) g.macs (a / 64) with
  | some m => m
  | none => g.lineMac a (g.crypt false a (List.replicate 64 0))

/-- Eight counters of a tree node, and one of them (R293). -/
def RangeImg.node (g : RangeImg) (level idx : Nat) : BitVec 448 := Map.get (fun _ => 0) g.nodes (8 * idx + level)
def RangeImg.nodeCtr (g : RangeImg) (level page : Nat) : Nat :=
  ((g.node level (page / 8 ^ level)).toNat >>> (56 * (page / 8 ^ (level - 1) % 8))) % 2 ^ 56

/-- A counter block as stored (R292). -/
def CtrBlock.bytes (c : CtrBlock) : List Nat := leNats 8 c.major ++ leNats 56 c.minors.toNat

/-- Tag of the counter block of a page (R294). -/
def RangeImg.tag (g : RangeImg) (page : Nat) : BitVec 64 :=
  Aes.mac64 (g.keys page).2 (leNats 4 page ++ (g.ctr page).bytes ++ leNats 7 (g.nodeCtr 1 page))

/-- A tree node as stored, with its MAC under its parent's counter (R293, R294); `page`: any page beneath it. -/
def RangeImg.nodeBytes (g : RangeImg) (level page : Nat) : List Nat :=
  let n := leNats 56 (g.node level (page / 8 ^ level)).toNat
  n ++ leNats 8 (Aes.mac64 (g.keys page).2 (leNats 1 level ++ leNats 4 (page / 8 ^ level) ++ n ++
    leNats 7 (g.nodeCtr (level + 1) page))).toNat

/-- The 64 bytes of the metadata line at `a`; none where the slot leaves the place unused (R295). -/
def RangeImg.metaLine (g : RangeImg) (a : Nat) : Option (List Byte) :=
  let off := a - (g.metaBase * unit64 + g.slot * slotBytes)
  let u := off / slotBytes
  let o := off % slotBytes
  if o < 0x800000 then
    let first := g.base * unit64 + u * unit64 + o / 8 * 64
    some ((List.range 8).flatMap (fun k => leBytes 8 (g.storedMac (first + 64 * k)).toNat))
  else
    let f := o - 0x800000
    let j := f / 0x1000 * 32 + f % 0x800 / 64
    let page (p : Nat) : Nat := u * 16384 + p
    if j < 16384 then some (toBytes (g.ctr (page j)).bytes)
    else if j < 18432 then
      some ((List.range 8).flatMap (fun k => leBytes 8 (g.tag (page (8 * (j - 16384) + k))).toNat))
    else if j < 20480 then some (toBytes (g.nodeBytes 1 (page (8 * (j - 18432)))))
    else if j < 20736 then some (toBytes (g.nodeBytes 2 (page (64 * (j - 20480)))))
    else if j < 20768 then some (toBytes (g.nodeBytes 3 (page (512 * (j - 20736)))))
    else none

/-- What a range has put at the line at `a` and memory does not list: an encrypted line of zeros, or metadata. -/
def RangeImg.lineAt (g : RangeImg) (a : Nat) : Option (List Byte) :=
  if g.mode = 0 || Map.get (fun _ => false) g.written (a / 64) then none
  else if g.covers a then some (g.crypt false a (List.replicate 64 0))
  else if g.metaCovers a then g.metaLine a
  else none

/-- What a range that no longer stands has left at physical place `p`: nothing where the place has been overwritten since. -/
def RangeImg.leftAt (g : RangeImg) (p : Nat) : Option (List Byte) :=
  if g.gone.any (fun (m, lo, hi) => decide (lo ≤ unplaceWith m p) && decide (unplaceWith m p < hi)) then none
  else g.lineAt (unplaceWith g.masks p)

/-- First row of the check-byte carve-out for a density (R255). -/
def rBase (density : Nat) : Nat :=
  match density with
  | 0 => 15360 | 1 => 23040 | _ => 30720

/-- The bank that holds the check bytes of a bank, and the other way round: bank bits exclusive-or 0b01 (R260). -/
def partner (bank : Nat) : Nat := if bank % 2 = 0 then bank + 1 else bank - 1

/-- Where the four check bytes of the line at physical place `p` lie (R260). -/
def checkPlace (density p : Nat) : Nat :=
  let r := p / 2048 % 32768
  partner (p / 2 ^ 26) * 2 ^ 26 + (rBase density + r / 16) * 2048 + r % 16 * 128 + p % 2048 / 64 * 4

/-- The physical place of the line whose check bytes lie at physical place `q` of the carve-out (R260). -/
def checkedPlace (density q : Nat) : Nat :=
  let r := (q / 2048 % 32768 - rBase density) * 16 + q % 2048 / 128
  partner (q / 2 ^ 26) * 2 ^ 26 + r * 2048 + q % 128 / 4 * 64

/-- Where the check bytes of the line at `a` lie, by the density of its DMC. -/
def Dev.checksAt (s : Dev) (a : Nat) : Nat := checkPlace (s.fld (B.DMC (s.dmcOf a)) F.DMC_CFG_DENSITY) (s.place a)

/-- The 64 stored data bytes of the line at `a` (aligned), and its 4 stored check bytes. -/
def Dev.storedLine (s : Dev) (a : Nat) : List Byte × List Byte :=
  let p := s.place a
  let live := s.mce.ranges.findSome? (fun (_, r) => r.img.bind (fun g => if g.metaCovers a then g.metaLine a else none))
  match live with
  | some b => (b, rsCheck b)
  | none => match s.mce.former.findSome? (fun g => g.leftAt p) with
    | some b => (b, rsCheck b)
    | none => (memBytes s.mem p 64, memBytes s.mem (s.checksAt a) 4)

/-- Stores a line: data bytes and check bytes. What a former range left there is gone. -/
def Dev.storeLine (s : Dev) (a : Nat) (b chk : List Byte) : Dev :=
  let p := s.place a
  let marked (g : RangeImg) : RangeImg :=
    let x := unplaceWith g.masks p
    if g.covers x || g.metaCovers x then { g with written := Map.set (fun _ => false) g.written (x / 64) true } else g
  { s with mem := memStore (memStore s.mem p b) (s.checksAt a) chk,
           mce := { s.mce with former := s.mce.former.map marked } }

/-- Every line of an address interval holds zeros, or what a range that covers it says; nothing else stands there, and its check bytes are
those of zeros. -/
def Dev.clearExt (s : Dev) (lo hi : Nat) : Dev :=
  let inside (p : Nat) : Bool := decide (lo ≤ unplaceWith s.ext.active p) && decide (unplaceWith s.ext.active p < hi)
  let checks (q : Nat) : Bool :=
    let d := s.fld (B.DMC (q / 2 ^ 32)) F.DMC_CFG_DENSITY
    decide (rBase d ≤ q / 2048 % 32768) && inside (checkedPlace d q)
  { s with mem := Map.clear (fun p => decide (p < 2 ^ 35) && (inside p || checks p)) s.mem,
           mce := { s.mce with former := s.mce.former.map (fun g => { g with gone := g.gone ++ [(s.ext.active, lo, hi)] }) } }

/-- Whether a declaration of the image in force reaches an address interval (R280). -/
def Decl.reaches (d : Decl) (lo hi : Nat) : Bool :=
  (d.kind == 1 || d.kind == 2) && !d.remote && d.size != 0 && d.period != 0 && decide (d.destAddr < hi) &&
    decide (lo < d.destAddr + d.size)
def Dev.declReaches (s : Dev) (lo hi : Nat) : Bool := s.tide.decls.any (fun d => d.reaches lo hi)

/-- Whether every DMC is ONLINE. -/
def Dev.allOnline (s : Dev) : Bool := (List.range 8).all (fun k => s.fld (B.DMC k) F.DMC_STATE_STATE == 2)

/-- Two intervals of numbers share a member. -/
def meet (a n b m : Nat) : Bool := decide (a < b + m) && decide (b < a + n)

/-- The staged settings of a range (R312). -/
def RangeSt.sBase (r : RangeSt) : Nat := nfield r.cfg.toNat 0 9
def RangeSt.sSize (r : RangeSt) : Nat := nfield r.cfg.toNat 9 9 + 1
def RangeSt.sMode (r : RangeSt) : Nat := nfield r.cfg.toNat 18 2
def RangeSt.sKey (r : RangeSt) : Nat := nfield r.cfg.toNat 20 6
def RangeSt.sSlot (r : RangeSt) : Nat := nfield r.first.toNat 0 9

/-- The images of the other ranges that stand and protect something. -/
def Dev.otherImgs (s : Dev) (r : Nat) : List RangeImg :=
  (List.range 16).filterMap (fun k => if k = r || (s.range k).st = .disabled then none
    else (s.range k).img.filter (fun g => g.mode != 0))

/-- MCE_RANGE_CMD ENABLE: the checks of R280 in their order, then INIT (R281). -/
def Dev.rangeEnable (s : Dev) (r : Nat) : Dev :=
  let x := s.range r
  let mb := s.fld B.MCE F.MCE_META_CFG_BASE
  let slots := s.fld B.MCE F.MCE_META_CFG_SLOTS
  let others := s.otherImgs r
  if x.sMode = 3 || others.any (fun g => meet x.sBase x.sSize g.base g.size) ||
      (slots != 0 && meet (x.sBase * unit64) (x.sSize * unit64) (mb * unit64) (slots * slotBytes)) then s.finish B.MCE .format
  else if s.usableEnd < (x.sBase + x.sSize) * unit64 || (x.sMode = 2 && decide (slots < x.sSlot + x.sSize)) then s.finish B.MCE .range
  else if x.sMode = 2 && others.any (fun g => g.mode == 2 && meet x.sSlot x.sSize g.slot g.size) then s.finish B.MCE .format
  else if x.st ≠ .disabled || (s.key x.sKey).st ≠ .active || !s.allOnline ||
      s.declReaches (x.sBase * unit64) ((x.sBase + x.sSize) * unit64) then s.finish B.MCE .state
  else
    let k := s.key x.sKey
    let g : RangeImg := { base := x.sBase, size := x.sSize, mode := x.sMode, slot := x.sSlot, metaBase := mb, dataKey := k.data,
                          macKey := k.mac, masks := s.ext.active }
    s.setRange r { x with st := .init, keyId := x.sKey, walking := none, poisonAll := false, img := some g }

/-- The address interval of a range in effect. -/
def RangeImg.lo (g : RangeImg) : Nat := g.base * unit64
def RangeImg.hi (g : RangeImg) : Nat := (g.base + g.size) * unit64

/-- MCE_RANGE_CMD DISABLE (R281): the range is ENABLED, no walk stands on it, and the conditions on DMCs and declarations hold. -/
def Dev.rangeDisable (s : Dev) (r : Nat) : Dev :=
  let x := s.range r
  match x.img with
  | some g =>
    if x.st ≠ .enabled || x.walking.isSome || !s.allOnline || s.declReaches g.lo g.hi then s.finish B.MCE .state
    else s.setRange r { x with st := .zeroising }
  | none => s.finish B.MCE .state

/-- Poison entries of a range go. -/
def Dev.clearPoison (s : Dev) (p : PoisonEntry → Bool) : Dev :=
  { s with mce := { s.mce with poison := s.mce.poison.filter (fun (_, e) => match e with | some x => !p x | none => true) } }

/-- Errors of the root-store words of a range go: the words are written anew, or are free (R281). -/
def Dev.freshRoot (s : Dev) (r : Nat) : Dev :=
  { s with mce := { s.mce with rootFlips := Map.clear (fun k => k / 2 ^ 24 / 8 == r) s.mce.rootFlips } }

/-- The metadata lines that a range has in the caches are no longer there (R298, R307). -/
def Dev.forgetMeta (s : Dev) (g : RangeImg) : Dev :=
  s.forN 8 (fun s k =>
    let d := s.dmc k
    if d.metaLines.any (fun l => g.metaCovers (64 * l)) then s.setDmc k { d with metaLines := d.metaLines.filter (fun l => !g.metaCovers (64 * l)) }
    else s)

/-- A range is zeroised: plain zeros in its lines, its slots and nodes freed; what its slots held stays as it lay (R281, R290). -/
def Dev.zeroiseRange (s : Dev) (r : Nat) : Dev :=
  let x := s.range r
  match x.img with
  | none => s.setRange r { x with st := .disabled }
  | some g =>
    let s1 := if g.mode = 0 then s else s.clearExt g.lo g.hi
    let s2 := if g.mode = 2 then
        ({ s1 with mce := { s1.mce with former := s1.mce.former ++ [{ g with metaOnly := true }],
                                        rounds := s1.mce.rounds.filter (fun f => f.range != r) } }.freshRoot r).forgetMeta g
      else s1
    let s3 := if s2.mce.walker.any (fun w => w.range == r) then { s2 with mce := { s2.mce with walker := none } } else s2
    (s3.setRange r { x with st := .disabled, img := none, walking := none, poisonAll := false }).clearPoison (fun e => e.range == r)

/-- The key of word 0 of a node of the root store. -/
def rootKey (r level node : Nat) : Nat := ((8 * r + level) * 2 ^ 21 + node) * 8

/-- ENABLE writes a range's root-store nodes (R281): an armed flip mask takes the first word written (R305). -/
def Dev.rootInit (s : Dev) (r : Nat) : Dev :=
  let (mask, s1) := (s.freshRoot r).takeFlip B.MCE
  { s1 with mce := { s1.mce with rootFlips := Map.set (fun _ => 0) s1.mce.rootFlips (rootKey r 4 0) mask } }

/-- INIT_DONE: the writing that ENABLE or DISABLE started is complete (R281). A range in mode PLAIN writes nothing (R279). -/
def Dev.initDone (s : Dev) (r : Nat) : Dev :=
  let x := s.range r
  match x.st with
  | .init =>
    match x.img with
    | some g =>
      let s1 := if g.mode = 0 then s else s.clearExt g.lo g.hi
      let s2 := if g.mode = 2 then
          (s1.clearExt (g.metaBase * unit64 + g.slot * slotBytes) (g.metaBase * unit64 + (g.slot + g.size) * slotBytes)).rootInit r
        else s1
      ((s2.setRange r { x with st := .enabled }).event B.MCE 4).finish B.MCE .ok
    | none => s
  | .zeroising => ((s.zeroiseRange r).event B.MCE 4).finish B.MCE .ok
  | _ => s

/-- Whether a page lies beneath a poisoned node of its range (R303). -/
def Dev.poisoned (s : Dev) (r page : Nat) : Bool :=
  (s.range r).poisonAll || (List.range 64).any (fun k =>
    match Map.get (fun _ => none) s.mce.poison k with
    | some e => e.range == r && page / 8 ^ e.level == e.node
    | none => false)

/-- A subtree is recorded as poisoned; where the table is full the whole range is (R303). -/
def Dev.addPoison (s : Dev) (e : PoisonEntry) : Dev :=
  match (List.range 64).find? (fun k => (Map.get (fun _ => none) s.mce.poison k).isNone) with
  | some k => { s with mce := { s.mce with poison := Map.set (fun _ => none) s.mce.poison k (some e) } }
  | none => (s.setRange e.range { s.range e.range with poisonAll := true }).event B.MCE 2

/-- An access meets a poisoned subtree (R303): POISONED and a log entry. -/
def Dev.poisonHit (s : Dev) (a : Nat) : Dev := s.classU B.MCE 1 .integrity a

/-- Whether a write of `n` lines beneath a page would increment a counter beyond its maximum (R300). -/
def RangeImg.saturated (g : RangeImg) (page n : Nat) : Bool :=
  (List.range 7).any (fun l => decide (2 ^ 56 - 1 < g.nodeCtr (l + 1) page + n))

/-- The counter of a page is incremented at every level, up to the root store (R299). -/
def RangeImg.bump (g : RangeImg) (page : Nat) : RangeImg :=
  { g with nodes := (List.range 7).foldl (fun m i =>
      let l := i + 1
      let idx := page / 8 ^ l
      let lo := 56 * (page / 8 ^ i % 8)
      let old := (Map.get (fun _ => 0) m (8 * idx + l)).toNat
      Map.set (fun _ => 0) m (8 * idx + l) (BitVec.ofNat 448 (putField old lo 56 (nfield old lo 56 + 1)))) g.nodes }

/-- Keys of the root-store words that hold the counters of a page at levels 4 to 7 (R293). -/
def rootWords (r page : Nat) : List Nat :=
  (List.range 4).flatMap (fun i =>
    let l := 4 + i
    let lo := 56 * (page / 8 ^ (l - 1) % 8)
    let key := rootKey r l (page / 8 ^ l)
    if (lo + 55) / 64 = lo / 64 then [key + lo / 64] else [key + lo / 64, key + lo / 64 + 1])

/-- A root-store word stands with bits other than those written: the counters of its node are what it now says. -/
def Dev.rootBits (s : Dev) (k : Nat) (e : DWord) : Dev :=
  let r := k / 2 ^ 27
  match (s.range r).img with
  | some g =>
    let key := 8 * (k / 8 % 2 ^ 21) + k / 2 ^ 24 % 8
    let n := BitVec.ofNat 448 (Nat.xor (Map.get (fun _ => 0) g.nodes key).toNat (e.toNat * 2 ^ (64 * (k % 8))))
    s.setRange r { s.range r with img := some { g with nodes := Map.set (fun _ => 0) g.nodes key n } }
  | none => s

/-- The root-store words of a page are read: a correctable word is corrected in place, class C; an uncorrectable one is class F,
cause ROOT_UNCORR (R302). Which number a word has in the store is free. A pattern of errors that the code takes for another, or for none,
leaves a word of other bits. -/
def Dev.rootRead (s : Dev) (r page : Nat) : Dev :=
  (rootWords r page).foldl (fun s k =>
    let f := Map.get (fun _ => 0) s.mce.rootFlips k
    if f = 0 || s.mode = .quarantine then s
    else
      let clean : Dev := { s with mce := { s.mce with rootFlips := Map.erase s.mce.rootFlips k } }
      match secDecode (secCheck f) with
      | .uncorr =>
        let (n, s1) := s.freeWord
        s1.quarantine 2 (n.toNat % 2 ^ 18) B.MCE 0 (secCheck f).toNat
      | .bit i => (clean.rootBits k (f ^^^ (if i < 64 then 1#64 <<< i else 0))).classC B.MCE
      | .clean => clean.rootBits k f) s

/-- The root-store words of a page are read to verify its metadata (R298): where the counter of its level-3 node is not the one that the node
was written under, the node's MAC fails, which is class F, cause MAC_META (R302). `a`: the node's address; none where the node is not among
the lines fetched. -/
def Dev.rootVerify (s : Dev) (r page : Nat) (a : Option Nat) : Dev :=
  let ctr (s : Dev) : Option Nat := (s.range r).img.map (fun g => g.nodeCtr 4 page)
  let s1 := s.rootRead r page
  match a with
  | some a => if s1.mode ≠ .quarantine && ctr s1 ≠ ctr s then s1.quarantine 1 a B.MCE 0 else s1
  | none => s1

/-- A write's counters go up to the root store (R299); an armed flip mask takes the first root-store word written (R305). -/
def Dev.rootWrite (s : Dev) (r page : Nat) : Dev :=
  let ws := rootWords r page
  let (mask, s1) := s.takeFlip B.MCE
  { s1 with mce := { s1.mce with
      rootFlips := Map.set (fun _ => 0) (s1.mce.rootFlips.filter (fun (k, _) => !ws.contains k)) (ws.headD 0) mask } }

/-- Changes the image of a range. -/
def Dev.setImg (s : Dev) (r : Nat) (g : RangeImg) : Dev := s.setRange r { s.range r with img := some g }

/-- Counters and MACs of a line written with ciphertext `c` in a range (R299): only CTR_MAC has them. -/
def Dev.lineWritten (s : Dev) (r : Nat) (g : RangeImg) (a : Nat) (c : List Byte) : Dev :=
  let g1 := { g with written := Map.set (fun _ => false) g.written (a / 64) true }
  if g.mode = 2 then s.setImg r { g1 with macs := Map.set (fun _ => none) g1.macs (a / 64) (some (g1.lineMac a c)) } else s.setImg r g1

/-- What MCE_RANGE_STAT shows (R312): a disabled range has no mode and no key in effect. -/
def Dev.rangeStat (s : Dev) (r : Nat) : Word :=
  let x := s.range r
  let (mode, split) := match x.img with
    | some g => (g.mode, g.split)
    | none => (0, 0)
  let inEffect := if x.st = .disabled then 0 else 16 * mode + 64 * x.keyId
  BitVec.ofNat 32 (x.st.code + 4 * x.walking.isSome.toNat + 8 * x.poisonAll.toNat + inEffect + 65536 * split)

/-- What the select-indexed registers of the MCE block show (R312). -/
def Dev.mceView (s : Dev) (off : Nat) : Option Word :=
  let r := s.fld B.MCE F.MCE_RANGE_SEL_RANGE
  if off = O.MCE_RANGE_CFG then some (s.range r).cfg
  else if off = O.MCE_RANGE_META then some (s.range r).first
  else if off = O.MCE_RANGE_STAT then some (s.rangeStat r)
  else if off = O.MCE_KEY_STAT then
    let k := s.key (s.fld B.MCE F.MCE_KEY_SEL_ID % (if s.flag B.MCE F.MCE_KEY_SEL_LINK then 32 else 64) +
      (if s.flag B.MCE F.MCE_KEY_SEL_LINK then 64 else 0))
    some (BitVec.ofNat 32 (k.st.code + 65536 * k.gen))
  else if off = O.MCE_POISON_ENTRY then
    some (match Map.get (fun _ => none) s.mce.poison (s.fld B.MCE F.MCE_POISON_SEL_ENTRY) with
      | some e => BitVec.ofNat 32 (e.range + 16 * e.level + 64 + 256 * e.node)
      | none => 0)
  else none

/-- A fresh number of 256 bits from the generator (R433). -/
def Dev.draw (s : Dev) : BitVec 256 × Dev := (Config.drbg s.sec.draws, { s with sec := { s.sec with draws := s.sec.draws + 1 } })

/-- The wrapped key in MCE_WRAPn: its first n bytes (R289). -/
def Dev.wrapped (s : Dev) (n : Nat) : List Nat :=
  (((List.range 18).flatMap (fun k => leBytes 4 (s.reg B.MCE (O.MCE_WRAP k)).toNat)).take n).map (·.toNat)

/-- A key leaves FREE (R290): installed, generation counted. -/
def Dev.installKey (s : Dev) (k : Nat) (data mac : BitVec 256) : Dev :=
  s.setKey k { st := .active, gen := satAdd 16 (s.key k).gen 1, data, mac }

/-- KEY_GEN (R289, R290): BUSY while the generator is stopped (R434). -/
def Dev.keyGen (s : Dev) (link : Bool) (id : Nat) : Dev :=
  if link then s.finish B.MCE .format
  else if (s.key id).st ≠ .free then s.finish B.MCE .state
  else if !s.flag B.SEC F.SEC_RNG_STAT_RUN then s.finish B.MCE .busy
  else
    let (d, s1) := s.draw
    let (m, s2) := s1.draw
    (s2.installKey id d m).finish B.MCE .ok

/-- The key-wrapping key, where it stands (R431, R432). -/
def Dev.kwk (s : Dev) : Option (BitVec 256) := if s.sec.keysUp then s.sec.owner.map (·.kwk) else none

/-- KEY_UNWRAP (R289, R290): MCE_WRAPn is cleared whatever the status; without a key-wrapping key it is refused with STATE (R432). -/
def Dev.keyUnwrap (s : Dev) (link : Bool) (id : Nat) : Dev :=
  let k := if link then 64 + id else id
  let w := s.wrapped (if link then 40 else 72)
  let s1 := s.forN 18 (fun s n => s.setReg B.MCE (O.MCE_WRAP n) 0)
  if link && 32 ≤ id then s1.finish B.MCE .range
  else if (s.key k).st ≠ .free then s1.finish B.MCE .state
  else match s.kwk.map (fun kek => Aes.unwrap kek w) with
    | none => s1.finish B.MCE .state
    | some none => s1.finish B.MCE .auth
    | some (some b) =>
      let key (l : List Nat) : BitVec 256 := BitVec.ofNat 256 (ofLeBytes (toBytes l))
      (s1.installKey k (key (b.take 32)) (if link then 0 else key (b.drop 32))).finish B.MCE .ok

/-- KEY_RETIRE (R290, R291). -/
def Dev.keyRetire (s : Dev) (link : Bool) (id : Nat) : Dev :=
  let k := if link then 64 + id else id
  if link && 32 ≤ id then s.finish B.MCE .range
  else match (s.key k).st with
    | .active => (s.setKey k { s.key k with st := .retired }).finish B.MCE .ok
    | .retired => s.finish B.MCE .ok
    | _ => s.finish B.MCE .state

/-- Whether a range stands under a key ID: it is its key, or the one that a walk moves it to (R290, R308). -/
def RangeSt.under (x : RangeSt) (id : Nat) : Bool := x.st != .disabled && (x.keyId == id || x.walking == some id)

/-- KEY_ZEROISE (R290): every range under a retired ID is zeroised and DISABLED; an ID whose generation counter is full stays
RETIRED. -/
def Dev.keyZeroise (s : Dev) (link : Bool) (id : Nat) : Dev :=
  let k := if link then 64 + id else id
  if link && 32 ≤ id then s.finish B.MCE .range
  else if (s.key k).st ≠ .retired then s.finish B.MCE .state
  else
    let s1 := if link then s
      else s.forN 16 (fun s r => if (s.range r).under id then s.zeroiseRange r else s)
    if (s1.key k).gen = 0xFFFF then s1.finish B.MCE .exhausted
    else (s1.setKey k { gen := (s1.key k).gen }).finish B.MCE .ok

/-- MCE_KEY_CMD as written (R312). -/
def Dev.keyCmd (s : Dev) (w : Word) : Dev :=
  let link := nbit w.toNat 3
  let id := nfield w.toNat 4 6
  match w.toNat % 8 with
  | 0 => s
  | 1 => s.keyGen link id
  | 2 => s.keyUnwrap link id
  | 3 => s.keyRetire link id
  | 4 => s.keyZeroise link id
  | _ => s.finish B.MCE .format

/-- MCE_RANGE_CMD REKEY (R290, R306, R308). -/
def Dev.rekey (s : Dev) (r new : Nat) : Dev :=
  let x := s.range r
  match x.img with
  | none => s.finish B.MCE .state
  | some g =>
    let resume := x.walking.isSome
    let shared := (List.range 16).any (fun k => k != r && (s.range k).st == .enabled && (s.range k).keyId == x.keyId &&
      (s.range k).img.any (fun h => h.mode != 0))
    let old := (s.key x.keyId).st
    if x.st ≠ .enabled || g.mode = 0 || shared || s.declReaches g.lo g.hi || new = x.keyId ||
        (s.key new).st ≠ .active || (old ≠ .active && old ≠ .draining) ||
        (resume && x.walking ≠ some new) then s.finish B.MCE .state
    else if s.mce.walker.isSome || (!resume && old = .draining) then s.finish B.MCE .busy
    else
      let n := s.key new
      let s1 := s.setKey x.keyId { s.key x.keyId with st := .draining }
      let s2 := s1.setRange r { x with walking := some new, img := some { g with newData := n.data, newMac := n.mac } }
      { s2 with mce := { s2.mce with walker := some { range := r, newId := new, unit := g.split } } }

/-- MCE_RANGE_CMD ABORT (R308): the walk stops after the unit it works on; with no walk under way it is refused. -/
def Dev.rekeyAbort (s : Dev) (r : Nat) : Dev :=
  match s.mce.walker with
  | some w =>
    if w.range = r then { s with mce := { s.mce with walker := some { w with aborting := true } } }.finish B.MCE .ok
    else s.finish B.MCE .state
  | none => s.finish B.MCE .state

/-- MCE_RANGE_CMD as written (R312). -/
def Dev.rangeCmd (s : Dev) (w : Word) : Dev :=
  let r := s.fld B.MCE F.MCE_RANGE_SEL_RANGE
  match w.toNat % 8 with
  | 0 => s
  | 1 => s.rangeEnable r
  | 2 => s.rangeDisable r
  | 3 => s.rekey r (nfield w.toNat 4 6)
  | 4 => s.rekeyAbort r
  | _ => s.finish B.MCE .format

end Sys2Proof.Machine
end

