-- ==== Sys2Proof/Machine/Ext.lean ====
section
/-! DEFINITION. Machine/Ext.lean: the GDDR7 controllers: the line code, pieces and their service with the cipher in line, errors the
memory device reports, states, training, maintenance windows, the address map; and the cipher work that runs over whole pages
(R253 to R278, R298 to R308). -/

namespace Sys2Proof.Machine

/-- The check bytes of the poison line P (R262). -/
def poisonCheck : List Byte := [0x50, 0x4F, 0x49, 0x53]

/-- What a DMC finds in a stored line (R259, R262): its data with whether it was corrected, or an error with its kind code and
syndrome. -/
inductive LineFound where
  | data (b : List Byte) (corrected : Bool)
  | bad (kind synd : Nat)
  deriving DecidableEq, Repr

/-- Decodes a stored line under an ECC_MODE (R259); a line equal to P is poison (R262). -/
def decodeLine (mode : Nat) (b chk : List Byte) : LineFound :=
  if chk = poisonCheck && b.all (· == 0) then .bad 3 0xFFFFFFFF
  else if chk = rsCheck b then .data b false
  else
    let sym := b ++ chk
    match rsDecode mode sym with
    | .clean => .data b false
    | .fix es => .data ((es.foldl (fun (l : List Byte) (i, v) => l.set i (l.getD i 0 ^^^ BitVec.ofNat 8 v)) sym).take 64) true
    | .uncorr => .bad 1 ((rsSyndromes sym).foldr (fun x a => 256 * a + x) 0)

/-- A class U error of a DMC with its log entry (R264): kind, whether the request was a write. -/
def Dev.dmcError (s : Dev) (k evt kind addr synd : Nat) (write : Bool) : Dev :=
  let blk := B.DMC k
  let s1 := ((s.setReg blk O.DMC_ERR_ADDR_LO (BitVec.ofNat 32 addr)).setReg blk O.DMC_ERR_ADDR_HI (BitVec.ofNat 32 (addr / 2 ^ 32))).setReg
    blk O.DMC_ERR_SYND (BitVec.ofNat 32 synd)
  let s2 := ((s1.setFld blk F.DMC_ERR_INFO_KIND kind).setFlag blk F.DMC_ERR_INFO_WRITE write).count blk F.DMC_ERR_INFO_UNCORR_CNT
  s2.classU blk evt .uncorr addr 0 synd (s2.reg blk O.DMC_ERR_INFO).toNat

/-- A line joins those of its set in a metadata cache of `ways` ways (R277). Where the set is full, one of its lines makes room: which one is a
free value, as the spec names no replacement. -/
def cacheJoin (ways : Nat) (ls : List Nat) (l : Nat) (pick : Nat) : List Nat :=
  let set := ls.filter (fun x => x != l && Config.cacheSet x % 1024 == Config.cacheSet l % 1024)
  let rest := ls.filter (· != l)
  if ways = 0 then rest
  else if set.length < ways then l :: rest
  else l :: rest.filter (· != set.getD (pick % set.length) 0)

/-- Ways of a metadata cache that hold check bytes (R277). -/
def Dev.eccWays (s : Dev) (k : Nat) : Nat := s.fld (B.DMC k) F.MCACHE_CFG_ECC_WAYS

/-- The ways of a metadata cache have been divided anew (R277): where the division has changed, what the cache held is gone. -/
def Dev.cacheResized (s : Dev) (k ways : Nat) : Dev :=
  if s.eccWays k = ways then s else s.setDmc k { s.dmc k with eccLines := [], metaLines := [] }

/-- Every metadata cache is invalidated (R447). -/
def Dev.cachesEmpty (s : Dev) : Dev := s.forN 8 (fun s k => s.setDmc k { s.dmc k with eccLines := [], metaLines := [] })

/-- DMC `k` needs the check bytes of the line at `a` for a decode (R277): a miss is counted, and the line of check bytes is fetched; of a word
that the cache holds, a correctable error is class C, an uncorrectable one has the line fetched again, class C. -/
def Dev.checkFetch (s : Dev) (k a : Nat) (word : CacheWord) : Dev :=
  let d := s.dmc k
  let l := s.checksAt a / 64
  if d.eccLines.contains l then
    match word with
    | .good => s
    | .corrected => s.classC (B.DMC k)
    | .uncorr => (s.addFld (B.DMC k) F.MCACHE_CNT_REFETCH 1).classC (B.DMC k)
  else
    let (n, s1) := s.freeWord
    (s1.setDmc k { d with eccLines := cacheJoin (s.eccWays k) d.eccLines l n.toNat }).addFld (B.DMC k) F.MCACHE_CNT_ECC_MISS 1

/-- Reads, decodes and, in a protected range, decrypts and checks the line at `a` (R264, R284, R302). None: the line is uncorrectable and
logged, or its MAC fails, which ends in Quarantine. -/
def Dev.readLine (s : Dev) (k a : Nat) (write : Bool) : Dev × Option (List Byte) :=
  let prot := (s.rangeAt a).bind (fun r => (s.range r).img.map (fun g => (r, g)))
  let (raw, chk) := s.storedLine a
  match prot with
  | some (_, g) =>
    if !(Map.get (fun _ => false) g.written (a / 64)) then (s, some (List.replicate 64 0))
    else match decodeLine (s.fld (B.DMC k) F.DMC_CFG_ECC_MODE) raw chk with
      | .bad kind synd => (s.dmcError k 0 kind a synd write, none)
      | .data b fixed =>
        let s1 := if fixed then s.classC (B.DMC k) else s
        if g.mode = 2 && g.lineMac a b ≠ g.storedMac a then (s1.quarantine 0 a B.MCE 0, none)
        else (s1, some (g.crypt true a b))
  | none =>
    match decodeLine (s.fld (B.DMC k) F.DMC_CFG_ECC_MODE) raw chk with
    | .bad kind synd => (s.dmcError k 0 kind a synd write, none)
    | .data b fixed => (if fixed then s.classC (B.DMC k) else s, some b)

/-- Overlays the bytes `new` that start at address `b` on the bytes `old` that start at address `a`. -/
def overlay (a : Nat) (old : List Byte) (b : Nat) (new : List Byte) : List Byte :=
  (List.range old.length).map (fun i => if b ≤ a + i && a + i < b + new.length then new.getD (a + i - b) 0 else old.getD i 0)

/-- Addresses of the lines a byte range touches. -/
def linesOf (a len : Nat) : List Nat :=
  if len = 0 then [] else (List.range ((a + len - 1) / 64 - a / 64 + 1)).map (fun i => 64 * (a / 64 + i))

/-- Whether a pending write holds every byte of the line at `a` (R267). -/
def Piece.holds (p : Piece) (a : Nat) : Bool := decide (p.addr ≤ a) && decide (a + 64 ≤ p.addr + p.len)

/-- The bytes of a read piece line by line; a line with a pending write shows the write's data, and one that a pending write holds whole is not
read from the device (R267). -/
def Dev.readLines (s : Dev) (k : Nat) (pend : List Piece) : List Nat → Dev × Option Status × List Byte
  | [] => (s, none, [])
  | a :: rest =>
    let (s1, b) := if pend.any (fun p => p.holds a) then (s, some (List.replicate 64 0)) else s.readLine k a false
    match b with
    | none => (s1, some .uncorr, [])
    | some d =>
      let d1 := pend.foldl (fun d p => overlay a d p.addr p.data) d
      let (s2, st, more) := s1.readLines k pend rest
      (s2, st, d1 ++ more)

/-- Stores a line's ciphertext; an armed flip mask takes data bytes 0 to 7 after the check bytes are computed (R263). -/
def Dev.storeCipher (s : Dev) (k a : Nat) (c : List Byte) : Dev :=
  let (mask, s1) := s.takeFlip (B.DMC k)
  s1.storeLine a (List.zipWith (· ^^^ ·) (c.take 8) (leBytes 8 mask.toNat) ++ c.drop 8) (rsCheck c)

/-- Writes the poison line P (R262). -/
def Dev.storePoison (s : Dev) (a : Nat) : Dev :=
  let s1 := s.storeLine a (List.replicate 64 0) poisonCheck
  match s1.rangeAt a with
  | some r =>
    match (s1.range r).img with
    | some g => s1.setImg r { g with written := Map.set (fun _ => false) g.written (a / 64) true }
    | none => s1
  | none => s1

/-- Encrypts, where a range protects it, and stores the plain line at `a` (R284, R299). -/
def Dev.writeLine (s : Dev) (k a : Nat) (b : List Byte) : Dev :=
  match (s.rangeAt a).bind (fun r => (s.range r).img.map (fun g => (r, g))) with
  | none => s.storeCipher k a b
  | some (r, g) =>
    let p := g.page a
    let g1 := if g.mode = 2 then
        { g.bump p with ctrs := Map.set (fun _ => {}) g.ctrs p ((g.ctr p).setMinor (lineInPage a) ((g.ctr p).minor (lineInPage a) + 1)) }
      else g
    let c := g1.crypt false a b
    let s1 := if g.mode = 2 then s.rootWrite r p else s
    (s1.lineWritten r g1 a c).storeCipher k a c

/-- One line of a write piece (R261, R262): a word that arrived poisoned makes it P; a part of a line is merged; what an older pending write
carries is written with that one (R267). -/
def Dev.writePieceLine (k : Nat) (q : Piece) (acc : Dev × Option Status) (a : Nat) : Dev × Option Status :=
  let (s, st) := acc
  if s.mode = .quarantine then (s, st)
  else
    let full := q.holds a
    let hurt := q.poison.any (fun w => decide (q.addr + 8 * w < a + 64) && decide (a < q.addr + 8 * w + 8))
    let worse : Option Status := some (st.getD .uncorr)
    if q.carried.contains a then (s, if hurt then worse else st)
    else if hurt then (s.storePoison a, worse)
    else if full then (s.writeLine k a ((q.data.drop (a - q.addr)).take 64), st)
    else match s.readLine k a true with
      | (s1, none) => (s1, worse)
      | (s1, some old) => (s1.writeLine k a (overlay a old q.addr q.data), st)

/-- The cipher engine that serves a DMC. -/
def engineOf (k : Nat) : Nat := ([0, 0, 2, 2, 1, 1, 3, 3] : List Nat).getD k 0

/-- Whether a page is being re-encrypted (R299). -/
def Dev.reencrypting (s : Dev) (r page : Nat) : Bool :=
  s.mce.reencs.any (fun (_, x) => match x with | some y => y.range == r && y.page == page | none => false)

/-- A piece ends: its request is answered, from its DMC (R60). -/
def Dev.pieceEnd (s : Dev) (q : Piece) (st : Status) (data : List Byte := []) : Dev := s.respondFrom (s.dmcOf q.addr) q.msg.h st data

/-- A piece is refused with DENIED (R287): the range it reached was being written when it arrived. -/
def Dev.pieceDenied (s : Dev) (q : Piece) : Dev := (s.count B.MCE F.MCE_ERR_CNT_DENIED_CNT).pieceEnd q .denied

/-- Address of copy A of a duplicated line of a page (R295): kind 0 its counter block, 1 to 3 its node of that level, 4 its tag line. -/
def RangeImg.metaAddr (g : RangeImg) (kind page : Nat) : Nat :=
  let p := page % 16384
  let j := match kind with
    | 0 => p
    | 1 => 18432 + p / 8
    | 2 => 20480 + p / 64
    | 3 => 20736 + p / 512
    | _ => 16384 + p / 8
  g.metaBase * unit64 + (g.slot + page / 16384) * slotBytes + 0x800000 + j / 32 * 0x1000 + j % 32 * 64

/-- Address of the line of data MACs that holds the MAC of the line at `a` (R295). -/
def RangeImg.macAddr (g : RangeImg) (a : Nat) : Nat :=
  let off := a - g.lo
  g.metaBase * unit64 + (g.slot + off / unit64) * slotBytes + off % unit64 / 64 * 8 / 64 * 64

/-- The metadata lines that a piece needs (R298): counter block, levels 1 to 3, tag line, data MACs. -/
def RangeImg.metaLines (g : RangeImg) (a : Nat) : List Nat := (List.range 5).map (fun kind => g.metaAddr kind (g.page a)) ++ [g.macAddr a]

/-- Whether the cache of the DMC that holds a metadata line holds a copy of it (R298). -/
def Dev.metaCached (s : Dev) (l : Nat) : Bool := (s.dmc (s.dmcOf l)).metaLines.contains (l / 64)

/-- A verified metadata line is cached at the DMC that holds it (R277, R298). -/
def Dev.metaJoin (s : Dev) (l : Nat) : Dev :=
  let k := s.dmcOf l
  let d := s.dmc k
  let (n, s1) := s.freeWord
  s1.setDmc k { d with metaLines := cacheJoin (16 - s.eccWays k) d.metaLines (l / 64) n.toNat }

/-- Bank pair of a place in external memory (R260). -/
def Dev.bankPair (s : Dev) (a : Nat) : Nat := s.place a / 2 ^ 27

/-- Whether an engine may ask for one more line: a tag is free, and at most one of its reads is outstanding at the line's bank pair (R301). -/
def Dev.mayFetch (s : Dev) (e : Fin 4) (l : Nat) : Bool :=
  (s.freeTag (.engine e)).isSome &&
    decide ((s.net.outs.filter (fun o => o.src == .engine e && o.op == 7 && s.bankPair o.addr == s.bankPair l)).length < 2)

/-- An engine asks for the lines of a round, as far as it may (R298, R301). -/
def Dev.fetchAsk (f : FetchRound) : List Nat → Dev → Dev × FetchRound
  | [], s => (s, f)
  | l :: ls, s =>
    match s.mayFetch f.engine l, s.freeTag (.engine f.engine) with
    | true, some t =>
      Dev.fetchAsk { f with todo := f.todo.filter (· != l), wanted := f.wanted ++ [l] } ls
        (s.request { src := .engine f.engine, tag := t, op := 7, addr := l, len := 64, dst := s.destNode l })
    | _, _ => Dev.fetchAsk f ls s

/-- Every round asks for what it may. -/
def Dev.fetchPump (s : Dev) : Dev :=
  s.mce.rounds.foldl (fun s f =>
    let (s1, f1) := Dev.fetchAsk f f.todo s
    { s1 with mce := { s1.mce with rounds := s1.mce.rounds.map (fun x => if x = f then f1 else x) } }) s

/-- A metadata request of an engine has ended (R298, R301). -/
def Dev.fetched (s : Dev) (e : Fin 4) (l : Nat) : Dev :=
  ({ s with mce := { s.mce with rounds := s.mce.rounds.map (fun (f : FetchRound) => if f.engine = e then { f with wanted := f.wanted.erase l } else f) } }).fetchPump

/-- What a piece finds of the metadata it needs (R298): all of it verified, or a round of reads that is under way or starts now. -/
def Dev.metaReady (s : Dev) (k r : Nat) (g : RangeImg) (q : Piece) : Dev × Bool :=
  let miss := (g.metaLines q.addr).filter (fun l => !s.metaCached l)
  if q.verified || miss.isEmpty then (s, true)
  else if s.mce.rounds.any (fun f => f.range == r && f.page == g.page q.addr) then (s, false)
  else
    let f : FetchRound := { range := r, page := g.page q.addr, engine := Fin.ofNat 4 (engineOf k), lines := miss, todo := miss }
    ({ s with mce := { s.mce with rounds := s.mce.rounds ++ [f] } }.fetchPump, false)

/-- An engine writes the metadata lines that a write has changed through to both copies (R296, R298, R299), as far as it has tags. -/
def Dev.metaThrough (s : Dev) (k r a : Nat) : Dev :=
  match (s.range r).img with
  | none => s
  | some g =>
    let e : Fin 4 := Fin.ofNat 4 (engineOf k)
    let ls := (List.range 5).flatMap (fun kind => [g.metaAddr kind (g.page a), g.metaAddr kind (g.page a) + 0x800]) ++ [g.macAddr a]
    ls.foldl (fun s l =>
      match s.freeTag (.engine e) with
      | some t => s.request { src := .engine e, tag := t, op := 8, addr := l, len := 64, data := (g.metaLine l).getD [], dst := s.destNode l }
      | none => s) s

/-- Whether a write piece has a line to read and merge (R261). -/
def Piece.merges (q : Piece) : Bool := (linesOf q.addr q.len).any (fun a => !q.holds a && !q.carried.contains a)

/-- A write piece is written whole and answered (R261). -/
def Dev.writePiece (s : Dev) (k : Nat) (word : CacheWord) (q : Piece) : Dev :=
  let s0 := if q.merges then s.checkFetch k q.addr word else s
  let (s1, st) := (linesOf q.addr q.len).foldl (Dev.writePieceLine k q) (s0, none)
  if s1.mode = .quarantine then s1 else s1.pieceEnd q (st.getD .ok)

/-- A write piece meets the counters of its page (R299, R300): they are exhausted, the page is in need of a re-encryption, or it is
written. -/
def Dev.countedWrite (s : Dev) (k r : Nat) (word : CacheWord) (g : RangeImg) (q : Piece) : Dev × Bool :=
  let p := g.page q.addr
  let s1 := s.rootRead r p
  if s1.mode = .quarantine then (s1, true)
  else if s1.reencrypting r p then (s1, false)
  else
    let lines := linesOf q.addr q.len
    let full := lines.any (fun a => (g.ctr p).minor (lineInPage a) == 127)
    if (((s1.range r).img).getD g).saturated p lines.length || (full && (g.ctr p).major == 2 ^ 64 - 1) then
      ((s1.classU B.MCE 3 .exhausted q.addr).pieceEnd q .exhausted, true)
    else if full then
      if (Map.get (fun _ => none) s1.mce.reencs (engineOf k)).isSome then (s1, false)
      else
        let x : Reenc := { range := r, page := p, waits := some q }
        ({ s1 with mce := { s1.mce with reencs := Map.set (fun _ => none) s1.mce.reencs (engineOf k) (some x) } }, true)
    else ((s1.writePiece k word q).metaThrough k r q.addr, true)

/-- A write piece meets its range (R281, R287, R303): it is refused, meets poison, or is written. A piece that has to wait for its engine stays
in the queue. -/
def Dev.serveWrite (s : Dev) (k : Nat) (word : CacheWord) (q : Piece) : Dev × Bool :=
  match (s.rangeAt q.addr).bind (fun r => (s.range r).img.map (fun g => (r, g))) with
  | none => (s.writePiece k word q, true)
  | some (r, g) =>
    if (s.range r).st ≠ .enabled then (s, false)
    else if s.protDenied q.msg.h.src q.addr q.len then (s.pieceDenied q, true)
    else if g.mode ≠ 2 then (s.writePiece k word q, true)
    else if s.poisoned r (g.page q.addr) then ((s.poisonHit q.addr).pieceEnd q .integrity, true)
    else
      let (s1, ready) := s.metaReady k r g q
      if ready then s1.countedWrite k r word g q else (s1, false)

/-- The line of a piece that a report names: its first where the piece has no such line. -/
def Piece.lineAt (q : Piece) (i : Nat) : Nat :=
  let a := 64 * (q.addr / 64)
  if a + 64 * i < q.addr + q.len then a + 64 * i else a

/-- A read piece is served (R264, R267, R281, R287, R302, R303). -/
def Dev.serveRead (s : Dev) (k : Nat) (found : AccessFound) (pend : List Piece) (q : Piece) : Dev × Bool :=
  let go (s : Dev) : Dev × Bool :=
    let lines := linesOf q.addr q.len
    let sc := if lines.all (fun a => pend.any (fun p => p.holds a)) then s else s.checkFetch k q.addr found.word
    let s0 := if found.edc = 0 then sc else sc.classC (B.DMC k)
    if 2 ≤ found.edc then ((s0.dmcError k 0 4 (q.lineAt found.line.val) 0 false).pieceEnd q .uncorr, true)
    else
      let (s1, st, d) := s0.readLines k pend lines
      if s1.mode = .quarantine then (s1, true)
      else match st with
        | some x => (s1.pieceEnd q x, true)
        | none => (s1.pieceEnd q .ok ((d.drop (q.addr % 64)).take q.len), true)
  match (s.rangeAt q.addr).bind (fun r => (s.range r).img.map (fun g => (r, g))) with
  | none => go s
  | some (r, g) =>
    if (s.range r).st ≠ .enabled || (g.mode == 2 && s.reencrypting r (g.page q.addr)) then (s, false)
    else if s.protDenied q.msg.h.src q.addr q.len then (s.pieceDenied q, true)
    else if g.mode ≠ 2 then go s
    else if s.poisoned r (g.page q.addr) then ((s.poisonHit q.addr).pieceEnd q .integrity, true)
    else
      let (s1, ready) := s.metaReady k r g q
      if ready then go s1 else (s1, false)

/-- A metadata request is served at its DMC (R221, R298): the engine's own writes into a standing range are what the model computes. -/
def Dev.serveMeta (s : Dev) (q : Piece) : Dev :=
  let a := 64 * (q.addr / 64)
  if q.write then
    let mine := s.mce.ranges.any (fun (_, r) => match r.img with | some g => g.metaCovers a | none => false)
    let b := overlay a (s.storedLine a).1 q.addr q.data
    let s1 := if mine then s else s.storeLine a b (rsCheck b)
    s1.pieceEnd q .ok
  else s.pieceEnd q .ok (((s.storedLine a).1.drop (q.addr % 64)).take q.len)

/-- DMC_STATE.RD_Q shows the read pieces queued (R278). -/
def Dev.showRdq (s : Dev) (k : Nat) : Dev :=
  s.setFld (B.DMC k) F.DMC_STATE_RD_Q ((s.dmc k).pieces.filter (fun p => !p.write)).length

/-- A pending write's data and poisoned words once a later write to its bytes has replaced them (R267). -/
def Piece.replaced (x p : Piece) : Piece :=
  let inP (a : Nat) : Bool := decide (p.addr ≤ a) && decide (a < p.addr + p.len)
  let lost (w : Nat) : Bool := (List.range 8).all (fun i => inP (x.addr + 8 * w + i) || decide (x.len ≤ 8 * w + i))
  let bad (w : Nat) : Bool := p.poison.any (fun v => decide (p.addr + 8 * v < x.addr + 8 * w + 8) && decide (x.addr + 8 * w < p.addr + 8 * v + 8))
  { x with data := overlay x.addr x.data p.addr p.data,
           poison := (List.range ((x.len + 7) / 8)).filter (fun w => bad w || (x.poison.contains w && !lost w)) }

/-- Whether an older pending write carries the bytes that a later write has in the line at `a` (R267). -/
def Piece.carries (x p : Piece) (a : Nat) : Bool :=
  x.write && !x.carried.contains a && decide (x.addr ≤ max p.addr a) && decide (min (p.addr + p.len) (a + 64) ≤ x.addr + x.len)

/-- The grant of a DMC's arbiter hands its piece over (R265, R267): a second write to a line replaces the pending data in place. -/
def Dev.dmcTake (s : Dev) (k : Nat) : Dev :=
  match (s.arb k).grant with
  | none => s
  | some q =>
    let p0 := pieceOf q.msg
    let d := s.dmc k
    let p := if p0.write then { p0 with carried := (linesOf p0.addr p0.len).filter (fun a => d.pieces.any (fun x => x.carries p0 a)) } else p0
    let old := d.pieces.map (fun x => if x.write && p.write then x.replaced p else x)
    ((s.setArb k { s.arb k with grant := none, heldFor := 0 }).setDmc k { d with pieces := old ++ [p] }).showRdq k

/-- Bank of a piece within its DMC: {channel, bank group, bank} (R256). -/
def Dev.bankOf (s : Dev) (a : Nat) : Nat := s.place a / 2 ^ 26 % 64

/-- The piece that a bank serves next (R266): scheduled pieces in grant order, then best-effort pieces in grant order. -/
def Dev.nextPiece (s : Dev) (k bank : Nat) : Option Piece :=
  let here := (s.dmc k).pieces.filter (fun p => s.bankOf p.addr == bank)
  match here.find? (fun p => p.msg.h.sch) with
  | some p => some p
  | none => here.head?

/-- Removes the first entry equal to `x`. -/
def dropFirst {α : Type} [DecidableEq α] (x : α) : List α → List α
  | [] => []
  | y :: ys => if y = x then ys else y :: dropFirst x ys

/-- A piece has been served: it leaves the queue. -/
def Dev.pieceServed (s : Dev) (k : Nat) (q : Piece) : Dev :=
  let d := s.dmc k
  (s.setDmc k { d with pieces := dropFirst q d.pieces, recent := (q :: d.recent).take 64, retried := none }).showRdq k

/-- DMC_ACCESS: DMC `k` takes what its arbiter granted, then serves its metadata queue, else the next piece of a bank (R265, R266). A device in
self-refresh serves nothing. -/
def Dev.dmcAccess (s : Dev) (k bank : Nat) (found : AccessFound) : Dev :=
  let st := s.fld (B.DMC k) F.DMC_STATE_STATE
  if (st ≠ 2 && st ≠ 3) || (s.dmc k).selfRefresh then s
  else
    let s0 := if st = 2 then s.dmcTake k else s
    match (s0.dmc k).meta_ with
    | q :: rest => (s0.setDmc k { s0.dmc k with meta_ := rest }).serveMeta q
    | [] => match s0.nextPiece k bank with
      | none => s0
      | some q =>
        let rest := dropFirst q (s0.dmc k).pieces
        let (s1, taken) := if q.write then s0.serveWrite k found.word q else s0.serveRead k found (rest.filter (·.write)) q
        if taken then s1.pieceServed k q else s1

/-- An accepted write retires to the device (R267); a page re-encryption that it needs is done first. -/
def Dev.retirePiece (k : Nat) (s : Dev) (q : Piece) : Dev :=
  let (s1, taken) := s.serveWrite k .good { q with verified := true }
  if taken then (if (Map.get (fun _ => none) s1.mce.reencs (engineOf k)).isSome then s1 else s1.pieceServed k q) else s1

/-- Every write that a DMC has accepted retires before its device goes into self-refresh for a reset (R267, R268, R461). -/
def Dev.retireAll (s : Dev) : Dev :=
  s.forN 8 (fun s k =>
    if (s.dmc k).selfRefresh || s.fld (B.DMC k) F.DMC_STATE_STATE < 2 then s
    else
      let s1 := s.dmcTake k
      ((s1.dmc k).pieces.filter (·.write)).foldl (Dev.retirePiece k) s1)

/-- The response to a piece, wherever it is on its way between its DMC and its initiator's router, turns into one that carries UNCORR
(R264). -/
def amendMsg (q : Piece) (m : Msg) : Msg :=
  let h := q.msg.h
  if m.h.op = 4 && m.h.dst = h.src && m.h.tag = h.tag && m.h.stamp = h.stamp then mkResponse h .uncorr else m

/-- A piece served ends UNCORR after all (R264), where its response has not reached its initiator yet. -/
def Dev.amend (s : Dev) (q : Piece) : Dev :=
  let fix := amendMsg q
  { s with net := { s.net with
      issued := Map.modify (fun _ => []) s.net.issued (nodeRouter q.msg.h.dst) (fun l => l.map fix),
      crossing := Map.modify (fun _ => []) s.net.crossing (26120 + s.dmcOf q.addr) (fun l => l.map (fun x => (x.1, fix x.2))),
      delivered := s.net.delivered.map fix } }

/-- WRITE_CRC_REPORT: the device reports a mismatch in the write data of a line of the latest write served (R264): the line is written once
more; on a second report it is written as P and the write ends UNCORR. -/
def Dev.writeCrcReport (s : Dev) (k line : Nat) : Dev :=
  match (s.dmc k).recent.find? (·.write) with
  | none => s
  | some q =>
    let a := q.lineAt line
    if (s.dmc k).retried = some a then
      (((s.dmcError k 0 5 a 0 true).storePoison a).amend q).setDmc k { s.dmc k with retried := none }
    else (s.classC (B.DMC k)).setDmc k { s.dmc k with retried := some a }

/-- CA_ERR: the device reports a command/address error; the requests served in the 32 MCLK cycles before it, the latest `n`, end UNCORR;
one entry records the earliest (R264). Their writes stand committed, which the rule allows. -/
def Dev.caErr (s : Dev) (k n : Nat) : Dev :=
  let hit := (s.dmc k).recent.take n
  match hit.getLast? with
  | none => s
  | some q =>
    let s1 := s.dmcError k 1 2 q.addr 0 q.write
    (hit.foldl Dev.amend s1).setDmc k { s1.dmc k with recent := [] }

/-- PAGE_REENCRYPT: an engine has re-encrypted a page: MAJOR counts, every MINOR is 0, every line stands under the new counters; the write
that waited proceeds (R299). A line that cannot be read is written as P (DESIGN CHOICE, notes/assumptions/22.md). -/
def Dev.pageReencrypt (s : Dev) (e : Nat) : Dev :=
  match Map.get (fun _ => none) s.mce.reencs e with
  | none => s
  | some x =>
    let s0 := { s with mce := { s.mce with reencs := Map.erase s.mce.reencs e } }
    match (s0.range x.range).img with
    | none => s0
    | some g =>
      let first := g.lo + 4096 * x.page
      let as := ((List.range 64).map (fun i => first + 64 * i)).filter (fun a => Map.get (fun _ => false) g.written (a / 64))
      let (s1, plain) := as.foldl (fun (acc : Dev × List (Nat × Option (List Byte))) a =>
        let (s2, b) := acc.1.readLine (acc.1.dmcOf a) a false
        (s2, acc.2 ++ [(a, b)])) (s0, [])
      if s1.mode = .quarantine then s1
      else
        let g1 := { g with ctrs := Map.set (fun _ => {}) g.ctrs x.page { major := (g.ctr x.page).major + 1, minors := 0 } }
        let s2 := plain.foldl (fun (s : Dev) (a, b) =>
          match b with
          | none => s.storePoison a
          | some d =>
            match (s.range x.range).img with
            | some h => (s.lineWritten x.range h a (h.crypt false a d)).storeCipher (s.dmcOf a) a (h.crypt false a d)
            | none => s) (s1.setImg x.range g1)
        match x.waits with
        | some q => (s2.writePiece (s2.dmcOf q.addr) .good q).metaThrough (s2.dmcOf q.addr) x.range q.addr
        | none => s2

/-- One finding of a fetch (R302, R303). -/
def Dev.metaFinding (r page : Nat) (s : Dev) (f : MetaFound) : Dev :=
  match (s.range r).img with
  | none => s
  | some g =>
    let a := g.metaAddr f.kind.val page
    if f.a = .badMac || f.b = .badMac then s.quarantine 1 a B.MCE 0
    else if f.a = .uncorr && f.b = .uncorr then
      let l := if f.kind.val = 0 || f.kind.val = 4 then 1 else f.kind.val
      s.addPoison { range := r, level := l, node := page / 8 ^ l }
    else if f.a = .uncorr || f.b = .uncorr then (s.event B.MCE 0).classC B.MCE
    else s

/-- The pieces that waited for a page's metadata may go on (R298). -/
def Dev.metaGoes (s : Dev) (g : RangeImg) (page : Nat) : Dev :=
  s.forN 8 (fun s k =>
    let d := s.dmc k
    s.setDmc k { d with pieces := d.pieces.map (fun p => if g.covers p.addr && g.page p.addr == page then { p with verified := true } else p) })

/-- META_FETCH: a metadata fetch round for a page completes, its reads answered: the engine verifies from the root downward, and the lines are
cached (R298, R302). -/
def Dev.metaFetch (s : Dev) (r page : Nat) (found : List MetaFound) : Dev :=
  match (s.range r).img, s.mce.rounds.find? (fun f => f.range == r && f.page == page && f.todo.isEmpty && f.wanted.isEmpty) with
  | some g, some f =>
    let l3 := g.metaAddr 3 page
    let s1 := s.rootVerify r page (if f.lines.contains l3 then some l3 else none)
    if s1.mode = .quarantine then s1
    else
      let s2 := (found.filter (fun x => f.lines.contains (g.metaAddr x.kind.val page))).foldl (Dev.metaFinding r page) s1
      if s2.mode = .quarantine then s2
      else
        let s3 : Dev := { s2 with mce := { s2.mce with rounds := s2.mce.rounds.filter (· != f) } }
        (f.lines.foldl Dev.metaJoin s3).metaGoes g page
  | _, _ => s

/-- REKEY_UNIT: the walker converts the 2 MiB unit at its pointer (R307); after ABORT it stops there (R308). The counters of the unit, its own in
the root store among them, start again from zero under NEW (R300). -/
def Dev.rekeyUnit (s : Dev) : Dev :=
  match s.mce.walker with
  | none => s
  | some w =>
    match (s.range w.range).img with
    | none => s
    | some g =>
      if g.size * 32 ≤ w.unit then s
      else
        let sv := if g.mode = 2 then s.rootVerify w.range (512 * w.unit) (some (g.metaAddr 3 (512 * w.unit))) else s
        let inUnit (line : Nat) : Bool := line / 32768 == g.lo / 2097152 + w.unit
        let lost := (List.range 512).filter (fun p => g.mode == 2 && s.poisoned w.range (512 * w.unit + p))
        let isLost (a : Nat) : Bool := lost.contains (g.page a % 512)
        let lines := (g.written.filter (fun (l, _) => inUnit l)).map (fun (l, _) => 64 * l)
        let (s1, plain) := (lines.filter (fun a => !isLost a)).foldl (fun (acc : Dev × List (Nat × Option (List Byte))) a =>
          let (s2, b) := acc.1.readLine (acc.1.dmcOf a) a false
          (s2, acc.2 ++ [(a, b)])) (sv, [])
        if s1.mode = .quarantine then s1
        else
          let lowNode (k : Nat) : Bool :=
            let l := k % 8
            decide (1 ≤ l) && decide (l ≤ 3) && k / 8 / 8 ^ (3 - l) == w.unit
          let p0 := 512 * w.unit
          let nodes := Map.clear lowNode (((s1.range w.range).img.map (·.nodes)).getD g.nodes)
          let g1 : RangeImg := { g with
            split := w.unit + 1,
            nodes := if g.mode = 2 then Map.modify (fun _ => 0) nodes (8 * (p0 / 4096) + 4) (fun n =>
              BitVec.ofNat 448 (putField n.toNat (56 * (p0 / 512 % 8)) 56 0)) else g.nodes,
            ctrs := Map.clear (fun p => p / 512 == w.unit) g.ctrs,
            macs := Map.clear inUnit g.macs, written := Map.clear inUnit g.written }
          let s2 := plain.foldl (fun (s : Dev) (a, b) =>
            match b with
            | none => s.storePoison a
            | some d =>
              match (s.range w.range).img with
              | some h => (s.lineWritten w.range h a (h.crypt false a d)).storeCipher (s.dmcOf a) a (h.crypt false a d)
              | none => s) (s1.setImg w.range g1)
          let s3 := (if g.mode = 2 then s2.rootWrite w.range p0 else s2).addFld B.MCE F.MCE_ERR_CNT_LOST_CNT lost.length
          let s4 := s3.clearPoison (fun e => e.range == w.range && e.node * 8 ^ e.level / 512 == w.unit)
          let walker := if w.aborting && w.unit + 1 < g.size * 32 then none else some { w with unit := w.unit + 1 }
          { s4 with mce := { s4.mce with walker } }

/-- WALK_DONE: the flush of a walk that converted its last unit completes, every write-through answered (R307); the counters above
those of its units start again too (R300). -/
def Dev.walkDone (s : Dev) : Dev :=
  match s.mce.walker with
  | none => s
  | some w =>
    let x := s.range w.range
    match x.img with
    | none => s
    | some g =>
      let flushing := s.net.outs.any (fun o => (match o.src with | .engine _ => o.op == 8 | _ => false) && g.metaCovers o.addr)
      if w.unit < g.size * 32 || flushing then s
      else
        let s1 := (s.setRange w.range { x with
          keyId := w.newId, walking := none, poisonAll := false,
          img := some { g with dataKey := g.newData, macKey := g.newMac, split := 0, nodes := Map.clear (fun n => decide (5 ≤ n % 8)) g.nodes } }).forgetMeta g
        let s2 := s1.setKey x.keyId { s1.key x.keyId with st := .retired }
        ({ s2 with mce := { s2.mce with walker := none } }.event B.MCE 5).finish B.MCE .ok

/-- MCLK in MHz (R452). -/
def Dev.mclk (s : Dev) : Nat := 25 * s.fld B.CLK F.CLK_MCLK_CFG_ACTIVE

/-- T_line of a DMC in ps (R254, R269). -/
def Dev.tLine (s : Dev) (k : Nat) : Nat :=
  let thr := max 1 (min (4000 * s.fld (B.DMC k) F.DMC_CFG_RATE) (64 * s.mclk))
  ((256000000 + 500 * thr) + 100 * thr - 1) / (100 * thr) * 100

/-- The bound terms of a DMC and, from the largest of the eight, of the engines (R269, R301). -/
def Dev.showBounds (s : Dev) : Dev :=
  let s1 := s.forN 8 (fun s k =>
    let blk := B.DMC k
    let burst := s.fld blk F.DMC_TIMING0_TBURST
    let acc := s.fld blk F.DMC_TIMING0_TRC + s.fld blk F.DMC_TIMING0_TRCD + s.fld blk F.DMC_TIMING0_RL + burst
    (((s.setFld blk F.DMC_BOUND0_TLINE_PS (s.tLine k)).setFld blk F.DMC_BOUND1_TACC acc).setFld blk F.DMC_BOUND1_TREF
      (s.fld blk F.DMC_TIMING1_TRFCPB)).setFld blk F.DMC_BOUND1_TWACC (2 * burst))
  let accM := (List.range 8).foldl (fun m k => max m (s1.fld (B.DMC k) F.DMC_BOUND1_TACC)) 0
  let lineM := (List.range 8).foldl (fun m k => max m (s1.fld (B.DMC k) F.DMC_BOUND0_TLINE_PS)) 0
  (s1.setFld B.MCE F.MCE_BOUND0_TMETA (3 * accM)).setFld B.MCE F.MCE_BOUND0_TREENC
    ((2 * 3 * accM * 500 + 128 * lineM + 140000 + 499) / 500)

/-- Whether a pattern operation or a mode register write may start now, and what it is answered if not (R272). -/
def Dev.trainRefusal (s : Dev) (k : Nat) : Option Status :=
  let st := s.fld (B.DMC k) F.DMC_STATE_STATE
  let d := s.dmc k
  if st = 1 || st = 3 then
    if d.op.isSome || (st = 3 && (!d.pieces.isEmpty || !d.meta_.isEmpty)) then some .busy else none
  else some .state

/-- The compare buffer of a DMC (R275). -/
def Dev.cmpBuffer (s : Dev) (k : Nat) : List Byte := (List.range 16).flatMap (fun i => leBytes 4 (s.reg (B.DMC k) (O.DMC_CMP i)).toNat)

/-- Bits in which what a training FIFO was loaded with differs from the compare buffer (R275); none for a FIFO that was not loaded. -/
def Dev.fifoDiffers (s : Dev) (k ch : Nat) : List Nat :=
  match Map.get (fun _ => []) (s.dmc k).fifo ch with
  | [] => []
  | l => (List.range 512).filter (fun i => nbit (l.getD (i / 8) 0).toNat (i % 8) != nbit ((s.cmpBuffer k).getD (i / 8) 0).toNat (i % 8))

/-- The error counters of every lane clear as an operation starts (R275). -/
def DmcSt.lanesClear (d : DmcSt) : DmcSt :=
  { d with lanes := (List.range 56).foldl (fun m l => Map.modify (fun _ => {}) m l (fun x => { x with err := 0 })) d.lanes }

/-- DMC_TRAIN_CMD as written (R275): COUNT 0 completes at once. -/
def Dev.trainCmd (s : Dev) (k : Nat) (w : Word) : Dev :=
  let op := w.toNat % 4
  let ch := nfield w.toNat 2 2
  let n := nfield w.toNat 16 16
  if op = 0 then s
  else match s.trainRefusal k with
    | some st => s.finish (B.DMC k) st
    | none =>
      let d := (s.dmc k).lanesClear
      if n = 0 then ((s.setDmc k d).event (B.DMC k) 4).finish (B.DMC k) .ok
      else s.setDmc k { d with fifo := if op = 1 then Map.set (fun _ => []) d.fifo ch (s.cmpBuffer k) else d.fifo, op := some { op, ch, count := n } }

/-- The lanes a pattern operation counts in: DQ and EDC lanes of the channel for RD_FIFO, its CA lanes for CA_LOOP (R274, R275). -/
def PatternOp.counts (o : PatternOp) (lane : Nat) : Bool :=
  if o.op = 2 then (decide (lane < 32) && lane / 8 == o.ch) || lane == 32 + o.ch
  else if o.op = 3 then decide (36 ≤ lane) && decide (lane < 56) && (lane - 36) / 5 == o.ch
  else false

/-- The DQ lanes of a channel that miscompare in every repetition of RD_FIFO, since what the FIFO holds is not what the buffer holds (R275). -/
def Dev.fifoErrs (s : Dev) (k : Nat) (o : PatternOp) : List (Nat × Nat) :=
  if o.op ≠ 2 then []
  else
    let diff := s.fifoDiffers k o.ch
    ((List.range 8).filter (fun l => diff.any (fun i => Config.fifoLane i % 8 == l))).map (fun l => (8 * o.ch + l, o.count))

/-- TRAIN_DONE: the pattern operation of DMC `k` completes; `errs` lists for lanes in how many repetitions they miscompared for what the lines
did to the pattern (R275). -/
def Dev.trainDone (s : Dev) (k : Nat) (errs : List (Nat × Nat)) : Dev :=
  let d := s.dmc k
  match d.op with
  | none => s
  | some o =>
    let sure := s.fifoErrs k o
    let good := sure ++ errs.filter (fun (l, n) => o.counts l && decide (n ≤ o.count) && !sure.any (fun x => x.1 == l))
    let lanes := good.foldl (fun m (l, n) => Map.modify (fun _ => {}) m l (fun x => { x with err := satAdd 16 x.err n })) d.lanes
    ((s.setDmc k { d with op := none, lanes }).event (B.DMC k) 4).finish (B.DMC k) .ok

/-- DMC_MRW as written (R272, R278). -/
def Dev.mrw (s : Dev) (k : Nat) (w : Word) : Dev :=
  let n := w.toNat
  if !nbit n 31 then s
  else match s.trainRefusal k with
    | some st => s.finish (B.DMC k) st
    | none =>
      let chs := if nbit n 22 then [0, 1, 2, 3] else [nfield n 20 2]
      let d := s.dmc k
      (s.setDmc k { d with modeRegs := chs.foldl (fun m c => Map.set (fun _ => 0) m (256 * c + nfield n 12 8) (n % 4096)) d.modeRegs }).finish
        (B.DMC k) .ok

/-- Issue tides of a declaration from `first` on, `n` tides long: whether its span from issue to release meets them (R276). -/
def Decl.spans (d : Decl) (first n : Nat) : Bool :=
  d.period != 0 && d.size != 0 &&
    (List.range (min d.period (n + d.releaseOffset))).any (fun i =>
      (first + i + d.releaseOffset * d.period - d.releaseOffset) % d.period == d.phase)

/-- Whether a declaration has a piece at DMC `k` (R276). -/
def Dev.declAtDmc (s : Dev) (d : Decl) (k : Nat) : Bool :=
  (d.kind == 1 || d.kind == 2) && !d.remote && addrWin d.destAddr == some .ext &&
    (extPieces d.destAddr d.size).any (fun (off, _) => s.dmcOf (d.destAddr + off) == k)

/-- Whether a window of `n` tides from `first` on meets a declaration of the given manifest at DMC `k`. -/
def Dev.windowMeets (s : Dev) (ds : List Decl) (k first n : Nat) : Bool :=
  ds.any (fun d => s.declAtDmc d k && d.spans first n)

/-- A DMC's state changes; MAINT and ONLINE raise MAINT_ON and MAINT_OFF as windows start and end (R276). -/
def Dev.dmcState (s : Dev) (k st : Nat) : Dev := s.setFld (B.DMC k) F.DMC_STATE_STATE st

/-- A window starts: MAINT, MAINT_ON (R276). -/
def Dev.windowStart (s : Dev) (k left : Nat) (counts : Bool) : Dev :=
  ((((s.setDmc k { s.dmc k with window := .running false counts }).dmcState k 3).setFlag (B.DMC k) F.DMC_STATE_PENDING false).setFld
    (B.DMC k) F.DMC_STATE_MAINT_LEFT left).event (B.DMC k) 2

/-- A window ends or is cancelled: MAINT_OFF (R276). -/
def Dev.windowEnd (s : Dev) (k : Nat) : Dev :=
  let s1 := (((s.setDmc k { s.dmc k with window := .none }).setFlag (B.DMC k) F.DMC_STATE_PENDING false).setFld (B.DMC k)
    F.DMC_STATE_MAINT_LEFT 0).event (B.DMC k) 3
  if s.fld (B.DMC k) F.DMC_STATE_STATE = 3 then s1.dmcState k 2 else s1

/-- DMC_CMD MAINT (R272, R276). A window that is pending gives way to the one asked for. -/
def Dev.maint (s : Dev) (k n : Nat) : Dev :=
  let cur := s.tide.num
  let ahead := (s.fld (B.DMC k) F.DMC_MAINT_TIDE_TIDE + 2 ^ 32 - cur % 2 ^ 32) % 2 ^ 32
  if s.fld (B.DMC k) F.DMC_STATE_STATE ≠ 2 then s.finish (B.DMC k) .state
  else match s.mode with
    | .moored => (s.windowStart k 0 false).finish (B.DMC k) .ok
    | .underway =>
      if n = 0 || ahead < 2 || 2 ^ 31 ≤ ahead || s.windowMeets s.tide.decls k (cur + ahead) n then
        s.finish (B.DMC k) .state
      else
        ((s.setDmc k { s.dmc k with window := .pending (cur + ahead) n }).setFlag (B.DMC k) F.DMC_STATE_PENDING true).finish (B.DMC k) .ok
    | _ => s.finish (B.DMC k) .state

/-- DMC_CMD END (R272, R276): at the next turn where the window counts tides, at once otherwise. -/
def Dev.maintEnd (s : Dev) (k : Nat) : Dev :=
  match s.fld (B.DMC k) F.DMC_STATE_STATE, (s.dmc k).window with
  | 3, .running _ true => (s.setDmc k { s.dmc k with window := .running true true }).finish (B.DMC k) .ok
  | 3, _ => (s.windowEnd k).finish (B.DMC k) .ok
  | _, _ => s.finish (B.DMC k) .state

/-- START: the device is initialised and comes out of self-refresh; its refresh intervals begin (R268, R272). -/
def DmcSt.started (d : DmcSt) (now : Nat) : DmcSt :=
  { d with selfRefresh := false, refAt := (List.range 4).foldl (fun m ch => Map.set (fun _ => 0) m ch now) d.refAt }

/-- DMC_CMD as written (R272, R278). -/
def Dev.dmcCmd (s : Dev) (k : Nat) (w : Word) : Dev :=
  let blk := B.DMC k
  let st := s.fld blk F.DMC_STATE_STATE
  match w.toNat % 8 with
  | 0 => s
  | 1 => if st = 0 then ((s.setDmc k ((s.dmc k).started s.clk.time)).dmcState k 1).finish blk .ok else s.finish blk .state
  | 2 => if st = 1 then (s.dmcState k 2).finish blk .ok else if st = 2 then s.finish blk .ok else s.finish blk .state
  | 3 => s.maint k (nfield w.toNat 8 8)
  | 4 => s.maintEnd k
  | _ => s.finish blk .format

/-- Step 6 of a turn at the DMCs (R54, R276): the turn begins tide `t`. -/
def Dev.maintTurn (s : Dev) (t : Nat) : Dev :=
  s.forN 8 (fun s k =>
    match (s.dmc k).window with
    | .pending start n => if start = t then s.windowStart k n true else s
    | .running ends true =>
      let left := s.fld (B.DMC k) F.DMC_STATE_MAINT_LEFT - 1
      if ends || left = 0 then s.windowEnd k else s.setFld (B.DMC k) F.DMC_STATE_MAINT_LEFT left
    | _ => s)

/-- Tides stop (R276): a pending window is cancelled, a running one whose END waits ends, any other goes on as one of Moored. -/
def Dev.maintTidesStop (s : Dev) : Dev :=
  s.forN 8 (fun s k =>
    match (s.dmc k).window with
    | .pending _ _ => s.windowEnd k
    | .running true _ => s.windowEnd k
    | .running false true => s.setDmc k { s.dmc k with window := .running false false }
    | _ => s)

/-- An activation whose declarations meet a pending or running window cancels it (R276). The turn of the activation counts one tide of a running
window that counts tides, and ends one whose END waits, at its step 6; a window that counts none lasts for any tide to come. -/
def Dev.maintCancel (s : Dev) (ds : List Decl) : Dev :=
  s.forN 8 (fun s k =>
    match (s.dmc k).window with
    | .pending start n => if s.windowMeets ds k start n then s.windowEnd k else s
    | .running false true =>
      let left := s.fld (B.DMC k) F.DMC_STATE_MAINT_LEFT - 1
      if left ≠ 0 && s.windowMeets ds k s.tide.num left then s.windowEnd k else s
    | .running _ false => if ds.any (fun d => s.declAtDmc d k && d.period != 0 && d.size != 0) then s.windowEnd k else s
    | _ => s)

/-- Whether a staged mask is legal (R256): bit 8 + i, no other bit in [19:8], none in [7:0] and above bit 34. -/
def maskLegal (i m : Nat) : Bool := m % 2 ^ 20 == 2 ^ (8 + i) && m / 2 ^ 35 == 0

/-- APPLY: DMC_MAP_CMD as written (R257). -/
def Dev.mapApply (s : Dev) (w : Word) : Dev :=
  let blk := B.DMC 0
  if !nbit w.toNat 0 then s
  else if !(List.range 9).all (fun i => maskLegal i (maskOf s.ext.staged i)) then s.finish blk .format
  else if (List.range 8).any (fun k => 2 ≤ s.fld (B.DMC k) F.DMC_STATE_STATE) then s.finish blk .state
  else { s with ext := { s.ext with active := s.ext.staged } }.finish blk .ok

/-- A write of DMC_MAP_LO or DMC_MAP_HI: the staged mask that DMC_MAP_IDX names (R257). -/
def Dev.mapStage (s : Dev) (hi : Bool) (w : Word) : Dev :=
  let i := s.fld (B.DMC 0) F.DMC_MAP_IDX_IDX
  let m := maskOf s.ext.staged i
  let m1 := if hi then putField m 32 16 (w.toNat % 65536) else putField m 0 32 w.toNat
  { s with ext := { s.ext with staged := Map.set resetMask s.ext.staged i m1 } }

/-- DMC_LANE_SEL as written (R278). -/
def Dev.laneSel (s : Dev) (k : Nat) (w : Word) : Dev :=
  let l := w.toNat % 64
  let s1 := s.setReg (B.DMC k) O.DMC_LANE_SEL (BitVec.ofNat 32 l)
  if 56 ≤ l then s1.done (B.DMC k) .range else s1

/-- A write of DMC_LANE_CFG: the lane that DMC_LANE_SEL names; ignored and counted while the DMC is ONLINE (R273). -/
def Dev.laneCfg (s : Dev) (k : Nat) (w : Word) : Dev :=
  let l := s.fld (B.DMC k) F.DMC_LANE_SEL_LANE
  if s.fld (B.DMC k) F.DMC_STATE_STATE = 2 then s.refuse (B.DMC k)
  else if 56 ≤ l then s
  else s.setDmc k { s.dmc k with lanes := Map.modify (fun _ => {}) (s.dmc k).lanes l (fun x => { x with cfg := w &&& 0x7F7F7F7F }) }

/-- The bank refreshed after bank `b`: the even banks, then the odd ones, so that the two of a partner pair lie eight intervals apart
(R268). -/
def refreshNext (b : Nat) : Nat := if b = 14 then 1 else if b = 15 then 0 else b + 2

/-- Whether a device is powered and out of self-refresh (R268, R271). -/
def Dev.refreshes (s : Dev) (k : Nat) : Bool :=
  s.clk.mainPower && !(s.dmc k).selfRefresh && s.fld (B.DMC k) F.DMC_STATE_STATE != 0

/-- Whether the interval between refreshes, TREFIPB ns or half of it, has passed on a channel (R268). Times of the time clock are 2 ns. -/
def Dev.refreshDue (s : Dev) (k ch : Nat) : Bool :=
  decide (s.fld (B.DMC k) F.DMC_TIMING1_TREFIPB ≤
    (s.clk.time - Map.get (fun _ => 0) (s.dmc k).refAt ch) * (if s.flag (B.DMC k) F.DMC_TIMING1_REF_2X then 4 else 2))

/-- REFRESH: the per-bank refresh interval of a channel ends, and the next bank of its rotation is refreshed (R268). -/
def Dev.refresh (s : Dev) (k ch : Nat) : Dev :=
  let d := s.dmc k
  if !s.refreshes k || !s.refreshDue k ch then s
  else s.setDmc k { d with nextRef := Map.modify (fun _ => 0) d.nextRef ch refreshNext, refAt := Map.set (fun _ => 0) d.refAt ch s.clk.time }

/-- What the select-indexed registers of a DMC show (R278). -/
def Dev.dmcView (s : Dev) (k off : Nat) : Option Word :=
  let l := s.fld (B.DMC k) F.DMC_LANE_SEL_LANE
  let x := Map.get (fun _ => ({} : LaneSt)) (s.dmc k).lanes l
  let m := maskOf s.ext.staged (s.fld (B.DMC 0) F.DMC_MAP_IDX_IDX)
  if off = O.DMC_LANE_CFG then some (if 56 ≤ l then 0 else x.cfg)
  else if off = O.DMC_LANE_ERR then some (if 56 ≤ l then 0 else BitVec.ofNat 32 x.err)
  else if off = O.DMC_MAP_LO && k = 0 then some (BitVec.ofNat 32 m)
  else if off = O.DMC_MAP_HI && k = 0 then some (BitVec.ofNat 32 (m / 2 ^ 32))
  else none

end Sys2Proof.Machine
end

