-- ==== Sys2Proof/Machine/RegStore.lean ====
section
/-! DEFINITION. Machine/RegStore.lean: how a written word is stored in a register: by access code, leaving alone reserved bits,
locked fields, fields a write may not change and fields into which a reserved encoding was written (R4 to R9). -/

namespace Sys2Proof.Machine

/-- The MULT range of a settable clock (R453), by the offset of its CFG register. -/
def multRange (grade off : Nat) : Nat × Nat :=
  if off = O.CLK_TICK_CFG then (40, if grade = 3 then 120 else 100)
  else if off = O.CLK_HCLK_CFG then (20, 60)
  else (24, 80)

/-- Whether a lighter's CFG word holds a reserved encoding in the field at `lo` (R390's table of LGT_CFG). -/
def lgtBad (w lo : Nat) : Bool :=
  let mode := nfield w 0 2
  if lo = 0 then mode == 3
  else if lo = 4 then decide (nfield w 4 4 < 4) || decide (12 < nfield w 4 4)
  else if lo = 8 then decide (nfield w 8 4 < 11) || decide (14 < nfield w 8 4)
  else if lo = 13 then nbit w 13 && mode != 0
  else false

/-- Whether the limits of a THM_LIM word are out of the order of R485. -/
def limBad (w : Nat) : Bool :=
  let t (lo : Nat) : Int := (BitVec.ofNat 8 (nfield w lo 8)).toInt
  !(decide (-50 ≤ t 24) && decide (t 24 < t 16) && decide (t 16 < t 0) && decide (t 0 < t 8) && decide (t 8 ≤ 120))

/-- Whether the field at bit `lo` of register `off` would take a reserved encoding from word `w` (R6, and the register tables that
name reserved encodings). -/
def Dev.fieldBad (s : Dev) (blk off w lo : Nat) : Bool :=
  let v (f : Fld) : Nat := nfield w f.lo f.w
  let at_ (f : Fld) : Bool := off == f.off && lo == f.lo
  if off = O.BLK_FREEZE then decide (2 ≤ nfield w 0 2)
  else match blkKind blk with
    | some .tide => ((at_ F.TIDE_CTRL_MASTER || at_ F.TIDE_CTRL_FOLLOW) && nbit w 8 && nbit w 9) ||
        (at_ F.PSW_CTRL_WINDOW && v F.PSW_CTRL_WINDOW == 0) || (at_ F.BREACH_POLICY_POLICY && v F.BREACH_POLICY_POLICY == 3)
    | some .hold => (at_ F.HOLD_XFER_WINDOW_WINDOW && v F.HOLD_XFER_WINDOW_WINDOW == 0) ||
        (at_ F.ARB_CFG_HOLD_LIM && v F.ARB_CFG_HOLD_LIM == 0) || (at_ F.ARB_CFG_WIN && v F.ARB_CFG_WIN == 0)
    | some .hn => (at_ F.HN_SCH_WAIT_WLINK && v F.HN_SCH_WAIT_WLINK == 0) ||
        (List.range 8).any (fun n => at_ (F.HN_TO_TIMEOUT n) && v (F.HN_TO_TIMEOUT n) == 0)
    | some .dmc => (at_ F.ARB_CFG_HOLD_LIM && v F.ARB_CFG_HOLD_LIM == 0) || (at_ F.ARB_CFG_WIN && v F.ARB_CFG_WIN == 0) ||
        (at_ F.DMC_CFG_DENSITY && v F.DMC_CFG_DENSITY == 3) ||
        (at_ F.DMC_CFG_RATE && (decide (v F.DMC_CFG_RATE < 28) || decide (36 < v F.DMC_CFG_RATE))) ||
        (at_ F.DMC_CFG_ECC_MODE && v F.DMC_CFG_ECC_MODE == 3) ||
        (at_ F.DMC_TIMING1_TREFIPB && v F.DMC_TIMING1_TREFIPB == 0) ||
        (at_ F.DMC_MAP_IDX_IDX && decide (8 < v F.DMC_MAP_IDX_IDX)) ||
        (at_ F.MCACHE_CFG_ECC_WAYS && decide (16 < v F.MCACHE_CFG_ECC_WAYS))
    | some .mce => at_ F.MCE_RANGE_CFG_MODE && v F.MCE_RANGE_CFG_MODE == 3
    | some .wdg => at_ F.WDG_LOAD_LOAD && v F.WDG_LOAD_LOAD == 0
    | some .lgt =>
      let n := (off - O.LGT_CFG 0) / 0x20
      (off == O.LGT_CFG n && lgtBad w lo) ||
        (off == O.LGT_PROD n && lo == 0 && decide (2 ^ s.fld blk (F.LGT_CFG_RING_LOG2 n) ≤ nfield w 0 12))
    | some .eth => (at_ F.ST_PPS_CFG_WIDTH && (v F.ST_PPS_CFG_WIDTH == 0 || decide (500 < v F.ST_PPS_CFG_WIDTH))) ||
        (at_ F.ST_RATE_RATE && decide (4294967 < (BitVec.ofNat 32 w).toInt.natAbs))
    | some .sec => at_ F.SEC_MBOX_CTRL_LEN && decide (8192 < v F.SEC_MBOX_CTRL_LEN)
    | some .clk =>
      (decide (O.CLK_TICK_CFG ≤ off) && decide (off ≤ O.CLK_MCLK_CFG) && lo == 0 &&
        (decide (nfield w 0 8 < (multRange s.part.code.grade off).1) || decide ((multRange s.part.code.grade off).2 < nfield w 0 8))) ||
        (at_ F.CLKMON_CFG_SRC && decide (8 < v F.CLKMON_CFG_SRC))
    | some .pwr => at_ F.PWR_RAIL_SEL_RAIL && decide (8 ≤ v F.PWR_RAIL_SEL_RAIL)
    | some .thm => (at_ F.THM_CFG_MODEL_TOL && v F.THM_CFG_MODEL_TOL == 0) ||
        ((List.range 4).any (fun n => off == O.THM_LIM n) && limBad w)
    | some .dbg => at_ F.DBG_BP_CFG_EVT_BLOCK && (blkKind (v F.DBG_BP_CFG_EVT_BLOCK)).isNone
    | some .bist => at_ F.BIST_DD_SEL_KIND && v F.BIST_DD_SEL_KIND == 3
    | _ => false

/-- Whether a block's RWL fields are locked (R4, R8). -/
def Dev.locked (s : Dev) (blk : Nat) : Bool := s.flag blk F.BLK_CTRL_LOCK

/-- Whether a field can be stored by a write at all: FREEZE_MODE only where the freeze table lets it (R9, R514), BLK_OPT nowhere, for
no chapter defines options (R8). -/
def fieldOpen (blk off lo : Nat) : Bool :=
  if off = O.BLK_FREEZE then (match blkKind blk with | some k => k.freezeWritable | none => false)
  else !(off == O.BLK_CTRL && lo == 8)

/-- A write stores a register's fields by access code (R4); a reserved encoding leaves its field unchanged and counts once in
REFUSE_CNT (R6); a locked RWL field is left alone. -/
def Dev.storeReg (s : Dev) (blk off : Nat) (w : Word) : Dev :=
  match regFind blk off with
  | none => s
  | some d =>
    let n := w.toNat
    let old := (s.reg blk off).toNat
    let takes (f : FieldDef) : Bool := (f.acc == .rw || (f.acc == .rwl && !s.locked blk)) && fieldOpen blk off f.lo
    let bad (f : FieldDef) : Bool := takes f && s.fieldBad blk off n f.lo
    let new := d.fields.foldl (fun a f =>
      let v := nfield n f.lo f.w
      let o := nfield old f.lo f.w
      if takes f then (if bad f then a else putField a f.lo f.w v)
      else match f.acc with
        | .w1c => putField a f.lo f.w (o - Nat.land o v)
        | .w1s => putField a f.lo f.w (Nat.lor o v)
        | _ => a) old
    let s1 := s.setReg blk off (BitVec.ofNat 32 new)
    if d.fields.any bad then s1.refuse blk else s1

/-- The bits of a register that a masked write (R407) carries over from what it holds: those of its RW and RWL fields. -/
def plainMask (blk off : Nat) : Nat :=
  match regFind blk off with
  | none => 0
  | some d => d.fields.foldl (fun a f => if f.acc = .rw || f.acc = .rwl then a + (2 ^ f.w - 1) * 2 ^ f.lo else a) 0

/-- The RWL bits of a register. -/
def rwlMask (blk off : Nat) : Nat :=
  match regFind blk off with
  | none => 0
  | some d => d.fields.foldl (fun a f => if f.acc = .rwl then a + (2 ^ f.w - 1) * 2 ^ f.lo else a) 0

/-- The word that a masked write (R407) writes. -/
def Dev.maskedWord (s : Dev) (blk off : Nat) (value mask : Word) : Word :=
  ((s.reg blk off &&& ~~~mask) &&& BitVec.ofNat 32 (plainMask blk off)) ||| (value &&& mask)

end Sys2Proof.Machine
end

