-- ==== Sys2Proof/Machine/Tables.lean ====
section
/-! DEFINITION. Machine/Tables.lean: the tables that image records carry, as they take effect: tide tracks (R51), declarations
(R72), jetty slot tables (R351, R352), dry-dock slots (R521), use maps against the shoal map (R40, R405). -/

namespace Sys2Proof.Machine

/-- The little-endian 32-bit words of a record body. -/
def words32 : List Byte → List Nat
  | a :: b :: c :: d :: r => ofLeBytes [a, b, c, d] :: words32 r
  | _ => []

/-- A tide-track entry (R51). -/
def trackEntry (w : Nat) : TrackEntry := ⟨nfield w 0 3, nfield w 8 16 + 1⟩

/-- The TRACK record of an erg of an image. -/
def Image.trackOf (i : Image) (e : Nat) : TrackRec := (Map.get (fun _ => none) i.tracks e).getD ⟨0, []⟩

/-- The ergs of an image. -/
def Image.ergs (i : Image) : List Nat := (List.range 32).filter (nbit i.ergMask)

/-- The use map an image gives an erg. -/
def Image.useOf (i : Image) (e : Nat) : Nat := (Map.get (fun _ => none) i.useMaps e).getD 0

/-- The plane a track names at a tick offset (R51). -/
def planeIn : List TrackEntry → Nat → Option Nat
  | [], _ => none
  | x :: xs, n => if n < x.dwell then some x.plane else planeIn xs (n - x.dwell)

/-- The planes that a track's entries name. -/
def trackPlanes (t : List TrackEntry) : List Nat := (List.range 8).filter (fun p => t.any (fun x => x.plane == p))

/-- Plane switches per tide made by a track, wrap included (R170). -/
def trackSwitches (t : List TrackEntry) : Nat :=
  ((t.zip (t.drop 1 ++ t.take 1)).filter (fun (a, b) => a.plane != b.plane)).length

/-- A declaration from its 32 bytes (R72). -/
def declOf (n : Nat) : Decl :=
  { srcBerth := nfield n 0 9, kind := nfield n 16 8, destDev := nfield n 24 6, remote := nbit n 30, destAddr := nfield n 64 48,
    size := nfield n 128 32, period := nfield n 160 16, phase := nfield n 176 16, issueTick := nfield n 192 16,
    releaseOffset := nfield n 208 16, remoteTicks := nfield n 224 32 }

/-- A declaration moves data (R73). -/
def Decl.live (d : Decl) : Bool := d.size != 0 && d.period != 0

/-- The berth in whose release buffer a declaration's data lands on this device (R64); none where it lands in memory or on another
device. -/
def Decl.lands (d : Decl) : Option Nat :=
  if d.kind = 1 then some d.srcBerth
  else if d.kind = 0 && !d.remote then some (d.destAddr / 0x100000 % 512)
  else none

/-- A slot entry (R351). -/
def slotEntry (w : Nat) : SlotEntry := ⟨nfield w 0 16, nfield w 16 8 + 1, nfield w 24 8⟩

/-- A port block of a slot record (R352). -/
structure PortBlock where
  port : Nat
  skip : Bool
  rx : List Nat
  tx : List Nat
  deriving DecidableEq, Repr

/-- The port blocks of a slot record (R352). -/
def portBlocks : Nat → List Nat → List PortBlock
  | 0, _ => []
  | _, [] => []
  | fuel + 1, h :: ws =>
    let r := nfield h 8 5
    let t := nfield h 16 5
    { port := nfield h 0 8, skip := nbit h 24, rx := ws.take r, tx := (ws.drop r).take t } :: portBlocks fuel (ws.drop (r + t))

/-- The port blocks of an image. -/
def Image.blocks (i : Image) : List PortBlock :=
  match i.jetty with
  | some b => let ws := words32 b; portBlocks ws.length ws
  | none => []

/-- A dry-dock slot (R521). -/
def dockSlot (w0 w1 : Nat) : DockSlot :=
  ⟨nfield w0 0 16, nfield w0 16 16 + 1, nfield w1 0 5, nfield w1 5 2, nfield w1 8 8 + 1, nfield w1 16 8⟩

/-- The dry-dock slots that the words of a record after its header spell. -/
def dockSlots : List Nat → List DockSlot
  | a :: b :: r => dockSlot a b :: dockSlots r
  | _ => []

/-- The dry-dock slots of an image. -/
def Image.docks (i : Image) : List DockSlot :=
  match i.drydock with
  | some b => dockSlots ((words32 b).drop 1)
  | none => []

/-- Whether a slot with this period and phase is used in tide `t` (R351, R521). -/
def usedIn (period phase t : Nat) : Bool := t % period == phase

/-- Whether a shoal-map entry covers a resource that use map `m` of erg `e` names (R40, R405). -/
def shoalHits (m e : Nat) (x : ShoalEntry) : Bool :=
  let id := x.lo.toNat / 16 % 2 ^ 26
  let d := bDune id
  bErg id == e &&
  match x.lo.toNat % 16 with
  | 1 => nbit m d
  | 2 => decide (1536 ≤ bIndex id) && decide (bIndex id < 1568) && nbit m (1024 + 32 * d + (bIndex id - 1536))
  | 3 => nbit m (256 + d)
  | 4 => nbit m (256 + d) || nbit m (512 + d)
  | 5 => (isBerthDune d && nbit m (768 + (d - 128))) || (isJettyDune d && nbit m (784 + (d - 113) / 2))
  | 7 => nbit m (512 + d)
  | _ => false

/-- Whether the shoal map covers a resource an image names in erg `e` (R40). -/
def Dev.shoalCovers (s : Dev) (i : Image) (e : Nat) : Bool := s.stack.shoal.any (shoalHits (i.useOf e) e)

/-- Whether a use map lets its erg be placed in Slack (R405). -/
def maySleep (m : Nat) : Bool := nbit m 792

/-- Dunes of an erg that a DUNE_OUT entry takes out of service (R32). -/
def Dev.dunesOut (s : Dev) (e : Nat) : Nat := ((List.range 256).filter (s.outOf 1 e)).length

end Sys2Proof.Machine
end

