-- ==== Sys2Proof/Machine/Planes.lean ====
section
/-! DEFINITION. Machine/Planes.lean: plane slots, erg commands, fences, activations and Slack of an erg (R142 to R170, R32 to R34,
R163, R476, R477, R558), and how the image pipeline ends an image (R413 to R417). -/

namespace Sys2Proof.Machine

/-- A plane slot of an erg. -/
def Dev.slot (s : Dev) (e p : Nat) : SlotSt := Map.get (fun _ => {}) (s.erg e).slots p

/-- Puts a plane slot in a state. -/
def Dev.setSlot (s : Dev) (e p : Nat) (x : SlotSt) : Dev :=
  s.setErg e { s.erg e with slots := Map.set (fun _ => {}) (s.erg e).slots p x }

/-- Every dune-plane of a slot is null (R143). -/
def Dev.nullPlane (s : Dev) (e p : Nat) : Dev :=
  { s with fab := { s.fab with frames := Map.clear (fun k => k / 2048 == e && k % 8 == p) s.fab.frames } }

/-- A slot becomes FREE, its contents null or kept (R151). -/
def Dev.freeSlot (s : Dev) (e p : Nat) (null : Bool) : Dev :=
  let s1 := s.setSlot e p {}
  if null then s1.nullPlane e p else s1

/-- Applies a change to every slot of the device of which `t` holds. -/
def Dev.overSlots (s : Dev) (t : SlotSt → Bool) (f : Dev → Nat → Nat → Dev) : Dev :=
  s.forN 32 (fun s e => s.forN 8 (fun s p => if t (s.slot e p) then f s e p else s))

/-- The slots an image has claimed and that no turn has made LIVE become FREE and null (R151, R152). -/
def Dev.dropSlots (s : Dev) (h : Nat) : Dev :=
  if h = 0 then s
  else s.overSlots (fun x => x.owner == h && (x.st == .loading || x.st == .staged || x.st == .committed))
    (fun s e p => s.freeSlot e p true)

/-- CFG_RESULT records how an image ended (R414, R425). -/
def Dev.cfgResult (s : Dev) (st : Status) (stage record : Nat) : Dev :=
  s.setReg B.CFG O.CFG_RESULT (BitVec.ofNat 32 (st.code + 16 * stage + 256 * (record % 2 ^ 17) + 2 ^ 31))

/-- CFG_RESULT shows how an image stands that has not ended (R415). -/
def Dev.cfgShow (s : Dev) (st : Status) (stage : Nat) : Dev :=
  (((s.setFld B.CFG F.CFG_RESULT_STATUS st.code).setFld B.CFG F.CFG_RESULT_STAGE stage).setFld B.CFG F.CFG_RESULT_RECORD 0)

/-- The pipeline forgets the image in it and is IDLE; an owner whose transfer is under way is answered with `st` until it ends, else the
stream has no owner (R413, R416). -/
def Dev.cfgIdle (s : Dev) (st : Status) : Dev :=
  { s with cfg := { s.cfg with buf := [], expect := .header, header := [], digests := [], leaves := [], sigWait := none,
                               coming := {}, commit := none, slot := 0, written := [],
                               answer := if s.cfg.owner.isSome && s.cfg.moving then some st else none,
                               owner := if s.cfg.moving then s.cfg.owner else none } }.setReg B.CFG O.CFG_PIPE 0

/-- An image is refused: its slots are FREE and null, CFG_RESULT records it and REFUSED is raised (R416, R417). -/
def Dev.refuseImage (s : Dev) (st : Status) (stage : Nat) (record : Nat := 0) : Dev :=
  (((s.dropSlots s.cfg.coming.handle).cfgResult st stage record).cfgIdle st).event B.CFG 1

/-- The stage that an image in load has come to (R414). -/
def Dev.loadStage (s : Dev) : Nat :=
  match s.cfg.expect with
  | .header => if s.cfg.bytesIn = 0 then 1 else 2
  | .signature => 3
  | .digest | .leaf _ => 4
  | .record _ => if s.cfg.coming.frames.isEmpty then 5 else 6
  | .finished => 7

/-- State of the image pipeline (CFG_PIPE). -/
def Dev.pipe (s : Dev) : Nat := s.fld B.CFG F.CFG_PIPE_STATE

/-- A slot that an image owns is released: the image ends with STATE (R151, R416). -/
def Dev.imageReleased (s : Dev) : Dev :=
  match s.pipe with
  | 1 => s.refuseImage .state s.loadStage
  | 2 => s.refuseImage .state 7
  | 3 => s.refuseImage .state 8
  | _ => s

/-- The pending change of an erg; the fence that an exhausted bundle calls for counts (R33, R158). -/
def Dev.pendOf (s : Dev) (e : Nat) : ErgPend :=
  match (s.erg e).pend with
  | .none => if s.stack.fences.contains e && (s.erg e).mode == .running then .fence (s.tide.num + 1) else .none
  | p => p

/-- The turn, named by the tide it begins, at which a commit accepted now takes effect (R155, R162). -/
def Dev.commitTurn (s : Dev) : Nat :=
  if s.mode = .underway then (if s.tide.tick + 32 ≤ s.tideLen then s.tide.num + 1 else s.tide.num + 2) else s.tide.num

/-- The turn at which the pending change of an erg takes effect (R157). -/
def Dev.pendTurn (s : Dev) (e : Nat) : Option Nat :=
  match s.pendOf e, s.cfg.commit with
  | .fence t, _ => some t
  | .activation, some c => some c.due
  | .fenceThenAct, some c => some (if (s.erg e).mode = .running then c.first else c.due)
  | _, _ => none

/-- CHANGE_PENDING of an erg from now on (R155): its change is due at the coming turn. -/
def Dev.showChange (s : Dev) (e : Nat) : Dev :=
  let b := match s.pendTurn e with
    | some t => decide (t ≤ s.tide.num + 1)
    | none => false
  if (s.erg e).changePending = b then s else s.setErg e { s.erg e with changePending := b }

/-- What of an error pattern is left in the word that a decoder gives (R175, R530). -/
def flipLeft (x : BitVec 72) : BitVec 72 :=
  match secDecode (secSyndrome x) with
  | .bit i => x ^^^ BitVec.ofNat 72 (2 ^ i)
  | _ => x

/-- The configuration bits that a stored frame drives: each word is decoded as it is driven (R142, R530). -/
def FrameSt.driven (f : FrameSt) : Nat :=
  f.flips.foldl (fun a (k, x) => Nat.xor a (((flipLeft x).toNat % 2 ^ 64) * 2 ^ (64 * k))) f.bits

/-- The frames above an erg's dunes in the plane its latest tick ran, by dune. -/
def Dev.framesOf (s : Dev) (e p : Nat) : Map Nat :=
  (List.range 256).filterMap (fun d => (Map.get (fun _ => none) s.fab.frames (8 * (256 * e + d) + p)).map (fun f => (d, f.driven)))

/-- The caravan switch codes that stand above an erg from now on are those that its latest tick outside dry-dock slots left (R139, R476,
R523): the erg selects no plane any more. -/
def Dev.latchCodes (s : Dev) (e : Nat) : Dev := s.setErg e { s.erg e with lastPlane := none }

/-- The erg that issued a transfer, if this device did. -/
def Dev.issuer (s : Dev) (t : Transfer) : Option Nat :=
  if t.remote then none else if t.kind = 2 then some (t.berth / 16) else (s.tide.decls[t.decl]?).map (fun d => d.srcBerth / 16)

/-- What an erg has itself issued and that would land in it, and requests its gate holds, come to nothing (R55, R160): DEDUCED (log entry
113). -/
def Dev.dropLanding (s : Dev) (e : Nat) : Dev :=
  { s with tide := { s.tide with
      transfers := s.tide.transfers.filter (fun t => !(t.berth / 16 == e && t.kind != 2 && s.issuer t == some e)),
      gates := s.tide.gates.filterMap (fun (k, g) =>
        match g, s.tide.decls[k / 2]? with
        | .held _ _ _, some d => if d.srcBerth / 16 = e then some (k, .cancelled) else some (k, g)
        | _, _ => some (k, g)) } }

/-- A fence takes effect in a RUNNING erg (R139, R151, R158, R160): its LIVE slots are FREE with their contents, work in flight is
answered FENCED or discarded, FENCE_ON is raised. -/
def Dev.fenceErg (s : Dev) (e : Nat) : Dev :=
  if (s.erg e).mode ≠ .running then s
  else
    let s1 := ((s.ergDrop e .fenced).dropLanding e).latchCodes e
    let s2 := s1.forN 8 (fun s p => if (s.slot e p).st = .live then s.freeSlot e p false else s)
    (s2.setErg e { s2.erg e with mode := .fenced, track := [] }).event (B.ERG e) 4

/-- RECALLING slots are FREE and null after any turn (R151, R165). -/
def Dev.recallTurn (s : Dev) : Dev := s.overSlots (fun x => x.st == .recalling) (fun s e p => s.freeSlot e p true)

/-- Step 4 of R54 at the turn into tide `x`: fences take effect, those of exhausted bundles and those commanded. -/
def Dev.fencesTurn (s : Dev) (x : Nat) : Dev :=
  let lost := s.stack.fences
  let s1 := lost.foldl Dev.fenceErg s
  let s2 := s1.forN 32 (fun s e =>
    match (s.erg e).pend, s.cfg.commit with
    | .fence t, _ => if t ≤ x then (let s1 := s.fenceErg e; s1.setErg e { s1.erg e with pend := .none }) else s
    | .fenceThenAct, some c => if c.first ≤ x then s.fenceErg e else s
    | _, _ => s)
  { s2 with stack := { s2.stack with fences := [] } }.recallTurn

/-- The initial pairs and empty oasis blocks of the planes of an erg that are LIVE (R159, R163). -/
def Dev.initPlanes (s : Dev) (e : Nat) : Dev :=
  s.forN 8 (fun s p =>
    if (s.slot e p).st ≠ .live then s
    else
      let here (k : Nat) : Bool := k / 2048 == e && k % 8 == p
      let ffs := s.fab.frames.foldl (fun m (k, fr) => match fr with
        | some f => if here k then Map.set (fun _ => 0) m k (frameInit f.bits) else m
        | none => m) (Map.clear here s.fab.ffs)
      { s with fab := { s.fab with ffs, oasis := Map.clear here s.fab.oasis } })

/-- Each berth's credits as an activation sets them (R123). -/
def Dev.berthCredits (s : Dev) (e : Nat) : Dev :=
  s.forN 16 (fun s i => s.setBerth (16 * e + i) { s.berth (16 * e + i) with outCredits := 32, rqCredits := 16 })

/-- The slot tables an image gives the ports of an erg: empty ones for a port without a block (R352, R401). -/
def Dev.portTables (s : Dev) (i : Image) (e : Nat) : Dev :=
  s.forN 8 (fun s k =>
    let p := 8 * e + k
    match i.blocks.find? (fun b => b.port == p) with
    | some b => (s.setPort p { s.port p with rx := b.rx.map slotEntry, tx := b.tx.map slotEntry, skipMoor := b.skip, lastSlot := none }).rxOpen p
    | none => (s.setPort p { s.port p with rx := [], tx := [], skipMoor := false, lastSlot := none }).rxOpen p)

/-- The actions of R159 in one erg, in their order; work in flight is handled as R160 states. -/
def Dev.activateErg (s : Dev) (i : Image) (turn e : Nat) : Dev :=
  let was := (s.erg e).mode
  let s1 := if was = .running then s.ergDrop e .fenced else s
  let s2 := s1.forN 8 (fun s p => if (s.slot e p).st = .live then s.freeSlot e p false else s)
  let s3 := s2.forN 8 (fun s p =>
    let x := s.slot e p
    if x.st = .committed && x.owner = i.handle then s.setSlot e p { x with st := .live } else s)
  let track := (i.trackOf e).entries.map trackEntry
  let g := s3.erg e
  let s4 := s3.setErg e { g with
    mode := if track.isEmpty then .unscheduled else .running, pend := .none, track,
    fenceRec := (Map.get (fun _ => none) i.fences e).getD 0, held := [], kept := [], changePending := false,
    lastPlane := if track.isEmpty then none else some 8 }
  let s5 := ((s4.initPlanes e).portTables i e).berthCredits e
  let s6 := { s5 with bist := { s5.bist with
    slots := s5.bist.slots.filter (fun (d : DockSlot) => d.erg != e) ++ i.docks.filter (fun (d : DockSlot) => d.erg == e) } }
  ((s6.count (B.ERG e) F.ERG_SWITCH_ACT_CNT).setFld (B.ERG e) F.ERG_ACT_ACT_TIDE (turn % 65536)).event (B.ERG e) 3

/-- Whether a register may be written by a user image (R408). -/
def userMayWrite (mask blk off : Nat) : Bool :=
  let within (a b : Nat) : Bool := decide (a ≤ off) && decide (off ≤ b) && off % 4 == 0
  match blkKind blk with
  | some .dmc => within 0x400 0x408 || within 0x440 0x47C
  | some .hold => within 0x400 0x408 || within 0x440 0x47C || (blk == B.HOLD 0 && (off == 0x200 || off == 0x204))
  | some .hn => off == 0x104 || off == 0x10C || within 0x110 0x12C || within 0x200 0x27C
  | some .tide => off == 0x124 || off == 0x200 || off == 0x204
  | some .erg => off == 0x104 && nbit mask (blk - 0x30)
  | _ => false

/-- A register-write entry of an image (R407, R408): a locked field is left alone and counted. -/
def Dev.imageWrite (s : Dev) (r : RegEntry) : Dev :=
  let blk := r.off / blockBytes
  let off := r.off % blockBytes
  if s.locked blk && rwlMask blk off &&& r.mask.toNat != 0 then s.refuse blk
  else
    let s1 := s.storeReg blk off (s.maskedWord blk off r.value r.mask)
    if blk = B.HOLD 0 then s1.xferShow else s1

/-- The pending activation of every erg of an image ends. -/
def Dev.unpend (s : Dev) (i : Image) : Dev :=
  i.ergs.foldl (fun s e =>
    match (s.erg e).pend with
    | .activation | .fenceThenAct => s.setErg e { s.erg e with pend := .none, changePending := false }
    | _ => s) s

/-- A committed activation is cancelled (R161, R558): its COMMITTED slots are FREE and null, each erg raises ACT_CANCEL with the cause
`cause e` records, and the image is refused. -/
def Dev.cancelActivation (s : Dev) (cause : Nat → Nat) (st : Status) : Dev :=
  let i := s.cfg.coming
  let s1 := (s.dropSlots i.handle).unpend i
  let s2 := i.ergs.foldl (fun s e => (s.setFld (B.ERG e) F.ERG_ACT_CANCEL_CAUSE (cause e)).event (B.ERG e) 5) s1
  s2.refuseImage st 8

/-- Step 5 of R54 at the turn into tide `x`: the committed activation takes effect in every erg of its image, or is cancelled whole
(R159, R161). Then its register writes are applied (R408). -/
def Dev.activationTurn (s : Dev) (x : Nat) : Dev :=
  match s.cfg.commit with
  | none => s
  | some c =>
    let i := s.cfg.coming
    if s.pipe ≠ 4 || x < c.due then s
    else if i.ergs.any (s.shoalCovers i) || i.ergs.any (fun e => !(s.erg e).slack.runs) then
      let s1 := s.cancelActivation (fun e => if s.shoalCovers i e then 1 else 2) .range
      s1.setReg B.ADM O.ADM_RESULT (BitVec.ofNat 32 (Status.range.code + 16 * 0xA + 2 ^ 31))
    else
      let s1 := i.ergs.foldl (fun s e => s.activateErg i (if s.mode = .moored then s.tide.num else x) e) s
      let inErg (b : Nat) : Bool := nbit i.ergMask (b / 16)
      let decls := i.decls.map declOf
      let mine (t : Transfer) : Bool := inErg t.berth && (s1.issuer t).any (nbit i.ergMask)
      let transfers := s1.tide.transfers.filter (fun t =>
        t.kind == 2 || t.remote || (decls[t.decl]? == s1.tide.decls[t.decl]? && !mine t))
      let gates := s1.tide.gates.filter (fun g => match s1.tide.decls[g.1 / 2]? with
        | some d => !inErg d.srcBerth && decls[g.1 / 2]? == some d
        | none => false)
      let less (j : Image) : Image := { j with ergMask := j.ergMask - Nat.land j.ergMask i.ergMask }
      let live := i :: (s1.cfg.live.map less).filter (fun j => j.ergMask != 0)
      let s2 := { s1 with
        tide := { s1.tide with activated := true, decls, bounds := i.bounds, gates, transfers },
        cfg := { s1.cfg with live } }
      let s3 := match i.tideLen with
        | some l => s2.setFld B.TIDE F.TIDE_LEN_LEN l
        | none => s2
      let s4 := i.regs.foldl Dev.imageWrite (s3.maintCancel s3.tide.decls)
      (s4.cfgResult .ok 0 0).cfgIdle .range

/-- Whether an erg is in Slack, or due to enter it at the next turn, with the device or alone (R158): the next turn begins the halted tide in a
halt (R162). -/
def Dev.slackNext (s : Dev) (e : Nat) : Bool :=
  let next := if s.mode = .anchored then s.tide.num else s.tide.num + 1
  !(s.erg e).slack.runs || (match (s.erg e).slack with | .dueIn t => decide (t ≤ next) | _ => false) ||
    (match s.pwr.sleepAt with | some t => decide (t ≤ next) | none => false)

/-- Whether ACTIVATE is refused with STATE (R151, R156, R158, R162). -/
def Dev.commitRefused (s : Dev) (i : Image) : Bool :=
  let t := s.reg64 B.CFG O.CFG_ACT_TIDE_LO O.CFG_ACT_TIDE_HI
  let use_ := s.flag B.CFG F.CFG_ACT_CTRL_USE_TIDE
  let modeBad := match s.mode with
    | .moored => false
    | .underway => use_ && (decide (t ≤ s.tide.num) || (t == s.tide.num + 1 && decide (s.tideLen < s.tide.tick + 32)))
    | .anchored => use_ && decide (t < s.tide.num)
    | _ => true
  modeBad || i.ergs.any (fun e => s.pendOf e != .none || s.slackNext e) ||
    i.ergs.any (fun e => (trackPlanes ((i.trackOf e).entries.map trackEntry)).any (fun p =>
      (s.slot e p).st != .staged || (s.slot e p).owner != i.handle))

/-- The controller commits the STAGED image (R151, R155 to R157, R162, R415). A refused commit leaves it STAGED. In Moored steps 3 to 6
of R54 follow at once; nothing can wait for step 6 there. -/
def Dev.commitImage (s : Dev) : Status × Dev :=
  let i := s.cfg.coming
  if s.commitRefused i then (.state, s.cfgShow .state 8)
  else
    let moored := s.mode == .moored
    let named := s.flag B.CFG F.CFG_ACT_CTRL_USE_TIDE && !moored
    let first := if named then s.reg64 B.CFG O.CFG_ACT_TIDE_LO O.CFG_ACT_TIDE_HI else s.commitTurn
    let n := s.fld B.CFG F.CFG_ACT_CTRL_FENCE_TIDES
    let fenced := n != 0 && !moored && i.ergs.any (fun e => (s.erg e).mode == .running)
    let s1 := i.ergs.foldl (fun s e =>
      let s1 := s.forN 8 (fun s p =>
        let x := s.slot e p
        if x.st = .staged && x.owner = i.handle then s.setSlot e p { x with st := .committed } else s)
      s1.setErg e { s1.erg e with pend := if fenced && (s1.erg e).mode == .running then .fenceThenAct else .activation }) s
    let s2 := { s1 with cfg := { s1.cfg with commit := some ⟨first, if fenced then first + n else first, named⟩ } }.setFld B.CFG
      F.CFG_PIPE_STATE 4
    (.ok, if moored then ((s2.steerAll).fencesTurn s.tide.num).activationTurn first else s2)

/-- FENCE (R158, R162). -/
def Dev.fenceCmd (s : Dev) (e : Nat) : Dev :=
  let blk := B.ERG e
  let g := s.erg e
  if !(s.mode == .moored || s.mode == .underway || s.mode == .anchored) || s.slackNext e then s.finish blk .state
  else match g.mode, s.pendOf e with
    | .unscheduled, _ => s.finish blk .state
    | .fenced, .none => s.finish blk .ok
    | .running, .none =>
      let s1 := s.setErg e { g with pend := .fence s.commitTurn }
      (if s.mode = .moored then (((s1.steerAll).fencesTurn s.tide.num).activationTurn s.tide.num) else s1).finish blk .ok
    | .running, .fence _ => s.finish blk .ok
    | _, _ => s.finish blk .state

/-- Modes in which RELEASE, LEND and RECALL act (R162). -/
def Dev.planeMode (s : Dev) : Bool := s.mode == .moored || s.mode == .underway || s.mode == .anchored

/-- RELEASE of slot `p` (R151). -/
def Dev.releaseCmd (s : Dev) (e p : Nat) : Dev :=
  let blk := B.ERG e
  if !s.planeMode then s.finish blk .state
  else match (s.slot e p).st with
    | .free => s.finish blk .ok
    | .loading | .staged => s.imageReleased.finish blk .ok
    | _ => s.finish blk .state

/-- LEND of plane 7 (R151, R164). -/
def Dev.lendCmd (s : Dev) (e p : Nat) : Dev :=
  let blk := B.ERG e
  if p ≠ 7 then s.finish blk .range
  else if !s.planeMode then s.finish blk .state
  else match (s.slot e 7).st with
    | .free => (s.setSlot e 7 { st := .lent }).finish blk .ok
    | .lent => s.finish blk .ok
    | _ => s.finish blk .state

/-- Whether a dry-dock slot that covers erg `e` is in progress (R165, R521). -/
def Dev.inDock (s : Dev) (e : Nat) : Option DockSlot :=
  if s.mode ≠ .underway then none
  else s.bist.slots.find? (fun d => d.erg == e && usedIn d.period d.phase s.tide.num && decide (d.tick ≤ s.tide.tick) &&
    decide (s.tide.tick < d.tick + d.dwell))

/-- RECALL of plane 7 (R151, R165). -/
def Dev.recallCmd (s : Dev) (e p : Nat) : Dev :=
  let blk := B.ERG e
  if p ≠ 7 then s.finish blk .range
  else if !s.planeMode then s.finish blk .state
  else match (s.slot e 7).st with
    | .lent => (if (s.inDock e).isSome then s.setSlot e 7 { st := .recalling } else s.freeSlot e 7 true).finish blk .ok
    | .recalling => s.finish blk .ok
    | _ => s.finish blk .state

/-- ERG_PLANE_CMD (R150, R170): the host's commands; LOAD, SEAL and ACTIVATE are the controller's own. -/
def Dev.planeCmd (s : Dev) (e : Nat) (w : Word) : Dev :=
  let p := nfield w.toNat 4 3
  match nfield w.toNat 0 4 with
  | 0 => s
  | 1 => s.fenceCmd e
  | 2 => s.releaseCmd e p
  | 3 => s.lendCmd e p
  | 4 => s.recallCmd e p
  | 8 | 9 | 10 => s.finish (B.ERG e) .denied
  | _ => s.finish (B.ERG e) .format

/-- LOAD of every plane that a TRACK claims (R151, R152); none where a slot is not FREE. -/
def Dev.loadPlanes (s : Dev) (e mask h : Nat) : Option Dev :=
  let ps := (List.range 8).filter (nbit mask)
  if ps.all (fun p => (s.slot e p).st == .free) then
    some (ps.foldl (fun s p => s.setSlot e p { st := .loading, owner := h }) s)
  else none

/-- SEAL of every slot of the image in load: STAGED, unwritten dunes null (R151). -/
def Dev.sealPlanes (s : Dev) (h : Nat) : Dev :=
  s.overSlots (fun x => x.owner == h && x.st == .loading) (fun s e p =>
    let w := (s.slot e p).written
    let s1 := { s with fab := { s.fab with
      frames := Map.clear (fun k => k / 2048 == e && k % 8 == p && !w.contains (k / 8 % 256)) s.fab.frames } }
    s1.setSlot e p { st := .staged, owner := h })

/-- Hoists in flight at an erg's Slack entry turn are discarded where they would land after it (R182). -/
def Dev.hoistsDrop (s : Dev) (e : Nat) : Dev :=
  (s.hold.banks.map (·.1)).foldl (fun s b =>
    if b / 256 ≠ e then s
    else
      let k := s.bank b
      s.setBank b { k with cmds := k.cmds.filter (·.lower), landings := k.landings.filter (fun l => decide (l.due < s.tide.exec)) }) s

/-- Entry of an erg to Slack at a turn (R476): its fabric stops, row registers are lost, tags and notes discarded, served requests
answered STATE (R249). Emulated Slack keeps the row registers (R516). -/
def Dev.slackEnter (s : Dev) (e : Nat) (emu : Bool := false) : Dev :=
  if !(s.erg e).slack.runs then s
  else
    let s1 := ((s.ergDrop e .state).dropLanding e).latchCodes e
    let s2 := (s1.setErg e { s1.erg e with slack := .entering, wakeAsked := false }).hoistsDrop e
    if emu then s2
    else { s2 with fab := { s2.fab with
      rows := Map.clear (fun k => k / 512 == e) s2.fab.rows,
      epoch := Map.modify (fun _ => 0) s2.fab.epoch e (· + 1) } }

/-- An erg leaves Slack (R477): its banks begin to wake; the erg resumes with ERG_UP. -/
def Dev.slackExit (s : Dev) (e : Nat) : Dev :=
  if (s.erg e).slack ≠ .down then s
  else
    let s1 := s.setErg e { s.erg e with slack := .waking, wakeAsked := false }
    s1.forN 256 (fun s d =>
      let b := 256 * e + d
      if (s.bank b).power = .retention then s.setBank b { s.bank b with power := .waking } else s)

/-- Step 6 of R54 for the ergs, at the turn into tide `x`: those due enter Slack, those asked to wake leave it (R249, R475). -/
def Dev.slackTurn (s : Dev) (x : Nat) : Dev :=
  s.forN 32 (fun s e =>
    match (s.erg e).slack with
    | .dueIn t => if t ≤ x then s.slackEnter e s.emulated else s
    | .down => if (s.erg e).wakeAsked then s.slackExit e else s
    | _ => s)

/-- What becomes of fences and activations committed for later turns when tides have stopped (R558): one that names an ACT_TIDE not yet
reached is cancelled; the others take effect at once in Moored, and are held in Stand-down. -/
def Dev.commitsAtStop (s : Dev) : Dev :=
  let s1 := match s.cfg.commit with
    | some c => if s.pipe = 4 && c.named && s.tide.num < c.first then s.cancelActivation (fun _ => 3) .state else s
    | none => s
  if s1.mode ≠ .moored then s1
  else
    let far := s.tide.num + 2 ^ 17 + match s1.cfg.commit with | some c => c.due | none => 0
    ((s1.steerAll).fencesTurn far).activationTurn far

/-- The switch monitor's count over its window (R169). -/
def Dev.pswCount (s : Dev) : Nat :=
  min ((s.psw.take (s.fld B.TIDE F.PSW_CTRL_WINDOW)).foldl (· + ·) 0) 0xFFFFFF

/-- The switch monitor shows its count; a rise above PSW_LIMIT raises PSW_OVER, bit 5 of TIDE (R169). -/
def Dev.pswShow (s : Dev) : Dev :=
  let was := s.fld B.TIDE F.PSW_NOW_COUNT
  let now := s.pswCount
  let lim := s.fld B.TIDE F.PSW_LIMIT_LIMIT
  let s1 := (s.setFld B.TIDE F.PSW_NOW_COUNT now).setFld B.TIDE F.PSW_MAX_MAX (max (s.fld B.TIDE F.PSW_MAX_MAX) now)
  if was ≤ lim && lim < now then (s1.count B.TIDE F.PSW_MAX_OVER_CNT).event B.TIDE 5 else s1

/-- A tick passes at the switch monitor, in which `n` dunes switched (R169). -/
def Dev.pswTick (s : Dev) (n : Nat) : Dev := { s with psw := trimZeros ((n :: s.psw).take 65535) }.pswShow

/-- PSW_MAX_READ: the largest count is returned and cleared (R170). -/
def Dev.pswMaxRead (s : Dev) : Dev := s.setFld B.TIDE F.PSW_MAX_MAX 0

/-- The plane an erg selects in the tick at hand: that of its active track, or in a dry-dock slot plane 7 where it is LENT, else none,
shown as 9 (R44, R523). -/
def Dev.planeNow (s : Dev) (e : Nat) : Option Nat :=
  if s.mode ≠ .underway || !s.ergRuns e then none
  else match s.inDock e with
    | some _ => if (s.slot e 7).st = .lent then some 7 else some 9
    | none => planeIn (s.erg e).track s.tide.tick

/-- What the plane registers of an erg show (R141, R170). -/
def Dev.planeView (s : Dev) (e off : Nat) : Option Word :=
  let g := s.erg e
  if off = O.ERG_STATUS then
    some (BitVec.ofNat 32 (((if g.mode = .running then planeIn g.track s.tide.tick else none).getD 0) + 8 * (!g.track.isEmpty).toNat +
      16 * (g.mode == .fenced).toNat + 32 * (s.pendOf e != .none).toNat + 64 * (!g.slack.runs).toNat + 65536 * g.track.length))
  else if off = O.ERG_PLANE_STATE then
    some (BitVec.ofNat 32 ((List.range 8).foldl (fun a p => a + (s.slot e p).st.code * 16 ^ p) 0))
  else if off = O.ERG_PLANE_OWNER_LO then
    some (BitVec.ofNat 32 ((List.range 4).foldl (fun a p => a + (s.slot e p).owner * 256 ^ p) 0))
  else if off = O.ERG_PLANE_OWNER_HI then
    some (BitVec.ofNat 32 ((List.range 4).foldl (fun a p => a + (s.slot e (p + 4)).owner * 256 ^ p) 0))
  else if off = O.ERG_ACT then
    let c := match s.cfg.commit with | some c => c | none => ⟨0, 0, false⟩
    let (p, left) := match s.pendOf e with
      | .none => (0, 0)
      | .activation => (1, 0)
      | .fence _ => (2, 0)
      | .fenceThenAct => (3, c.due - max c.first s.tide.num)
    some (BitVec.ofNat 32 (p + 4 * min left 15 + 256 * s.fld (B.ERG e) F.ERG_ACT_CANCEL_CAUSE +
      65536 * s.fld (B.ERG e) F.ERG_ACT_ACT_TIDE))
  else if off = O.ERG_SWITCH then
    some (BitVec.ofNat 32 (trackSwitches g.track + 65536 * s.fld (B.ERG e) F.ERG_SWITCH_ACT_CNT))
  else none

end Sys2Proof.Machine
end

