-- ==== Sys2Proof/Machine/Berth.lean ====
section
/-! DEFINITION. Machine/Berth.lean: berths: what the fabric presents and what the router answers and presents (R121 to R131), and the
schedule gate with the transfers it sends (R64 to R69). -/

namespace Sys2Proof.Machine

/-- The header beat of a berth message (R122). -/
structure BHdr where
  op : Nat
  tag : Nat := 0
  status : Nat := 0
  decl : Nat := 0
  addr : Nat := 0
  dev : Nat := 0
  remote : Bool := false
  len : Nat := 0
  context : Nat := 0
  deriving DecidableEq, Repr

/-- The header that a beat spells (R122). -/
def BHdr.dec (b : BitVec 256) : BHdr :=
  let n := b.toNat
  { op := nfield n 0 4, tag := nfield n 4 3, status := nfield n 8 4, decl := nfield n 16 13, addr := nfield n 32 48,
    dev := nfield n 80 6, remote := nbit n 86, len := nfield n 96 17, context := nfield n 128 32 }

/-- The header beat of a header (R122). -/
def BHdr.enc (h : BHdr) : BitVec 256 :=
  BitVec.ofNat 256 (h.op % 16 + 2 ^ 4 * (h.tag % 8) + 2 ^ 8 * (h.status % 16) + 2 ^ 16 * (h.decl % 8192) + 2 ^ 32 * (h.addr % 2 ^ 48) +
    2 ^ 80 * (h.dev % 64) + 2 ^ 86 * h.remote.toNat + 2 ^ 96 * (h.len % 2 ^ 17) + 2 ^ 128 * (h.context % 2 ^ 32))

/-- Whether a header beat is well formed (R122): no reserved OP, no reserved bit, no field that its OP does not use. An ACQUIRE
carries its lease in bits [143:128] (R238). -/
def bhdrClean (b : BitVec 256) : Bool :=
  let n := b.toNat
  let h := BHdr.dec b
  let free := nbit n 7 || nfield n 12 4 != 0 || nfield n 29 3 != 0 || nfield n 87 9 != 0 || nfield n 113 15 != 0 || nfield n 160 96 != 0
  let place := h.addr != 0 || h.dev != 0 || h.remote
  !free && decide (1 ≤ h.op) && decide (h.op ≤ 6) &&
    (h.op == 4 || h.status == 0) && (h.op == 3 || h.decl == 0) && (h.op == 4 || h.op == 5 || h.context == 0) &&
    (!(h.op == 3 || h.op == 4) || !place) && (!(h.op == 5 || h.op == 6) || h.len == 0) &&
    (h.op != 4 || h.tag == 0) && (h.op != 5 || h.context / 65536 == 0)

/-- Beats of 32 bytes, the last padded with zeros. -/
def beatsOf : Nat → List Byte → List (BitVec 256)
  | 0, _ => []
  | _, [] => []
  | fuel + 1, bs => BitVec.ofNat 256 (ofLeBytes (bs.take 32)) :: beatsOf fuel (bs.drop 32)

/-- The data beats of some bytes. -/
def dataBeats (bs : List Byte) : List (BitVec 256) := beatsOf bs.length bs

/-- The first `len` bytes that beats carry. -/
def beatBytes (len : Nat) (bs : List (BitVec 256)) : List Byte := (bs.flatMap (fun b => leBytes 32 b.toNat)).take len

/-- A message for a berth's I path enters the queue towards TICK (R59, R60): it takes its place by its stamp, behind a message that has
begun. -/
def Dev.berthQueue (s : Dev) (b stamp src : Nat) (beats : List (BitVec 256)) : Dev :=
  let x := s.berth b
  let before (m : IMsg) : Bool := m.started || (match m.stamp with
    | some t => decide (t ≤ stamp)
    | none => true)
  let inq := x.inq.takeWhile before ++ { src, beats, stamp := some stamp } :: x.inq.dropWhile before
  (s.setBerth b { x with inq }).xingPush (16896 + b) stamp 8 (.message b)

/-- The RESPONSE that a berth sees on one of its tags (R125): it joins the messages to be presented. `later`: ticks until the router
gives it. -/
def Dev.berthAnswer (s : Dev) (b tag : Nat) (st : Status) (data : List Byte := []) (later : Nat := 0) : Dev :=
  let d := if st = .ok then data else []
  s.berthQueue b (s.tide.count + later) 0 (BHdr.enc { op := 4, tag, status := st.code, len := d.length } :: dataBeats d)

/-- A berth interface fault, class U (R126, R141): fault entry with the status of the answer, ERG_FAULT, PROTO_CNT and IFACE_FAULT, bit 0
of ERG. -/
def Dev.berthFault (s : Dev) (b kind tag : Nat) (st : Status := .ok) : Dev :=
  let e := b / 16
  let s1 := s.setBerth b { s.berth b with proto := satAdd 16 (s.berth b).proto 1 }
  let w := BitVec.ofNat 32 (kind + 16 * (b % 16) + 256 * (tag % 8))
  (s1.setReg (B.ERG e) O.ERG_FAULT w).classU (B.ERG e) 0 st b 0 0 w.toNat

/-- The router answers what it finds in a message that a berth presents once the message has crossed to it, 8 ticks later (R60, R126). -/
def Dev.berthReply (s : Dev) (b tag : Nat) (st : Status) : Dev := s.berthAnswer b tag st [] 8

/-- A faulty message is answered on its tag (R126). -/
def Dev.berthRefuse (s : Dev) (b kind tag : Nat) (st : Status) : Dev := (s.berthFault b kind tag st).berthReply b tag st

/-- The message's beats take their credits, one each, while I_CREDIT returns some (R123); a beat without one is dropped. -/
def Dev.takeCredits (s : Dev) (b : Nat) (m : BMsg) : Dev × Bool :=
  let n := 1 + m.beats.length
  let have_ := (s.berth b).outCredits + min m.returned n
  (s.setBerth b { s.berth b with outCredits := min 32 (have_ - n) }, decide (have_ < n))

/-- A tag becomes busy (R125). -/
def Dev.busyTag (s : Dev) (b tag : Nat) : Dev :=
  s.setBerth b { s.berth b with tags := (s.berth b).tags ++ [(tag, s.ns % 2 ^ 32)] }

/-- Whether the berth's erg runs a fabric that can present anything and be presented to: RUNNING, out of Slack, tides under way, no dry-dock
slot in progress (R523) and the berth's path in service (R32). -/
def Dev.berthLive (s : Dev) (b : Nat) : Bool :=
  s.mode == .underway && s.ergRuns (b / 16) && (s.inDock (b / 16)).isNone && !s.berthPathOut b

/-- What every message on a berth's O path goes through first (R126): a beat without a credit, a busy tag, the header's format. `run`
takes the message on. -/
def Dev.berthCheck (s : Dev) (b : Nat) (m : BMsg) (lost : Bool) (ops : List Nat) (run : Dev → BHdr → Dev) : Dev :=
  let h := BHdr.dec m.hdr
  if (s.berth b).tags.any (fun t => t.1 == h.tag) then s.berthFault b (if lost then 3 else 2) h.tag
  else if lost then (s.busyTag b h.tag).berthRefuse b 3 h.tag .format
  else if !bhdrClean m.hdr || !ops.contains h.op then (s.busyTag b h.tag).berthRefuse b 1 h.tag .format
  else run (s.busyTag b h.tag) h

/-- A message that a berth presents as one command: its beats take their credits, then the router takes it (R123, R126). -/
def Dev.berthSays (s : Dev) (b : Nat) (m : BMsg) (take : Dev → Bool → Dev) : Dev :=
  if !s.berthLive b then s
  else
    let (s1, lost) := s.takeCredits b m
    take s1 lost

/-- The device a berth's header names: none where REMOTE names this device or one beyond the mesh (R216). -/
def Dev.berthDev (s : Dev) (h : BHdr) : Option Nat :=
  if !h.remote then some s.coord
  else if h.dev = s.coord || s.fld B.HN F.HN_ID_MAXX < h.dev % 8 || s.fld B.HN F.HN_ID_MAXY < h.dev / 8 then none
  else some h.dev

/-- A best-effort request of a berth leaves for the network, or is refused by its interface (R216). -/
def Dev.berthRequest (s : Dev) (b : Nat) (h : BHdr) (op : Nat) (data : List Byte) (lease : Nat := 0) : Dev :=
  match s.berthDev h with
  | none => s.berthReply b h.tag .range
  | some d =>
    if addrBad h.addr h.len then s.berthReply b h.tag .range
    else s.request { src := .berth (Fin.ofNat 512 b), tag := h.tag, op, addr := h.addr, len := h.len, data,
                     dst := s.destNode h.addr / 64 * 64 + d, lease }

/-- A READ message (R126). -/
def Dev.hearRead (s : Dev) (b : Nat) (m : BMsg) (lost : Bool) : Dev :=
  s.berthCheck b m lost [1] (fun s h =>
    if !m.beats.isEmpty || !m.closed then s.berthRefuse b 4 h.tag .format
    else if 4096 < h.len then s.berthRefuse b 7 h.tag .range
    else if h.len = 0 then s.berthReply b h.tag .ok
    else s.berthRequest b h 1 [])

/-- A WRITE message (R126). -/
def Dev.hearWrite (s : Dev) (b : Nat) (m : BMsg) (lost : Bool) : Dev :=
  s.berthCheck b m lost [2] (fun s h =>
    if m.beats.length ≠ (h.len + 31) / 32 || !m.closed then s.berthRefuse b 4 h.tag .format
    else if 4096 < h.len then s.berthRefuse b 7 h.tag .range
    else if h.len = 0 then s.berthReply b h.tag .ok
    else s.berthRequest b h 2 (beatBytes h.len m.beats))

/-- An ACQUIRE message (R238): the lease stands in bits [143:128]. -/
def Dev.hearAcquire (s : Dev) (b : Nat) (m : BMsg) (lost : Bool) : Dev :=
  s.berthCheck b m lost [5] (fun s h =>
    if !m.beats.isEmpty || !m.closed then s.berthRefuse b 4 h.tag .format
    else s.berthRequest b h 5 [] h.context)

/-- A RELINQUISH message (R238). -/
def Dev.hearRelinquish (s : Dev) (b : Nat) (m : BMsg) (lost : Bool) : Dev :=
  s.berthCheck b m lost [6] (fun s h =>
    if !m.beats.isEmpty || !m.closed then s.berthRefuse b 4 h.tag .format
    else s.berthRequest b h 6 [])

/-- What answers a served request crosses to the router (R60). -/
def Dev.berthForward (s : Dev) (b : Nat) (q : Served) (st : Status) (data : List Byte := []) : Dev :=
  s.crossMsg (16384 + b) (.message b) (mkResponse (Hdr.dec q.hdr) st data)

/-- A RESPONSE message (R127): matched by CONTEXT and forwarded. A faulty one is discarded and the request stays; one whose only fault is
STATUS 0xF is forwarded as FORMAT. -/
def Dev.hearResponse (s : Dev) (b : Nat) (m : BMsg) (lost : Bool) : Dev :=
  let h := BHdr.dec m.hdr
  if lost then s.berthFault b 3 h.tag
  else if !bhdrClean m.hdr || h.op ≠ 4 then s.berthFault b 1 h.tag
  else match (s.berth b).served.find? (fun q => q.context == h.context) with
    | none => s.berthFault b 6 h.tag
    | some q =>
      let want := if q.isRead && h.status == 0 then q.len else 0
      let s1 := s.setBerth b { s.berth b with served := (s.berth b).served.filter (fun y => y.context != h.context) }
      if h.len ≠ want then s.berthFault b 1 h.tag
      else if m.beats.length ≠ (want + 31) / 32 || !m.closed then s.berthFault b 4 h.tag
      else if h.status = 15 then (s1.berthFault b 1 h.tag .format).berthForward b q .format
      else s1.berthForward b q (Status.ofCode h.status) (beatBytes want m.beats)

/-- BERTH_READ (R126). -/
def Dev.berthRead (s : Dev) (b : Nat) (m : BMsg) : Dev := s.berthSays b m (fun s lost => s.hearRead b m lost)
/-- BERTH_WRITE (R126). -/
def Dev.berthWrite (s : Dev) (b : Nat) (m : BMsg) : Dev := s.berthSays b m (fun s lost => s.hearWrite b m lost)
/-- BERTH_ACQUIRE (R238). -/
def Dev.berthAcquire (s : Dev) (b : Nat) (m : BMsg) : Dev := s.berthSays b m (fun s lost => s.hearAcquire b m lost)
/-- BERTH_RELINQUISH (R238). -/
def Dev.berthRelinquish (s : Dev) (b : Nat) (m : BMsg) : Dev := s.berthSays b m (fun s lost => s.hearRelinquish b m lost)
/-- BERTH_RESPONSE (R127). -/
def Dev.berthResponse (s : Dev) (b : Nat) (m : BMsg) : Dev := s.berthSays b m (fun s lost => s.hearResponse b m lost)

/-- Key of a declaration's gate in a tide. -/
def gateKey (d t : Nat) : Nat := 2 * d + t % 2

/-- What the gate has done for a declaration in a tide. -/
def Dev.gate (s : Dev) (d t : Nat) : GateSt := Map.get (fun _ => .idle) s.tide.gates (gateKey d t)
def Dev.setGate (s : Dev) (d t : Nat) (x : GateSt) : Dev :=
  { s with tide := { s.tide with gates := Map.set (fun _ => .idle) s.tide.gates (gateKey d t) x } }

/-- Whether a completion now is in time for a release tide (R66): 24 ticks before its turn, at the latest. -/
def Dev.inMargin (s : Dev) (release : Nat) : Bool :=
  decide (s.tide.num + 1 < release) || (release == s.tide.num + 1 && decide (s.tide.tick + 24 ≤ s.tideLen))

/-- The last byte of a transfer arrives (R66 to R69). A WRITE_MEM that ends after its release turn with another status than OK raises
its breach now. -/
def Dev.schedArrive (s : Dev) (decl issue : Nat) (st : Status) (data : List Byte) : Dev :=
  match s.tide.transfers.find? (fun t => t.decl == decl && t.issueTide == issue && !t.remote) with
  | none => s
  | some t =>
    let others := s.tide.transfers.filter (fun u => u != t)
    if t.kind = 2 && t.releaseTide ≤ s.tide.num then
      let s1 := { s with tide := { s.tide with transfers := others } }
      if st = .ok then s1 else s1.breach 2 (t.berth / 16) decl
    else
      let u := { t with done := true, onTime := if t.done then t.onTime else s.inMargin t.releaseTide, status := st, data }
      { s with tide := { s.tide with transfers := others ++ [u] } }

/-- The unique tide that a 16-bit release tag names (R65). -/
def Dev.releaseOf (s : Dev) (rtag : Nat) : Nat :=
  let lo := s.tide.num + 32768
  lo + (rtag + 65536 - lo % 65536) % 65536 - 65536

/-- A scheduled request leaves the gate (R67, R221): as READ or WRITE with SCH set. The berth is told it was issued (R125). -/
def Dev.schedSend (s : Dev) (id : Nat) (d : Decl) (issue len tag : Nat) (data : List Byte) : Dev :=
  let release := issue + d.releaseOffset
  let b := d.srcBerth
  let dst := s.destNode d.destAddr / 64 * 64 + (if d.remote then d.destDev else s.coord)
  let s1 := (s.setGate id issue .accepted).berthAnswer b tag .ok
  let t : Transfer := { decl := id, issueTide := issue, releaseTide := release, berth := d.lands.getD b, kind := d.kind }
  let s2 := if d.kind = 0 && d.remote then s1 else { s1 with tide := { s1.tide with transfers := s1.tide.transfers ++ [t] } }
  if len = 0 then s2.schedArrive id issue .ok []
  else s2.request { src := .berth (Fin.ofNat 512 b), tag, op := if d.kind = 1 then 1 else 2, addr := d.destAddr, len, data, dst, sch := true,
                    rtag := release % 65536, decl := id, sched := some (id, issue) }

/-- A declaration issues in a tide (R72). -/
def Decl.issues (d : Decl) (t : Nat) : Bool := d.live && t % d.period == d.phase

/-- The schedule gate (R67): a SCHED for declaration `id`, whose header reaches the gate 8 ticks after it is presented (R60). -/
def Dev.schedGate (s : Dev) (b id : Nat) (d : Decl) (len tag : Nat) (data : List Byte) : Dev :=
  let n := s.tide.tick + 8
  let (t, off) := if n < s.tideLen then (s.tide.num, n) else (s.tide.num + 1, n - s.tideLen)
  if d.size < len then s.berthRefuse b 0xA tag .range
  else if !d.live then (if len = 0 then s.berthReply b tag .ok else s.berthRefuse b 0xA tag .range)
  else if !d.issues t then s.berthRefuse b 0xA tag .state
  else match s.gate id t with
    | .cancelled => s.berthRefuse b 0xA tag .state
    | .idle => if d.issueTick < off then s.berthRefuse b 0xA tag .state else s.setGate id t (.held len tag data)
    | _ => s.berthRefuse b 0xA tag .state

/-- A SCHED message (R67, R126). -/
def Dev.hearSched (s : Dev) (b : Nat) (m : BMsg) (lost : Bool) : Dev :=
  s.berthCheck b m lost [3] (fun s h =>
    match s.tide.decls[h.decl]? with
    | none => s.berthRefuse b 8 h.tag .range
    | some d =>
      if d.srcBerth ≠ b then s.berthRefuse b 9 h.tag .denied
      else if m.beats.length ≠ (if d.kind = 1 then 0 else (h.len + 31) / 32) || !m.closed then s.berthRefuse b 4 h.tag .format
      else s.schedGate b h.decl d h.len h.tag (beatBytes h.len m.beats))

/-- BERTH_SCHED (R67, R126). -/
def Dev.berthSched (s : Dev) (b : Nat) (m : BMsg) : Dev := s.berthSays b m (fun s lost => s.hearSched b m lost)

/-- The router takes a message that the O sinks have presented (R126), by its OP; one with a reserved OP is answered FORMAT. -/
def Dev.berthHear (s : Dev) (b : Nat) (m : BMsg) (lost : Bool) : Dev :=
  match (BHdr.dec m.hdr).op with
  | 1 => s.hearRead b m lost
  | 2 => s.hearWrite b m lost
  | 3 => s.hearSched b m lost
  | 4 => s.hearResponse b m lost
  | 5 => s.hearAcquire b m lost
  | 6 => s.hearRelinquish b m lost
  | _ => s.berthCheck b m lost [] (fun s _ => s)

/-- ISSUE_TICK of a declaration comes in its issue tide (R67): a held request is sent; a request not presented is cancelled, with a
MISSED_ISSUE breach where the source erg runs. -/
def Dev.issueDue (s : Dev) (id : Nat) (d : Decl) : Dev :=
  let t := s.tide.num
  if !d.issues t then s
  else
    let runs := s.ergRuns (d.srcBerth / 16)
    match s.gate id t with
    | .held len tag data => if runs then s.schedSend id d t len tag data else s.setGate id t .cancelled
    | .idle =>
      let s1 := s.setGate id t .cancelled
      if runs then s1.breach 3 (d.srcBerth / 16) id else s1
    | _ => s

/-- SCHED_ISSUE_TICK of declaration `id`, when the tide has come to its ISSUE_TICK. -/
def Dev.schedIssueTick (s : Dev) (id : Nat) : Dev :=
  match s.tide.decls[id]? with
  | some d => if s.mode = .underway && s.tide.tick = d.issueTick then s.issueDue id d else s
  | none => s

/-- Issue ticks of the ending tide at which nothing has happened yet are dealt with before its turn. -/
def Dev.issuesLeft (s : Dev) : Dev :=
  ((List.range s.tide.decls.length).zip s.tide.decls).foldl (fun s (id, d) => s.issueDue id d) s

/-- SCHED_COMPLETE: the last byte of a scheduled transfer reaches the release buffer or memory write buffer (R66). -/
def Dev.schedComplete (s : Dev) (id issue : Nat) (st : Status) (data : List Byte) : Dev := s.schedArrive id issue st data

/-- The release view of a berth for a tide (R128): each declaration that lands there and is released then, with the delivery where there is
one. -/
def viewOf : List (Nat × Nat × Option (Status × List Byte)) → Nat → List ViewItem
  | [], _ => []
  | (id, size, c) :: rest, first =>
    { decl := id, first, beats := (size + 31) / 32, content := c } :: viewOf rest (first + (size + 31) / 32)

/-- What is released in tide `x` into berth `b`, with what has come for each: this device's declarations in ascending ID, then deliveries of
other devices, which no declaration of this device sizes or places (log entry 86). -/
def Dev.releasedAt (s : Dev) (x b : Nat) : List (Nat × Nat × Option (Status × List Byte)) :=
  let own := ((List.range s.tide.decls.length).zip s.tide.decls).filterMap (fun (id, d) =>
    if d.live && d.lands = some b && d.releaseOffset ≤ x && d.issues (x - d.releaseOffset) then
      some (id, d.size, (s.tide.transfers.find? (fun t => t.decl == id && t.releaseTide == x && !t.remote && t.done && t.onTime)).map
        (fun t => (t.status, t.data)))
    else none)
  let far := s.tide.transfers.filterMap (fun t =>
    if t.remote && t.berth = b && t.releaseTide = x && t.onTime then some (t.decl, t.data.length, some (t.status, t.data)) else none)
  own ++ far.mergeSort (fun p q => decide (p.1 ≤ q.1))

/-- A delivery that came late is presented as a message from this turn on (R68, R130), one that failed too, with no data (log entry 119);
LATE, bit 1 of TIDE. -/
def Dev.presentLate (s : Dev) (t : Transfer) : Dev :=
  if !s.ergRuns (t.berth / 16) then s
  else
    let x := s.berth t.berth
    let d := if t.status = .ok then t.data else []
    let head := BHdr.enc { op := 3, status := Status.late.code, decl := t.decl, len := d.length }
    (s.setBerth t.berth { x with inq := x.inq ++ [{ src := 3, beats := head :: dataBeats d }] }).event B.TIDE 1

/-- The breach of a transfer at the turn into its release tide, if it gives cause (R68, R69): LATE where it has not come in time, with
SCHED_ERR beside it for a WRITE_MEM that also failed. A late READ that failed is LATE alone (log entry 119). -/
def Dev.judge (s : Dev) (t : Transfer) : Dev :=
  if t.remote then (if t.done && !t.onTime then s.breach 1 (t.berth / 16) t.decl else s)
  else
    let e := (s.issuer t).getD (t.berth / 16)
    if !t.done then s.breach 1 e t.decl
    else if t.onTime then (if t.status ≠ .ok && (t.kind = 1 || t.kind = 2) then s.breach 2 e t.decl else s)
    else if t.kind = 2 && t.status ≠ .ok then (s.breach 1 e t.decl).breach 2 e t.decl
    else s.breach 1 e t.decl

/-- Step 2 of R54 at the turn into tide `x`: release views, breaches of what is not there, late deliveries. A delivery of another device that
came after its own release turn is judged at this one (R68). -/
def Dev.releaseTurn (s : Dev) (x : Nat) : Dev :=
  let due := s.tide.transfers.filter (fun t => t.releaseTide == x || (t.remote && t.done && decide (t.releaseTide < x)))
  let gone (t : Transfer) : Bool := t.done && decide (t.releaseTide ≤ x)
  let late := s.tide.transfers.filter (fun t => gone t && !t.onTime && t.kind != 2)
  let s1 := s.forN 512 (fun s b =>
    let v := viewOf (s.releasedAt x b) 0
    if v = [] && (s.berth b).view = [] then s
    else s.setBerth b { s.berth b with view := if s.ergRuns (b / 16) then v else [] })
  let s2 := late.foldl Dev.presentLate s1
  let s3 := { s2 with tide := { s2.tide with transfers := s2.tide.transfers.filter (fun t => !gone t) } }
  due.foldl Dev.judge s3

/-- The beat of a release view at an index: data, status code, whether it is empty (R129). -/
def viewBeat (v : List ViewItem) (i : Nat) : BitVec 256 × Nat × Bool :=
  match v.find? (fun x => decide (x.first ≤ i) && decide (i < x.first + x.beats)) with
  | some { content := some (st, data), first := f, .. } =>
    (if st = .ok then BitVec.ofNat 256 (ofLeBytes ((data.drop (32 * (i - f))).take 32)) else 0, st.code, false)
  | _ => (0, 0, true)

/-- RELEASE_READ (R129): a release read of beat `i` in this tick, which returns 24 ticks later. In the tick after an accepted one it is
ignored as a class U fault. -/
def Dev.releaseRead (s : Dev) (b i : Nat) : Dev :=
  if !s.berthLive b then s
  else
    let x := s.berth b
    if (match x.rrLast with | some t => decide (s.tide.exec ≤ t + 1) | none => false) then s.berthFault b 5 0
    else
      let (d, st, empty) := viewBeat x.view i
      s.setBerth b { x with rr := x.rr ++ [⟨s.tide.exec + 24, d, st, empty⟩], rrLast := some s.tide.exec }

/-- What the I path of a berth carries in this tick so far: data and control (R121). -/
def Dev.iWord (s : Dev) (b : Nat) : BitVec 288 := Map.get (fun _ => 0) s.fab.iIn b
def Dev.setIWord (s : Dev) (b : Nat) (w : BitVec 288) : Dev := { s with fab := { s.fab with iIn := Map.set (fun _ => 0) s.fab.iIn b w } }

/-- Whether the I path of a berth already carries a beat in this tick. -/
def Dev.iBusy (s : Dev) (b : Nat) : Bool := (s.iWord b).getLsbD 256

/-- Puts a beat on the I path: its data and the bits of I_CTL, I_VALID among them (R121). -/
def Dev.putBeat (s : Dev) (b : Nat) (d : BitVec 256) (ctl : Nat) : Dev :=
  s.setIWord b (s.iWord b ||| (BitVec.ofNat 288 (d.toNat + 2 ^ 256 * (1 + ctl))))

/-- RELEASE_READ_RETURN: the beat of a release read is presented in its tick (R129). -/
def Dev.releaseReadReturn (s : Dev) (b : Nat) : Dev :=
  let x := s.berth b
  match x.rr with
  | r :: rest =>
    if s.tide.exec < r.due || s.iBusy b then s
    else (s.setBerth b { x with rr := rest }).putBeat b r.data (2 * 16 + 64 * r.status + 1024 * r.empty.toNat)
  | [] => s

/-- Whether a release read of a berth returns in the tick at hand: it goes before every other beat (R129). -/
def Dev.rrDue (s : Dev) (b : Nat) : Bool :=
  match (s.berth b).rr with
  | r :: _ => decide (r.due ≤ s.tide.exec)
  | [] => false

/-- Whether a message for the I path has been released to TICK (R60). -/
def Dev.iReady (s : Dev) (b : Nat) (m : IMsg) : Bool :=
  match m.stamp with
  | some t => s.crossed (16896 + b) t
  | none => true

/-- The next beat of the message at the head of the I path's queue is presented, if it comes from source `src` (R124, R131) no release read
returns now and the berth's path is in service (R32): a beat of a served request takes a credit; the header of a response frees its tag (R125). -/
def Dev.presentBeat (s : Dev) (b src : Nat) : Dev :=
  let x := s.berth b
  match x.inq with
  | m :: rest =>
    if m.src ≠ src || s.iBusy b || s.rrDue b || !s.iReady b m || s.berthPathOut b || (src = 1 && x.rqCredits = 0) then s
    else match m.beats with
      | [] => s.setBerth b { x with inq := rest }
      | d :: more =>
        let tags := if src = 0 && !m.started then
            (match x.tags.findIdx? (fun t => t.1 == nfield d.toNat 4 3) with | some i => x.tags.eraseIdx i | none => x.tags)
          else x.tags
        let inq := if more.isEmpty then rest else { m with beats := more, started := true } :: rest
        (s.setBerth b { x with inq, tags, rqCredits := if src = 1 then x.rqCredits - 1 else x.rqCredits }).putBeat b d
          (2 * (!m.started).toNat + 4 * more.isEmpty.toNat + 16 * src)
  | [] => s

/-- SERVED_REQUEST_PRESENT and LATE_DELIVERY_PRESENT (R124, R130). -/
def Dev.servedPresent (s : Dev) (b : Nat) : Dev := s.presentBeat b 1
def Dev.latePresent (s : Dev) (b : Nat) : Dev := s.presentBeat b 3

/-- NOTE_PRESENT: a note of an earlier tide is presented, one a tick, from tick offset 8 on (R131). -/
def Dev.notePresent (s : Dev) (b : Nat) : Dev :=
  let x := s.berth b
  match x.notes with
  | n :: rest =>
    if !s.berthLive b || s.tide.num ≤ n.tide || s.tide.tick < 8 || (s.iWord b).getLsbD 267 then s
    else (s.setBerth b { x with notes := rest }).setIWord b (s.iWord b ||| BitVec.ofNat 288 (2 ^ 256 * (2048 + 4096 * n.code)))
  | [] => s

/-- What the router presents to a berth in the tick at hand, if no command has made it do so yet: a release-read beat that is due, else
the next beat of its queue; notes; and the credits it returns, one a tick. -/
def Dev.presentAll (s : Dev) (b : Nat) : Dev :=
  let s1 := s.releaseReadReturn b
  let s2 := match (s1.berth b).inq with
    | m :: _ => s1.presentBeat b m.src
    | [] => s1
  let s3 := s2.notePresent b
  if (s3.berth b).outCredits < 32 && s3.berthLive b then
    (s3.setBerth b { s3.berth b with outCredits := (s3.berth b).outCredits + 1 }).setIWord b (s3.iWord b ||| BitVec.ofNat 288 (2 ^ 259))
  else s3

/-- ERG_NOTE_POST (R131, R141). -/
def Dev.notePost (s : Dev) (e : Nat) (w : Word) : Dev :=
  let blk := B.ERG e
  if !nbit w.toNat 4 then s
  else if !s.takesNotes e then s.finish blk .state
  else
    let (s1, dropped) := s.pushNote (16 * e + w.toNat % 16) 4
    if dropped then s.finish blk .busy else s1.finish blk .ok

/-- An identifier that no outstanding served request bears, from a free value on (R122). -/
def freshContext (used : List Nat) (v : Nat) : Nat :=
  (((List.range (used.length + 1)).map (fun k => (v + k) % 2 ^ 32)).find? (fun c => !used.contains c)).getD 0

/-- A request reaches a berth whose erg runs: it is served by the fabric (R127). Which identifier it bears the spec leaves open (log entry
112). -/
def Dev.serveBerth (s0 : Dev) (b : Nat) (m : Msg) : Dev :=
  let (v, s) := s0.freeWord
  let x := s.berth b
  let h := m.h
  let c := freshContext (x.served.map (·.context)) v.toNat
  let q : Served := { context := c, isRead := h.op == 1, len := h.len, hdr := m.hdr }
  let head := BHdr.enc { op := h.op, addr := h.addr % 0x100000, len := h.len, context := c }
  (s.setBerth b { x with served := x.served ++ [q] }).berthQueue b s.tide.count 1 (head :: (if h.op = 2 then dataBeats m.data else []))

/-- Whether tides run, or stand in a halt or in a Slack that they resume from (R559). -/
def Dev.tidesStand (s : Dev) : Bool :=
  s.mode == .underway || s.mode == .anchored || (s.mode == .slack && s.clk.slackFrom == .underway)

/-- A scheduled delivery reaches the release buffer of a berth (R65, R66): one of this device by its declaration, one of another device by
what its header says. -/
def Dev.deliver (s : Dev) (b : Nat) (m : Msg) : Dev :=
  let h := m.h
  let st : Status := if m.poison.isEmpty then .ok else .uncorr
  let release := s.releaseOf h.rtag
  let s1 :=
    if nodeDev h.src = s.coord then
      match s.tide.transfers.find? (fun t => t.decl == h.decl && t.releaseTide == release && t.kind == 0 && !t.remote) with
      | some t => s.schedArrive t.decl t.issueTide st m.data
      | none => s
    else
      let t : Transfer := { decl := h.decl, issueTide := release, releaseTide := release, berth := b, kind := 0, remote := true, done := true,
                            onTime := s.inMargin release, status := st, data := m.data }
      { s with tide := { s.tide with transfers := s.tide.transfers ++ [t] } }
  s1.respond h st

/-- A request reaches the port of a berth that is not gated and out of Slack (R248): STATE of an unscheduled erg and while no tides run,
FENCED of a fenced one, DENIED to a peek read (R505); else the request is parked in a halt; a delivery lands, a request of length
zero is answered OK (R16), another is presented. A write with
poisoned data ends UNCORR and is not presented. -/
def Dev.berthTakes (s : Dev) (b : Nat) (m : Msg) : Dev :=
  let h := m.h
  if h.peek then s.respond h .denied
  else if (s.erg (b / 16)).mode = .unscheduled then s.respond h .state
  else if (s.erg (b / 16)).mode = .fenced then s.respond h .fenced
  else if !s.tidesStand then s.respond h .state
  else if s.halted (B.ERG (b / 16)) then s.parkMsg b m
  else if h.sch && h.op == 2 then s.deliver b m
  else if h.len = 0 then s.respond h .ok
  else if !m.poison.isEmpty then s.respond h .uncorr
  else s.serveBerth b m

/-- What the berth registers of an erg show (R141). -/
def Dev.berthView (s : Dev) (e off : Nat) : Option Word :=
  let x := s.berth (16 * e + s.fld (B.ERG e) F.ERG_BERTH_SEL_BERTH)
  if off = O.ERG_BERTH_STAT then
    some (BitVec.ofNat 32 (x.outCredits + 64 * x.rqCredits +
      2048 * (List.range 8).foldl (fun a t => a + (if x.tags.any (fun p => p.1 == t) then 2 ^ t else 0)) 0 + 2 ^ 19 * x.notes.length))
  else if off = O.ERG_BERTH_CNT then some (BitVec.ofNat 32 (x.proto + 65536 * x.timeouts))
  else none

end Sys2Proof.Machine
end

