-- ==== Sys2Proof/Machine/Fabric.lean ====
section
/-! DEFINITION. Machine/Fabric.lean: the tick of the fabric as the device makes it: which frame every dune runs, what fences and dry-dock
slots drive, the monitors that count ticks (R44, R95, R105, R120, R137 to R140, R146, R169, R185, R523). -/

namespace Sys2Proof.Machine

/-- Index of a side in a fence record (R138). -/
def Dir.side : Dir → Nat
  | .north => 0 | .east => 1 | .south => 2 | .west => 3

/-- The side of an index. -/
def sideDir : Nat → Dir
  | 0 => .north | 1 => .east | 2 => .south | _ => .west

/-- Whether a dune of an erg lies on its edge at a side, and its position along it (R138). -/
def edgePos (g : Nat) (d : Dir) : Option Nat :=
  let x := g % 16
  let y := g % 256 / 16
  match d with
  | .north => if y = 0 then some x else none
  | .south => if y = 15 then some x else none
  | .west => if x = 0 then some y else none
  | .east => if x = 15 then some y else none

/-- The dune of an erg at a position along its edge (R138). -/
def edgeDune (e : Nat) (d : Dir) (pos : Nat) : Nat :=
  256 * e + (match d with | .north => pos | .south => 240 + pos | .west => 16 * pos | .east => 16 * pos + 15)

/-- Fence-record entry of a neighbour link and of a caravan track (R138). -/
def linkEntry (d : Dir) (pos n : Nat) : Nat := 20480 * d.side + 256 * pos + n
def trackEntryNo (d : Dir) (pos t : Nat) : Nat := 20480 * d.side + 4096 + 1024 * pos + t

/-- The value a fence entry drives; none where it drives nothing (R138). -/
def ErgSt.fenceValue (g : ErgSt) (n : Nat) : Option Bool :=
  match nfield g.fenceRec (2 * n) 2 with
  | 0 => some false
  | 1 => some true
  | 2 => some (Map.get (fun _ => false) g.held n)
  | _ => none

/-- Whether an erg drives its fence values: it is fenced and out of Slack, or a dry-dock slot covers it (R139, R476, R523). -/
def Dev.drivesFence (s : Dev) (e : Nat) : Bool :=
  ((s.erg e).mode == .fenced && (s.erg e).slack.runs) || (s.inDock e).isSome

/-- The erg global lines (R120). -/
def Dev.globalLines (s : Dev) (e : Nat) : BitVec 32 :=
  let p := match s.planeNow e with
    | some p => if p < 8 then p else 0
    | none => 0
  BitVec.ofNat 32 ((s.tide.tick == 0).toNat + 2 * (s.tide.num % 65536) + 2 ^ 17 * p + 2 ^ 20 * (s.erg e).changePending.toNat)

/-- The plane and frame a dune runs in the tick at hand: none where its erg runs none, the dune-plane is null, the dune is out of service,
or a bundle slice under test takes it (R32, R143, R523). -/
def Dev.runs (s : Dev) (g : Nat) : Option (Nat × Nat) :=
  let e := ergOf g
  let d := g % 256
  match s.planeNow e with
  | none => none
  | some p =>
    if 8 ≤ p || s.outOf 1 e d then none
    else if (match s.inDock e with
        | some k => k.kind == 1 && d / 16 == (Map.get (fun _ => ({} : LapSt)) s.bist.laps (4 * e + 1)).slice
        | none => false) then none
    else (Map.get (fun _ => none) s.fab.frames (8 * g + p)).map (fun f => (p, f.driven))

/-- The frame whose caravan switch codes stand above a dune: that of its plane, or the one a fence, Slack or a dry-dock slot keeps (R106,
R139, R476, R523). -/
def Dev.switchFrame (s : Dev) (g : Nat) : Option Nat :=
  let e := ergOf g
  match (s.inDock e).isNone, s.planeNow e with
  | true, some p => (Map.get (fun _ => none) s.fab.frames (8 * g + p)).map (·.driven)
  | _, _ => ((s.erg e).kept.find? (fun k => k.1 == g % 256)).map (·.2)

/-- The picture of the fabric in the tick at hand. -/
def Dev.view (s : Dev) : View :=
  { fab := s.fab, tick := s.tide.count, run := s.runs, switchFr := s.switchFrame, globals := s.globalLines,
    forced := fun g d n => match edgePos g d with
      | some pos => if s.drivesFence (ergOf g) then some (((s.erg (ergOf g)).fenceValue (linkEntry d pos n)).getD false) else none
      | none => none,
    forcedTrack := fun g d t => match edgePos g d with
      | some pos => if s.drivesFence (ergOf g) then (s.erg (ergOf g)).fenceValue (trackEntryNo d pos t) else none
      | none => none,
    forcedOnes := (List.range 32).flatMap (fun e =>
      if s.drivesFence e && (s.erg e).fenceRec != 0 then
        (List.range 81920).filterMap (fun n =>
          let k := n % 20480
          if 4096 ≤ k && (s.erg e).fenceValue n == some true then
            some (edgeDune e (sideDir (n / 20480)) ((k - 4096) / 1024), (sideDir (n / 20480)).travel, (k - 4096) % 1024)
          else none)
      else []),
    portsDead := fun g k => s.caravanOut (ergOf g) (g % 256) k,
    iface := fun g => !s.outOf 5 (ergOf g) (g % 256) }

/-- The value of boundary signal `n` of an erg in the tick at hand (R137, R138). -/
def View.boundary (v : View) (e n : Nat) : Bool :=
  let d := sideDir (n / 20480)
  let k := n % 20480
  let pos := if k < 4096 then k / 256 else (k - 4096) / 1024
  let g := edgeDune e d pos
  if k < 4096 then v.sink g (256 * d.side + k % 256)
  else match neighbour g d with
    | some h => v.track h d ((k - 4096) % 1024)
    | none => false

/-- The HOLD entries of an erg's fence record with the values of the tick at hand (R138). -/
def View.holdValues (v : View) (e rec_ : Nat) : Map Bool :=
  if rec_ = 0 then []
  else (List.range 81920).filterMap (fun n => if nfield rec_ (2 * n) 2 = 2 && v.boundary e n then some (n, true) else none)

/-- Whether the tick at hand is the last before a turn or before a dry-dock slot of an erg. -/
def Dev.lastTick (s : Dev) (e : Nat) : Bool :=
  s.tide.tick + 1 == s.tideLen || s.bist.slots.any (fun d => d.erg == e && usedIn d.period d.phase s.tide.num && d.tick == s.tide.tick + 1)

/-- Dunes that switch planes in the tick at hand (R146, R166, R169). -/
def Dev.switches (s : Dev) : Nat :=
  (List.range 32).foldl (fun a e =>
    match s.planeNow e, (s.erg e).lastPlane with
    | some p, some q => if p = q then a else a + (256 - s.dunesOut e)
    | _, _ => a) 0

/-- The ergs' sequencers after the tick at hand: the plane it ran, and the boundary values and switch codes that a fence or a slot in the
next tick would keep. In a dry-dock slot those that stand are kept on (R138, R139, R523). -/
def Dev.ergsTick (s : Dev) (v : View) : Dev :=
  s.forN 32 (fun s e =>
    match s.planeNow e with
    | none => s
    | some p =>
      let g := s.erg e
      let last := s.lastTick e && (s.inDock e).isNone
      let held := if last then v.holdValues e g.fenceRec else g.held
      let kept := if last then s.framesOf e p else g.kept
      s.setErg e { g with lastPlane := some p, held, kept })

/-- Dunes that run in the tick at hand: number, plane, frame. -/
def Dev.running (s : Dev) : List (Nat × Nat × Nat) :=
  s.fab.frames.filterMap (fun (k, _) => match s.runs (k / 8) with
    | some (p, fr) => if p = k % 8 then some (k / 8, p, fr) else none
    | none => none)

/-- The place of a plane-store word in the walk of its erg's scrubber (R531): dune, plane, word. -/
def psPlace (d p w : Nat) : Nat := (8 * d + p) * 1536 + w

/-- A plane-store word as the fault log names it (R538): global dune, plane and word, laid out as MARCH_FAIL0 lays them out (R520). -/
def psAddr (g p w : Nat) : Nat := g + 2 ^ 13 * (48 * p + w / 32) + 2 ^ 23 * (w % 32)

/-- A correctable word that a driver met is queued for the erg's scrubber (R530). -/
def Dev.psQueue (s : Dev) (e place : Nat) : Dev :=
  let x := Map.get (fun _ => {}) s.bist.ps e
  if x.queue.contains place then s
  else { s with bist := { s.bist with ps := Map.set (fun _ => {}) s.bist.ps e { x with queue := x.queue ++ [place] } } }

/-- What the drivers of the dunes that ran in a tick found in the words they drove (R530): a word with one bit in error is queued for the
scrubber, an uncorrectable one is class F. -/
def Dev.drivenErrors (s : Dev) (running : List (Nat × Nat × Nat)) : Dev :=
  running.foldl (fun s (x : Nat × Nat × Nat) =>
    let (g, p, _) := x
    match Map.get (fun _ => none) s.fab.frames (8 * g + p) with
    | none => s
    | some f => f.flips.foldl (fun s (y : Nat × BitVec 72) =>
        match secDecode (secSyndrome y.2) with
        | .clean => s
        | .bit _ => s.psQueue (g / 256) (psPlace (g % 256) p y.1)
        | .uncorr => s.quarantine 5 (psAddr g p y.1) B.SCRB 0 (secSyndrome y.2).toNat) s) s

/-- A berth's served-request credit comes back (R121, R124). -/
def Dev.rqCredit (s : Dev) (b : Nat) : Dev := s.setBerth b { s.berth b with rqCredits := min 16 ((s.berth b).rqCredits + 1) }

/-- A beat on a berth's O path (R121, R123, R126): it takes a credit, and without one it is dropped. A header begins a message, closing one
that has begun; O_EOP ends it, and the router takes it. A beat of no message is discarded. -/
def Dev.oBeat (s : Dev) (b : Nat) (d : BitVec 256) (sop eop : Bool) : Dev :=
  let have_ := decide ((s.berth b).outCredits ≠ 0)
  let s1 := s.setBerth b { s.berth b with outCredits := (s.berth b).outCredits - 1 }
  let s2 := match (s1.berth b).oMsg with
    | some o => if sop then (s1.setBerth b { s1.berth b with oMsg := none }).berthHear b { o.msg with closed := false } o.lost else s1
    | none => s1
  let next : Option OMsg :=
    if sop then some ⟨{ hdr := d }, !have_⟩
    else (s2.berth b).oMsg.map (fun o => if have_ then { o with msg := { o.msg with beats := o.msg.beats ++ [d] } } else { o with lost := true })
  match next with
  | some o =>
    if eop then (s2.setBerth b { s2.berth b with oMsg := none }).berthHear b o.msg o.lost
    else s2.setBerth b { s2.berth b with oMsg := some o }
  | none => s2

/-- What the sinks of a berth dune present in the tick (R121): a served-request credit, a beat of a message, a release read. -/
def Dev.oSinks (s : Dev) (b : Nat) (w : BitVec 288) : Dev :=
  if !s.berthLive b then s
  else
    let s1 := if w.getLsbD 259 then s.rqCredit b else s
    let s2 := if w.getLsbD 256 then s1.oBeat b (w.extractLsb' 0 256) (w.getLsbD 257) (w.getLsbD 258) else s1
    if w.getLsbD 260 then s2.releaseRead b (w.extractLsb' 261 11).toNat else s2

/-- What the HL sinks of a dune present in the tick (R118, R177): 0b01 a hoist, 0b10 a lower. -/
def Dev.hlSinks (s : Dev) (g : Nat) (w : BitVec 12) : Dev :=
  let n := w.toNat
  if (s.inDock (ergOf g)).isSome then s
  else if n % 4 = 1 then s.rowCommand false (ergOf g) (g % 256) (n / 4 % 2) (n / 8)
  else if n % 4 = 2 then s.rowCommand true (ergOf g) (g % 256) (n / 4 % 2) (n / 8)
  else s

/-- What falls due before the tick at hand and no command has made happen yet: queue entries are released, row commands are carried out
before their latest tick, rows land (R59, R179, R181). -/
def Dev.dueWork (s : Dev) : Dev := (s.xingDue).rowsDue

/-- A tick of Underway (R95): the fabric moves on, what its sinks present is taken, the monitors count, the tick offset advances. -/
def Dev.tideTick (s : Dev) : Dev :=
  let s0 := (s.dueWork.berths.map (·.1)).foldl Dev.presentAll s.dueWork
  let v := s0.view
  let running := s0.running
  let wrote := running.flatMap (fun (g, _, _) => (v.rowWrites g).map (fun (r, _, _) => (g, r)))
  let n := s0.switches
  let fab := { v.next secCheck running with wrote }
  let s1 := fab.hlOut.foldl (fun s (g, w) => s.hlSinks g w) (fab.oOut.foldl (fun s (b, w) => s.oSinks b w) (s0.ergsTick v))
  let s2 := { s1 with fab, tide := { s1.tide with tick := s1.tide.tick + 1, count := s1.tide.count + 1, exec := s1.tide.exec + 1 } }
  let s3 := s2.forN 32 Dev.showChange
  ((s3.pswTick n).xferTick).drivenErrors running

/-- Whether TICK runs in a mode. -/
def Mode.ticks : Mode → Bool
  | .beacon | .reset | .quarantine => false
  | _ => true

/-- A tick that no tide takes: the device tick count and the sliding windows move on (R169, R185). -/
def Dev.bareTick (s : Dev) : Dev :=
  let s1 := s.dueWork
  ({ s1 with tide := { s1.tide with count := s1.tide.count + 1,
                                    exec := if s1.mode = Mode.anchored then s1.tide.exec else s1.tide.exec + 1 } }.pswTick 0).xferTick

/-- FABRIC_TICK. A tide whose last tick has passed waits for its turn. -/
def Dev.fabricTick (s : Dev) : Dev :=
  if s.mode = .underway then (if s.tide.tick < s.tideLen then s.tideTick else s)
  else if s.mode.ticks then s.bareTick
  else s

end Sys2Proof.Machine
end

