-- ==== Sys2Proof/Machine/Net.lean ====
section
/-! DEFINITION. Machine/Net.lean: the routers and port arbiters of the Harbour Network (R218 to R231, R241 to R247). Routers are
numbered 12·y + x; ports are 0 north, 1 east, 2 south, 3 west, 4 local, 5 causeway. -/

namespace Sys2Proof.Machine

/-- A flit with the right check bytes (R218). -/
def mkFlit (body : BitVec 256) (vc : Nat) (head tail : Bool) (poison : Bool := false) : Flit :=
  let check := (List.range 4).foldl (fun a k => a + (secCheck (body.extractLsb' (64 * k) 64)).toNat * 2 ^ (8 + 8 * k)) 0
  ⟨body, BitVec.ofNat 40 (vc + 16 * head.toNat + 32 * tail.toNat + 64 * poison.toNat + check)⟩

/-- A flit moved to another virtual channel: the sideband is not covered by the check bytes. -/
def Flit.setVc (f : Flit) (vc : Nat) : Flit := { f with side := BitVec.ofNat 40 (putField f.side.toNat 0 4 vc) }

/-- Class of a header (R225): RSP.S 0, RSP.B 1, META 2, SCH 3, BE 4. -/
def Hdr.cls (h : Hdr) : Nat :=
  if h.op = 4 then (if h.sch then 0 else 1) else if h.op = 7 || h.op = 8 then 2 else if h.sch then 3 else 4

/-- The first packet of what a message has left to send, and the rest (R219, R222): the header names the packet's own first byte. -/
def Msg.packet (m : Msg) (vc : Nat) : List Flit × Option Msg :=
  let h := m.h
  let here := m.data.take 512
  let rest := m.data.drop 512
  let hd := { h with plen := here.length, last := rest.isEmpty }
  let n := (here.length + 31) / 32
  let poisoned (k : Nat) : Bool := m.poison.any (fun w => w / 4 == k)
  let data (k : Nat) : Flit :=
    let f := mkFlit (BitVec.ofNat 256 (ofLeBytes ((here.drop (32 * k)).take 32))) vc false (k + 1 == n) (poisoned k)
    (List.range 4).foldl (fun f j => if m.poison.contains (4 * k + j) then
        { f with side := f.side ^^^ BitVec.ofNat 40 (255 * 2 ^ (8 + 8 * j)) } else f) f
  (mkFlit hd.enc vc true (n == 0) :: (List.range n).map data,
   if rest.isEmpty then none
   else some { hdr := { h with pkt := h.pkt + 1, addr := h.addr + here.length, plen := min 512 rest.length,
                               last := decide (rest.length ≤ 512) }.enc,
               data := rest, poison := (m.poison.filter (64 ≤ ·)).map (· - 64) })

/-- The north-south link column of a router row (R229). -/
def linkColumn (row : Nat) : Nat :=
  match row with
  | 1 => 3 | 2 => 4 | 3 => 7 | _ => 8

/-- The output of a packet's next hop (R229, R230) from router `r`, having come in by port `inp`. On the home leg: along the row, then
the column. On the outbound leg: row entry at a source in row 0 or 5, device x, column entry, device y; a packet that is in its link
column stays in it. -/
def Dev.nextHop (s : Dev) (r inp : Nat) (h : Hdr) : Nat :=
  let x := r % 12
  let y := r / 12
  let dx := nodeDev h.dst % 8
  let dy := nodeDev h.dst / 8
  let mx := s.coord % 8
  let my := s.coord / 8
  if nodeDev h.dst = s.coord then
    let tx := nodeRouter h.dst % 12
    let ty := nodeRouter h.dst / 12
    if x < tx then 1 else if tx < x then 3 else if y < ty then 2 else if ty < y then 0 else 4
  else if inp = 4 && y = 0 then 2
  else if inp = 4 && y = 5 then 0
  else if dx ≠ mx then
    if mx < dx then (if x = 10 then 5 else if x < 10 then 1 else 3) else (if x = 1 then 5 else if 1 < x then 3 else 1)
  else
    let entering := nodeDev h.src == s.coord && nodeRouter h.src % 12 == x &&
      ((inp == 0 && y == 1 && nodeRouter h.src / 12 == 0) || (inp == 2 && y == 4 && nodeRouter h.src / 12 == 5))
    let vertical := ((inp == 0 || inp == 2) && !entering) || (inp == 5 && (y == 0 || y == 5)) || x == linkColumn y
    if vertical then
      if my < dy then (if y = 5 then 5 else 2) else (if y = 0 then 5 else 0)
    else if x < linkColumn y then 1 else 3

/-- The neighbour router behind a mesh output, and the port the flit comes in by there. -/
def meshNext (r o : Nat) : Option (Nat × Nat) :=
  match o with
  | 0 => if 12 ≤ r then some (r - 12, 2) else none
  | 1 => if r % 12 < 11 then some (r + 1, 3) else none
  | 2 => if r < 60 then some (r + 12, 0) else none
  | 3 => if 0 < r % 12 then some (r - 1, 1) else none
  | _ => none

/-- The virtual channel of a packet on an output (R225, R230): home leg where this is the destination device. -/
def Dev.outVc (s : Dev) (h : Hdr) : Nat := h.cls + (if nodeDev h.dst = s.coord then 8 else 0)

/-- A flit enters an input buffer; flits of a packet that is being discarded are dropped with it. -/
def Dev.routerPush (s : Dev) (r port : Nat) (f : Flit) : Dev :=
  let x := s.router r
  let q := 16 * port + f.vc
  let buf := Map.get (fun _ => []) x.inq q
  if Map.get (fun _ => none) x.route q = some .discard && buf.isEmpty then
    if f.tail then s.setRouter r { x with route := Map.erase x.route q } else s
  else
    let at_ := if f.head then Map.get (fun _ => 0) x.wheel (s.nextHop r port (Hdr.dec f.body)) else 0
    s.setRouter r { x with inq := Map.set (fun _ => []) x.inq q (buf ++ [⟨f, at_⟩]) }

/-- The next packet that enters a router's local input buffers, with what is left to enter: the first message of a virtual channel, not
among those `full`, whose packet has room. A channel waits on nothing but its own messages (R226, R251). -/
def Dev.injectNext (s : Dev) (r : Nat) : List Nat → List Msg → Option (List Flit × List Msg)
  | _, [] => none
  | full, m :: rest =>
    let vc := s.outVc m.h
    let (flits, more) := m.packet vc
    let buf := Map.get (fun _ => []) (s.router r).inq (16 * 4 + vc)
    if full.contains vc || 20 < buf.length + flits.length then (s.injectNext r (vc :: full) rest).map (fun x => (x.1, m :: x.2))
    else some (flits, match more with
      | some m1 => m1 :: rest
      | none => rest)

/-- Messages handed to a router enter its local input buffers packet by packet, each once its whole packet has room (R226). -/
def Dev.inject (s : Dev) (r : Nat) : Nat → Dev
  | 0 => s
  | n + 1 =>
    match s.injectNext r [] (Map.get (fun _ => []) s.net.issued r) with
    | none => s
    | some (flits, left) =>
      let s1 := { s with net := { s.net with issued := Map.set (fun _ => []) s.net.issued r left } }
      (flits.foldl (fun s f => s.routerPush r 4 f) s1).inject r n

/-- What an output may send: input buffer, the flit, the virtual channel it leaves on, whether it is a header, its class and age. -/
structure Cand where
  buf : Nat
  flit : BufFlit
  vc : Nat
  head : Bool
  deriving DecidableEq, Repr

/-- Whether there is room for a flit behind an output (R226). -/
def Dev.hasCredit (s : Dev) (r o vc : Nat) : Bool :=
  match meshNext r o with
  | some (n, p) => decide ((Map.get (fun _ => []) (s.router n).inq (16 * p + vc)).length < 20)
  | none =>
    if o = 5 then (match routerLink r with
      | some n => decide (((Map.get (fun _ => []) s.net.toLink n).filter (fun f => f.vc == vc)).length < 20)
      | none => false)
    else true

/-- The flits ready for output `o` of router `r`, by input buffer: a header from the fourth cycle after its arrival on (R228). -/
def Dev.candidates (s : Dev) (r o : Nat) : List Cand :=
  let x := s.router r
  (List.range 96).filterMap (fun b =>
    match Map.get (fun _ => []) x.inq b with
    | [] => none
    | f :: _ =>
      match Map.get (fun _ => none) x.route b with
      | some (.out o1 vc) => if o1 = o && s.hasCredit r o vc then some ⟨b, f, vc, false⟩ else none
      | some .discard => none
      | none =>
        let h := Hdr.dec f.flit.body
        let vc := s.outVc h
        if s.nextHop r (b / 16) h = o && f.at_ + 4 ≤ Map.get (fun _ => 0) x.wheel o && (Map.get (fun _ => none) x.busy (16 * o + vc)).isNone && s.hasCredit r o vc then
          some ⟨b, f, vc, true⟩ else none)

/-- The oldest header of a list; ties go to the lower input port (R227). -/
def oldest : List Cand → Option Cand
  | [] => none
  | c :: cs =>
    match oldest cs with
    | none => some c
    | some d => if d.flit.at_ < c.flit.at_ then some d else some c

/-- What the wheel of an output picks (R227): a started scheduled packet; in a scheduled position the oldest scheduled header; else the
first class with a flit ready, a started packet before the oldest header. -/
def wheelPick (pos : Nat) (cs : List Cand) : Option Cand :=
  let sched (c : Cand) : Bool := c.vc % 8 == 0 || c.vc % 8 == 3
  match cs.find? (fun c => !c.head && sched c) with
  | some c => some c
  | none =>
    let two := if pos % 4 = 0 then none else oldest (cs.filter (fun c => c.head && sched c))
    match two with
    | some c => some c
    | none => (List.range 5).findSome? (fun k =>
        let here := cs.filter (fun c => c.vc % 8 == k)
        match here.find? (fun c => !c.head) with
        | some c => some c
        | none => oldest here)

/-- A flit as its router checks it (R223): corrected words, the number corrected, whether a word is uncorrectable and its syndrome. -/
def checkFlit (f : Flit) : Flit × Nat × Option (Nat × Byte) :=
  (List.range 4).foldl (fun (acc : Flit × Nat × Option (Nat × Byte)) k =>
    let (f, n, bad) := acc
    let syn := secCheck (f.word k) ^^^ f.chk k
    match secDecode syn with
    | .clean => acc
    | .bit i =>
      (if i < 64 then { f with body := f.body ^^^ BitVec.ofNat 256 (2 ^ (64 * k + i)) }
       else { f with side := f.side ^^^ BitVec.ofNat 40 (2 ^ (8 + 8 * k + (i - 64))) }, n + 1, bad)
    | .uncorr => (f, n, some (bad.getD (k, syn)))) (f, 0, none)

/-- Errors that befall a flit on its way in: for body words, the error pattern over data and check bits. -/
def hurtFlit (f : Flit) (errs : List (Nat × BitVec 72)) : Flit :=
  errs.foldl (fun f (k, e) =>
    if k < 4 then
      { body := f.body ^^^ ((e.extractLsb' 0 64).zeroExtend 256 <<< (64 * k)),
        side := f.side ^^^ ((e.extractLsb' 64 8).zeroExtend 40 <<< (8 + 8 * k)) }
    else f) f

/-- Takes the first flit out of an input buffer. -/
def Dev.popFlit (s : Dev) (r b : Nat) : Dev :=
  let x := s.router r
  s.setRouter r { x with inq := Map.modify (fun _ => []) x.inq b List.tail }

/-- The message that the packets of one message make: header of the first, all bytes, words that arrived poisoned. -/
def packetMsg (fs : List Flit) : Option Msg :=
  match fs with
  | [] => none
  | hd :: data =>
    let h := Hdr.dec hd.body
    let bytes := (data.flatMap (fun f => leBytes 32 f.body.toNat)).take h.plen
    let bad := (List.range data.length).flatMap (fun k => (List.range 4).filterMap (fun j =>
      match data[k]? with
      | some f => if f.poison && secDecode (secCheck (f.word j) ^^^ f.chk j) = .uncorr then some (4 * k + j) else none
      | none => none))
    some { hdr := hd.body, data := bytes, poison := bad, bad := data.length != (h.plen + 31) / 32 || hd.vc % 8 != h.cls }

/-- Whether a node ID has no reserved encoding (R212). -/
def nodeClean (n : Nat) : Bool :=
  let r := nodeRouter n
  let u := nodeUnit n
  decide (n / 64 % 16 < 12) && decide (n / 1024 % 8 < 6) &&
    (match routerErg r with
     | some _ => decide (u ≤ 0x10) || (decide (0x100 ≤ u) && decide (u < 0x200))
     | none => u == 0 || u == 0x10 || (u == 0x11 && r == 36) || (decide (0x20 ≤ u) && decide (u < 0x30) && r == 12))

/-- Whether a packet's header is malformed (R224): a reserved bit or encoding, an OP that its class does not carry, metadata from another
device or from no cipher engine, a lock request that is scheduled, that has a length or, to acquire, no lease. -/
def Dev.hdrBad (s : Dev) (hdr : BitVec 256) : Bool :=
  let h := Hdr.dec hdr
  !hdrClean hdr || !([1, 2, 4, 5, 6, 7, 8].contains h.op) || decide (512 < h.plen) || decide (65536 < h.len) ||
    !nodeClean h.dst || !nodeClean h.src || ((h.op == 5 || h.op == 6) && (h.len != 0 || h.sch)) || (h.op == 5 && h.lease == 0) ||
    ((h.op == 7 || h.op == 8) && (match s.nodeSrc h.src with | .engine _ => false | _ => true))

/-- A whole packet has come out of a local output (R222): it completes its message or joins the packets that came before, next in order. Where
one has been lost on the way, what is left of its message is discarded (R223). One malformed packet makes its message malformed (R224). -/
def Dev.packetIn (s : Dev) (m0 : Msg) : Dev :=
  let m : Msg := { m0 with bad := m0.bad || s.hdrBad m0.hdr }
  let h := m.h
  let same (x : Msg) : Bool := x.h.src == h.src && x.h.tag == h.tag && x.h.stamp == h.stamp && x.h.op == h.op && x.h.dst == h.dst
  if h.pkt = 0 then
    if h.last then { s with net := { s.net with delivered := s.net.delivered ++ [m] } }
    else { s with net := { s.net with partial_ := s.net.partial_ ++ [m] } }
  else match s.net.partial_.find? same with
    | none => s
    | some x =>
      let y : Msg := ⟨x.hdr, x.data ++ m.data, x.poison ++ m.poison.map (· + x.data.length / 8), x.bad || m.bad⟩
      let others := dropFirst' same s.net.partial_
      if h.pkt ≠ x.data.length / 512 then { s with net := { s.net with partial_ := others } }
      else if h.last then { s with net := { s.net with partial_ := others, delivered := s.net.delivered ++ [y] } }
      else { s with net := { s.net with partial_ := others ++ [y] } }
where
  /-- Removes the first entry of which `p` holds. -/
  dropFirst' (p : Msg → Bool) : List Msg → List Msg
    | [] => []
    | y :: ys => if p y then ys else y :: dropFirst' p ys

/-- Whether packets may cross a link (R231, R311): it is trained, and its enabled key IDs are ACTIVE. -/
def Dev.linkTrained (s : Dev) (n : Nat) : Bool :=
  let blk := B.CW n
  let ok (en id : Fld) : Bool := !s.flag blk en || (s.key (64 + s.fld blk id)).st == .active
  decide (2 ≤ s.fld blk F.CW_STATUS_STATE) && ok F.CW_KEY_CFG_TX_EN F.CW_KEY_CFG_TX_ID && ok F.CW_KEY_CFG_RX_EN F.CW_KEY_CFG_RX_ID

/-- The wait of a scheduled header at an output beyond 4 cycles (R228). -/
def Dev.schWait (s : Dev) (wait : Nat) : Dev :=
  let s1 := s.setFld B.HN F.HN_SCH_MAXWAIT_MAX (max (s.fld B.HN F.HN_SCH_MAXWAIT_MAX) (min wait 255))
  if s.fld B.HN F.HN_SCH_WAIT_WLINK < wait then (s1.count B.HN F.HN_SCH_MAXWAIT_OVER_CNT).event B.HN 6 else s1

/-- A flit leaves by output `o` on a virtual channel: to the next router, to the endpoint, or to the causeway link. -/
def Dev.sendFlit (s : Dev) (r o : Nat) (f : Flit) : Dev :=
  match meshNext r o with
  | some (n, p) => s.routerPush n p f
  | none =>
    if o = 5 then match routerLink r with
      | some n => { s with net := { s.net with toLink := Map.modify (fun _ => []) s.net.toLink n (· ++ [f]) } }
      | none => s
    else
      let k := 16 * r + f.vc
      let got := Map.get (fun _ => []) s.net.arriving k ++ [f]
      if f.tail then
        let s1 := { s with net := { s.net with arriving := Map.erase s.net.arriving k } }
        match packetMsg got with
        | some m => s1.packetIn m
        | none => s1
      else { s with net := { s.net with arriving := Map.set (fun _ => []) s.net.arriving k got } }

/-- The chosen flit is checked and sent (R223, R226, R228, R231). -/
def Dev.hopFlit (s : Dev) (r o : Nat) (c : Cand) (errs : List (Nat × BitVec 72)) : Dev :=
  let now := Map.get (fun _ => 0) (s.router r).wheel o
  let (f, fixed, bad) := checkFlit (hurtFlit c.flit.flit errs)
  let s1 := s.classCs B.HN fixed
  let uncorr (s : Dev) (k : Nat) (syn : Byte) : Dev :=
    (s.count B.HN F.HN_ERR_CNT_UNCORR_CNT).classU B.HN 0 .uncorr (64 * r + k) 0 syn.toNat
  match bad, c.head with
  | some (k, syn), true => (uncorr s1 k syn).dropPacket r c.buf
  | _, _ =>
    let h := Hdr.dec f.body
    let s2 := match bad with
      | some (k, syn) => if f.poison then s1 else uncorr s1 k syn
      | none => s1
    let f1 := if bad.isSome then { f with side := f.side ||| 64 } else f
    let untrained := c.head && o == 5 && (match routerLink r with | some n => !s.linkTrained n | none => true)
    if untrained then (s2.linkDrop ((routerLink r).getD 0) h).dropPacket r c.buf
    else
      let s3 := if c.head && (c.vc % 8 == 0 || c.vc % 8 == 3) then s2.schWait (now - c.flit.at_ - 4) else s2
      let s4 := s3.popFlit r c.buf
      let x := s4.router r
      let route := if f1.tail then Map.erase x.route c.buf else Map.set (fun _ => none) x.route c.buf (some (.out o c.vc))
      let busy := if f1.tail then Map.erase x.busy (16 * o + c.vc) else Map.set (fun _ => none) x.busy (16 * o + c.vc) (some c.buf)
      (s4.setRouter r { x with route, busy }).sendFlit r o (f1.setVc c.vc)

/-- ROUTER_HOP: output `o` of router `r` has its cycle and sends at most one flit (R226, R227); `errs`: errors in that flit as it came
in (R223). -/
def Dev.routerHop (s : Dev) (r o : Nat) (errs : List (Nat × BitVec 72)) : Dev :=
  let s0 := s.inject r 64
  let x := s0.router r
  let pos := Map.get (fun _ => 0) x.wheel o
  let picked := wheelPick pos (s0.candidates r o)
  let s1 := s0.setRouter r { x with wheel := Map.set (fun _ => 0) x.wheel o (pos + 1) }
  match picked with
  | none => s1
  | some c => s1.hopFlit r o c errs

/-- The register block whose arbiter set configures arbiter `a`: a DMC, or the HOLD block of a bank (R252). -/
def arbBlock (a : Nat) : Nat := if a < 8 then B.DMC a else B.HOLD ((a - 8) / 1024)

/-- The input a group is placed on (R241). -/
def Dev.arbInput (s : Dev) (a qg : Nat) : Nat := nfield (s.reg64 (arbBlock a) O.ARB_PRIO_MAP0 O.ARB_PRIO_MAP1) (4 * (qg % 16)) 4

/-- Whether an input is masked: its quota is used up, or it was cut off at this arbiter (R244, R246, R252). -/
def Dev.arbMasked (s : Dev) (a i : Nat) : Bool :=
  let quota := s.fld (arbBlock a) (F.ARB_QUOTA_QUOTA i)
  (quota != 0 && decide (quota ≤ Map.get (fun _ => 0) (s.arb a).used i)) || (s.arb a).cut.contains i

/-- ARB_FLAG of a block has been written: an input whose flag is clear is cut off at no arbiter that the block configures (R246, R252). -/
def Dev.arbUncut (s : Dev) (blk : Nat) : Dev :=
  s.net.arbs.foldl (fun s (x : Nat × ArbSt) =>
    if arbBlock x.1 = blk then s.setArb x.1 { x.2 with cut := x.2.cut.filter (fun i => nbit (s.reg blk O.ARB_FLAG).toNat i) } else s) s

/-- Whether a DMC's queue has an entry for a request (R265). -/
def Dev.dmcRoom (s : Dev) (k : Nat) (m : Msg) : Bool :=
  let ps := (s.dmc k).pieces.filter (fun p => p.write == (m.h.op == 2))
  let all := if m.h.op = 2 then 128 else 256
  let kept := if m.h.op = 2 then 32 else 64
  if m.h.sch then decide (ps.length < all)
  else decide ((ps.filter (fun p => !p.msg.h.sch)).length < all - kept) && decide (ps.length < all)

/-- The DMC registers that show an arbiter's masks and counts (R252: they read zero in HOLD blocks). -/
def Dev.showArb (s : Dev) (a : Nat) : Dev :=
  if a < 8 then
    let s1 := s.setFld (B.DMC a) F.ARB_FLAG_MASKED ((List.range 16).foldl (fun acc i =>
      let q := s.fld (B.DMC a) (F.ARB_QUOTA_QUOTA i)
      acc + (if q != 0 && q ≤ Map.get (fun _ => 0) (s.arb a).used i then 2 ^ i else 0)) 0)
    s1.forN 16 (fun s i => s.setFld (B.DMC a) (F.ARB_QUOTA_USED i) (min (Map.get (fun _ => 0) (s.arb a).used i) 0xFFFF))
  else s

/-- An arbiter grants a request (R242, R243): a lock request is served at the table (R238); one that meets another node's lock by now leaves
for the table's wait queue (R239); any other holds the grant. -/
def Dev.arbServe (s : Dev) (a : Nat) (q : ArbReq) : Dev :=
  if q.msg.h.op = 5 || q.msg.h.op = 6 then s.lockServe q.msg
  else if s.lockMeets q.msg then s.lockWait q.msg
  else s.setArb a { s.arb a with grant := some q, heldFor := 0, grantAt := s.clk.time }

/-- ARBITER_GRANT: a free arbiter grants the highest-numbered input that has a request and is not masked (R243, R244, R265). -/
def Dev.arbiterGrant (s : Dev) (a : Nat) : Dev :=
  let x := s.arb a
  if x.grant.isSome then s
  else if a < 8 && s.fld (B.DMC a) F.DMC_STATE_STATE ≠ 2 then s
  else
    let best := (List.range 16).reverse.find? (fun i =>
      !s.arbMasked a i && x.queue.any (fun q => s.arbInput a q.msg.h.qg == i))
    match best with
    | none => s
    | some i =>
      match x.queue.find? (fun q => s.arbInput a q.msg.h.qg == i) with
      | none => s
      | some q =>
        if a < 8 && q.msg.h.op ≤ 2 && !s.dmcRoom a q.msg then s
        else
          ((s.setArb a { x with queue := x.queue.erase q, used := Map.modify (fun _ => 0) x.used i (· + 1) }).showArb a).arbServe a
            { q with input := i }

/-- A window of an arbiter begins: counts clear and masks lift (R244). -/
def Dev.arbWindowStart (s : Dev) (a : Nat) : Dev := (s.setArb a { s.arb a with used := [], windowAt := s.clk.time }).showArb a

/-- ARBITER_WINDOW: a window of ARB_CFG.WIN cycles of NCLK ends and the next begins; in Underway the window is the tide, which ends at its
turn (R244). -/
def Dev.arbiterWindow (s : Dev) (a : Nat) : Dev :=
  if s.mode = .underway || 2 * (s.clk.time - (s.arb a).windowAt) * s.nclk < 1000 * s.fld (arbBlock a) F.ARB_CFG_WIN then s
  else s.arbWindowStart a

/-- Every arbiter's window restarts: a tide turn in Underway (R244). -/
def Dev.arbiterWindows (s : Dev) : Dev := (s.net.arbs.map (·.1)).foldl Dev.arbWindowStart s

/-- Whether a grant has lasted longer than HOLD_LIM service times (R242, R246): T_line at a DMC, 4 cycles of HCLK at a bank. Times in ps. -/
def Dev.grantOld (s : Dev) (a : Nat) : Bool :=
  let lasted := 2000 * (s.clk.time - (s.arb a).grantAt)
  let lim := s.fld (arbBlock a) F.ARB_CFG_HOLD_LIM
  if a < 8 then decide (lim * s.fld (B.DMC a) F.DMC_BOUND0_TLINE_PS < lasted) else decide (lim * 4000000 < lasted * s.hclk)

/-- ARB_CUT: a grant held longer than HOLD_LIM service times is cut off (R246): the request ends CUTOFF, the input is flagged and
masked at this arbiter. A read grant is never cut off. -/
def Dev.arbCut (s : Dev) (a : Nat) : Dev :=
  let x := s.arb a
  match x.grant with
  | none => s
  | some q =>
    if q.msg.h.op ≠ 2 || !s.grantOld a then s
    else
      let blk := arbBlock a
      let s1 := (s.setArb a { x with grant := none, heldFor := 0, cut := x.cut.filter (· != q.input) ++ [q.input] }).setReg blk O.ARB_FLAG
        (s.reg blk O.ARB_FLAG ||| BitVec.ofNat 32 (2 ^ q.input))
      let s2 := (s1.count blk F.ARB_CUT_CNT_CUT_CNT).classU blk 16 .cutoff q.msg.h.addr (nodeDev q.msg.h.src)
      s2.respondFrom a q.msg.h .cutoff

end Sys2Proof.Machine
end

