-- ==== Sys2Proof/Machine/Tide.lean ====
section
/-! DEFINITION. Machine/Tide.lean: tides: starting and stopping them, the turn and its steps, and the modes a turn can lead to (R47 to
R61, R82 to R88, R466, R476 to R480, R487, R488, R507 to R513, R558, R559). -/

namespace Sys2Proof.Machine

/-- A service message of a code that holds one pending message becomes pending on a link; a newer one replaces it (R333). -/
def Dev.svcPend (s : Dev) (n code pay : Nat) : Dev :=
  let l := s.link n
  s.setLink n { l with pend := Map.set (fun _ => none) l.pend code (some pay) }

/-- START_A and START_B become pending on every trained link but the one they came from (R87, R332). -/
def Dev.sendStart (s : Dev) (time len : Nat) (from_ : Option Nat) : Dev :=
  (s.flagLinks from_).foldl (fun s n =>
    (s.svcPend n 4 (time % 2 ^ 32 + 2 ^ 32 * (len % 2 ^ 17))).svcPend n 5 (time / 2 ^ 32 % 2 ^ 32)) s

/-- START_A and START_B are no longer pending on a link: the mesh starts (R333). -/
def Dev.dropStart (s : Dev) (n : Nat) : Dev :=
  let l := s.link n
  s.setLink n { l with pend := Map.set (fun _ => none) (Map.set (fun _ => none) l.pend 4 none) 5 none, startB := none }

/-- The payload of a TURN marker (R332). -/
def Dev.turnPayload (s : Dev) : Nat := s.tide.turnTime / 2 ^ 26 % 2 ^ 36 + 2 ^ 36 * (s.tide.num % 2 ^ 20)

/-- TURN becomes pending on every link that is not OFF (R333). -/
def Dev.sendTurn (s : Dev) : Dev := (s.flagLinks none).foldl (fun s n => s.svcPend n 6 s.turnPayload) s

/-- The signed value of an n-bit difference. -/
def signedMod (n : Nat) (v : Int) : Int :=
  let m := v % 2 ^ n
  if m < 2 ^ (n - 1) then m else m - 2 ^ n

/-- A neighbour's turn is compared with this device's turn of the same tide number, corrected by the link's offset (R88, R337): the largest
difference is kept with its link, and one beyond ±2 ns raises SKEW, bit 3 of TIDE. Link times are in 1/64 ns. How they round to
picoseconds, and which of two differences beyond the field is the larger, the spec leaves open (log entry 117). -/
def Dev.turnCompare (s : Dev) (n pay own : Nat) : Dev :=
  let off := (s.reg (B.CW n) O.CW_OFFSET).toInt
  let d := signedMod 36 ((pay % 2 ^ 36 : Nat) - off - own)
  let ps := max (-2048) (min 2047 ((d * 1000).tdiv 64))
  let was := signedMod 12 (s.fld B.TIDE F.TIDE_SKEW_SKEW_MAX)
  let s1 := if was.natAbs < ps.natAbs then
      (s.setFld B.TIDE F.TIDE_SKEW_SKEW_MAX (ps % 4096).toNat).setFld B.TIDE F.TIDE_SKEW_LINK n else s
  if 128 < d.natAbs then s1.event B.TIDE 3 else s1

/-- TURN from a neighbour (R332, R337): compared with this device's own turn of that number, or at it where it is still to come. -/
def Dev.svcTurn (s : Dev) (n pay : Nat) : Dev :=
  let num := pay / 2 ^ 36 % 2 ^ 20
  match s.tide.turns.find? (fun t => t.1 == num) with
  | some t => s.turnCompare n pay t.2
  | none => if num = (s.tide.num + 1) % 2 ^ 20 then s.setLink n { s.link n with turnRx := some pay } else s

/-- TURN markers that came before this device's turn are compared at it. -/
def Dev.turnsHeld (s : Dev) : Dev :=
  s.forN 16 (fun s n => match (s.link n).turnRx with
    | some pay => (s.setLink n { s.link n with turnRx := none }).svcTurn n pay
    | none => s)

/-- TIDE_CTRL.CMD START (R57, R86, R87). -/
def Dev.tideStartCmd (s : Dev) : Dev :=
  let master := s.flag B.TIDE F.TIDE_CTRL_MASTER
  let follow := s.flag B.TIDE F.TIDE_CTRL_FOLLOW
  if s.mode ≠ .moored || !s.tide.activated || s.tide.started || ((master || follow) && s.clk.refXtal) then s.finish B.TIDE .state
  else
    let t := s.reg64 B.TIDE O.TIDE_START_LO O.TIDE_START_HI
    let s1 := { s with tide := { s.tide with started := true, armed := if follow then s.tide.armed else some t } }
    (if master then s1.sendStart t s.tideLen none else s1).finish B.TIDE .ok

/-- TIDE_CTRL.CMD STOP (R58): disarms an armed start in Moored, stops tides at the next turn in Underway. -/
def Dev.tideStopCmd (s : Dev) : Dev :=
  match s.mode with
  | .moored =>
    if s.tide.started || s.tide.armed.isSome then
      { s with tide := { s.tide with started := false, armed := none, startSeen := none } }.finish B.TIDE .ok
    else s.finish B.TIDE .state
  | .underway => (s.stopTides (s.tide.num + 1) .stop).finish B.TIDE .ok
  | _ => s.finish B.TIDE .state

/-- TIDE_CTRL.BREACH_CLR (R89). -/
def Dev.breachClr (s : Dev) : Dev :=
  ((((s.setReg B.TIDE O.BREACH_FIRST0 0).setReg B.TIDE O.BREACH_FIRST1 0).setReg B.TIDE O.BREACH_LAST0 0).setReg B.TIDE
    O.BREACH_LAST1 0).setReg B.TIDE O.BREACH_CNT 0

/-- TIDE_START: station time has come to the armed start, so tide 0 begins (R57, R87). -/
def Dev.tideStart (s : Dev) : Dev :=
  match s.tide.armed with
  | some t =>
    if s.mode ≠ .moored || !s.tide.started || s.ns < t then s
    else
      let s1 := { s with tide := { s.tide with num := 0, tick := 0, armed := none, started := false, startSeen := none, flags := [], stopAt := none,
                                               policyFixed := false, gates := [], transfers := [], turns := [] } }
      (((s1.setMode .underway).forN 16 Dev.dropStart).forN 256 Dev.rxOpen).arbiterWindows.forN 32 Dev.showChange
  | none => s

/-- What stopping tides does to work in flight (R58, R559): scheduled data not delivered are discarded; every RUNNING erg drops its work,
served requests answered STATE; a pending halt is discarded (R466). The release views of a turn's step 2 go too: R559 over R56 (log entry
118). -/
def Dev.tidesEnd (s : Dev) : Dev :=
  let s1 := s.forN 32 (fun s e => if (s.erg e).mode = .running && (s.erg e).slack.runs then s.ergDrop e .state else s)
  { s1 with tide := { s1.tide with transfers := [], gates := [], stopAt := none, policyFixed := false } }.dropRun.maintTidesStop

/-- Device-wide Slack is entered (R478): every erg enters Slack, every ONLINE DMC goes to self-refresh unless a debugger keeps the Slack
emulated (R516). A pending halt is discarded (R466). -/
def Dev.enterSlack (s : Dev) : Dev :=
  let from_ := s.mode
  let emu := s.emulated
  let s1 := s.forN 32 (fun s e => s.slackEnter e emu)
  let s2 := if emu then s1 else s1.forN 8 (fun s k => if s.fld (B.DMC k) F.DMC_STATE_STATE = 2 then s.setDmc k { s.dmc k with selfRefresh := true } else s)
  ({ s2 with clk := { s2.clk with slackFrom := from_ }, pwr := { s2.pwr with sleepAt := none } }.dropRun.setFlag B.LH F.LH_MODE_EMULATED
    emu).setMode .slack

/-- Ergs whose accepted SLEEP_ERGS was for a later turn enter Slack when tides have stopped; so does the device (R475, R478: at once in
Moored; DEDUCED, notes/assumptions/30.md). -/
def Dev.sleepsAtStop (s : Dev) : Dev :=
  let s1 := s.forN 32 (fun s e => match (s.erg e).slack with
    | .dueIn _ => s.slackEnter e s.emulated
    | _ => s)
  if s1.pwr.sleepAt.isSome then s1.enterSlack else s1

/-- Stand-down is entered (R488): tides stop, every erg is put in Slack's state, THM_STAT shows the crossing. -/
def Dev.standDown (s : Dev) (low : Bool) : Dev :=
  let s1 := (s.tidesEnd).forN 32 (fun s e => s.slackEnter e)
  let s2 := ((s1.setFlag B.THM F.THM_STAT_CRIT true).setFlag B.THM F.THM_STAT_CRIT_LOW low).setFlag B.THM F.THM_STAT_COOL false
  let s3 := { s2 with pwr := { s2.pwr with sleepAt := none }, thm := { s2.thm with critAt := none, coolSeen := false },
                      tide := { s2.tide with armed := none, started := false } }
  (s3.setFlag B.LH F.LH_MODE_EMULATED false).setMode .standDown |>.commitsAtStop

/-- HLD_RET falls (R480, R482). -/
def Dev.hldRetFall (s : Dev) : Dev := { s with pins := { s.pins with hldRet := false } }

/-- Every ONLINE DMC's device leaves self-refresh (R480). -/
def Dev.dmcsWake (s : Dev) : Dev :=
  s.forN 8 (fun s k => if s.fld (B.DMC k) F.DMC_STATE_STATE = 2 then s.setDmc k { s.dmc k with selfRefresh := false } else s)

/-- A pending critical crossing leads to Stand-down now (R487); a sleeping device wakes into it (R480). -/
def Dev.critNow (s : Dev) : Dev :=
  match s.thm.critAt with
  | none => s
  | some (_, low) =>
    if s.mode = .slack then ({ s.hldRetFall.dmcsWake with pwr := { s.pwr with waking := false } }).standDown low
    else if s.mode = .moored || s.mode = .anchored then s.standDown low
    else s

/-- Tides stop and the device moors, because of STOP or of a breach (R58, R84, R558, R559). -/
def Dev.moorAt (s : Dev) (why : StopReason) (atTurn : Bool) : Dev :=
  let s1 := if atTurn then { s.tidesEnd with pwr := { s.pwr with sleepAt := none } } else s.tidesEnd
  let s2 := s1.setMode .moored
  let s3 := if why = .breach then s2.event B.TIDE 2 else s2
  (s3.commitsAtStop).sleepsAtStop

/-- A debug halt takes effect at a turn (R56, R509, R513): HALTED. -/
def Dev.haltNow (s : Dev) (lockstep : Bool) (cause : Nat) : Dev :=
  let alone := !s.flag B.TIDE F.TIDE_CTRL_MASTER && !s.flag B.TIDE F.TIDE_CTRL_FOLLOW
  let lk := lockstep || alone || (cause == 3 && s.run.stepLockstep)
  let s1 := { s with run := { s.run with haltAt := none, haltTide := s.tide.num, haltLockstep := lk, stepping := false, stepLockstep := false } }
  let s2 := (((s1.setFlag B.DBG F.DBG_STAT_PENDING false).setFlag B.DBG F.DBG_STAT_HALTED true).setFlag B.DBG F.DBG_STAT_LOCKSTEP
    lk).setFld B.DBG F.DBG_STAT_CAUSE cause
  ((s2.setFld B.DBG F.DBG_STAT_STEP_LEFT 0).setMode .anchored).event B.DBG 0

/-- The tide breakpoint at the turn into tide `x` (R510): a halt there; with LOCKSTEP the flag goes out two tides before. -/
def Dev.tideBreak (s : Dev) (x : Nat) : Dev :=
  let bp := s.reg64 B.DBG O.DBG_BP_TIDE_LO O.DBG_BP_TIDE_HI
  let lk := s.flag B.DBG F.DBG_BP_CFG_LOCKSTEP
  if !s.flag B.DBG F.DBG_BP_CFG_TIDE_EN then s
  else if bp = x then s.haltAt x lk 4
  else if lk && bp = x + 2 then (s.haltAt bp true 4).sendFlag 2 bp s.coord none
  else s

/-- A step counts its tides (R512): at zero the device halts. -/
def Dev.stepTurn (s : Dev) (x : Nat) : Dev :=
  if !s.run.stepping then s
  else
    let left := s.fld B.DBG F.DBG_STAT_STEP_LEFT - 1
    let s1 := s.setFld B.DBG F.DBG_STAT_STEP_LEFT left
    if left = 0 then s1.haltAt x s1.run.stepLockstep 3 else s1

/-- What a turn leads to where neither a critical crossing nor a stop is due: the device-wide sleep, else a halt (R466). -/
def Dev.afterStop (s : Dev) (x : Nat) : Dev :=
  if (match s.pwr.sleepAt with | some u => decide (u ≤ x) | none => false) then s.enterSlack
  else match s.run.haltAt with
    | some (t, lk, cause) => if t ≤ x then s.haltNow lk cause else s
    | none => s

/-- What step 7 of R54 does, in the order of R466: a critical crossing, a stop, the device-wide sleep, a halt. -/
def Dev.endStep (s : Dev) (x : Nat) : Dev :=
  let crit := match s.thm.critAt with
    | some (t, low) => if t ≤ x then some low else none
    | none => none
  match crit, s.tide.stopAt with
  | some low, _ => s.standDown low
  | none, some (t, why) => if t ≤ x then s.moorAt why (match s.pwr.sleepAt with | some u => decide (u ≤ x) | none => false) else s.afterStop x
  | none, none => s.afterStop x

/-- Step 7 of R54. A critical crossing that is due later finds the device in a mode in which it acts at once (R487). -/
def Dev.lastStep (s : Dev) (x : Nat) : Dev := (s.endStep x).critNow

/-- The turn (R54): the seven steps in their order; TURN markers go out, the arbiters' windows restart (R244, R333). -/
def Dev.turn (s : Dev) : Dev :=
  let s0 := s.issuesLeft
  let x := satAdd 64 s0.tide.num 1
  let gates := s0.tide.gates.filter (fun g => g.1 % 2 != s0.tide.num % 2)
  let turns := ((x % 2 ^ 20, s0.eth.time / 2 ^ 26) :: s0.tide.turns).take 64
  let s1 := { s0 with tide := { s0.tide with num := x, tick := 0, turnTime := s0.eth.time, gates, turns } }
  let s2 := s1.releaseTurn x
  let s3 := s2.steerAll
  let s4 := s3.fencesTurn x
  let s5 := s4.activationTurn x
  let s6 := (s5.slackTurn x).maintTurn x
  let s7 := ((s6.sendTurn.turnsHeld.arbiterWindows).forN 32 Dev.showChange)
  ((s7.tideBreak x).stepTurn x).lastStep x

/-- The ticks that remain of a tide pass. -/
def Dev.ticks (s : Dev) : Nat → Dev
  | 0 => s
  | n + 1 => s.tideTick.ticks n

/-- TIDE_TURN: the tide's tick count ends; ticks of it that no command has made pass first. -/
def Dev.tideTurn (s : Dev) : Dev :=
  if s.mode ≠ .underway then s else (s.ticks (s.tideLen - s.tide.tick)).turn

/-- Tides run on from tick offset 0 of the tide that was due, with the changes held for it (R56, R162, R475, R480). -/
def Dev.tidesGoOn (s : Dev) : Dev :=
  let x := s.tide.num
  let s1 := (s.setMode .underway).forN 256 Dev.rxOpen
  (((s1.steerAll.fencesTurn x).activationTurn x).slackTurn x).forN 32 Dev.showChange

/-- XING_RELEASE: the entries at the head of a queue reach their release tick and are released (R59 to R61). `arrival`: the tick at which they
reach the reading side; what comes after its release tick is released on arrival and counted as slips. Nothing is released before both. -/
def Dev.xingRelease (s : Dev) (q arrival : Nat) : Dev :=
  match Map.get (fun _ => []) s.tide.xing q with
  | [] => s
  | e :: _ => if s.tide.count < e.release || s.tide.count < arrival then s else s.xingTake q (decide (e.release < arrival))

/-- TIDE_NUM_LO_READ: the high word is latched (R89). -/
def Dev.tideNumRead (s : Dev) : Dev := s.setReg B.TIDE O.TIDE_NUM_HI (BitVec.ofNat 32 (s.tide.num / 2 ^ 32))

/-- TURN_TIME_LO_READ (R89). -/
def Dev.turnTimeRead (s : Dev) : Dev := s.setReg B.TIDE O.TURN_TIME_HI (BitVec.ofNat 32 (s.tide.turnTime / 2 ^ 64))

/-- TIDE_SKEW_READ: SKEW_MAX clears (R89). -/
def Dev.skewRead (s : Dev) : Dev := s.setFld B.TIDE F.TIDE_SKEW_SKEW_MAX 0

/-- ADM_BOUND_SEL (R89): an ID at or above DECL_COUNT sets LAST_STATUS to RANGE. -/
def Dev.boundSel (s : Dev) (w : Word) : Dev :=
  let id := w.toNat % 8192
  let s1 := s.setReg B.ADM O.ADM_BOUND_SEL (BitVec.ofNat 32 id)
  if s.tide.decls.length ≤ id then s1.done B.ADM .range else s1

/-- What the tide and admission registers show (R89). -/
def Dev.tideView (s : Dev) (blk off : Nat) : Option Word :=
  if blk = B.TIDE then
    if off = O.TIDE_NUM_LO then some (BitVec.ofNat 32 s.tide.num)
    else if off = O.TURN_TIME_LO then some (BitVec.ofNat 32 (s.tide.turnTime / 2 ^ 32))
    else none
  else if blk = B.ADM && off = O.ADM_BOUND then
    some (BitVec.ofNat 32 (min ((s.tide.bounds[s.fld B.ADM F.ADM_BOUND_SEL_DECL]?).getD 0) 0xFFFFFF))
  else none

end Sys2Proof.Machine
end

