-- ==== Sys2Proof/Machine/RunCtl.lean ====
section
/-! DEFINITION. Machine/RunCtl.lean: run control (R507 to R518), and what a device does with the BREACH, HALT and RESUME flags of other
devices (R83, R334, R335, R508, R511). -/

namespace Sys2Proof.Machine

/-- The grid on which tides resume, in ns (R511). -/
def resumeGrid : Nat := 16384

/-- A resume instant becomes pending (R511). -/
def Dev.resumeSoon (s : Dev) (g : Nat) : Dev :=
  { s with run := { s.run with resumeAt := some (g + resumeGrid), resumeShown := g + resumeGrid } }.setFlag B.DBG F.DBG_STAT_RESUMING true

/-- A RESUME accepted now (R511): G0 is the first instant of the grid at or after it; in lockstep the flag leaves at G0. -/
def Dev.resumeFrom (s : Dev) (lockstep : Bool) : Dev :=
  let unit := resumeGrid * 2 ^ 32
  let g0 := (s.eth.time + unit - 1) / unit * resumeGrid
  let s1 := s.resumeSoon g0
  if lockstep then { s1 with run := { s1.run with flagAt := some (g0, s.tide.num) } } else s1

/-- DBG_CTRL.OP HALT (R507, R513). -/
def Dev.dbgHalt (s : Dev) (lockstep : Bool) : Dev :=
  match s.mode with
  | .underway => (s.haltRequest lockstep 1).finish B.DBG .ok
  | .anchored => if s.run.resumeAt.isSome then s.finish B.DBG .state else s.finish B.DBG .ok
  | _ => s.finish B.DBG .state

/-- DBG_CTRL.OP RESUME (R511, R513). -/
def Dev.dbgResume (s : Dev) (lockstep : Bool) : Dev :=
  match s.mode with
  | .anchored => if s.run.resumeAt.isSome then s.finish B.DBG .ok else (s.resumeFrom lockstep).finish B.DBG .ok
  | _ => s.finish B.DBG .state

/-- DBG_CTRL.OP STEP (R512, R513): a COUNT of 0 completes at once. -/
def Dev.dbgStep (s : Dev) (lockstep : Bool) : Dev :=
  let n := s.fld B.DBG F.DBG_STEP_COUNT
  match s.mode with
  | .anchored =>
    if s.run.resumeAt.isSome then s.finish B.DBG .state
    else if n = 0 then s.finish B.DBG .ok
    else
      let s1 := (s.resumeFrom lockstep).setFld B.DBG F.DBG_STAT_STEP_LEFT n
      { s1 with run := { s1.run with stepping := true, stepLockstep := lockstep } }.finish B.DBG .ok
  | _ => s.finish B.DBG .state

/-- A RESUME flag whose instant has come goes out on every trained link (R334, R511). -/
def Dev.flagDue (s : Dev) : Dev :=
  match s.run.flagAt with
  | some (g, t) => if s.ns < g then s else { s with run := { s.run with flagAt := none } }.sendFlag 3 t s.coord none
  | none => s

/-- RESUMED: station time has come to the resume instant, so the halted tide starts (R511). On resumption from a single halt the breach
SINGLE_HALT is raised (R509). -/
def Dev.resumed (s : Dev) : Dev :=
  match s.run.resumeAt with
  | some g =>
    if s.mode ≠ .anchored || s.ns < g then s
    else
      let single := !s.run.haltLockstep
      let s1 := s.flagDue
      let s2 := { s1 with run := { s1.run with resumeAt := none } }
      let s3 := ((s2.setFlag B.DBG F.DBG_STAT_RESUMING false).setFlag B.DBG F.DBG_STAT_HALTED false).tidesGoOn.event B.DBG 1
      if single then s3.breach 6 0 0 else s3
  | none => s

/-- DBG_HALT_TIDE_LO_READ and DBG_RESUME_AT_LO_READ: the high word is latched (R518). -/
def Dev.haltTideRead (s : Dev) : Dev := s.setReg B.DBG O.DBG_HALT_TIDE_HI (BitVec.ofNat 32 (s.run.haltTide / 2 ^ 32))
def Dev.resumeAtRead (s : Dev) : Dev := s.setReg B.DBG O.DBG_RESUME_AT_HI (BitVec.ofNat 32 (s.run.resumeShown / 2 ^ 32))

/-- The tide number a flag's 50 bits name: the one nearest this device's tide (the flag carries bits [49:0], R332). -/
def Dev.flagTide (s : Dev) (t : Nat) : Nat :=
  let base := s.tide.num / 2 ^ 50 * 2 ^ 50 + t % 2 ^ 50
  if s.tide.num + 2 ^ 49 < base then base - 2 ^ 50 else if base + 2 ^ 49 < s.tide.num then base + 2 ^ 50 else base

/-- Whether a BREACH, HALT or RESUME flag is a further copy with the same code and target, which is ignored (R334). -/
def Dev.flagCopy (s : Dev) (code pay : Nat) : Bool := s.tide.flags.contains (code, pay % 2 ^ 50)

/-- BREACH from another device (R83, R335): cause MESH, MESH_IN (bit 4 of TIDE), and the device moors at the turn into the target; at
its next turn where that has passed, and FLAG_LATE (bit 8 of the link's block) is raised. -/
def Dev.svcBreach (s : Dev) (n pay : Nat) : Dev :=
  if s.flagCopy 1 pay then s
  else
    let s1 := (s.sendFlag 1 pay (pay / 2 ^ 50 % 64) (some n)).event B.TIDE 4
    if s1.mode ≠ .underway && s1.mode ≠ .anchored then s1
    else
      let t := s1.flagTide pay
      let late := decide (t ≤ s1.tide.num)
      let s2 := (if late then s1.event (B.CW n) 8 else s1).breachRecord 7 0 0
      if s2.tide.policyFixed then s2
      else { s2 with tide := { s2.tide with policyFixed := true } }.stopTides (if late then s2.tide.num + 1 else t) .breach

/-- HALT from another device (R507, R508): at the turn into its target; a late one at the next turn, with HALT_LATE (bit 2 of DBG), but
for one that names a target no earlier than the one pending. -/
def Dev.svcHalt (s : Dev) (n pay : Nat) : Dev :=
  if s.flagCopy 2 pay then s
  else
    let s1 := s.sendFlag 2 pay (pay / 2 ^ 50 % 64) (some n)
    let t := s1.flagTide pay
    if s1.mode ≠ .underway then s1
    else if t ≤ s1.tide.num then
      (if (match s1.run.haltAt with | some (u, _, _) => decide (u ≤ t) | none => false) then s1
       else (s1.haltAt (s1.tide.num + 1) false 2).event B.DBG 2)
    else s1.haltAt t true 2

/-- RESUME from another device (R511): G is the latest instant of the grid at or before the flag's arrival. It is acted on in Halted
alone (R513). -/
def Dev.svcResume (s : Dev) (n pay : Nat) : Dev :=
  if s.flagCopy 3 pay then s
  else
    let s1 := s.sendFlag 3 pay (pay / 2 ^ 50 % 64) (some n)
    if s1.mode ≠ .anchored || s1.run.resumeAt.isSome then s1
    else s1.resumeSoon (s1.ns / resumeGrid * resumeGrid)

/-- What the registers of run control show (R518). -/
def Dev.runView (s : Dev) (off : Nat) : Option Word :=
  if off = O.DBG_HALT_TIDE_LO then some (BitVec.ofNat 32 s.run.haltTide)
  else if off = O.DBG_RESUME_AT_LO then some (BitVec.ofNat 32 s.run.resumeShown)
  else none

end Sys2Proof.Machine
end

