-- ==== Sys2Proof/Machine/Station.lean ====
section
/-! DEFINITION. Machine/Station.lean: station time, its servos and the PPS pins (R86, R383 to R386). Times are kept in units of
2^-32 ns, modulo 2^96. -/

namespace Sys2Proof.Machine

/-- Station time changes by a signed amount. -/
def Dev.moveTime (s : Dev) (d : Int) : Dev := { s with eth := { s.eth with time := (((s.eth.time : Int) + d) % 2 ^ 96).toNat } }

/-- The signed rate adjustment, in units of 2^-32 ns a cycle (R383). -/
def Dev.rate (s : Dev) : Int := (s.reg B.ETH O.ST_RATE).toInt

/-- One 2 ns cycle of the time clock passes: station time advances by 2 ns + ST_RATE × 2^-32 ns (R383). -/
def Dev.stationCycle (s : Dev) : Dev := s.moveTime (2 * 2 ^ 32 + s.rate)

/-- ST_NOW_LO_READ: the high word and the fraction are latched (R383). -/
def Dev.stNowRead (s : Dev) : Dev :=
  (s.setReg B.ETH O.ST_NOW_HI (BitVec.ofNat 32 (s.ns / 2 ^ 32))).setReg B.ETH O.ST_NOW_FRAC (BitVec.ofNat 32 s.eth.time)

/-- ST_PPS_CAP_LO_READ: the high word of the capture is latched (R390). -/
def Dev.ppsCapRead (s : Dev) : Dev := s.setReg B.ETH O.ST_PPS_CAP_HI (BitVec.ofNat 32 (s.eth.ppsCap / 2 ^ 32))

/-- Station time takes a value in ns, and VALID is set (R385). -/
def Dev.setTime (s : Dev) (ns : Nat) : Dev :=
  { s with eth := { s.eth with time := ns % 2 ^ 64 * 2 ^ 32 } }.setFlag B.ETH F.ST_STAT_VALID true

/-- ST_STEP (R385): sets station time while it is not VALID, else adds the signed value; refused in Underway and while a tide start
is armed. -/
def Dev.stStep (s : Dev) : Dev :=
  let v := s.reg64 B.ETH O.ST_STEP_LO O.ST_STEP_HI
  if s.mode = .underway || s.tide.armed.isSome || s.tide.started then s.finish B.ETH .state
  else if s.flag B.ETH F.ST_STAT_VALID then (s.moveTime ((BitVec.ofNat 64 v).toInt * 2 ^ 32)).finish B.ETH .ok
  else (s.setTime v).finish B.ETH .ok

/-- A signed value held in a field of `w` bits, saturating at its ends. -/
def satSigned (w : Nat) (v : Int) : Nat := ((max (-(2 ^ (w - 1))) (min (2 ^ (w - 1) - 1) v)) % 2 ^ w).toNat

/-- LOCK takes a value; each change raises LOCK_CHG, bit 9 of ETH (R386). -/
def Dev.setLock (s : Dev) (b : Bool) : Dev :=
  if s.flag B.ETH F.ST_STAT_LOCK = b then s else (s.setFlag B.ETH F.ST_STAT_LOCK b).event B.ETH 9

/-- An update of a servo (R386): `off` is the reference's time minus this device's in units of 2^-32 ns, `cycles` the time-clock cycles
from one update to the next. Beyond ±1 us outside Underway the offset is stepped out; else ST_RATE changes by what removes the offset
over the next 8 updates, within its limit (the rounding toward zero: DEDUCED, notes/assumptions/35.md). -/
def Dev.servo (s : Dev) (off : Int) (cycles : Nat) : Dev :=
  let ns := off.tdiv (2 ^ 32)
  let near := decide (off.natAbs ≤ 20 * 2 ^ 32)
  let s1 := s.setFld B.ETH F.ST_STAT_OFFSET (satSigned 16 ns)
  let s2 := if decide (1000 * 2 ^ 32 < off.natAbs) && s.mode != .underway then s1.moveTime off
    else s1.setReg B.ETH O.ST_RATE (BitVec.ofInt 32 (max (-4294967) (min 4294967 (s.rate + off.tdiv (8 * cycles)))))
  let good := if near then s2.eth.good + 1 else 0
  let s3 := { s2 with eth := { s2.eth with good := min good 16 } }
  if !near then s3.setLock false else if 16 ≤ good then s3.setLock true else s3

/-- The source of discipline: FREE 0, HOST 1, PPS 2, LINK 3 (R384). -/
def Dev.stSrc (s : Dev) : Nat := s.fld B.ETH F.ST_CTRL_SRC

/-- PPS_IN: a rising edge is captured where IN_EN is set; in PPS the servo takes the distance to the nearest whole second (R384,
R386). -/
def Dev.ppsIn (s : Dev) : Dev :=
  if !s.flag B.ETH F.ST_PPS_CFG_IN_EN then s
  else
    let s1 := { s with eth := { s.eth with ppsCap := s.ns } }.event B.ETH 8
    let past : Nat := s.eth.time % (1000000000 * 2 ^ 32)
    let off : Int := if 2 * past < 1000000000 * 2 ^ 32 then -(past : Int) else (1000000000 * 2 ^ 32 : Int) - (past : Int)
    if s.stSrc = 2 then s1.servo off 500000000 else s1

/-- PPS_OUT: the pin is high for WIDTH ms from each whole second, where OUT_EN is set (R386); low in Aground (R546). -/
def Dev.ppsOut (s : Dev) : Dev :=
  let high := s.mode != .aground && s.flag B.ETH F.ST_PPS_CFG_OUT_EN && decide (s.ns % 1000000000 < s.fld B.ETH F.ST_PPS_CFG_WIDTH * 1000000)
  { s with eth := { s.eth with ppsOut := high } }

/-- The servo of LINK follows the offset that a link measured (R384, R386): `off` in 1/64 ns; a SYNC exchange every 1,024 frames of
10.3125 ns is 5,280 cycles. -/
def Dev.linkServo (s : Dev) (n : Nat) (off : Int) : Dev :=
  if s.stSrc = 3 && s.fld B.ETH F.ST_CTRL_LINK == n && s.flag B.ETH F.ST_STAT_VALID && decide (2 ≤ s.fld (B.CW n) F.CW_STATUS_STATE)
  then s.servo (off * 2 ^ 26) 5280 else s

/-- In LINK, while VALID is 0, the upstream EPOCH is taken whole (R336, R385). The 8 ns bits and
the fraction that the message does not carry are a free value (notes/assumptions/36.md). -/
def Dev.takeEpoch (s : Dev) (n pay : Nat) : Dev :=
  if s.stSrc = 3 && s.fld B.ETH F.ST_CTRL_LINK == n && !s.flag B.ETH F.ST_STAT_VALID then
    let (w, s1) := s.freeWord
    let t := pay % 2 ^ 56 * 2 ^ 40 + w.toNat % 2 ^ 40
    { s1 with eth := { s1.eth with time := t } }.setFlag B.ETH F.ST_STAT_VALID true
  else s

/-- What the registers of station time show (R383, R390). -/
def Dev.stationView (s : Dev) (off : Nat) : Option Word :=
  if off = O.ST_NOW_LO then some (BitVec.ofNat 32 s.ns)
  else if off = O.ST_PPS_CAP_LO then some (BitVec.ofNat 32 s.eth.ppsCap)
  else none

end Sys2Proof.Machine
end

