-- ==== Sys2Proof/Machine/Cw.lean ====
section
/-! DEFINITION. Machine/Cw.lean: causeway links (R309 to R343): training, frames, credits, retry, relock, falls, service messages, delay
measurement, key rotation. Blocks stand here as their 64-bit payloads, before scrambling. -/

namespace Sys2Proof.Machine

/-- Class codes that cross a link (R317): RSP.S, RSP.B, SCH, BE. -/
def linkClasses : List Nat := [0, 1, 3, 4]

/-- Flits of a class this device's receive buffer holds (R325). -/
def linkBuffer (c : Nat) : Nat := if c = 0 || c = 3 then 80 else 40

/-- The device that link `n` leads to, as its edge implies: links 0 to 3 north, 4 to 7 east, 8 to 11 south, 12 to 15 west (R213, R324);
none beyond the coordinates there are. -/
def Dev.linkPeer (s : Dev) (n : Nat) : Option Nat :=
  let x := s.coord % 8
  let y := s.coord / 8
  match n / 4 with
  | 0 => if y = 0 then none else some (x + 8 * (y - 1))
  | 1 => if x = 7 then none else some (x + 1 + 8 * y)
  | 2 => if y = 7 then none else some (x + 8 * (y + 1))
  | _ => if x = 0 then none else some (x - 1 + 8 * y)

/-- State of a link (R322): OFF 0, TRAINING 1, UP 2, RELOCK 3. -/
def Dev.linkState (s : Dev) (n : Nat) : Nat := s.fld (B.CW n) F.CW_STATUS_STATE

/-- The rows that a link sends in training (R323). -/
def Dev.ts1Blocks (s : Dev) (n : Nat) : List DWord :=
  (List.range 8).map (fun k => BitVec.ofNat 64 (0x4B + 2 ^ 8 * k + 2 ^ 11 * n + 2 ^ 15 * s.coord + 2 ^ 24 + 2 ^ 32 * (s.link n).ownAccept.toNat))
def Dev.ts2Blocks (s : Dev) (n : Nat) : List DWord :=
  List.replicate 8 (BitVec.ofNat 64 (0x55 + 2 ^ 8 * 80 + 2 ^ 16 * 40 + 2 ^ 24 * 80 + 2 ^ 32 * 40 +
    2 ^ 40 * s.fld (B.CW n) F.CW_KEY_CFG_TX_EN + 2 ^ 41 + 2 ^ 42 + 2 ^ 43 * (s.link n).ownAccept.toNat))

/-- The rows on the pins show what the link sends in its present step of training. -/
def Dev.trainRow (s : Dev) (n : Nat) : Dev :=
  let l := s.link n
  match l.step with
  | .ts1 => s.setLink n { l with sent := s.ts1Blocks n }
  | .ts2 => s.setLink n { l with sent := s.ts2Blocks n }
  | .sof => s.setLink n { l with sent := List.replicate 8 0x78 }
  | _ => s

/-- Training starts at step 1 of R324. -/
def Dev.trainStart (s : Dev) (n : Nat) : Dev :=
  let l := s.link n
  (s.setLink n { l with step := .ts1, rows1 := 0, rows2 := 0, ownAccept := false }).trainRow n

/-- Complete packets at the head of a receive buffer, and what is left. -/
def wholePacket (fs : List Flit) : Option (List Flit × List Flit) :=
  match fs.findIdx? (fun f => f.tail) with
  | some i => some (fs.take (i + 1), fs.drop (i + 1))
  | none => none

/-- Complete packets of a class leave the receive buffer for the router while it has room, on the virtual channel that R230 gives them;
their credits are to be returned (R325). -/
def Dev.linkDrain (s : Dev) (n c : Nat) : Nat → Dev
  | 0 => s
  | k + 1 =>
    let l := s.link n
    match wholePacket (Map.get (fun _ => []) l.rx c) with
    | none => s
    | some (p, rest) =>
      match p with
      | [] => s
      | hd :: _ =>
        let vc := s.outVc (Hdr.dec hd.body)
        let r := linkRouter n
        if 20 < (Map.get (fun _ => []) (s.router r).inq (16 * 5 + vc)).length + p.length then s
        else
          let s1 := s.setLink n { l with rx := Map.set (fun _ => []) l.rx c rest, give := Map.modify (fun _ => 0) l.give c (· + p.length) }
          (p.foldl (fun s f => s.routerPush r 5 (f.setVc vc)) s1).linkDrain n c k

/-- Every class drains. -/
def Dev.linkDrainAll (s : Dev) (n : Nat) : Dev := linkClasses.foldl (fun s c => s.linkDrain n c 80) s

/-- A link falls to TRAINING (R328): complete packets are delivered, partial ones and the replay buffer go, what waits is handled under
R231; LINK_DOWN, class U, and PROTO for a violation. In TRAINING it only starts training again. -/
def Dev.linkFall (s : Dev) (n : Nat) (proto : Bool) : Dev :=
  if s.linkState n = 1 then (if proto then (s.trainStart n).event (B.CW n) 7 else s.trainStart n) else
  let s1 := (s.linkDrainAll n).linkFlush n
  let l := s1.link n
  let whole (fs : List Flit) : List Flit := (fs.reverse.dropWhile (fun f => !f.tail)).reverse
  let rx := linkClasses.foldl (fun m c => Map.modify (fun _ => []) m c whole) l.rx
  let s2 := (s1.setLink n { l with rx, rxOpen := [], txOpen := [], replay := [], replayAt := none, failed := none, nak := false, t1 := none,
                                   t2 := none, t3 := none, t4 := none, turnRx := none }).setFld (B.CW n) F.CW_STATUS_STATE 1
  let s3 := ((s2.count (B.CW n) F.CW_CNT1_DOWN_CNT).classU (B.CW n) 2 .ok n).trainStart n
  if proto then s3.event (B.CW n) 7 else s3

/-- CW_CTRL.EN takes a value (R322, R324). -/
def Dev.linkEnable (s : Dev) (n : Nat) (en : Bool) : Dev :=
  if en then
    if s.linkState n = 0 then
      ((s.setFlag (B.CW n) F.CW_CTRL_EN true).setFld (B.CW n) F.CW_STATUS_STATE 1).trainStart n
    else s.setFlag (B.CW n) F.CW_CTRL_EN true
  else s.linkOff n

/-- CW_CTRL.RETRAIN (R324, R328). -/
def Dev.retrain (s : Dev) (n : Nat) : Dev :=
  match s.linkState n with
  | 0 => s.finish (B.CW n) .state
  | 1 => (s.trainStart n).finish (B.CW n) .ok
  | _ => (s.linkFall n false).finish (B.CW n) .ok

/-- Whether a link key is ACTIVE. -/
def Dev.linkKeyActive (s : Dev) (id : Nat) : Bool := (s.key (64 + id)).st == .active

/-- CW_CTRL.KEY_SWITCH (R338). -/
def Dev.keySwitch (s : Dev) (n : Nat) : Dev :=
  let blk := B.CW n
  let next := s.fld blk F.CW_KEY_NEXT_TX_NEXT
  if !s.linkKeyActive next || !s.flag blk F.CW_KEY_CFG_TX_EN || s.linkState n ≠ 2 then s.finish blk .state
  else
    let s1 := (s.setFlag blk F.CW_STATUS_KPH (!s.flag blk F.CW_STATUS_KPH)).setFld blk F.CW_KEY_CFG_TX_ID next
    (s1.setLink n { s1.link n with lastTxId := some next }).finish blk .ok

/-- The link enters RELOCK and sends TS1 rows again (R327). -/
def Dev.relock (s : Dev) (n : Nat) : Dev :=
  (s.setLink n { s.link n with sent := s.ts1Blocks n, ownAccept := false }).setFld (B.CW n) F.CW_STATUS_STATE 3

/-- A relock completes (R327): class C, RELOCK; frames resume with a replay from ACK + 1. -/
def Dev.relockDone (s : Dev) (n : Nat) : Dev :=
  let l := s.link n
  let s1 := s.setLink n { l with failed := none, nak := false, hdrBad := [], replayAt := l.replay.head?.map (·.seq),
                                 replay := l.replay.map (fun k => { k with replays := 0 }) }
  (((s1.setFld (B.CW n) F.CW_STATUS_STATE 2).count (B.CW n) F.CW_CNT0_RELOCK_CNT).classC (B.CW n)).event (B.CW n) 1

/-- The checks of step 3 of R324 on a TS1 row, with the skew of step 2 (at most 4.0 ns, 128 units of 1/32 ns). -/
def Dev.ts1Good (s : Dev) (n : Nat) (blocks : List DWord) (skew : Nat) : Bool :=
  decide (skew ≤ 128) && decide (blocks.length = 8) && (List.range 8).all (fun k =>
    let b := (blocks.getD k 0).toNat
    nfield b 0 8 == 0x4B && nfield b 8 3 == k && nfield b 11 4 == Nat.xor n 8 && some (nfield b 15 6) == s.linkPeer n && nfield b 24 8 == 1)

/-- TS1_ROW: a row of TS1 blocks has been received, with the lane skew (1/32 ns) and the inverted lanes found (R323, R324). In UP the peer
has restarted (R328); in RELOCK steps 1 and 2 are done again (R327). -/
def Dev.ts1Row (s : Dev) (n : Nat) (blocks : List DWord) (skew pol : Nat) : Dev :=
  let blk := B.CW n
  let measured (s : Dev) : Dev := (s.setFld blk F.CW_DELAY_SKEW (min skew 255)).setFld blk F.CW_STATUS_LANE_POL pol
  let train (s : Dev) : Dev :=
    let b := (blocks.getD 0 0).toNat
    let s1 := (((measured s).setFld blk F.CW_PEER_DEV (nfield b 15 6)).setFld blk F.CW_PEER_LINK (nfield b 11 4)).setFld blk F.CW_PEER_VERSION
      (nfield b 24 8)
    let l := s1.link n
    if l.step ≠ .ts1 then s1
    else if !s1.ts1Good n blocks skew then ((s1.setLink n { l with ownAccept := false, rows1 := 0 }).event blk 5).trainRow n
    else
      let both := l.ownAccept && blocks.all (fun b => nbit b.toNat 32)
      let rows := if both then l.rows1 + 1 else 0
      let l1 : LinkSt := { l with ownAccept := true, rows1 := rows }
      let l2 : LinkSt := if 16 ≤ rows then { l1 with step := .ts2, ownAccept := false, rows2 := 0 } else l1
      (s1.setLink n l2).trainRow n
  match s.linkState n with
  | 0 => s
  | 1 => train s
  | 2 => train (s.linkFall n false)
  | _ => if skew ≤ 128 then (measured s).relockDone n else (measured s).event blk 5

/-- Whether every key ID that a link has enabled is ACTIVE (R311). -/
def Dev.linkKeysActive (s : Dev) (n : Nat) : Bool :=
  let blk := B.CW n
  (!s.flag blk F.CW_KEY_CFG_TX_EN || s.linkKeyActive (s.fld blk F.CW_KEY_CFG_TX_ID)) &&
    (!s.flag blk F.CW_KEY_CFG_RX_EN || s.linkKeyActive (s.fld blk F.CW_KEY_CFG_RX_ID))

/-- Whether the link's encryption settings can be accepted (R311, R324): the peer's ENC equals RX_EN, and every enabled key is ACTIVE. -/
def Dev.ts2Good (s : Dev) (n : Nat) (enc : Bool) : Bool :=
  enc == s.flag (B.CW n) F.CW_KEY_CFG_RX_EN && s.linkKeysActive n

/-- Training is agreed (step 5 and 6 of R324): credits are set, encryption takes effect, the frame sequence number returns to zero where
TX_ID has changed (R338); both key phases start at 0 (DEDUCED, notes/assumptions/37.md). -/
def Dev.trainAgreed (s : Dev) (n : Nat) : Dev :=
  let blk := B.CW n
  let l := s.link n
  let id := s.fld blk F.CW_KEY_CFG_TX_ID
  let cr := s.reg blk O.CW_CREDIT
  let credits : Map Nat := [(0, F.CW_CREDIT_RSPS), (1, F.CW_CREDIT_RSPB), (3, F.CW_CREDIT_SCH), (4, F.CW_CREDIT_BE)].foldl
    (fun m (c, f) => Map.set (fun _ => 0) m c (nfield cr.toNat f.lo f.w)) []
  let changed := match l.lastTxId with
    | some old => old != id
    | none => false
  let l1 : LinkSt := { l with step := .sof, credits, give := [], nextSeq := if changed then 0 else l.nextSeq, lastTxId := some id, rxPhase := false,
                              rxEnc := s.flag blk F.CW_KEY_CFG_RX_EN, ownAccept := false, failed := none, nak := false, hdrBad := [] }
  ((s.setLink n l1).setFld blk F.CW_STATUS_ENC_ON (s.fld blk F.CW_KEY_CFG_TX_EN)).setFld blk F.CW_STATUS_KPH 0

/-- TS2_ROW: a row of TS2 blocks has been received (R323, R324, R325). -/
def Dev.ts2Row (s : Dev) (n : Nat) (w : DWord) : Dev :=
  let blk := B.CW n
  let b := w.toNat
  let l := s.link n
  if s.linkState n ≠ 1 || l.step ≠ .ts2 || nfield b 0 8 ≠ 0x55 then s
  else
    let s1 := s.setReg blk O.CW_CREDIT (BitVec.ofNat 32 (b / 256))
    let s2 := ((s1.setFlag blk F.CW_STATUS_TIME_PEER (nbit b 41)).setFlag blk F.CW_STATUS_FWD_PEER (nbit b 42)).setFlag blk
      F.CW_STATUS_SHORT_CREDIT (decide (nfield b 8 8 < 64) || decide (nfield b 24 8 < 64))
    if !s2.ts2Good n (nbit b 40) then
      ((s2.setLink n { l with ownAccept := false, rows2 := 0, peerTime := nbit b 41 }).event blk 6).trainRow n
    else
      let rows := if l.ownAccept && nbit b 43 then l.rows2 + 1 else 0
      let s3 := s2.setLink n { l with ownAccept := true, rows2 := rows, peerTime := nbit b 41 }
      (if 16 ≤ rows then s3.trainAgreed n else s3).trainRow n

/-- SOF_ROW: the next row is row 0 of the peer's first frame (R323, R324). -/
def Dev.sofRow (s : Dev) (n : Nat) : Dev :=
  let l := s.link n
  if s.linkState n = 1 && l.step = .sof then s.setLink n { l with step := .frames } else s

/-- TRAIN_FAIL: training has not completed within 1 ms (R324). -/
def Dev.trainFail (s : Dev) (n : Nat) : Dev :=
  if s.linkState n ≠ 1 then s else (s.event (B.CW n) 4).trainStart n

/-- RELOCK_TIMEOUT: a RELOCK has lasted 2 us (R327, R328). -/
def Dev.relockTimeout (s : Dev) (n : Nat) : Dev := if s.linkState n ≠ 3 then s else s.linkFall n false

/-- The bytes of a block, byte 0 in bits [7:0] (R316). -/
def blockBytes8 (b : DWord) : List Byte := leBytes 8 b.toNat

/-- CRC-32 over blocks 0 to 38 (R321): bit-reflected, initial value and final complement of ones. -/
def frameCrc (blocks : List DWord) : Nat :=
  let step (a : Nat) (b : Byte) : Nat := (List.range 8).foldl (fun a i =>
    let sh := a / 2
    if (a % 2 == 1) != b.getLsbD i then Nat.xor sh 0xEDB88320 else sh) a
  Nat.xor (((blocks.take 39).flatMap blockBytes8).foldl step 0xFFFFFFFF) 0xFFFFFFFF

/-- The nonce of a frame (R309, R320): `tx`: whether this device sends it. -/
def Dev.frameNonce (s : Dev) (n seq : Nat) (tx : Bool) : List Nat :=
  let peer := s.fld (B.CW n) F.CW_PEER_DEV
  let lower := decide (s.coord < peer)
  let link := if lower then n else Nat.xor n 8
  let dir := if lower == tx then 0 else 1
  (List.range 12).map (fun i => (link * 2 ^ 92 + dir * 2 ^ 91 + seq % 2 ^ 64) / 2 ^ (8 * (11 - i)) % 256)

/-- Blocks 4 to 35 enciphered or deciphered, and the tag as blocks 37 and 38 (R309, R320). -/
def Dev.frameCrypt (s : Dev) (n key : Nat) (tx : Bool) (blocks : List DWord) : List DWord × List DWord :=
  let at_ (k : Nat) : DWord := blocks.getD k 0
  let aad := toNats ([0, 1, 2, 3, 36].flatMap (fun k => blockBytes8 (at_ k)))
  let body := toNats (((blocks.drop 4).take 32).flatMap blockBytes8)
  let (out, tag) := Aes.gcm (s.key (64 + key)).data (s.frameNonce n (at_ 1).toNat tx) aad body (!tx)
  let words (m : Nat) (b : List Nat) : List DWord := (List.range m).map (fun k => BitVec.ofNat 64 (ofLeBytes (toBytes ((b.drop (8 * k)).take 8))))
  (words 32 out, words 2 tag)

/-- A flit slot of a frame under formation: what may go, what has been placed, the credits left (R318). -/
structure SlotFill where
  queue : List Flit
  placed : List (Option Flit) := []
  credits : Map Nat
  given : List Nat := []

/-- One slot of the wheel of 8: slots 0 and 4 are open, the others scheduled (R227, R318). -/
def slotStep (f : SlotFill) (slot : Nat) : SlotFill :=
  let heads := linkClasses.filterMap (fun c =>
    if Map.get (fun _ => 0) f.credits c = 0 then none
    else (f.queue.findIdx? (fun x => x.vc == c)).bind (fun i => f.queue[i]?.map (fun x => (⟨i, ⟨x, i⟩, c, x.head⟩ : Cand))))
  match wheelPick slot heads with
  | none => { f with placed := f.placed ++ [none] }
  | some c => { f with queue := f.queue.eraseIdx c.buf, placed := f.placed ++ [some c.flit.flit], given := f.given ++ [c.vc],
                       credits := Map.modify (fun _ => 0) f.credits c.vc (· - 1) }

/-- The descriptor of a slot (R317). -/
def flitDesc (f : Flit) : Nat := f.vc % 8 + 8 + 16 * f.head.toNat + 32 * f.tail.toNat + 64 * f.poison.toNat

/-- The service message of the next frame and the state in which it is no longer pending (R332, R333). A START_B goes in the frame directly
after its START_A. -/
def Dev.svcPick (s : Dev) (n : Nat) : DWord × Dev :=
  let l := s.link n
  let msg (code pay : Nat) : DWord := BitVec.ofNat 64 (code + 256 * (pay % 2 ^ 56))
  let pend (c : Nat) : Option Nat := if (c = 4 || c = 5) && s.mode ≠ .moored then none else Map.get (fun _ => none) l.pend c
  let done (c : Nat) : Map (Option Nat) := Map.set (fun _ => none) l.pend c none
  match l.startB with
  | some b => (msg 5 b, s.setLink n { l with startB := none })
  | none =>
    match [1, 2, 3].findSome? (fun c => l.flags.find? (fun x => x.1 == c)) with
    | some x => (msg x.1 x.2, s.setLink n { l with flags := l.flags.erase x })
    | none =>
      match [4, 5, 6, 7, 8, 9].find? (fun c => (pend c).isSome) with
      | none => (0, s)
      | some 4 => (msg 4 ((pend 4).getD 0), s.setLink n { l with pend := Map.set (fun _ => none) (done 4) 5 none, startB := pend 5 })
      | some 7 => (msg 7 s.t56, s.setLink n { l with pend := Map.set (fun _ => none) (done 7) 9 (some 0), t1 := some s.t56 })
      | some 9 => (msg 9 (s.ns / 256), s.setLink n { l with pend := done 9 })
      | some c => (msg c ((pend c).getD 0), s.setLink n { l with pend := done c })

/-- A stored frame is sent again bit for bit (R326, R327). -/
def Dev.frameAgain (s : Dev) (n : Nat) (k : KeptFrame) : Dev :=
  let l := s.link n
  let later := (l.replay.find? (fun x => k.seq < x.seq)).map (·.seq)
  (s.setLink n { l with sent := k.blocks, replayAt := later,
                        replay := l.replay.map (fun x => if x.seq = k.seq then { x with replays := x.replays + 1 } else x) }).count (B.CW n)
    F.CW_CNT0_RETRY_CNT

/-- A new frame is formed, kept and sent (R315 to R321, R325, R326, R333), where the replay buffer has a place for it. -/
def Dev.frameNew (s : Dev) (n : Nat) : Dev :=
  let blk := B.CW n
  let enc := s.flag blk F.CW_STATUS_ENC_ON
  let id := s.fld blk F.CW_KEY_CFG_TX_ID
  let seq := (s.link n).nextSeq
  let up := s.linkState n == 2
  if 32 ≤ (s.link n).replay.length then s
  else
    let s0 := s.linkDrainAll n
    let l0 := s0.link n
    let s1 := if seq % 1024 = 0 && l0.peerTime then s0.svcPend n 7 0 else s0
    let (svc, s2) := s1.svcPick n
    let l := s2.link n
    let queue := if up then Map.get (fun _ => []) s2.net.toLink n else []
    let fill := (List.range 8).foldl slotStep ({ queue, credits := l.credits } : SlotFill)
    let desc := (List.range 8).foldl (fun a k => match fill.placed.getD k none with
      | some f => a + flitDesc f * 2 ^ (8 * k)
      | none => a) 0
    let give (c : Nat) : Nat := min 31 (Map.get (fun _ => 0) l.give c)
    let link := (l.expect + 2 ^ 64 - 1) % 2 ^ 16 + 2 ^ 16 * l.nak.toNat + 2 ^ 17 * give 0 + 2 ^ 22 * give 1 + 2 ^ 27 * give 3 + 2 ^ 32 * give 4
    let hdr := 1 + 16 * enc.toNat + 32 * (if enc then s.fld blk F.CW_STATUS_KPH else 0)
    let flits := (List.range 8).flatMap (fun k => match fill.placed.getD k none with
      | some f => (List.range 4).map f.word
      | none => [0, 0, 0, 0])
    let plain := [BitVec.ofNat 64 hdr, BitVec.ofNat 64 seq, BitVec.ofNat 64 desc, BitVec.ofNat 64 link] ++ flits ++ [svc, 0, 0]
    let body := if enc then
        let (c, tag) := s2.frameCrypt n id true plain
        plain.take 4 ++ c ++ [svc] ++ tag
      else plain
    let blocks := body ++ [BitVec.ofNat 64 (frameCrc body)]
    let gone := linkClasses.foldl (fun m c => Map.modify (fun _ => 0) m c (· - give c)) l.give
    let opened := fill.placed.foldl (fun (o : List Nat) x => match x with
      | some f => if f.tail then o.filter (· != f.vc) else if o.contains f.vc then o else o ++ [f.vc]
      | none => o) l.txOpen
    let l1 : LinkSt := { l with nextSeq := min (seq + 1) (2 ^ 64 - 1), credits := fill.credits, give := gone, nak := false, txOpen := opened,
                                replay := l.replay ++ [⟨seq, blocks, 0⟩], sent := blocks }
    let s3 := { s2.setLink n l1 with net := { s2.net with toLink := if up then Map.set (fun _ => []) s2.net.toLink n fill.queue else s2.net.toLink } }
    if up && 32 ≤ l1.replay.length then s3.relock n else s3

/-- FRAME_SEND: the link sends its next frame (R315, R324, R326): from its own SOF row on, flits only in UP; a replay goes before new frames.
No encrypted frame goes once SEQ has saturated, which raises LINK_EXHAUST, bit 6 of MCE (R310), nor while an enabled key is not ACTIVE
(R311). -/
def Dev.frameSend (s : Dev) (n : Nat) : Dev :=
  let s0 := s.flagDue
  let l := s0.link n
  let st := s0.linkState n
  let enc := s0.flag (B.CW n) F.CW_STATUS_ENC_ON
  if !(st = 2 || (st = 1 && (l.step = .sof || l.step = .frames))) then s0
  else if enc && 2 ^ 64 - 1 ≤ l.nextSeq then s0.event B.MCE 6
  else if enc && !s0.linkKeysActive n then s0
  else match l.replayAt.bind (fun q => l.replay.find? (fun k => k.seq == q)) with
    | some k => s0.frameAgain n k
    | none => s0.frameNew n

/-- A flight time and offset are computed once the four times of an exchange are held (R330, R337); the exchange is then used up. The halves
are rounded toward zero (DEDUCED, notes/assumptions/38.md). -/
def Dev.linkMeasure (s : Dev) (n : Nat) : Dev :=
  let l := s.link n
  match l.t1, l.t2, l.t3, l.t4 with
  | some t1, some t2, some t3, some t4 =>
    let diff (a b : Nat) : Int := signedMod 56 ((a : Int) - b)
    let d := (diff t4 t1 - diff t3 t2).tdiv 2
    let o := (diff t2 t1 - diff t4 t3).tdiv 2
    let skew := s.fld (B.CW n) F.CW_DELAY_SKEW
    let e := (d - 192).toNat + 2 * (skew - 32)
    let s1 := (s.setLink n { l with t2 := none, t3 := none, t4 := none }).setFld (B.CW n) F.CW_DELAY_FLIGHT (min d.toNat (2 ^ 24 - 1))
    let s2 := s1.setFld (B.CW n) F.CW_OFFSET_OFFSET (satSigned 32 o)
    let s3 := (s2.setFld (B.CW n) F.CW_BOUND_HOP (min 1023 ((45 * 64 + e + 31) / 32))).setFld (B.CW n) F.CW_BOUND_RETRY
      (min 1023 ((84 * 64 + 2 * e + 31) / 32))
    s3.linkServo n o
  | _, _, _, _ => s

/-- START_A is held for its START_B (R87, R332). -/
def Dev.svcStartA (s : Dev) (n pay : Nat) : Dev := s.setLink n { s.link n with gotA := some pay }

/-- START_B completes a mesh start (R87, R334): a follower in Moored passes it on once, refuses another L, is armed; once it is armed a
differing START raises START_CONFLICT, bit 9 of the link's block. -/
def Dev.svcStartB (s : Dev) (n pay : Nat) : Dev :=
  match (s.link n).gotA with
  | none => s
  | some a =>
    let s0 := s.setLink n { s.link n with gotA := none }
    let time := a % 2 ^ 32 + 2 ^ 32 * (pay % 2 ^ 32)
    let len := a / 2 ^ 32 % 2 ^ 17
    if !s0.flag B.TIDE F.TIDE_CTRL_FOLLOW || s0.mode ≠ .moored then s0
    else match s0.tide.armed with
      | some t => if t = time && len = s0.tideLen then s0 else s0.event (B.CW n) 9
      | none =>
        let s1 := if s0.tide.startSeen = some (time, len) then s0
          else { s0 with tide := { s0.tide with startSeen := some (time, len) } }.sendStart time len (some n)
        if len ≠ s1.tideLen then s1.setFld B.ADM F.ADM_RESULT_REASON 3
        else if !s1.tide.activated then s1
        else { s1 with tide := { s1.tide with armed := some time, started := true } }

/-- SYNC: the peer's transmit time and this device's receive time; a SYNC_RX becomes pending (R332, R333, R337). -/
def Dev.svcSync (s : Dev) (n pay : Nat) : Dev :=
  ((s.setLink n { s.link n with t3 := some pay, t4 := some s.t56 }).svcPend n 8 s.t56).linkMeasure n

/-- SYNC_RX: when this device's SYNC reached the peer (R337). -/
def Dev.svcSyncRx (s : Dev) (n pay : Nat) : Dev := (s.setLink n { s.link n with t2 := some pay }).linkMeasure n

/-- EPOCH (R336, R385). -/
def Dev.svcEpoch (s : Dev) (n pay : Nat) : Dev := s.takeEpoch n pay

/-- A service message of a frame that has been accepted (R332). -/
def Dev.svcAct (s : Dev) (n : Nat) (svc : DWord) : Dev :=
  let pay := svc.toNat / 256
  match svc.toNat % 256 with
  | 1 => s.svcBreach n pay
  | 2 => s.svcHalt n pay
  | 3 => s.svcResume n pay
  | 4 => s.svcStartA n pay
  | 5 => s.svcStartB n pay
  | 6 => s.svcTurn n pay
  | 7 => s.svcSync n pay
  | 8 => s.svcSyncRx n pay
  | 9 => s.svcEpoch n pay
  | _ => s

/-- A service message that a link has received on its own, as a command gives it: acted on where the link is trained (R326). -/
def Dev.svcReceive (s : Dev) (n code pay : Nat) : Dev :=
  if s.linkState n = 2 then s.svcAct n (BitVec.ofNat 64 (code + 256 * (pay % 2 ^ 56))) else s

/-- The flits of a frame, by slot (R317): the check sideband is made anew; a poisoned flit keeps its words marked (R319). -/
def frameFlits (blocks : List DWord) : List Flit :=
  let desc := (blocks.getD 2 0).toNat
  (List.range 8).filterMap (fun k =>
    let d := nfield desc (8 * k) 8
    if !nbit d 3 then none
    else
      let w (m : Nat) : DWord := blocks.getD (4 + 4 * k + m) 0
      let f := mkFlit (w 3 ++ w 2 ++ w 1 ++ w 0 : BitVec 256) (d % 8) (nbit d 4) (nbit d 5) (nbit d 6)
      some (if nbit d 6 then { f with side := f.side ^^^ BitVec.ofNat 40 (0xFFFFFFFF * 2 ^ 8) } else f))

/-- Whether the reserved fields of a frame are as they must be (R317, R328). -/
def frameClean (blocks : List DWord) : Bool :=
  let at_ (k : Nat) : Nat := (blocks.getD k 0).toNat
  let code := at_ 36 % 256
  let pay := at_ 36 / 256
  at_ 0 % 16 == 1 && at_ 0 / 64 == 0 && at_ 3 / 2 ^ 37 == 0 &&
    (List.range 8).all (fun k =>
      let d := nfield (at_ 2) (8 * k) 8
      !nbit d 7 && (if nbit d 3 then linkClasses.contains (d % 8) else d == 0)) &&
    decide (code ≤ 9) && !(code == 0 && pay != 0) && !(code == 4 && pay / 2 ^ 49 != 0) && !(code == 5 && pay / 2 ^ 32 != 0)

/-- Whether the flits of a frame respect credits and packet order (R325, R328): the open classes after it, none at a violation. The sender
holds no credit for what stands in the buffer, nor for what has left it and is not yet returned. -/
def Dev.flitOrder (s : Dev) (n : Nat) (fs : List Flit) : Option (List Nat) :=
  let l := s.link n
  let room := linkClasses.all (fun c =>
    decide ((Map.get (fun _ => []) l.rx c).length + Map.get (fun _ => 0) l.give c + (fs.filter (fun f => f.vc == c)).length ≤ linkBuffer c))
  if !room then none
  else fs.foldl (fun (o : Option (List Nat)) f => o.bind (fun open_ =>
    if f.head == open_.contains f.vc then none
    else some (if f.tail then open_.filter (· != f.vc) else if f.head then open_ ++ [f.vc] else open_))) (some l.rxOpen)

/-- The LINK block of an accepted frame (R325 to R327): what ACK covers leaves the replay buffer, credits come back, NAK starts a replay; where
the frame that failed has been replayed already, RELOCK. -/
def Dev.linkAck (s : Dev) (n w : Nat) : Dev :=
  let l := s.link n
  let replay := match l.replay.findIdx? (fun k => k.seq % 2 ^ 16 == w % 2 ^ 16) with
    | some i => l.replay.drop (i + 1)
    | none => l.replay
  let back (m : Map Nat) (c lo : Nat) : Map Nat := Map.modify (fun _ => 0) m c (· + nfield w lo 5)
  let credits := back (back (back (back l.credits 0 17) 1 22) 3 27) 4 32
  let nak := nbit w 16
  let at_ := if nak then replay.head?.map (·.seq)
    else l.replayAt.bind (fun q => (replay.find? (fun k => q ≤ k.seq)).map (·.seq))
  let s1 := s.setLink n { l with replay, credits, replayAt := at_ }
  let again := match replay with
    | k :: _ => decide (1 ≤ k.replays)
    | [] => false
  if !nak || replay.isEmpty then s1
  else if again then s1.relock n
  else (s1.classC (B.CW n)).event (B.CW n) 0

/-- A frame that has passed CRC and tag is checked against the protocol and accepted (R324, R326, R328). -/
def Dev.frameAccept (s : Dev) (n : Nat) (blocks : List DWord) (turned : Bool) : Dev :=
  let blk := B.CW n
  let first := s.linkState n == 1
  let fs := frameFlits blocks
  match s.flitOrder n fs with
  | none => s.linkFall n true
  | some opened =>
    if !frameClean blocks || (first && !fs.isEmpty) then s.linkFall n true
    else
      let l := s.link n
      let seq := (blocks.getD 1 0).toNat
      let rx := fs.foldl (fun m f => Map.modify (fun _ => []) m f.vc (· ++ [f])) l.rx
      let s1 := s.setLink n { l with expect := seq + 1, failed := none, rx, rxOpen := opened, rxPhase := if turned then !l.rxPhase else l.rxPhase }
      let s2 := if turned then s1.setFld blk F.CW_KEY_CFG_RX_ID (s1.fld blk F.CW_KEY_NEXT_RX_NEXT) else s1
      let s3 := if first then (s2.setFld blk F.CW_STATUS_STATE 2).event blk 3 else s2
      ((s3.linkAck n (blocks.getD 3 0).toNat).linkDrainAll n).svcAct n (blocks.getD 36 0)

/-- The key under which an encrypted frame is to be opened (R309, R338): RX_ID, and RX_NEXT where the frame's key phase differs from this
end's. -/
def Dev.rxKey (s : Dev) (n : Nat) (turned : Bool) : Nat :=
  if turned then s.fld (B.CW n) F.CW_KEY_NEXT_RX_NEXT else s.fld (B.CW n) F.CW_KEY_CFG_RX_ID

/-- Whether the key phase of an encrypted frame differs from this end's (R338). -/
def Dev.frameTurned (s : Dev) (n : Nat) (blocks : List DWord) : Bool :=
  nbit (blocks.getD 0 0).toNat 4 && nbit (blocks.getD 0 0).toNat 5 != (s.link n).rxPhase

/-- A frame that has passed its CRC and is the one awaited: it is deciphered and its tag checked (R310, R311, R338). -/
def Dev.frameOpen (s : Dev) (n : Nat) (blocks : List DWord) : Dev :=
  let blk := B.CW n
  let enc := nbit (blocks.getD 0 0).toNat 4
  let turned := s.frameTurned n blocks
  let key := s.rxKey n turned
  if enc != (s.link n).rxEnc || (turned && !s.linkKeyActive key) then (s.linkFall n false).event blk 6
  else if !enc then s.frameAccept n blocks false
  else if !s.linkKeysActive n then s
  else
    let (plain, tag) := s.frameCrypt n key false blocks
    if tag ≠ (blocks.drop 37).take 2 then s.quarantine 3 n blk 0
    else s.frameAccept n (blocks.take 4 ++ plain ++ blocks.drop 36) turned

/-- A frame that has passed its CRC and is not the one awaited (R310, R326): it is discarded; the tag of an encrypted one is checked all the
same, where this end holds its key: a frame that comes again from before a key switch has an older one. -/
def Dev.framePassed (s : Dev) (n : Nat) (blocks : List DWord) : Dev :=
  let turned := s.frameTurned n blocks
  let key := s.rxKey n turned
  let older := decide ((blocks.getD 1 0).toNat < (s.link n).expect)
  if !nbit (blocks.getD 0 0).toNat 4 || !(s.link n).rxEnc || (turned && (older || !s.linkKeyActive key)) || !s.linkKeysActive n then s
  else if (s.frameCrypt n key false blocks).2 ≠ (blocks.drop 37).take 2 then s.quarantine 3 n (B.CW n) 0
  else s

/-- Invalid sync headers are counted; 16 on one lane within 1,024 rows call for RELOCK (R314, R327). `bad`: lane and row of each in this
frame. -/
def Dev.headerErrors (s : Dev) (n : Nat) (bad : List (Nat × Nat)) : Dev × Bool :=
  let l := s.link n
  let now := l.rowsSeen + 5
  let all := (l.hdrBad ++ bad.map (fun (x : Nat × Nat) => (x.1, l.rowsSeen + x.2))).filter (fun x => decide (now ≤ x.2 + 1024))
  let many := (List.range 8).any (fun k => decide (16 ≤ (all.filter (fun x => x.1 == k)).length))
  ((s.setLink n { l with rowsSeen := now, hdrBad := all }).addFld (B.CW n) F.CW_CNT1_HDR_ERR_CNT bad.length, many)

/-- A frame whose CRC fails (R326, R327): it is discarded and the next outgoing frame carries NAK, once per failure; a replayed frame that
fails again leads to RELOCK. Before the first frame of a training has been accepted, the one awaited again is that which the failed frame
names (log entry 124). -/
def Dev.frameBad (s : Dev) (n seq : Nat) : Dev :=
  let l := s.link n
  match l.failed, s.linkState n == 2 with
  | none, true => s.setLink n { l with failed := some (l.expect, false), nak := true }
  | none, false => s.setLink n { l with failed := some (seq, false), expect := seq, nak := true }
  | some (f, _), true => if seq = f then s.relock n else s
  | some _, false => s

/-- FRAME_RECEIVE: a frame of 40 blocks has come in (R310, R315 to R321, R324 to R328). -/
def Dev.frameReceive (s : Dev) (n : Nat) (blocks : List DWord) (bad : List (Nat × Nat)) : Dev :=
  let st := s.linkState n
  if !(st = 2 || (st = 1 && (s.link n).step = .frames)) then s
  else
    let (s1, many) := s.headerErrors n bad
    let seq := (blocks.getD 1 0).toNat
    let l := s1.link n
    let s2 :=
      if blocks.length ≠ 40 || blocks.getD 39 0 ≠ BitVec.ofNat 64 (frameCrc blocks) then s1.frameBad n seq
      else if (st = 2 || l.failed.isSome) && seq ≠ l.expect then s1.framePassed n blocks
      else s1.frameOpen n blocks
    if many && s2.linkState n = 2 then s2.relock n else s2

end Sys2Proof.Machine
end

