-- ==== Sys2Proof/Machine/Adm.lean ====
section
/-! DEFINITION. Machine/Adm.lean: the admission check: tracks, slot records, use maps, declarations, composed bounds, the loads of every
tide of the hyperperiod and hazards (R52, R70 to R79, R242, R247, R269, R270, R301, R330, R331, R353, R405, R406, R522). -/

namespace Sys2Proof.Machine

/-- How an image fails admission: status, reason, declaration, and the resource with its tide (R76, R89). -/
structure AdmFail where
  status : Status
  reason : Nat
  decl : Nat := 0
  kind : Nat := 0
  index : Nat := 0
  tide : Nat := 0
  deriving DecidableEq, Repr

/-- The first failure of a list of checks, each made only where those before it pass. -/
def firstFail : List (Unit → Option AdmFail) → Option AdmFail
  | [] => none
  | f :: fs => match f () with
    | some x => some x
    | none => firstFail fs

/-- The first failure among the elements of a list. -/
def failIn {α : Type} (f : α → Option AdmFail) : List α → Option AdmFail
  | [] => none
  | x :: xs => match f x with
    | some r => some r
    | none => failIn f xs

/-- A failure where `b` holds. -/
def failIf (b : Bool) (x : AdmFail) : Option AdmFail := if b then some x else none

/-- `a` divided by `b`, rounded up. -/
def ceilDiv (a b : Nat) : Nat := (a + b - 1) / b

/-- What admission composes bounds with: the device with the image's register writes in place (R408), the tide length, the TICK
frequency in kHz, the declarations. -/
structure AdmCtx where
  dev : Dev
  len : Nat
  khz : Nat
  decls : List Decl

/-- The TICK frequency of an image: its manifest's, else that of the CLK block (R353). -/
def Dev.admKhz (s : Dev) (i : Image) : Nat :=
  match i.tickKhz with
  | some k => k
  | none => 25000 * s.fld B.CLK F.CLK_TICK_CFG_ACTIVE

/-- The entries whose values admission uses in place of the current ones (R408): a user image's, and of a resident image those at the
same registers. DEDUCED (log entry 31). -/
def Image.heldWrites (i : Image) : List RegEntry :=
  i.regs.filter (fun r => !i.resident || (r.op == 0 && userMayWrite i.ergMask (r.off / blockBytes) (r.off % blockBytes)))

/-- What an image is admitted against (R75, R408): its register writes count as made. -/
def Dev.admCtx (s : Dev) (i : Image) : AdmCtx :=
  { dev := i.heldWrites.foldl Dev.imageWrite s, len := i.tideLen.getD s.tideLen, khz := s.admKhz i,
    decls := i.decls.map declOf }

/-- Times in ps and clock cycles as ticks, rounded up (R78). -/
def AdmCtx.psTicks (c : AdmCtx) (ps : Nat) : Nat := ceilDiv (ps * c.khz) 1000000000
def AdmCtx.cycTicks (c : AdmCtx) (n mhz : Nat) : Nat := ceilDiv (n * c.khz) (1000 * mhz)

/-- Two periodic uses fall in a common tide. -/
def sharesTide (p1 f1 p2 f2 : Nat) : Bool := f1 % Nat.gcd p1 p2 == f2 % Nat.gcd p1 p2

/-- Tracks (R52). -/
def trackCheck (i : Image) (len e : Nat) : Option AdmFail :=
  let ws := (i.trackOf e).entries
  if ws.any (fun w => nfield w 3 5 != 0 || nfield w 24 8 != 0) || (!ws.isEmpty && (ws.map (fun w => (trackEntry w).dwell)).sum != len) then
    some { status := .format, reason := 2 }
  else failIf (decide (64 < ws.length)) { status := .range, reason := 2 }

/-- Whether the words of a slot record are whole blocks with clean header words (R352). -/
def blocksClean : Nat → List Nat → Bool
  | _, [] => true
  | 0, _ => false
  | fuel + 1, h :: ws =>
    nfield h 13 3 == 0 && nfield h 21 3 == 0 && nfield h 25 7 == 0 && decide (nfield h 8 5 + nfield h 16 5 ≤ ws.length) &&
      blocksClean fuel (ws.drop (nfield h 8 5 + nfield h 16 5))

/-- The starts of slots, in ticks from the start of tide 0, over `n` tides. -/
def slotStarts (len n : Nat) (xs : List SlotEntry) : List Nat :=
  (List.range n).flatMap (fun t =>
    (((xs.filter (fun x => usedIn x.period x.phase t)).map (·.tick)).mergeSort (· ≤ ·)).map (fun k => t * len + k))

/-- The intervals between consecutive starts of a pattern that repeats after `n` tides. -/
def slotGaps (len n : Nat) (xs : List SlotEntry) : List Nat :=
  match slotStarts len n xs with
  | [] => []
  | a :: rest => List.zipWith (fun x y => y - x) (a :: rest) (rest ++ [a + n * len])

/-- A port block (R353). -/
def Dev.portCheck (s : Dev) (i : Image) (c : AdmCtx) (bs : List PortBlock) (b : PortBlock) : Option AdmFail :=
  let rx := b.rx.map slotEntry
  let tx := b.tx.map slotEntry
  let n := (tx.map (·.period)).foldl Nat.lcm 1
  let gaps := slotGaps c.len n tx
  let near := rx.zipIdx.any (fun (x, j) => rx.zipIdx.any (fun (y, k) =>
    j < k && sharesTide x.period x.phase y.period y.phase && decide (x.tick < y.tick + 4) && decide (y.tick < x.tick + 4)))
  if !nbit i.ergMask (b.port / 8) || 1 < (bs.filter (fun x => x.port == b.port)).length || !(s.port b.port).moor.en ||
      (rx ++ tx).any (fun x => decide (c.len < x.tick + 4) || decide (x.period ≤ x.phase)) || near ||
      gaps.any (fun g => decide (g < ceilDiv (64 * c.khz) 1000000) || decide (1800 * c.khz < g * 1000000)) then
    some { status := .format, reason := 1 }
  else failIf (decide (16 < b.rx.length) || decide (16 < b.tx.length)) { status := .range, reason := 1 }

/-- The slot record (R352, R353). -/
def Dev.jettyCheck (s : Dev) (i : Image) (c : AdmCtx) : Option AdmFail :=
  match i.jetty with
  | none => none
  | some b =>
    let ws := words32 b
    if b.length % 4 ≠ 0 || !blocksClean ws.length ws then some { status := .format, reason := 1 }
    else failIn (s.portCheck i c i.blocks) i.blocks

/-- The least dwell of a dry-dock slot (R521). -/
def dockMin (kind : Nat) : Nat := if kind = 1 then 128 else 256

/-- The dry-dock record (R521, R522). -/
def dockCheck (i : Image) (len : Nat) : Option AdmFail :=
  match i.drydock with
  | none => none
  | some b =>
    let ws := words32 b
    let hdr := ws.headD 0
    let body := ws.drop 1
    let xs := i.docks
    let dirty := body.zipIdx.any (fun (w, k) => k % 2 == 1 && (nbit w 7 || nfield w 24 8 != 0))
    let bad (d : DockSlot) : Bool := !nbit i.ergMask d.erg || d.kind == 3 || decide (d.period ≤ d.phase) || decide (d.tick < 32) ||
      decide (len < d.tick + d.dwell) || decide (d.dwell < dockMin d.kind)
    let meets4 (a al b bl : Nat) : Bool := decide (a < b + bl) && decide (b < a + al)
    let clash := xs.zipIdx.any (fun (x, j) => xs.zipIdx.any (fun (y, k) =>
      j < k && x.erg == y.erg && sharesTide x.period x.phase y.period y.phase && meets4 x.tick x.dwell y.tick y.dwell))
    let burst := xs.any (fun x => i.blocks.any (fun p => p.port / 8 == x.erg && ((p.rx ++ p.tx).map slotEntry).any (fun y =>
      sharesTide x.period x.phase y.period y.phase && meets4 x.tick x.dwell y.tick 4)))
    if nfield hdr 8 24 != 0 || dirty || xs.any bad || clash || burst then
      some { status := .format, reason := 1 }
    else if 128 < nfield hdr 0 8 then some { status := .range, reason := 1 }
    else failIf (xs.any (fun d => d.kind == 2 && nfield (i.useOf d.erg) 512 256 != 0)) { status := .range, reason := 8 }

/-- The hyperperiod (R75, R353, R522). -/
def hyperperiod (i : Image) (ds : List Decl) : Nat :=
  (((ds.filter Decl.live).map (·.period)) ++ (i.blocks.flatMap (fun b => (b.rx ++ b.tx).map (fun w => (slotEntry w).period))) ++
    i.docks.map (·.period)).foldl Nat.lcm 1

/-- The 64 MiB range mode in force at an address: 0 outside ranges (R279). -/
def Dev.rangeMode (s : Dev) (a : Nat) : Nat :=
  match s.rangeAt a with
  | some r => match (s.range r).img with
    | some g => g.mode
    | none => 0
  | none => 0

/-- The routers of this device that a packet traverses from `r` to its destination, and the causeway link by which it leaves, if it does
(R229, R230). -/
def Dev.routePath (s : Dev) (h : Hdr) : Nat → Nat → Nat → List (Nat × Nat) × Option Nat
  | 0, _, _ => ([], none)
  | n + 1, r, inp =>
    let o := s.nextHop r inp h
    if o = 4 then ([(r, 4)], none)
    else if o = 5 then ([(r, 5)], routerLink r)
    else match meshNext r o with
      | some (r1, p1) => let (rest, l) := s.routePath h n r1 p1; ((r, o) :: rest, l)
      | none => ([(r, o)], none)

/-- The path from one node to another (R229, R230). -/
def Dev.route (s : Dev) (src dst : Nat) : List (Nat × Nat) × Option Nat :=
  s.routePath { op := 0, src, dst } 64 (nodeRouter src) 4

/-- The mesh links that a path uses, numbered as ADM_RESOURCE numbers them. -/
def pathLinks (p : List (Nat × Nat)) : List Nat := (p.filter (fun x => decide (x.2 < 4))).map (fun x => 4 * x.1 + x.2)

/-- A target of a declaration with the arbiter it is served by (R79): a DMC with its pieces, or a hold bank; number as the arbiters
are numbered. -/
structure AdmGroup where
  arb : Nat
  node : Nat
  pieces : List (Nat × Nat)
  deriving DecidableEq, Repr

/-- The 256-byte pieces of a declaration in external memory (R222, R258). -/
def Decl.pieces (d : Decl) : List (Nat × Nat) := (extPieces d.destAddr d.size).map (fun (o, n) => (d.destAddr + o, n))

/-- Whether a declaration is a scheduled memory request in external memory. -/
def Decl.inExt (d : Decl) : Bool := d.kind != 0 && !d.remote && addrWin d.destAddr == some .ext

/-- The target groups of a memory request (R79): grants of a bank are counted as pieces of 32 bytes. -/
def Dev.groups (s : Dev) (d : Decl) : List AdmGroup :=
  if d.kind = 0 then []
  else if d.inExt then
    (List.range 8).filterMap (fun k =>
      let ps := d.pieces.filter (fun p => s.dmcOf p.1 == k)
      if ps.isEmpty then none else some ⟨k, s.node (dmcRouter k) 0, ps⟩)
  else
    [⟨8 + holdBank d.destAddr, s.destNode d.destAddr,
      (List.range (ceilDiv d.size 32)).map (fun j => (d.destAddr + 32 * j, 32))⟩]

/-- The node of a declaration's source berth. -/
def Dev.declSrc (s : Dev) (d : Decl) : Nat := s.srcNode (.berth (Fin.ofNat 512 d.srcBerth))

/-- The node a WRITE_BERTH goes to. -/
def Dev.declDst (s : Dev) (d : Decl) : Nat :=
  let n := s.destNode d.destAddr
  if d.remote then n / 64 * 64 + d.destDev else n

/-- Data flits of a message or of a group's pieces, each piece in its own packet (R220, R222). -/
def flitsOf (bytes : Nat) : Nat := ceilDiv bytes 32
def AdmGroup.dataFlits (g : AdmGroup) (size : Nat) : Nat :=
  if g.arb < 8 then (g.pieces.map (fun p => flitsOf p.2)).sum else flitsOf size

/-- Packets of a group's request (R220: at most 512 bytes of data in a packet; one packet a piece at a DMC). -/
def AdmGroup.packets (g : AdmGroup) (size : Nat) (data : Bool) : Nat :=
  if g.arb < 8 then g.pieces.length else if data then ceilDiv size 512 else 1

/-- The flits of a group's request and of its response. -/
def AdmGroup.request (g : AdmGroup) (d : Decl) : Nat := g.packets d.size (d.kind == 2) + (if d.kind = 2 then g.dataFlits d.size else 0)
def AdmGroup.response (g : AdmGroup) (d : Decl) : Nat := g.packets d.size true + g.dataFlits d.size

/-- Router hops in ticks (R78): `extra` flits beyond each packet's first. -/
def AdmCtx.hops (c : AdmCtx) (routers extra : Nat) : Nat :=
  c.cycTicks (routers * (4 + c.dev.fld B.HN F.HN_SCH_WAIT_WLINK) + extra) c.dev.nclk

/-- The arbiter input of a declaration's requests (R241). -/
def AdmCtx.input (c : AdmCtx) (d : Decl) (arb : Nat) : Nat :=
  c.dev.arbInput arb (c.dev.fld B.HN (F.HN_QG_ERG_SCH_QG (d.srcBerth / 16)))

/-- The quota of an arbiter input. -/
def AdmCtx.quota (c : AdmCtx) (arb n : Nat) : Nat := c.dev.fld (arbBlock arb) (F.ARB_QUOTA_QUOTA n)

/-- Service time of a grant in ps, as a fraction: numerator and denominator (R242). -/
def AdmCtx.service (c : AdmCtx) (arb : Nat) : Nat × Nat :=
  if arb < 8 then (c.dev.fld (B.DMC arb) F.DMC_BOUND0_TLINE_PS, 1) else (4000000, c.dev.hclk)

/-- A time in ps given as a fraction, in ticks, rounded up. -/
def AdmCtx.fracTicks (c : AdmCtx) (n : Nat) (t : Nat × Nat) : Nat := ceilDiv (n * t.1 * c.khz) (1000000000 * t.2)

/-- Grants ahead of the first of a group (R247): none where a higher input has no limit. -/
def AdmCtx.higher (c : AdmCtx) (d : Decl) (arb : Nat) : Option Nat :=
  let above := (List.range 16).filter (fun n => decide (c.input d arb < n))
  if above.any (fun n => c.quota arb n == 0) then none else some ((above.map (c.quota arb)).sum)

/-- Pieces of other declarations that reach a piece's bank pair ahead of it in a tide they share (R270). -/
def AdmCtx.ahead (c : AdmCtx) (id : Nat) (d : Decl) (a : Nat) : Nat :=
  let pair (x : Nat) : Nat := c.dev.place x / 2 ^ 27
  (c.decls.zipIdx.map (fun (o, k) =>
    if k ≠ id && o.live && o.inExt && (o.issueTick < d.issueTick || (o.issueTick == d.issueTick && k < id)) &&
        sharesTide o.period o.phase d.period d.phase then
      (o.pieces.filter (fun p => pair p.1 == pair a)).length
    else 0)).sum

/-- The refresh and access terms of a piece of a group (R78, R79, R270, R301). -/
def AdmCtx.pieceTerm (c : AdmCtx) (id : Nat) (d : Decl) (arb : Nat) (p : Nat × Nat) : Nat :=
  if 8 ≤ arb then c.fracTicks 1 (c.service arb)
  else
    let blk := B.DMC arb
    let acc := if d.kind = 1 then 500 * c.dev.fld blk F.DMC_BOUND1_TACC * (1 + c.ahead id d p.1) else 500 * c.dev.fld blk F.DMC_BOUND1_TWACC
    let t := if c.dev.rangeMode p.1 = 2 then max acc (500 * c.dev.fld B.MCE F.MCE_BOUND0_TMETA) else acc
    c.psTicks (500 * c.dev.fld blk F.DMC_BOUND1_TREF) + c.psTicks t

/-- The bound of a group (R79); none where it has none. -/
def AdmCtx.groupBound (c : AdmCtx) (id : Nat) (d : Decl) (g : AdmGroup) : Option Nat :=
  match c.higher d g.arb with
  | none => none
  | some q =>
    let routers := (c.dev.route (c.dev.declSrc d) g.node).1.length
    let modes := if g.arb < 8 then g.pieces.map (fun p => c.dev.rangeMode p.1) else []
    let lim := c.dev.fld (arbBlock g.arb) F.ARB_CFG_HOLD_LIM
    some (8 + c.hops routers (g.request d - g.packets d.size (d.kind == 2)) + 8 +
      c.fracTicks (q + lim + g.pieces.length - 1) (c.service g.arb) +
      (g.pieces.map (c.pieceTerm id d g.arb)).sum +
      (if modes.contains 2 then c.psTicks (500 * c.dev.fld B.MCE F.MCE_BOUND0_TREENC) else 0) +
      (if modes.any (· != 0) then c.psTicks (500 * c.dev.fld B.MCE F.MCE_BOUND1_TDEC) else 0) + 8 +
      (if d.kind = 1 then c.hops routers (g.dataFlits d.size) else 0))

/-- compose_bound (R78, R79, R330). A route over a link with short credit has no bound (R325). -/
def AdmCtx.bound (c : AdmCtx) (id : Nat) (d : Decl) : Option Nat :=
  if d.kind = 0 then
    let (path, link) := c.dev.route (c.dev.declSrc d) (c.dev.declDst d)
    let cw := match link with
      | some n => c.psTicks (500 * (c.dev.fld (B.CW n) F.CW_BOUND_HOP + c.dev.fld (B.CW n) F.CW_BOUND_RETRY))
      | none => 0
    if link.any (fun n => c.dev.flag (B.CW n) F.CW_STATUS_SHORT_CREDIT) then none
    else some (8 + c.hops path.length (flitsOf d.size) + cw + 8)
  else
    let bs := (c.dev.groups d).map (c.groupBound id d)
    if bs.any (·.isNone) then none else some ((bs.map (·.getD 0)).foldl max 0 + 8)

/-- Whether a device coordinate names another device of the mesh (R216). -/
def Dev.otherDev (s : Dev) (dev : Nat) : Bool :=
  dev != s.coord && decide (dev % 8 ≤ s.fld B.HN F.HN_ID_MAXX) && decide (dev / 8 ≤ s.fld B.HN F.HN_ID_MAXY)

/-- The destination of a declaration (R73, R216). -/
def Dev.destCheck (s : Dev) (d : Decl) : Option Status :=
  let w := addrWin d.destAddr
  if (d.remote && d.kind != 0) || (d.kind == 0 && w != some .berth) || (d.kind != 0 && w != some .hold && w != some .ext) then some .format
  else if d.remote && !s.otherDev d.destDev then some .range
  else if d.size = 0 then none
  else if (match w with | some v => decide (winEnd d.destAddr v < d.destAddr + d.size) | none => true) ||
      (w == some .ext && decide (s.usableEnd < d.destAddr + d.size)) then some .range
  else none

/-- The fields of a declaration given by its 256 bits (R72, R73). -/
def Dev.fieldCheck (s : Dev) (len id n : Nat) : Option AdmFail :=
  let d := declOf n
  let dest := s.destCheck d
  if nfield n 9 7 != 0 || nbit n 31 || nfield n 32 32 != 0 || nfield n 112 16 != 0 || 2 < d.kind || (d.period != 0 && decide (d.period ≤ d.phase)) ||
      decide (len ≤ d.issueTick) || 32767 < d.releaseOffset || dest == some .format then some { status := .format, reason := 1, decl := id }
  else if 65536 < d.size then some { status := .range, reason := 7, decl := id }
  else failIf dest.isSome { status := .range, reason := 1, decl := id }

/-- Whether the quota condition of an arbiter fails (R74). -/
def AdmCtx.quotaBad (c : AdmCtx) (arb : Nat) : Bool :=
  let total := ((List.range 16).map (c.quota arb)).sum
  let t := c.service arb
  decide (c.len * 1000000000 * t.2 < total * t.1 * c.khz)

/-- The quota conditions at each target of a declaration (R74). -/
def AdmCtx.quotaCheck (c : AdmCtx) (id : Nat) (d : Decl) : Option AdmFail :=
  failIn (fun (g : AdmGroup) =>
    let first := (c.decls.filter (fun o => o.live && (c.dev.groups o).any (fun h => h.arb == g.arb))).foldl (fun m o => min m o.phase) d.phase
    failIf (c.quotaBad g.arb)
      { status := .range, reason := 6, decl := id, kind := if g.arb < 8 then 3 else 4, index := if g.arb < 8 then g.arb else g.arb - 8,
        tide := first }) (c.dev.groups d)

/-- The use map in force at an erg once the image is active. -/
def Dev.useThen (s : Dev) (i : Image) (e : Nat) : Nat :=
  if nbit i.ergMask e then i.useOf e
  else match s.cfg.live.find? (fun j => nbit j.ergMask e) with
    | some j => j.useOf e
    | none => 0

/-- Whether scheduled traffic touches an erg that may sleep (R75). -/
def Dev.sleepBad (s : Dev) (i : Image) (d : Decl) : Bool :=
  let ergs := (match d.lands with | some b => [b / 16] | none => []) ++
    (if d.kind != 0 && !d.remote && addrWin d.destAddr == some .hold then [holdBank d.destAddr / 256] else [])
  ergs.any (fun e => maySleep (s.useThen i e))

/-- One declaration (R75): its failure, or its bound. -/
def Dev.declCheck (s : Dev) (i : Image) (c : AdmCtx) (id n : Nat) : AdmFail ⊕ Nat :=
  let d := declOf n
  match s.fieldCheck c.len id n with
  | some f => .inl f
  | none =>
    if !d.live then .inr 0
    else match c.quotaCheck id d with
      | some f => .inl f
      | none =>
        if s.sleepBad i d then .inl { status := .range, reason := 9, decl := id }
        else match c.bound id d with
          | none => .inl { status := .range, reason := 5, decl := id }
          | some b =>
            if d.releaseOffset * c.len < d.issueTick + b + d.remoteTicks + 24 then .inl { status := .range, reason := 5, decl := id }
            else .inr b

/-- The declarations in turn: the first failure, or every bound. -/
def Dev.declsCheck (s : Dev) (i : Image) (c : AdmCtx) : Nat → List Nat → AdmFail ⊕ List Nat
  | _, [] => .inr []
  | id, n :: ns => match s.declCheck i c id n with
    | .inl f => .inl f
    | .inr b => match s.declsCheck i c (id + 1) ns with
      | .inl f => .inl f
      | .inr bs => .inr (b :: bs)

/-- What one issue of a declaration uses (R74): resource row, its number with the arbiter it stands in, amount. -/
def AdmCtx.uses (c : AdmCtx) (d : Decl) : List (Nat × Nat × Nat × Nat) :=
  if d.kind = 0 then
    let (path, link) := c.dev.route (c.dev.declSrc d) (c.dev.declDst d)
    let flits := ceilDiv d.size 512 + flitsOf d.size
    (pathLinks path).map (fun l => (1, l, 0, flits)) ++ (match link with | some n => [(5, n, 0, 5 * flits)] | none => [])
  else
    (c.dev.groups d).flatMap (fun g =>
      (pathLinks (c.dev.route (c.dev.declSrc d) g.node).1).map (fun l => (1, l, 0, g.request d)) ++
      (if d.kind = 1 then (pathLinks (c.dev.route g.node (c.dev.declSrc d)).1).map (fun l => (1, l, 0, g.response d)) else []) ++
      [(2, c.input d g.arb, g.arb, g.pieces.length)])

/-- The capacity of a resource per tide; none where it has no limit (R74, R244, R331). -/
def AdmCtx.cap (c : AdmCtx) (kind num arb : Nat) : Option Nat :=
  match kind with
  | 1 => some (3 * c.len * c.dev.nclk * 1000 / (4 * c.khz))
  | 2 => if c.quota arb num = 0 then none else some (c.quota arb num)
  | _ => some (3 * c.len * 256 * 1000000 / (4 * 66 * c.khz))

/-- The loads of a tide `t` of the hyperperiod, in the order of the table of R74, then of the resources' numbers (R75). -/
def AdmCtx.loadCheck (c : AdmCtx) (t : Nat) : Option AdmFail :=
  let us := (c.decls.filter (fun d => d.live && t % d.period == d.phase)).flatMap c.uses
  let rows := ([1, 2, 5] : List Nat).flatMap (fun k => us.filter (fun u => u.1 == k))
  let full := rows.filter (fun u =>
    match c.cap u.1 u.2.1 u.2.2.1 with
    | some m => decide (m < ((rows.filter (fun v => v.1 == u.1 && v.2.1 == u.2.1 && v.2.2.1 == u.2.2.1)).map (fun v => v.2.2.2)).sum)
    | none => false)
  match full with
  | [] => none
  | u :: rest =>
    let same := rest.filter (fun v => v.1 == u.1)
    some { status := .range, reason := 6, kind := u.1, index := same.foldl (fun m v => min m v.2.1) u.2.1, tide := t }

/-- Bytes a declaration's transfers hold in its release buffer in tide `t` (R74: from issue to release, both included). -/
def Decl.heldAt (d : Decl) (t : Nat) : Nat :=
  let k := (t + d.period - d.phase) % d.period
  if d.releaseOffset < k then 0 else d.size * ((d.releaseOffset - k) / d.period + 1)

/-- The release buffers in tide `t` (R75). -/
def AdmCtx.bufferCheck (c : AdmCtx) (t : Nat) : Option AdmFail :=
  let live := c.decls.filter Decl.live
  let berths := (List.range 512).filter (fun b => live.any (fun d => d.lands == some b))
  failIn (fun b =>
    failIf (decide (65536 < ((live.filter (fun d => d.lands == some b)).map (fun d => d.heldAt t)).sum))
      { status := .range, reason := 7, kind := 6, index := b, tide := t }) berths

/-- Whether a declaration meets a hazard (R70). -/
def Dev.hazard (s : Dev) (i : Image) (ds : List Decl) (d : Decl) : Bool :=
  if d.remote then false
  else if d.kind = 2 then
    addrWin d.destAddr == some .hold && nbit (s.useThen i (holdBank d.destAddr / 256)) (256 + holdBank d.destAddr % 256)
  else if d.kind = 1 then
    ds.any (fun w => w.live && w.kind == 2 && !w.remote && meet d.destAddr d.size w.destAddr w.size &&
      (List.range (min w.releaseOffset (Nat.gcd w.period d.period))).any (fun k =>
        (w.phase + k) % Nat.gcd w.period d.period == d.phase % Nat.gcd w.period d.period))
  else false

/-- The declarations of the image that runs beside a user image must stand in its manifest (R406). -/
def Dev.keptCheck (s : Dev) (i : Image) (c : AdmCtx) : Option AdmFail :=
  if i.resident || i.ergMask = 2 ^ 32 - 1 then none
  else failIn (fun ((o, k) : Decl × Nat) =>
    failIf (!nbit i.ergMask (o.srcBerth / 16) && c.decls[k]? != some o) { status := .format, reason := 1, decl := k }) s.tide.decls.zipIdx

/-- The checks of R75 before the declarations, in its order. -/
def Dev.admFirst (s : Dev) (i : Image) (c : AdmCtx) : Option AdmFail :=
  firstFail [
    fun _ => failIf (!i.resident && i.ergMask != 2 ^ 32 - 1 && c.len != s.tideLen) { status := .format, reason := 3 },
    fun _ => failIn (trackCheck i c.len) i.ergs,
    fun _ => s.jettyCheck i c,
    fun _ => dockCheck i c.len,
    fun _ => failIf (i.ergs.any (s.shoalCovers i)) { status := .range, reason := 0xA },
    fun _ => failIf (decide (1048576 < hyperperiod i c.decls)) { status := .range, reason := 4 },
    fun _ => failIf (decide (8192 < i.decls.length)) { status := .range, reason := 1 },
    fun _ => s.keptCheck i c]

/-- The checks of R75 after the declarations: every tide of the hyperperiod, then hazards. -/
def Dev.admLast (s : Dev) (i : Image) (c : AdmCtx) : Option AdmFail :=
  firstFail [
    fun _ => failIn (fun t => firstFail [fun _ => c.loadCheck t, fun _ => c.bufferCheck t]) (List.range (hyperperiod i c.decls)),
    fun _ => failIn (fun ((d, k) : Decl × Nat) => failIf (d.live && s.hazard i c.decls d) { status := .range, reason := 8, decl := k })
      c.decls.zipIdx]

/-- The admission check (R75, R76): the first failure, or the composed bounds. -/
def Dev.admitImage (s : Dev) (i : Image) : AdmFail ⊕ List Nat :=
  let c := s.admCtx i
  match s.admFirst i c with
  | some f => .inl f
  | none => match s.declsCheck i c 0 i.decls with
    | .inl f => .inl f
    | .inr bs => match s.admLast i c with
      | some f => .inl f
      | none => .inr bs

/-- ADM_RESULT, ADM_RESOURCE and ADM_RESOURCE_TIDE record a check (R76). -/
def Dev.admRecord (s : Dev) (f : Option AdmFail) : Dev :=
  let x := f.getD { status := .ok, reason := 0 }
  ((s.setReg B.ADM O.ADM_RESULT (BitVec.ofNat 32 (x.status.code + 16 * x.reason + 256 * (x.decl % 8192) + 2 ^ 31))).setReg B.ADM
    O.ADM_RESOURCE (BitVec.ofNat 32 (x.kind + 16 * (x.index % 8192)))).setReg B.ADM O.ADM_RESOURCE_TIDE (BitVec.ofNat 32 (x.tide % 2 ^ 20))

end Sys2Proof.Machine
end

