-- ==== Sys2Proof/Machine/Records.lean ====
section
/-! DEFINITION. Machine/Records.lean: what an image's bytes say: its header, its hash tree and its content records with the checks that
each makes (R394 to R411, R423). -/

namespace Sys2Proof.Machine

/-- `n` bytes from offset `o`, as a number. -/
def le (b : List Byte) (o n : Nat) : Nat := ofLeBytes ((b.drop o).take n)

/-- `n` rounded up to whole 16 bytes (R399). -/
def pad16 (n : Nat) : Nat := (n + 15) / 16 * 16

/-- Fields of an image header (R395). -/
def hdrImageLen (h : List Byte) : Nat := le h 0x0C 4
def hdrRecords (h : List Byte) : Nat := le h 0x20 4
def hdrBlocks (h : List Byte) : Nat := le h 0x24 2
def hdrErgs (h : List Byte) : Nat := le h 0x30 4

/-- The least size of an image with `n` content records (R394, R396): header, signature field, tree records, a header for each record. -/
def leastLen (n : Nat) : Nat := 256 + 3312 + (16 + 32 * ((n + 127) / 128)) + (16 * ((n + 127) / 128) + 32 * n) + 16 * n

/-- The header check (R396), in its order. -/
def Dev.headerCheck (s : Dev) (resident : Bool) (h : List Byte) : Option Status :=
  let n := hdrRecords h
  let bound := nbit (le h 7 1) 0
  let serial := le h 0x10 16
  if le h 0 4 ≠ 0x47495A41 || le h 4 2 ≠ 1 || le h 6 1 ≠ (if resident then 1 else 2) then some .format
  else if le h 8 1 ≠ s.fld B.CFG F.CFG_ID_FAMILY || le h 0x0A 2 ≠ s.fld B.CFG F.CFG_ID_DEVICE || le h 9 1 ≠ s.fld B.CFG F.CFG_ID_STACK_REV ||
      (bound && serial != s.part.serial.toNat) then some .identity
  else if nfield (le h 7 1) 1 7 != 0 || le h 0x26 2 != 0 || le h 0x34 12 != 0 || le h 0x60 160 != 0 || (!bound && serial != 0) ||
      hdrBlocks h != (n + 127) / 128 || decide (hdrImageLen h < leastLen n) then some .format
  else if 131072 < n || (resident && decide (12 * 2 ^ 20 < hdrImageLen h)) ||
      (resident && decide (1 < ((List.range 32).filter (nbit (hdrErgs h))).length)) then some .range
  else none

/-- The image that a header announces. -/
def headerImage (resident : Bool) (h : List Byte) : Image :=
  { resident, ergMask := hdrErgs h, imageId := le h 0x28 8, root := BitVec.ofNat 256 (le h 0x40 32), recordCount := hdrRecords h,
    imageLen := hdrImageLen h }

/-- Leaves, block digests and the root of the hash tree (R398). -/
def leafDigest (n : Nat) (rec : List Byte) : List Byte := shake256 (0x00 :: leBytes 4 n ++ rec)
def blockDigest (k : Nat) (leaves : List (List Byte)) : List Byte := shake256 (0x01 :: leBytes 4 k ++ leaves.flatten)
def rootDigest (n : Nat) (blocks : List (List Byte)) : List Byte := shake256 (0x02 :: leBytes 4 n ++ blocks.flatten)

/-- 32-byte pieces of a body. -/
def digestsOf : Nat → List Byte → List (List Byte)
  | 0, _ => []
  | n + 1, b => b.take 32 :: digestsOf n (b.drop 32)

/-- Bytes of a record with a body of `len` bytes (R399). -/
def recordBytes (len : Nat) : Nat := 16 + pad16 len

/-- Whether a tree record's header is the one in its place (R398). -/
def treeHeader (b : List Byte) (type target len : Nat) : Bool :=
  le b 0 2 == type && le b 2 2 == 0 && le b 4 4 == len && le b 8 4 == target && le b 12 4 == 0

/-- TARGET bits that a record type uses (R400). -/
def targetBits (type : Nat) : Nat :=
  if type = 0x10 then 16 else if type = 0x21 || type = 0x22 || type = 0x23 then 5 else 0

/-- Whether a record type may stand in an image of a kind (R400). -/
def typeAllowed (resident : Bool) (type : Nat) : Bool :=
  ([0x10, 0x20, 0x21, 0x22, 0x23, 0x30, 0x31, 0x32, 0x40] : List Nat).contains type || (resident && (type == 0x50 || type == 0x51))

/-- A register-write entry (R407): its refusal, or what it says. -/
def Dev.regEntry (s : Dev) (i : Image) (rec : Nat) (b : List Byte) : Status ⊕ RegEntry :=
  let w := le b 0 4
  let off := 4 * nfield w 2 22
  let op := nfield w 24 2
  let v := le b 4 4
  let m := le b 8 4
  let blk := off / blockBytes
  let o := off % blockBytes
  let kept := blk = B.CFG || blk = B.SEC || blk = B.DBG ||
    (blk = B.MCE && (o == O.MCE_KEY_CMD || (decide (O.MCE_WRAP 0 ≤ o) && (regFind blk o).any (fun d => d.off == O.MCE_WRAP 0)))) ||
    (blk = B.HOLD 0 && o == O.HOLD_BOND_CMD)
  if w % 4 ≠ 0 || nfield w 26 6 != 0 || op == 3 || (op == 2 && decide (1000000 < v)) || (!i.resident && op != 0) then .inl .format
  else if kept || (!i.resident && (!userMayWrite i.ergMask blk o || (s.locked blk && Nat.land (rwlMask blk o) m != 0))) then .inl .denied
  else .inr { off, op, value := BitVec.ofNat 32 v, mask := BitVec.ofNat 32 m, record := rec }

/-- The entries of a REGWRITE body, in order: the first refusal, or all of them. -/
def Dev.regEntries (s : Dev) (i : Image) (rec : Nat) : Nat → List Byte → Status ⊕ List RegEntry
  | 0, _ => .inr []
  | n + 1, b => match s.regEntry i rec (b.take 12) with
    | .inl st => .inl st
    | .inr r => match s.regEntries i rec n (b.drop 12) with
      | .inl st => .inl st
      | .inr rs => .inr (r :: rs)

/-- The port entries of a MOOR body (R410). -/
def moorEntries : Nat → List Byte → List (MoorEntry × Nat)
  | 0, _ => []
  | n + 1, b => (⟨le b 0 4, (List.range 4).map (fun k => le b (4 + 10 * k) 10)⟩, le b 0x2C 4) :: moorEntries n (b.drop 48)

/-- Fields of a port entry. -/
def MoorEntry.port (m : MoorEntry) : Nat := nfield m.word 0 8
def MoorEntry.count (m : MoorEntry) : Nat := nfield m.word 9 3
def MoorEntry.interval (m : MoorEntry) : Nat := nfield m.word 12 5

/-- Whether a port entry is malformed (R410). -/
def moorBad (x : MoorEntry × Nat) : Bool :=
  let m := x.1
  nfield m.word 18 14 != 0 || x.2 != 0 || decide (4 < m.count) || (nbit m.word 8 && (m.interval == 0 || decide (30 < m.interval))) ||
    (m.payloads.drop m.count).any (· != 0)

/-- A content record as its body is taken in: a refusal, or the image with what the record says (R401 to R410). -/
def Dev.recordBody (s : Dev) (i : Image) (n type target : Nat) (b : List Byte) : Status ⊕ Image :=
  let len := b.length
  let e := target % 32
  let fail (bad : Bool) (st : Status) (j : Image) : Status ⊕ Image := if bad then .inl st else .inr j
  match type with
  | 0x10 =>
    fail (len != 12288 || !nbit (i.trackOf e).mask (target / 8192 % 8) || !nbit (i.useOf e) (target / 32 % 256) || i.frames.contains target)
      .format { i with frames := i.frames ++ [target] }
  | 0x20 =>
    let w := le b 0 4
    fail (len != 4 || nfield w 17 15 != 0 || decide (w < 64) || decide (65536 < w)) .format { i with tideLen := some w }
  | 0x21 =>
    let ws := words32 (b.drop 4)
    let planes := trackPlanes (ws.map trackEntry)
    fail (decide (len < 4) || len != 4 + 4 * le b 1 1 || le b 2 2 != 0 || le b 0 1 != (planes.map (fun p => 2 ^ p)).sum) .format
      { i with tracks := Map.set (fun _ => none) i.tracks e (some ⟨le b 0 1, ws⟩) }
  | 0x22 =>
    fail (len != 1152 || nfield (le b 0x63 1) 1 7 != 0 || le b 0x64 28 != 0) .format
      { i with useMaps := Map.set (fun _ => none) i.useMaps e (some (ofLeBytes b)) }
  | 0x23 => fail (len != 20480) .format { i with fences := Map.set (fun _ => none) i.fences e (some (ofLeBytes b)) }
  | 0x30 =>
    let count := le b 4 2
    fail (decide (len < 16) || le b 0 4 != 0x54464154 || le b 6 2 != 0 || le b 12 4 != 0 || len != 16 + 32 * count) .format
      { i with tickKhz := some (le b 8 4), decls := (digestsOf count (b.drop 16)).map ofLeBytes }
  | 0x31 => .inr { i with jetty := some b }
  | 0x32 => fail (decide (len < 4) || len != 4 + 8 * le b 0 1) .format { i with drydock := some b }
  | 0x40 =>
    if len % 12 ≠ 0 then .inl .format
    else if 65532 < len then .inl .range
    else match s.regEntries i n (len / 12) b with
      | .inl st => .inl st
      | .inr rs => .inr { i with regs := i.regs ++ rs }
  | 0x50 =>
    let w := le b 0 4
    fail (len != 4 || nfield w 3 5 != 0 || nfield w 20 12 != 0 || (nbit w 2 && i.ergMask == 0) ||
      (nbit w 13 && nbit w 19 && nfield w 8 5 == nfield w 14 5)) .format { i with boot := some w }
  | 0x51 =>
    let xs := moorEntries (len / 48) b
    fail (len % 48 != 0 || xs.any moorBad || !(xs.map (fun x => x.1.port)).Nodup) .format { i with moor := some (xs.map (·.1)) }
  | _ => .inl .format

/-- Whether an image has every record that must come before its first frame (R401). -/
def Image.planned (i : Image) : Bool :=
  i.ergs.all (fun e => (Map.get (fun _ => none) i.tracks e).isSome && (Map.get (fun _ => none) i.useMaps e).isSome) &&
    (i.ergMask == 0 || i.tideLen.isSome)

/-- A content record given whole (R399 to R411): a refusal with FORMAT or another status, or the image with what it says. -/
def Dev.recordCheck (s : Dev) (i : Image) (n : Nat) (rec : List Byte) : Status ⊕ Image :=
  let type := le rec 0 2
  let len := le rec 4 4
  let target := le rec 8 4
  let body := (rec.drop 16).take len
  let per := type == 0x21 || type == 0x22 || type == 0x23
  let key := if per then type + 65536 * (target % 32) else type
  let once := per || ([0x20, 0x30, 0x31, 0x32, 0x50, 0x51] : List Nat).contains type
  if le rec 2 2 != 0 || le rec 12 4 != 0 || target / 2 ^ targetBits type != 0 || ((rec.drop 16).drop len).any (· != 0) || !typeAllowed i.resident type ||
      (i.resident && n == 0 && type != 0x51) || (!i.resident && i.ergMask == 0) || (once && i.seen.contains key) ||
      ((per || type == 0x10) && !nbit i.ergMask (target % 32)) ||
      ((type == 0x20 || type == 0x21 || type == 0x22) && !i.frames.isEmpty) || (type == 0x10 && !i.planned) then .inl .format
  else s.recordBody { i with seen := if once then i.seen ++ [key] else i.seen } n type target body

/-- The checks after the last record (R401, R414): the records that had to come, and IMAGE_LEN. -/
def Image.endBad (i : Image) (len : Nat) : Bool := !i.planned || len != i.imageLen

/-- A slot's commit word (R423). -/
def commitWord (i : Image) : List Byte := leBytes 4 0x54494D43 ++ leBytes 4 i.imageLen ++ leBytes 8 i.root.toNat

/-- The first sector of a slot and that of its commit word (R392, R423). -/
def slotSector (slot : Nat) : Nat := if slot = 1 then 0 else 192
def commitSector (slot : Nat) : Nat := if slot = 1 then 384 else 385

/-- What a slot holds from its first byte, `n` bytes: an erased byte reads 0xFF (PRESUMED, notes/assumptions/34.md). -/
def Dev.slotBytes (s : Dev) (slot n : Nat) : List Byte :=
  ((List.range ((n + 65535) / 65536)).flatMap (fun k =>
    let b := (s.nvSector (slotSector slot + k)).take 65536
    b ++ List.replicate (65536 - b.length) 0xFF)).take n

/-- Whether a slot's commit word is present (R423). -/
def Dev.committed (s : Dev) (slot : Nat) : Bool :=
  let c := s.nvSector (commitSector slot)
  let h := s.slotBytes slot 256
  c.length == 16 && le c 0 4 == 0x54494D43 && le c 4 4 == hdrImageLen h && le c 8 8 == le h 0x40 8

end Sys2Proof.Machine
end

