-- ==== Sys2Proof/Machine/Images.lean ====
section
/-! DEFINITION. Machine/Images.lean: the image pipeline: the stream and its owner, the stages of an image, the commands of CFG_CMD,
programming of the slots, the resident image at Boot (R391 to R424). -/

namespace Sys2Proof.Machine

/-- Whether the image in hand goes to a slot (R421), and whether it is the resident image that Boot reads. -/
def Dev.programming (s : Dev) : Bool := s.cfg.slot != 0
def Dev.booting (s : Dev) : Bool := s.mode == .boot

/-- The key that verifies an image's signature (R428). -/
def Dev.imageKey (s : Dev) : List Byte :=
  let vendor (k : Nat) : List Byte := (List.range 1952).map (Config.vendorKey k)
  match s.life with
  | .test => vendor 0
  | .blank | .returned => vendor 1
  | .provisioned | .sealed => match s.sec.owner with
    | some o => o.imagePk
    | none => []

/-- The lowest handle that no plane slot holds (R414). -/
def Dev.freeHandle (s : Dev) : Option Nat :=
  let held := (List.range 32).flatMap (fun e => (List.range 8).map (fun p => (s.slot e p).owner))
  (List.range 256).find? (fun h => h != 0 && !held.contains h)

/-- What one unit of an image leads to: it is taken in, bytes are awaited, the image fails at a stage and record, or it is whole. -/
inductive UnitOut where
  | took (s : Dev)
  | waits
  | fails (s : Dev) (st : Status) (stage : Nat) (record : Nat)
  | whole (s : Dev)

/-- Bytes of a slot are written where they lie in it: a sector is erased as its first byte comes (R392, R422). -/
def Dev.slotAppend (s : Dev) (base pos : Nat) : Nat → List Byte → Dev
  | 0, _ => s
  | n + 1, b =>
    if b.isEmpty then s
    else
      let sec := base + pos / 65536
      let room := 65536 - pos % 65536
      let s1 := if pos % 65536 = 0 then s.nvWrite sec [] else s
      let s2 := { s1 with nv := { s1.nv with
        sectors := Map.set (fun _ => []) s1.nv.sectors sec (s1.nvSector sec ++ b.take room) } }
      s2.slotAppend base (pos + room) n (b.drop room)

/-- Bytes taken in while a slot is programmed go into it, once its header and signature have passed (R422). -/
def Dev.slotTake (s : Dev) (b : List Byte) : Dev :=
  if !s.programming then s
  else { s with cfg := { s.cfg with written := s.cfg.written ++ b } }.slotAppend (slotSector s.cfg.slot) s.cfg.written.length
    (b.length / 65536 + 2) b

/-- A slot loses its commit word (R422, R424). -/
def Dev.dropCommit (s : Dev) (slot : Nat) : Dev :=
  if (s.nvSector (commitSector slot)).isEmpty then s else s.nvWrite (commitSector slot) []

/-- Consumes `n` bytes of the buffer and waits for `e` next; CFG_PROGRESS counts those of a stream (R425). -/
def Dev.consume (s : Dev) (n : Nat) (e : Expect) : Dev :=
  let s1 := { s with cfg := { s.cfg with buf := s.cfg.buf.drop n, expect := e } }
  if s.booting then s1
  else s1.setReg B.CFG O.CFG_PROGRESS (BitVec.ofNat 32 (min (s.cfg.bytesIn - s1.cfg.buf.length) 0xFFFFFFFF))

/-- What comes after a tree record or content record: the next in the order of R394. -/
def Image.after (i : Image) (n : Nat) : Expect :=
  if n = i.recordCount then .finished else if n % 128 = 0 then .leaf (n / 128) else .record n

/-- The header stage (R396). -/
def Dev.unitHeader (s : Dev) : UnitOut :=
  let h := s.cfg.buf.take 256
  let resident := s.programming || s.booting
  if h.length < 256 then .waits
  else
    let s1 := s.consume 256 .signature
    match s.headerCheck resident h with
    | some st => .fails s1 st 2 0
    | none => .took { s1 with cfg := { s1.cfg with header := h, coming := headerImage resident h } }

/-- The signature field has come (R397): its verification begins. -/
def Dev.unitSignature (s : Dev) : UnitOut :=
  if s.cfg.sigWait.isSome || s.cfg.buf.length < 3312 then .waits
  else
    let g := s.cfg.buf.take 3312
    let s1 := s.consume 3312 .signature
    .took { s1 with cfg := { s1.cfg with sigWait := some g } }

/-- Whether a signature field verifies (R397): 3,309 bytes over the header, three zero bytes after it. -/
def Dev.sigGood (s : Dev) (g : List Byte) : Bool :=
  (g.drop 3309).all (· == 0) && Config.mldsaVerify s.imageKey s.cfg.header (g.take 3309)

/-- Verification of the signature is complete (R397, R414, R422): AUTH, a handle for the image, or, for a slot, the sectors it needs are
looked at and its commit word is erased. -/
def Dev.sigOutcome (s : Dev) (g : List Byte) : UnitOut :=
  let s1 := { s with cfg := { s.cfg with sigWait := none, expect := .digest } }
  let i := s.cfg.coming
  if !s.sigGood g then .fails s1 .auth 3 0
  else if s.programming then
    let k := s.cfg.slot
    if s.nvRo (commitSector k) || (List.range ((i.imageLen + 65535) / 65536)).any (fun n => s.nvRo (slotSector k + n)) then
      .fails (s1.event B.CFG 4) .exhausted 9 0
    else .took ((s1.nvWrite (commitSector k) []).slotTake (s.cfg.header ++ g))
  else match s.freeHandle with
    | none => .fails s1 .state 3 0
    | some h =>
      let s2 := { s1 with cfg := { s1.cfg with coming := { i with handle := h } } }
      if i.recordCount = 0 && !i.resident then .whole s2 else .took s2

/-- A tree record (R398): wrong in its place FORMAT, not what the tree names INTEGRITY. -/
def Dev.unitTree (s : Dev) (type target count : Nat) (good : List (List Byte) → Bool) (keep : Dev → List (List Byte) → Dev) : UnitOut :=
  let b := s.cfg.buf
  let n := recordBytes (32 * count)
  if b.length < 16 then .waits
  else if !treeHeader b type target (32 * count) then .fails s .format 4 0
  else if b.length < n then .waits
  else
    let ds := digestsOf count (b.drop 16)
    let s1 := keep (s.consume n s.cfg.expect) ds
    if good ds then .took (s1.slotTake (b.take n)) else .fails s1 .integrity 4 0

/-- A frame is written into its slot (R142, R151, R404): the check bits go with the frame, then the armed mask of SCRB is applied to
word 0 (R530). -/
def Dev.frameWrite (s : Dev) (e d p : Nat) (body : List Byte) : Option Dev :=
  let x := s.slot e p
  if x.st ≠ .loading || x.owner ≠ s.cfg.coming.handle || x.written.contains d then none
  else
    let (mask, s1) := s.takeFlip B.SCRB
    let flips : Map (BitVec 72) := if mask = 0 then [] else [(0, mask.setWidth 72)]
    let s2 := { s1 with fab := { s1.fab with
      frames := Map.set (fun _ => none) s1.fab.frames (8 * (256 * e + d) + p) (some ⟨ofLeBytes body, flips⟩) } }
    some (s2.setSlot e p { x with written := x.written ++ [d] })

/-- What a verified content record does at once: a TRACK claims its planes, a FRAME is written (R152, R414). -/
def Dev.recordClaims (s : Dev) (type target : Nat) (body : List Byte) : Option Dev :=
  if s.programming then some s
  else if type = 0x21 then s.loadPlanes (target % 32) (s.cfg.coming.trackOf (target % 32)).mask s.cfg.coming.handle
  else if type = 0x10 then s.frameWrite (target % 32) (target / 32 % 256) (target / 8192 % 8) body
  else some s

/-- A content record (R398 to R411). A LOAD or frame write that is refused with STATE counts in the erg's block (R15, R150, R152). -/
def Dev.unitRecord (s : Dev) (n : Nat) : UnitOut :=
  let b := s.cfg.buf
  let size := recordBytes (le b 4 4)
  if b.length < 16 || b.length < size then .waits
  else
    let r := b.take size
    let i := s.cfg.coming
    let s1 := s.consume size (i.after (n + 1))
    if some (leafDigest n r) ≠ s.cfg.leaves[n % 128]? then .fails s1 .integrity 4 n
    else match s.recordCheck i n r with
      | .inl st => .fails s1 st 5 n
      | .inr j =>
        let s2 := { s1 with cfg := { s1.cfg with coming := j } }.slotTake r
        match s2.recordClaims (le r 0 2) (le r 8 4) ((r.drop 16).take (le r 4 4)) with
        | none => .fails (s2.refuse (B.ERG (le r 8 4 % 32))) .state 6 n
        | some s3 => .took s3

/-- Takes in the next unit of the image (R394). -/
def Dev.unit (s : Dev) : UnitOut :=
  let i := s.cfg.coming
  match s.cfg.expect with
  | .header => s.unitHeader
  | .signature => s.unitSignature
  | .digest =>
    s.unitTree 1 0 ((i.recordCount + 127) / 128) (fun ds => BitVec.ofNat 256 (ofLeBytes (rootDigest i.recordCount ds)) == i.root)
      (fun s ds => { s with cfg := { s.cfg with digests := ds, expect := i.after 0 } })
  | .leaf k =>
    s.unitTree 2 k (min 128 (i.recordCount - 128 * k)) (fun ls => some (blockDigest k ls) == s.cfg.digests[k]?)
      (fun s ls => { s with cfg := { s.cfg with leaves := ls, expect := .record (128 * k) } })
  | .record n => s.unitRecord n
  | .finished =>
    if i.resident && i.recordCount == 0 then .fails s .format 5 0
    else if i.endBad (s.cfg.bytesIn - s.cfg.buf.length) then .fails s .format 5 0
    else .whole s

/-- An image fails (R416, R417, R422): refused; a slot being programmed is left without its commit word, unless nothing of it could
be erased. -/
def Dev.imageFails (s : Dev) (st : Status) (stage record : Nat) : Dev :=
  if s.programming && st != .exhausted then (s.dropCommit s.cfg.slot).refuseImage st stage record else s.refuseImage st stage record

/-- A slot's last record has verified: its commit word is written (R422). -/
def Dev.programmed (s : Dev) : Dev :=
  let k := s.cfg.slot
  ((({ s with nv := { s.nv with sectors := Map.set (fun _ => []) s.nv.sectors (commitSector k) (commitWord s.cfg.coming) } }).cfgResult .ok 0
    0).cfgIdle .range).event B.CFG 3

/-- An image is whole (R411, R414, R416): a slot's is committed; one without records is complete; any other is sealed and CHECKING. -/
def Dev.imageWhole (s : Dev) : Dev :=
  if s.programming then s.programmed
  else if s.cfg.coming.recordCount = 0 then (s.cfgResult .ok 0 0).cfgIdle .range
  else
    let s1 := { s with cfg := { s.cfg with buf := [], answer := if s.cfg.owner.isSome && s.cfg.moving then some .range else none,
                                           owner := if s.cfg.moving then s.cfg.owner else none } }
    (s1.sealPlanes s1.cfg.coming.handle).setFld B.CFG F.CFG_PIPE_STATE 2

/-- The outcome of a unit in the stream's pipeline, with what the bytes at hand are answered and whether more may follow. -/
def Dev.unitEnd (s : Dev) : UnitOut → Dev × Status × Bool
  | .took s1 => (s1, .ok, true)
  | .waits => (s, .ok, false)
  | .fails s1 st stage n => (s1.imageFails st stage n, st, false)
  | .whole s1 => (s1.imageWhole, if s1.cfg.buf.isEmpty then .ok else .range, false)

/-- Takes in units as far as the buffer reaches. -/
def Dev.cfgRun (s : Dev) : Nat → Dev × Status
  | 0 => (s, .ok)
  | n + 1 => match s.unitEnd s.unit with
    | (s1, st, more) => if more then s1.cfgRun n else (s1, st)

/-- Units that `n` bytes can hold at most. -/
def unitsIn (n : Nat) : Nat := n / 16 + 4

/-- The owner that an initiator is to the stream (R412). -/
def Src.streamOwner : Src → Option StreamOwner
  | .csp => some .csp
  | .lighter n => some (.lighter n.val)
  | _ => none

/-- The owner's transfer ends: once the image has ended the stream has no owner (R413). -/
def Dev.transferEnds (s : Dev) (last : Bool) : Dev :=
  if !last then s
  else if s.cfg.answer.isSome then { s with cfg := { s.cfg with owner := none, answer := none, moving := false } }
  else { s with cfg := { s.cfg with moving := false } }

/-- Bytes of the owner are taken in (R413): a lighter's piece at another offset than the stream's fails the image. While the signature
is being verified they wait in the buffer of 64 KiB; what does not fit is held back. -/
def Dev.streamFeed (s : Dev) (aperture : Option Nat) (bytes : List Byte) : Option (Status × Dev) :=
  let claim := s.cfg.expect == .header && s.cfg.buf.isEmpty
  let s0 := if claim && s.pipe = 0 then s.setFld B.CFG F.CFG_PIPE_STATE 1 else s
  let s1 := if claim then { s0 with cfg := { s0.cfg with bytesIn := 0 } }.setReg B.CFG O.CFG_PROGRESS 0 else s0
  if aperture.any (fun o => o != s1.cfg.bytesIn % 4096) then some (.format, s1.imageFails .format 1 0)
  else if s1.cfg.sigWait.isSome && decide (65536 < s1.cfg.buf.length + bytes.length) then none
  else
    let s2 := { s1 with cfg := { s1.cfg with buf := s1.cfg.buf ++ bytes, bytesIn := s1.cfg.bytesIn + bytes.length } }
    let (s3, st) := s2.cfgRun (unitsIn s2.cfg.buf.length)
    some (st, s3)

/-- STREAM_DATA (R412, R413, R416): bytes reach the image stream; none where a full buffer holds them back. `last`: they end the owner's
transfer. -/
def Dev.streamData (s : Dev) (src : Src) (aperture : Option Nat) (bytes : List Byte) (last : Bool) : Option (Status × Dev) :=
  match src.streamOwner with
  | none => some (.denied, s)
  | some me =>
    if !(s.mode == .moored || s.mode == .underway || s.mode == .anchored) then some (.state, s)
    else
      let run (s : Dev) : Option (Status × Dev) :=
        if bytes.isEmpty then some (.ok, s.transferEnds last)
        else match s.cfg.answer with
          | some st => some (st, s.transferEnds last)
          | none => ({ s with cfg := { s.cfg with moving := true } }.streamFeed aperture bytes).map (fun (x : Status × Dev) => (x.1, x.2.transferEnds last))
      match s.cfg.owner with
      | some o => if o = me then run s else some (.busy, s)
      | none =>
        if bytes.isEmpty then some (.ok, s)
        else if s.pipe = 0 || s.pipe = 5 then run { s with cfg := { s.cfg with owner := some me, answer := none } }
        else some (.busy, s)

/-- SIGNATURE_VERIFIED (R397): the pipeline goes on with what the buffer holds. -/
def Dev.signatureVerified (s : Dev) : Dev :=
  match s.cfg.sigWait with
  | none => s
  | some g =>
    if s.booting || s.mode == .quarantine then s
    else match s.unitEnd (s.sigOutcome g) with
      | (s1, _, more) => if more then (s1.cfgRun (unitsIn s1.cfg.buf.length)).1 else s1

/-- ADMISSION (R75, R76, R415, R416): the check of the image in CHECKING completes; an admitted image is STAGED, and committed where AUTO
is set. -/
def Dev.admission (s : Dev) : Dev :=
  if s.pipe ≠ 2 || s.mode = .quarantine then s
  else match s.admitImage s.cfg.coming with
    | .inl f => (s.admRecord (some f)).refuseImage f.status 7
    | .inr bs =>
      let s1 := { s with cfg := { s.cfg with coming := { s.cfg.coming with bounds := bs } } }.admRecord none
      let s2 := ((s1.setFld B.CFG F.CFG_PIPE_STATE 3).cfgShow .ok 0).event B.CFG 0
      if s2.flag B.CFG F.CFG_ACT_CTRL_AUTO then s2.commitImage.2 else s2

/-- CFG_CMD ABORT (R416, R422). -/
def Dev.cfgAbort (s : Dev) : Dev :=
  match s.pipe with
  | 0 => s.finish B.CFG .ok
  | 1 => (s.refuseImage .state s.loadStage).finish B.CFG .ok
  | 5 =>
    let s1 := s.dropCommit s.cfg.slot
    (if s.cfg.owner.isSome then s1.refuseImage .state s.loadStage else s1.cfgIdle .state).finish B.CFG .ok
  | _ => s.finish B.CFG .state

/-- CFG_CMD ACTIVATE (R415, R416). -/
def Dev.cfgActivate (s : Dev) : Dev :=
  if s.pipe ≠ 3 then s.finish B.CFG .state
  else
    let (st, s1) := s.commitImage
    s1.finish B.CFG st

/-- CFG_CMD WITHDRAW (R416). -/
def Dev.cfgWithdraw (s : Dev) : Dev :=
  if s.pipe ≠ 3 then s.finish B.CFG .state else (s.refuseImage .state 8).finish B.CFG .ok

/-- CFG_CMD PROGRAM (R416, R421). -/
def Dev.cfgProgram (s : Dev) (slot : Nat) : Dev :=
  if slot ≠ 1 && slot ≠ 2 then s.finish B.CFG .format
  else if s.pipe ≠ 0 || !(s.mode == .moored || s.mode == .underway) then s.finish B.CFG .state
  else ({ s with cfg := { s.cfg with slot, written := [], bytesIn := 0 } }.setFld B.CFG F.CFG_PIPE_STATE 5).finish B.CFG .ok

/-- CFG_CMD (R416, R425). -/
def Dev.cfgCmd (s : Dev) (w : Word) : Dev :=
  match nfield w.toNat 0 3 with
  | 0 => s
  | 1 => s.cfgAbort
  | 2 => s.cfgActivate
  | 3 => s.cfgWithdraw
  | 4 => s.cfgProgram (nfield w.toNat 3 2)
  | _ => s.finish B.CFG .format

/-- What a reset does to the image pipeline (R413, R417, R422): an image short of LIVE is discarded, the stream has no owner, a slot
being programmed has no commit word. -/
def Dev.cfgReset (s : Dev) : Dev :=
  let s1 := if s.programming then s.dropCommit s.cfg.slot else s
  { s1 with cfg := {} }

/-- Every function stops but the island, the wire and the mooring generators (R418): Aground. -/
def Dev.aground (s : Dev) : Dev :=
  ({ s.linksOff with clk := { s.clk with phase := .done } }).setMode .aground

/-- The slot that Boot tries (R418). -/
def Dev.bootSlot (s : Dev) : Nat := if s.flag B.CFG F.CFG_BOOT_STAT_FALLBACK then 2 else 1

/-- Boot begins to read a slot (R419, R420): one without its commit word fails at once. -/
def Dev.slotStart (s : Dev) (k : Nat) : Dev :=
  let n := min (max (hdrImageLen (s.slotBytes k 256)) 256) (12 * 2 ^ 20)
  let b := s.slotBytes k n
  { s with cfg := { s.cfg with buf := b, bytesIn := n, expect := .header, header := [], digests := [], leaves := [], sigWait := none,
                               coming := {}, slot := 0, written := [] } }

/-- A slot has failed (R418, R419): CFG_BOOT_STAT records it; slot B is tried under FALLBACK, else the device is Aground. `tested`: the
bundle test of this Boot has run. -/
def Dev.bootFails (s : Dev) (st : Status) (stage : Nat) (tested : Bool) : Dev :=
  let s1 := s.dropSlots s.cfg.coming.handle
  let s2 := { s1 with cfg := { s1.cfg with buf := [], expect := .header, header := [], digests := [], leaves := [], sigWait := none, coming := {} } }
  if s2.bootSlot = 1 then
    let s3 := (s2.setFld B.CFG F.CFG_BOOT_STAT_A_STATUS st.code).setFld B.CFG F.CFG_BOOT_STAT_A_STAGE stage
    if s3.flag B.CFG F.CFG_BOOT_STAT_POLICY then
      { (s3.setFlag B.CFG F.CFG_BOOT_STAT_FALLBACK true).event B.CFG 2 with
        clk := { s3.clk with phase := if tested then .moorAgain else .moor } }
    else s3.aground
  else ((s2.setFld B.CFG F.CFG_BOOT_STAT_B_STATUS st.code).setFld B.CFG F.CFG_BOOT_STAT_B_STAGE stage).aground

/-- The mooring settings of a port (R359, R410). -/
def moorSet (xs : List MoorEntry) (p : Nat) : MoorSet :=
  match xs.find? (fun m => m.port == p) with
  | some m => { en := nbit m.word 8, count := m.count, interval := m.interval, anchorHold := nbit m.word 17,
                payloads := (m.payloads.take m.count).map (BitVec.ofNat 80) }
  | none => {}

/-- MOOR_LOAD (R360): every generator takes its settings, from frame 0 where it had none (R361); bit 6 of every cluster is raised. -/
def Dev.moorLoad (s : Dev) (xs : List MoorEntry) : Dev :=
  let s1 := s.forN 256 (fun s p =>
    let x := s.port p
    s.setPort p { x with moor := moorSet xs p, next := if x.moor.count = 0 then 0 else x.next })
  s1.forN 8 (fun s k => s.event (B.JP k) 6)

/-- Reads on in the slot's bytes until record `stop` is next or the image is whole: how it failed, if it did (R419, R420). -/
def Dev.slotRun (s : Dev) (stop : Nat) : Nat → (Status × Nat × Dev) ⊕ Dev
  | 0 => .inr s
  | n + 1 =>
    if s.cfg.expect == .record stop || (stop == 1 && s.cfg.expect == .finished && s.cfg.coming.recordCount != 0) then .inr s
    else
      let out := match s.cfg.sigWait with
        | some g => s.sigOutcome g
        | none => s.unit
      match out with
      | .took s1 => s1.slotRun stop n
      | .waits => .inl (.integrity, 4, s)
      | .fails s1 st stage _ => .inl (st, stage, s1)
      | .whole s1 => .inr s1

/-- Step 1 of R420: header, signature, tree and MOOR of the slot at hand. -/
def Dev.readMoor (s : Dev) (tested : Bool) : Dev :=
  let k := s.bootSlot
  if !s.committed k then s.bootFails .format 9 tested
  else
    let s1 := s.slotStart k
    match s1.slotRun 1 (unitsIn s1.cfg.buf.length) with
    | .inl (st, stage, s2) => s2.bootFails st stage tested
    | .inr s2 =>
      let s3 := s2.moorLoad ((s2.cfg.coming.moor).getD [])
      { s3 with clk := { s3.clk with phase := if tested then .image else .bundleTest } }

/-- Steps 3 and 4 of R420: the rest of the image, checked whole, and admission. -/
def Dev.readRest (s : Dev) : Dev :=
  match s.slotRun (2 ^ 32) (unitsIn s.cfg.buf.length) with
  | .inl (st, stage, s1) => s1.bootFails st stage true
  | .inr s1 =>
    let s2 := s1.sealPlanes s1.cfg.coming.handle
    match s2.admitImage s2.cfg.coming with
    | .inl f => (s2.admRecord (some f)).bootFails f.status 7 true
    | .inr bs =>
      let s3 := { s2 with cfg := { s2.cfg with coming := { s2.cfg.coming with bounds := bs } } }.admRecord none
      { s3 with clk := { s3.clk with phase := .apply } }

/-- RESIDENT_IMAGE_READ (R419, R420): what Boot has come to reading. -/
def Dev.residentImageRead (s : Dev) : Dev :=
  if s.mode ≠ .boot then s
  else match s.clk.phase with
    | .moor => s.readMoor false
    | .moorAgain => s.readMoor true
    | .image => s.readRest
    | _ => s

/-- What the configuration registers show (R425). -/
def Dev.cfgView (s : Dev) (off : Nat) : Option Word :=
  if off = O.CFG_PIPE then
    let o := match s.cfg.owner with
      | none => 0
      | some .csp => 1
      | some (.lighter _) => 2
    some (BitVec.ofNat 32 (s.pipe + 8 * o + 256 * s.cfg.coming.handle))
  else if O.CFG_SERIAL 0 ≤ off && off ≤ O.CFG_SERIAL 3 then
    some (BitVec.ofNat 32 (s.part.serial.toNat >>> (32 * ((off - O.CFG_SERIAL 0) / 4))))
  else if off = O.CFG_NV_STAT then
    let k := s.fld B.CFG F.CFG_NV_SEL_SECTOR
    some (BitVec.ofNat 32 (min (s.nvErases k) 10000 + 16384 * (s.nvRo k).toNat + 65536 * ((List.range 512).filter s.nvRo).length))
  else none

end Sys2Proof.Machine
end

