-- ==== Sys2Proof/Machine/Lighter.lean ====
section
/-! DEFINITION. Machine/Lighter.lean: lighters and Ethernet ports (R373 to R382). -/

namespace Sys2Proof.Machine

/-- Lighter `n` as an initiator. -/
def lgtSrc (n : Nat) : Src := .lighter (Fin.ofNat 16 n)

/-- State of a channel (R390): IDLE 0, RUNNING 1, ERROR 2, STOPPED 3. -/
def Dev.lgtState (s : Dev) (n : Nat) : Nat := s.fld B.LGT (F.LGT_STAT_STATE n)
def Dev.setLgtState (s : Dev) (n v : Nat) : Dev := s.setFld B.LGT (F.LGT_STAT_STATE n) v

/-- Mode of a channel: MEM 0, ETH_RX 1, ETH_TX 2. -/
def Dev.lgtMode (s : Dev) (n : Nat) : Nat := s.fld B.LGT (F.LGT_CFG_MODE n)

/-- Ring indices of a channel. -/
def Dev.lgtCons (s : Dev) (n : Nat) : Nat := s.fld B.LGT (F.LGT_STAT_CONS n)
def Dev.lgtProd (s : Dev) (n : Nat) : Nat := s.fld B.LGT (F.LGT_PROD_PROD n)
def Dev.lgtRing (s : Dev) (n : Nat) : Nat := 2 ^ s.fld B.LGT (F.LGT_CFG_RING_LOG2 n)

/-- The consumer index moves on; in ETH_RX it is the producer index of the frame ring (R380, R390). -/
def Dev.lgtStep (s : Dev) (n : Nat) : Dev := s.setFld B.LGT (F.LGT_STAT_CONS n) ((s.lgtCons n + 1) % s.lgtRing n)

/-- Address of the entry at the consumer index: 32-byte descriptors, or frame slots (R373, R379). -/
def Dev.lgtEntry (s : Dev) (n : Nat) : Nat :=
  let unit := if s.lgtMode n = 0 then 32 else 2 ^ s.fld B.LGT (F.LGT_CFG_SLOT_LOG2 n)
  s.reg64 B.LGT (O.LGT_BASE_LO n) (O.LGT_BASE_HI n) + unit * s.lgtCons n

/-- Whether the channel may issue: not stopped in a halt, not gated (R457, R514). -/
def Dev.lgtMay (s : Dev) : Bool := !s.halted B.LGT && !s.gated B.LGT

/-- An IDLE channel starts where EN is 1 and its indices differ (R377); in ETH_RX a frame starts it. -/
def Dev.lgtKick (s : Dev) (n : Nat) : Dev :=
  if s.lgtState n = 0 && s.flag B.LGT (F.LGT_CFG_EN n) && s.lgtMode n ≠ 1 && s.lgtProd n ≠ s.lgtCons n then s.setLgtState n 1 else s

/-- What a channel does after a descriptor or a frame: STOPPED where a STOP waits, else IDLE or RUNNING by its indices (R377). -/
def Dev.lgtNext (s : Dev) (n : Nat) : Dev :=
  let l := s.lgt n
  let s1 := s.setLgt n { hostOut := l.hostOut }
  if l.stopping then s1.setLgtState n 3 else (s1.setLgtState n 0).lgtKick n

/-- The channel enters ERROR with the status of the failed descriptor (R376). -/
def Dev.lgtError (s : Dev) (n : Nat) (st : Status) : Dev :=
  ((s.setLgt n { hostOut := (s.lgt n).hostOut }).setLgtState n 2).setFld B.LGT (F.LGT_STAT_ERR_STATUS n) st.code |>.event B.LGT 16

/-- A network request of a lighter: the tag it took, or the status with which its interface refused it (R216); none of either where no tag
is free. -/
def Dev.lgtRequest (s : Dev) (n op addr len : Nat) (data : List Byte) : Dev × Option (Nat ⊕ Status) :=
  if addrBad addr len then (s, some (.inr .range))
  else match s.freeTag (lgtSrc n) with
    | none => (s, none)
    | some t => (s.request { src := lgtSrc n, tag := t, op, addr, len, data, dst := s.destNode addr }, some (.inl t))

/-- A request that is not a piece's: its tag is kept; a refusal puts the channel in ERROR. -/
def Dev.lgtOne (s : Dev) (n : Nat) (phase : LgtPhase) (op addr len : Nat) (data : List Byte) : Dev :=
  match s.lgtRequest n op addr len data with
  | (s1, some (.inl t)) => s1.setLgt n { s1.lgt n with phase, tag := some t }
  | (s1, some (.inr st)) => s1.lgtError n st
  | (s1, none) => s1

/-- Whether an address is in the aperture of the image stream. -/
def isStream (a : Nat) : Bool := addrWin a == some .stream

/-- Bytes that a piece at offset `o` takes (R374, R375). -/
def LgtSt.pieceLen (l : LgtSt) (o : Nat) : Nat :=
  let side (host : Bool) (base : Nat) (stream : Bool) : Nat :=
    let a := base + o
    if host then 4096 - a % 4096
    else if stream then 4096 - o % 4096
    else match addrWin a with
      | some .ext => 256 - a % 256
      | some .hold => 0x20000 - a % 0x20000
      | _ => 512
  min (l.len - o) (min 512 (min (side l.srcHost l.src false) (side l.dstHost l.dst (l.dst == 0x003100000000 && !l.dstHost))))

/-- The address of a piece on the destination side: in the aperture the offset is taken modulo 4,096 (R374). -/
def LgtSt.dstAt (l : LgtSt) (o : Nat) : Nat := if l.dst = 0x003100000000 then l.dst + o % 4096 else l.dst + o

/-- A piece has failed: the first in address order is kept (R376). -/
def LgtSt.failed (l : LgtSt) (o : Nat) (st : Status) : LgtSt :=
  { l with bad := match l.bad with
      | some (p, q) => if p ≤ o then some (p, q) else some (o, st)
      | none => some (o, st) }

/-- A piece leaves the list. -/
def LgtSt.without (l : LgtSt) (o : Nat) : LgtSt := { l with pieces := l.pieces.filter (fun p => p.off != o) }

/-- Changes the piece at an offset. -/
def LgtSt.withPiece (l : LgtSt) (p : LgtPiece) : LgtSt :=
  { l with pieces := l.pieces.map (fun q => if q.off = p.off then p else q) }

/-- Whether the host link is up. -/
def Dev.hostLinkUp (s : Dev) : Bool := s.fld B.PCIE F.PCIE_LINK_SPEED != 0

/-- Whether a request of a lighter that waits for host memory since a cycle has reached its timeout, that of class LIGHTER (R235, R236,
R372). -/
def Dev.hostLate (s : Dev) (since : Nat) : Bool := timerOver (timerEnd since (s.fld B.HN (F.HN_TO_TIMEOUT 5))) s.clk.time

/-- A piece whose bytes are at hand goes to its destination (R375): host memory takes it at once, unless the link is down: then it waits for
its timeout (R372). -/
def Dev.pieceOut (s : Dev) (n : Nat) (p : LgtPiece) : Dev :=
  let l := s.lgt n
  if l.dstHost then
    (if l.phase = .txBody || s.hostLinkUp then s.setLgt n { (l.without p.off) with hostOut := some (l.dst + p.off, p.data) }
     else s.setLgt n (l.withPiece { p with stage := .writing, tag := none, since := s.clk.time }))
  else match s.lgtRequest n 2 (l.dstAt p.off) p.len p.data with
    | (s1, some (.inl t)) => s1.setLgt n ((s1.lgt n).withPiece { p with stage := .writing, tag := some t })
    | (s1, some (.inr st)) => s1.setLgt n (((s1.lgt n).without p.off).failed p.off st)
    | (s1, none) => s1

/-- Pieces at hand go out; those of a stream in order (R374). -/
def Dev.piecesOut (s : Dev) (n : Nat) : Dev :=
  let l := s.lgt n
  let inOrder := isStream l.dst && !l.dstHost
  let ready := if inOrder then
      (l.pieces.takeWhile (fun p => p.stage != .reading)).filter (fun p => p.stage == .ready)
    else l.pieces.filter (fun p => p.stage == .ready)
  ready.foldl (fun s p => s.pieceOut n p) s

/-- New pieces are issued, up to 16 outstanding (R375): none after a failure. -/
def Dev.piecesIssue (s : Dev) (n : Nat) : Nat → Dev
  | 0 => s
  | k + 1 =>
    let l := s.lgt n
    if !s.lgtMay || l.bad.isSome || l.len ≤ l.next || 16 ≤ l.pieces.length then s
    else
      let len := l.pieceLen l.next
      let p : LgtPiece := { off := l.next, len, since := s.clk.time }
      let l1 : LgtSt := { l with next := l.next + len, pieces := l.pieces ++ [p] }
      if l.phase = .rxBody then
        let q : LgtPiece := { p with stage := .ready, data := (l.head.drop l.next).take len }
        (s.setLgt n { l1 with pieces := l.pieces ++ [q] }).piecesIssue n k
      else if l.srcHost then (s.setLgt n l1).piecesIssue n k
      else match s.lgtRequest n 1 (l.src + l.next) len [] with
        | (s1, some (.inl t)) => (s1.setLgt n { l1 with pieces := l.pieces ++ [{ p with tag := some t }] }).piecesIssue n k
        | (s1, some (.inr st)) => s1.setLgt n ({ l with next := l.next + len }.failed l.next st)
        | (s1, none) => s1

/-- The RESULT of a descriptor is written (R373, R376): in host memory at once, else by a request. `lgtDone` follows. -/
def Dev.lgtDone (s : Dev) (n : Nat) : Dev :=
  let l := s.lgt n
  match l.bad with
  | some (_, st) => s.lgtError n st
  | none =>
    let s1 := if l.irq then s.event B.LGT n else s
    (s1.lgtStep n).lgtNext n

/-- The transfer of a descriptor has ended (R376): its RESULT is written, or waits for the host link (R372). A stream descriptor ends its owner's transfer (R413). -/
def Dev.lgtFinish (s : Dev) (n : Nat) : Dev :=
  let l := s.lgt n
  let s0 := if isStream l.dst && !l.dstHost && s.cfg.owner = some (.lighter n) then s.transferEnds true else s
  let (bytes, st) := match l.bad with
    | some (o, st) => (o, st)
    | none => (l.len, Status.ok)
  let result := leBytes 4 (st.code + 16 + 256 * bytes)
  let at_ := s0.lgtEntry n + 0x14
  if s0.flag B.LGT (F.LGT_CFG_RING_HOST n) then
    (if s0.hostLinkUp then (s0.setLgt n { l with hostOut := some (at_, result) }).lgtDone n
     else s0.setLgt n { l with phase := .result, hostWait := some s0.clk.time })
  else s0.lgtOne n .result 2 at_ 4 result

/-- Ethernet CRC-32 over bytes, as the FCS is computed (R378). -/
def ethFcs (bs : List Byte) : List Byte :=
  let step (a : Nat) (b : Byte) : Nat := (List.range 8).foldl (fun a i =>
    let sh := a / 2
    if (a % 2 == 1) != b.getLsbD i then Nat.xor sh 0xEDB88320 else sh) a
  leBytes 4 (Nat.xor (bs.foldl step 0xFFFFFFFF) 0xFFFFFFFF)

/-- A 32-byte slot header (R379). -/
def slotHeader (len flags ns frac : Nat) : List Byte :=
  leBytes 2 len ++ leBytes 2 flags ++ leBytes 4 0 ++ leBytes 8 ns ++ leBytes 4 frac ++ leBytes 12 0

/-- Big-endian bytes of a number. -/
def beBytes (k n : Nat) : List Byte := (leBytes k n).reverse

/-- The PTP payload of an event message: bytes after the EtherType 0x88F7, or after UDP to port 319 over IPv4 or IPv6 (R382; where the fields
stand, PRESUMED from the IEEE and Internet standards, notes/assumptions/40.md). -/
def ptpAt (f : List Byte) : Option Nat :=
  let be (i : Nat) : Nat := 256 * (f.getD i 0).toNat + (f.getD (i + 1) 0).toNat
  let event (i : Nat) : Option Nat := if i < f.length && (f.getD i 0).toNat % 16 < 4 then some i else none
  if be 12 = 0x88F7 then event 14
  else if be 12 = 0x0800 then
    let ip := 14 + 4 * ((f.getD 14 0).toNat % 16)
    if (f.getD 23 0).toNat = 17 && be (ip + 2) = 319 then event (ip + 8) else none
  else if be 12 = 0x86DD && (f.getD 20 0).toNat = 17 && be 56 = 319 then event 62
  else none

/-- The frame that leaves from a slot (R381, R382): with ONE_STEP a Sync message over Ethernet carries the transmit time. -/
def Dev.txFrame (s : Dev) (p flags : Nat) (f : List Byte) : List Byte :=
  let sync := ptpAt f == some 14 && (f.getD 14 0).toNat % 16 == 0 && 58 ≤ f.length
  if nbit flags 3 && s.flag B.ETH (F.ETH_CFG_ONESTEP p) && sync then
    f.take 48 ++ beBytes 6 (s.ns / 1000000000) ++ beBytes 4 (s.ns % 1000000000) ++ f.drop 58
  else f

/-- The body of a frame to send has been read (R381): the frame leaves, and its header goes back with VALID 0. -/
def Dev.txSend (s : Dev) (n : Nat) : Dev :=
  let l := s.lgt n
  let p := s.fld B.LGT (F.LGT_CFG_PORT n)
  let flags := ofLeBytes ((l.head.drop 2).take 2)
  let len := ofLeBytes (l.head.take 2)
  let f := s.txFrame p flags (l.head.drop 32)
  let s1 := { s with eth := { s.eth with sent := Map.set (fun _ => none) s.eth.sent p (some (f ++ ethFcs f)) } }
  let stamp := nbit flags 2
  s1.lgtOne n .txBack 2 (s.lgtEntry n) 32
    (slotHeader len (flags / 2 * 2) (if stamp then s.ns else ofLeBytes ((l.head.drop 8).take 8))
      (if stamp then s.eth.time % 2 ^ 32 else ofLeBytes ((l.head.drop 16).take 4)))

/-- What a lighter does once no piece is outstanding (R376, R380, R381). -/
def Dev.lgtEnded (s : Dev) (n : Nat) : Dev :=
  let l := s.lgt n
  match l.phase, l.bad with
  | .move, _ => s.lgtFinish n
  | .rxBody, none => s.lgtOne n .rxHead 2 (s.lgtEntry n) 32 l.slot
  | .txBody, none => s.txSend n
  | .rxBody, some (_, st) => s.lgtError n st
  | .txBody, some (_, st) => s.lgtError n st
  | _, _ => s

/-- The lighter goes on: pieces go out, new ones are issued, an ended transfer is finished. -/
def Dev.lgtPump (s : Dev) (n : Nat) : Dev :=
  let ph := (s.lgt n).phase
  if ph = .move || ph = .rxBody || ph = .txBody then
    let s1 := ((s.piecesOut n).piecesIssue n 16).piecesOut n
    let l := s1.lgt n
    if l.pieces.isEmpty && (l.bad.isSome || l.len ≤ l.next) then s1.lgtEnded n else s1
  else s

/-- Every lighter goes on: a halt or a gate has ended. -/
def Dev.lgtPumps (s : Dev) : Dev := s.forN 16 Dev.lgtPump

/-- The status with which R374 refuses a device-local range of a descriptor; `dst`: it is the destination, where the aperture of the image
stream takes any length. -/
def Dev.lgtRange (s : Dev) (n : Nat) (dst : Bool) (a len : Nat) : Option Status :=
  if dst && a = 0x003100000000 then none
  else
    let last := a + len - 1
    let inside : Bool := match addrWin a with
      | none => false
      | some .ext => decide (a + len ≤ 0x000800000000) && decide (a + len ≤ s.usableEnd)
      | some .hold => decide (a + len ≤ 0x001040000000)
      | some w => !addrBad a len && decide (a + len ≤ winEnd a w)
    if !inside then some .range
    else if addrWin a = some .ext && s.protDenied (s.srcNode (lgtSrc n)) a len then some .denied
    else if addrWin a = some .hold && (s.bondDenied (lgtSrc n) (holdBank a) || s.bondDenied (lgtSrc n) (holdBank last)) then some .denied
    else none

/-- A descriptor has been fetched (R373, R374): it is refused whole, or its pieces go out. -/
def Dev.lgtDescriptor (s : Dev) (n : Nat) (d : List Byte) : Dev :=
  let w (o k : Nat) : Nat := ofLeBytes ((d.drop o).take k)
  let src := w 0 8
  let dst := w 8 8
  let ctl := w 16 4
  let len := ctl % 2 ^ 24
  let sh := nbit ctl 24
  let dh := nbit ctl 25
  let bad : Option Status :=
    if (sh && dh) || ctl / 2 ^ 27 ≠ 0 || w 24 8 ≠ 0 then some .format
    else if len = 0 then none
    else
      let a := if sh then none else s.lgtRange n false src len
      let b := if dh then none else s.lgtRange n true dst len
      if a = some .range || b = some .range then some .range
      else if a.isSome || b.isSome then some .denied
      else if !dh && isStream dst && s.cfg.owner.isSome && s.cfg.owner ≠ some (.lighter n) then some .busy
      else none
  let l : LgtSt := { s.lgt n with phase := .move, src, dst, len, srcHost := sh, dstHost := dh, irq := nbit ctl 26, next := 0, pieces := [],
                                  bad := bad.map (fun st => (0, st)), tag := none, hostWait := none }
  (s.setLgt n l).lgtPump n

/-- LIGHTER_DESCRIPTOR (R373, R374): a RUNNING channel in MEM fetches the descriptor at its consumer index: from host memory, which answers
with `host`, or by a request. A fetch that host memory does not answer waits for its timeout (R372). -/
def Dev.lighterDescriptor (s : Dev) (n : Nat) (host : List Byte) : Dev :=
  let l := s.lgt n
  let again := l.phase = .fetch && l.hostWait.isSome
  if s.lgtState n ≠ 1 || s.lgtMode n ≠ 0 || !(l.phase = .idle || again) || s.lgtProd n = s.lgtCons n || !s.lgtMay then s
  else if s.flag B.LGT (F.LGT_CFG_RING_HOST n) then
    (if host.length = 32 && s.hostLinkUp then s.lgtDescriptor n host
     else if again then s
     else s.setLgt n { l with phase := .fetch, hostWait := some s.clk.time })
  else s.lgtOne n .fetch 1 (s.lgtEntry n) 32 []

/-- The status of a piece that host memory has answered. -/
def HostAnswer.status : HostAnswer → Status
  | .data _ => .ok | .refused => .denied | .poisoned => .uncorr | .timeout => .timeout

/-- A piece's source or destination has answered (R375, R376). -/
def Dev.pieceAnswer (s : Dev) (n : Nat) (p : LgtPiece) (st : Status) (data : List Byte) : Dev :=
  let l := s.lgt n
  let l1 := match p.stage, st with
    | .reading, .ok =>
      if l.phase = .txBody then { (l.without p.off) with head := l.head.take (32 + p.off) ++ data ++ l.head.drop (32 + p.off + p.len) }
      else l.withPiece { p with stage := .ready, tag := none, data }
    | .writing, .ok => l.without p.off
    | _, _ => (l.without p.off).failed p.off st
  (s.setLgt n l1).lgtPump n

/-- Whether an answer of host memory to a request made at a cycle can come now: while the link is up, and a timeout once it has elapsed (R372,
R375). -/
def Dev.hostAnswers (s : Dev) (a : HostAnswer) (since : Nat) : Bool :=
  match a with
  | .timeout => s.hostLate since
  | _ => s.hostLinkUp

/-- LIGHTER_PIECE_DONE (R372, R375, R376): host memory has answered the piece at an offset, or its timeout has elapsed; so with a descriptor
fetch or a RESULT write, whichever the offset. Without such a request the transfer only goes on. -/
def Dev.lighterPieceDone (s : Dev) (n off : Nat) (a : HostAnswer) : Dev :=
  let l := s.lgt n
  match l.hostWait, l.pieces.find? (fun p => p.off == off &&
      ((p.stage == .reading && l.srcHost) || (p.stage == .writing && l.dstHost && a == .timeout))) with
  | some t, _ => if a = .timeout && s.hostLate t then (s.setLgt n { l with hostWait := none }).lgtError n .timeout else s
  | none, some p =>
    if s.hostAnswers a p.since then
      s.pieceAnswer n p a.status (match a with | .data b => (b ++ List.replicate (p.len - b.length) 0).take p.len | _ => [])
    else s
  | none, none => s.lgtPump n

/-- The header of a slot to send has been read (R381). -/
def Dev.txHeader (s : Dev) (n : Nat) (h : List Byte) : Dev :=
  let len := ofLeBytes (h.take 2)
  let flags := ofLeBytes ((h.drop 2).take 2)
  let p := s.fld B.LGT (F.LGT_CFG_PORT n)
  if !nbit flags 0 then s.setLgt n { s.lgt n with phase := .idle, tag := none }
  else if len < 60 || 9212 < len then
    (s.count B.ETH (F.ETH_CNT_BAD_CNT p)).lgtOne n .txBack 2 (s.lgtEntry n) 32
      (slotHeader len (flags / 2 * 2) 0 (ofLeBytes ((h.drop 16).take 4)))
  else
    let l : LgtSt := { s.lgt n with phase := .txBody, src := s.lgtEntry n + 32, len, srcHost := false, dstHost := true, dst := 0, next := 0,
                                    pieces := [], bad := none, tag := none, head := h ++ List.replicate len 0 }
    (s.setLgt n l).lgtPump n

/-- A request of a lighter has been answered (R374 to R381). -/
def Dev.lgtAnswer (s : Dev) (n tag : Nat) (st : Status) (data : List Byte) : Dev :=
  let l := s.lgt n
  match l.pieces.find? (fun p => p.tag == some tag) with
  | some p => s.pieceAnswer n p st data
  | none =>
    if l.tag ≠ some tag then s
    else if st ≠ .ok then s.lgtError n st
    else match l.phase with
      | .fetch => s.lgtDescriptor n data
      | .result => s.lgtDone n
      | .rxHead => (s.lgtStep n).lgtNext n
      | .txHead => s.txHeader n data
      | .txBack => (s.lgtStep n).lgtNext n
      | _ => s

/-- LGT_CMD STOP (R377). -/
def Dev.lgtStop (s : Dev) (n : Nat) : Dev :=
  match s.lgtState n with
  | 1 =>
    let l := s.lgt n
    (if l.phase = .idle then s.setLgtState n 3 else s.setLgt n { l with stopping := true }).finish B.LGT .ok
  | 2 => ((s.lgtStep n).setLgtState n 3).finish B.LGT .ok
  | 3 => s.finish B.LGT .ok
  | _ => (s.setLgtState n 3).finish B.LGT .ok

/-- LGT_CMD CLEAR (R377). -/
def Dev.lgtClear (s : Dev) (n : Nat) : Dev :=
  match s.lgtState n with
  | 2 => (((s.lgtStep n).setLgtState n 0).lgtKick n).finish B.LGT .ok
  | 3 => ((s.setLgtState n 0).lgtKick n).finish B.LGT .ok
  | _ => s.finish B.LGT .state

/-- LGT_CFG is written (R377): ignored and counted in RUNNING and ERROR; in STOPPED, EN written 0 and then 1 returns to IDLE. `store`
stores the word. -/
def Dev.lgtCfg (s : Dev) (n : Nat) (store : Dev → Dev) : Dev :=
  match s.lgtState n with
  | 1 => s.refuse B.LGT
  | 2 => s.refuse B.LGT
  | 3 =>
    let was := s.flag B.LGT (F.LGT_CFG_EN n)
    let s1 := store s
    if !was && s1.flag B.LGT (F.LGT_CFG_EN n) then (s1.setLgtState n 0).lgtKick n else s1
  | _ => (store s).lgtKick n

/-- Whether a port accepts a frame by its destination address (R378). -/
def Dev.ethTakes (s : Dev) (p : Nat) (f : List Byte) : Bool :=
  let mac := leBytes 4 (s.reg B.ETH (O.ETH_MAC_LO p)).toNat ++ leBytes 2 (s.reg B.ETH (O.ETH_MAC_HI p)).toNat
  f.take 6 == mac || (s.flag B.ETH (F.ETH_CFG_MCAST p) && (f.getD 0 0).getLsbD 0) || s.flag B.ETH (F.ETH_CFG_PROMISC p)

/-- ETH_FRAME_RECEIVE (R378, R380, R382): a frame without its FCS, and whether that was right. -/
def Dev.ethFrameReceive (s : Dev) (p : Nat) (f : List Byte) (fcsOk : Bool) : Dev :=
  if !s.flag B.ETH (F.ETH_CFG_EN p) || s.gated B.ETH then s
  else if !fcsOk || f.length < 60 || 9212 < f.length then s.count B.ETH (F.ETH_CNT_BAD_CNT p)
  else if !s.ethTakes p f then s
  else
    let q := Map.get (fun _ => []) s.eth.rx p
    if 65536 < (q.map (fun x => x.data.length)).sum + f.length then (s.count B.ETH (F.ETH_CNT_FULL_CNT p)).event B.ETH (4 + p)
    else
      let x : EthFrame := { data := f, ptp := (ptpAt f).isSome, ns := s.ns, frac := s.eth.time % 2 ^ 32 }
      { s with eth := { s.eth with rx := Map.set (fun _ => []) s.eth.rx p (q ++ [x]) } }

/-- LINK_CHG: a port's PCS gains or loses lock (R378). -/
def Dev.ethLinkChg (s : Dev) (p : Nat) (up : Bool) : Dev :=
  if s.flag B.ETH (F.ETH_CFG_LINK_UP p) = up then s else (s.setFlag B.ETH (F.ETH_CFG_LINK_UP p) up).event B.ETH p

/-- ETH_RX_DELIVER (R380): the ETH_RX lighter of a port takes the oldest frame of its buffer to the slot at its producer index; a frame that
finds the ring full or is longer than the slot is dropped. -/
def Dev.ethRxDeliver (s : Dev) (n : Nat) : Dev :=
  let p := s.fld B.LGT (F.LGT_CFG_PORT n)
  let l := s.lgt n
  if 2 ≤ s.lgtState n || !s.flag B.LGT (F.LGT_CFG_EN n) || s.lgtMode n ≠ 1 || l.phase ≠ .idle || !s.lgtMay then s
  else match Map.get (fun _ => []) s.eth.rx p with
    | [] => s
    | f :: rest =>
      let s1 := { s with eth := { s.eth with rx := Map.set (fun _ => []) s.eth.rx p rest } }
      let full := (s1.lgtCons n + 1) % s1.lgtRing n == s1.lgtProd n
      if full || 2 ^ s.fld B.LGT (F.LGT_CFG_SLOT_LOG2 n) < 32 + f.data.length then
        (s1.count B.ETH (F.ETH_CNT_FULL_CNT p)).event B.ETH (4 + p)
      else
        let l1 : LgtSt := { l with phase := .rxBody, src := 0, dst := s1.lgtEntry n + 32, len := f.data.length,
                                   srcHost := true, dstHost := false, next := 0, pieces := [], bad := none, tag := none, head := f.data,
                                   slot := slotHeader f.data.length (1 + 2 * f.ptp.toNat) f.ns f.frac }
        ((s1.setLgtState n 1).setLgt n l1).lgtPump n

/-- ETH_TX_SLOT (R381): the ETH_TX lighter reads the slot at its consumer index. -/
def Dev.ethTxSlot (s : Dev) (n : Nat) : Dev :=
  if s.lgtState n ≠ 1 || s.lgtMode n ≠ 2 || (s.lgt n).phase ≠ .idle || s.lgtProd n = s.lgtCons n || !s.lgtMay ||
      !s.flag B.ETH (F.ETH_CFG_EN (s.fld B.LGT (F.LGT_CFG_PORT n))) || s.gated B.ETH then s
  else s.lgtOne n .txHead 1 (s.lgtEntry n) 32 []

end Sys2Proof.Machine
end

