-- ==== Sys2Proof/Machine/HostPort.lean ====
section
/-! DEFINITION. Machine/HostPort.lean: the PCI Express endpoint and the configuration slave port (R367 to R372, R387 to R390). -/

namespace Sys2Proof.Machine

/-- Where a BAR begins in the address map (R368): 0 BAR0, 1 BAR2, 2 BAR4. -/
def barBase (bar : Nat) : Nat := if bar = 0 then regWindow else if bar = 1 then 0x001000000000 else 0

/-- The size of a BAR (R368). -/
def Dev.barSize (s : Dev) (bar : Nat) : Nat :=
  if bar = 0 then 0x1000000 else if bar = 1 then 0x40000000 else 2 ^ (30 + s.fld B.PCIE F.PCIE_LINK_BAR4_SIZE)

/-- What the endpoint's configuration space names (R367): vendor, device, class code; the largest payload of a request. -/
def pcieVendor : Nat := 0x1F6A
def pcieDevice : Nat := 0x8192
def pcieClass : Nat := 0x120000
def pciePayload : Nat := 512

/-- Whether a window offset lies in the MSI-X table or the PBA (R371). -/
def inMsix (o : Nat) : Bool := decide (0x0C1000 ≤ o) && decide (o < 0x0C2020)

/-- Pieces of a host request (R369): at most 512 bytes, none across a 4 KiB boundary. A request to BAR0 is one access under R3, but an aligned
64-bit access to the MSI-X table or PBA is two of 32 bits. -/
def hostPieces (bar addr len : Nat) : List (Nat × Nat) :=
  if bar = 0 then (if inMsix (addr - regWindow) && len = 8 && addr % 8 = 0 then [(0, 4), (4, 4)] else [(0, len)])
  else
    let first := min len (512 - addr % 512)
    (0, first) :: (List.range ((len - first + 511) / 512)).map (fun k => (first + 512 * k, min 512 (len - first - 512 * k)))

/-- A host request and a change of it. -/
def Dev.tlp (s : Dev) (k : Nat) : Option Tlp := Map.get (fun _ => none) s.pcie.tlps k
def Dev.setTlp (s : Dev) (k : Nat) (t : Option Tlp) : Dev :=
  { s with pcie := { s.pcie with tlps := Map.set (fun _ => none) s.pcie.tlps k t } }

/-- A failed host request is recorded (R370). -/
def Dev.hostError (s : Dev) (t : Tlp) (st : Status) : Dev :=
  let s1 := ((s.setFld B.PCIE F.PCIE_ERR_STATUS st.code).setFlag B.PCIE F.PCIE_ERR_WRITE (!t.isRead)).setFld B.PCIE F.PCIE_ERR_BAR t.bar
  (s1.count B.PCIE F.PCIE_ERR_CNT).event B.PCIE 0

/-- The bytes of the pieces that came, in order of address. -/
def partBytes (ps : List (Nat × List Byte)) : List Byte := (ps.mergeSort (fun a b => decide (a.1 ≤ b.1))).flatMap (·.2)

/-- A host request has all its answers (R369, R370): a read is completed, a failed write dropped. -/
def Dev.tlpEnd (s : Dev) (k : Nat) (t : Tlp) : Dev :=
  let s1 := s.setTlp k none
  match t.bad, t.isRead with
  | none, true => { s1 with pcie := { s1.pcie with cpl := some ⟨false, partBytes t.parts⟩ } }
  | none, false => s1
  | some (_, st), true =>
    let abort := s1.flag B.PCIE F.PCIE_CTRL_ERR_CPL
    ({ s1 with pcie := { s1.pcie with cpl := some ⟨abort, if abort then [] else List.replicate t.len 0xFF⟩ } }).hostError t st
  | some (_, st), false => s1.hostError t st

/-- One piece of a host request has its answer: the first bad status by address counts (R222). -/
def Dev.tlpPart (s : Dev) (k off : Nat) (st : Status) (data : List Byte) : Dev :=
  match s.tlp k with
  | none => s
  | some t =>
    let bad := if st = .ok then t.bad else match t.bad with
      | some (o, b) => if o ≤ off then some (o, b) else some (off, st)
      | none => some (off, st)
    let t1 : Tlp := { t with left := t.left - 1, bad, parts := t.parts ++ [(off, data)] }
    if t1.left = 0 then s.tlpEnd k t1 else s.setTlp k (some t1)

/-- Issues the pieces of a host request, each under a free tag; a piece that its interface refuses ends RANGE (R216). -/
def Dev.tlpIssue (s : Dev) (k : Nat) (t : Tlp) : Dev :=
  let ps := hostPieces t.bar t.addr t.len
  let s0 := s.setTlp k (some { t with left := ps.length })
  ps.foldl (fun s (off, len) =>
    let a := t.addr + off
    if addrBad a len then s.tlpPart k off .range []
    else match s.freeTag .host with
      | none => s.tlpPart k off .busy []
      | some tag =>
        let s1 := { s with pcie := { s.pcie with tags := Map.set (fun _ => none) s.pcie.tags tag (some (k + 65536 * off)) } }
        s1.request { src := .host, tag, op := if t.isRead then 1 else 2, addr := a, len, data := if t.isRead then [] else (t.data.drop off).take len,
                     dst := s.destNode a }) s0

/-- Whether a posted write is under way: a read waits for it (R369). -/
def Dev.writesOut (s : Dev) : Bool :=
  s.pcie.tlps.any (fun (k, t) => !s.pcie.waiting.contains k && (match t with | some t => !t.isRead | none => false))

/-- Host requests that wait go out in their order: a read once no posted write is under way, each once tags are free for all its pieces; none
while a halt parks them (R369, R514). -/
def Dev.hostPump (s : Dev) : Nat → Dev
  | 0 => s
  | n + 1 =>
    match s.pcie.waiting with
    | [] => s
    | k :: rest =>
      match s.tlp k with
      | none => { s with pcie := { s.pcie with waiting := rest } }
      | some t =>
        let free := 256 - (s.net.outs.filter (fun o => o.src == .host)).length
        if s.halted B.PCIE || (t.isRead && s.writesOut) || free < (hostPieces t.bar t.addr t.len).length then s
        else ({ s with pcie := { s.pcie with waiting := rest } }.tlpIssue k t).hostPump n

/-- Packets of the host requests that a halt parks. -/
def Dev.hostParked (s : Dev) : Nat :=
  (s.pcie.waiting.map (fun k => match s.tlp k with
    | some t => (hostPieces t.bar t.addr t.len).length
    | none => 0)).sum

/-- A host request TLP (R367 to R369): taken while the link is up, where its bytes lie within the BAR and within the largest payload or read
request. While a halt stops the port it parks, and one that finds 16 packets parked ends BUSY (R250, R514). -/
def Dev.hostTlp (s : Dev) (isRead : Bool) (bar off len : Nat) (data : List Byte) : Dev :=
  if !s.hostLinkUp || len = 0 || (if isRead then 4096 else pciePayload) < len || s.barSize bar < off + len then s
  else
    let k := s.pcie.next
    let t : Tlp := { isRead, bar, addr := barBase bar + off, len, data }
    let s0 : Dev := { s with pcie := { s.pcie with next := (k + 1) % 65536 } }
    if s.halted B.PCIE && heldRoom < s.hostParked + (hostPieces bar t.addr len).length then
      ((s0.count B.HN F.HN_TO_CNT_BUSY_CNT).event B.HN 7).tlpEnd k { t with bad := some (0, .busy) }
    else
      let s1 := s0.setTlp k (some t)
      { s1 with pcie := { s1.pcie with waiting := s1.pcie.waiting ++ [k] } }.hostPump 256

/-- A response for the host port has come, or its timeout (R369, R370). -/
def Dev.hostAnswer (s : Dev) (tag : Nat) (st : Status) (data : List Byte) : Dev :=
  match Map.get (fun _ => none) s.pcie.tags tag with
  | none => s.hostPump 256
  | some v =>
    let s1 := { s with pcie := { s.pcie with tags := Map.set (fun _ => none) s.pcie.tags tag none } }
    (s1.tlpPart (v % 65536) (v / 65536) st data).hostPump 256

/-- Whether a vector is masked: bit 0 of its Vector Control word (R371). -/
def Dev.vecMasked (s : Dev) (v : Nat) : Bool := nbit (Map.get msixReset s.pcie.table (4 * v + 3)).toNat 0

/-- MSIX_MESSAGE (R371, R457): a vector that became asserted sends its message, or sets its PBA bit while it is masked; a gated endpoint and
one whose link is down hold it. -/
def Dev.msixMessage (s : Dev) (v : Nat) : Dev :=
  if !s.pcie.owed.contains v || s.gated B.PCIE || !s.hostLinkUp then s
  else
    let p := { s.pcie with owed := s.pcie.owed.filter (· != v) }
    if s.vecMasked v then { s with pcie := { p with pba := p.pba.filter (· != v) ++ [v] } }
    else
      let w (k : Nat) : Word := Map.get msixReset s.pcie.table (4 * v + k)
      { s with pcie := { p with sent := some ((w 0).toNat + 2 ^ 32 * (w 1).toNat, w 2) } }

/-- A word of the MSI-X table is written: a vector that it unmasks sends the message that its PBA bit holds, where it is still asserted
(R371). -/
def Dev.msixWrite (s : Dev) (k : Nat) (w : Word) : Dev :=
  let v := k / 4
  let was := s.vecMasked v
  let s1 := { s with pcie := { s.pcie with table := Map.set msixReset s.pcie.table k w } }
  if k % 4 = 3 && was && !s1.vecMasked v && s1.pcie.pba.contains v then
    { s1 with pcie := { s1.pcie with pba := s1.pcie.pba.filter (· != v),
                                     owed := if s1.pcie.asserted.contains v then s1.pcie.owed ++ [v] else s1.pcie.owed } }
  else s1

/-- A word of the PBA. -/
def Dev.pbaWord (s : Dev) (k : Nat) : Word :=
  BitVec.ofNat 32 ((List.range 32).foldl (fun a i => if s.pcie.pba.contains (32 * k + i) then a + 2 ^ i else a) 0)

/-- PCIE_LINK_UP (R367, R372): PCIE_LINK shows the speed and width trained and the BAR4 size that the host has set. -/
def Dev.pcieLinkUp (s : Dev) (speed width bar4 : Nat) : Dev :=
  ((s.setFld B.PCIE F.PCIE_LINK_SPEED speed).setFld B.PCIE F.PCIE_LINK_WIDTH width).setFlag B.PCIE F.PCIE_LINK_FLIT (speed == 6) |>.setFld B.PCIE
    F.PCIE_LINK_BAR4_SIZE bar4

/-- PCIE_LINK_DOWN (R372, R440): the link and the configuration space are reset, responses on their way are discarded, the HOST session closes,
LINK_DOWN is raised. Lighter pieces that wait for host memory end at their timeout. -/
def Dev.pcieLinkDown (s : Dev) : Dev :=
  let s1 := (s.setReg B.PCIE O.PCIE_LINK 0).setFld B.PCIE F.PCIE_LINK_BAR4_SIZE 5
  ({ s1 with pcie := { s1.pcie with tlps := [], tags := [], waiting := [] } }.closeSession 0).event B.PCIE 1

/-- The mode that the strap pins gave the CSP (R387): OFF 0, SERIAL_X1 1, SERIAL_X4 2, PARALLEL_X32 3. -/
def Dev.cspMode (s : Dev) : Nat := s.clk.cspMode

/-- Whether the CSP takes transfers: strapped on, not gated, not stopped in a halt, in a mode whose interfaces include it or answer it (R387,
R457, R465, R514, R546). -/
def Dev.cspOn (s : Dev) : Bool :=
  s.cspMode != 0 && !s.gated B.CSP && !s.halted B.CSP &&
    !(s.mode == .beacon || s.mode == .reset || s.mode == .quarantine || s.mode == .aground)

/-- CSP_READY: 1,024 bytes of the stream buffer are free (R388); 0 while a halt stops the port (R514). -/
def Dev.cspReady (s : Dev) : Bool := decide (s.cfg.buf.length + 1024 ≤ 65536) && s.cspOn

/-- CSP_STAT (R390). -/
def Dev.cspStat (s : Dev) : Word :=
  BitVec.ofNat 32 (s.cspMode + (if s.cfg.owner = some .csp then 4 else 0) + 8 * s.cspReady.toNat + 65536 * s.fld B.CSP F.CSP_STAT_ERR_CNT)

/-- The bytes of CSP words, as the stream takes them: little-endian (DEDUCED, notes/assumptions/41.md). -/
def wordBytes (ws : List Word) : List Byte := ws.flatMap (fun w => leBytes 4 w.toNat)

/-- CSP_STREAM (R388, R412, R413): the words of a STREAM transfer enter the image stream, or are refused. Words that a full buffer holds back
wait at the processor. -/
def Dev.cspStream (s : Dev) (ws : List Word) : Dev :=
  if !s.cspOn then s
  else match s.streamData .csp none (wordBytes ws) true with
    | some (st, s1) => { s1 with reply := some ⟨st, 0⟩ }
    | none => s

/-- A register request of the configuration controller for the CSP (R388); its answer comes with the response. It waits while the controller
has no free tag (R233). -/
def Dev.cspRequest (s : Dev) (op idx : Nat) (data : List Byte) : Dev :=
  let a := regWindow + 4 * (idx % 2 ^ 22)
  match s.freeTag .csp with
  | none => s
  | some t => s.request { src := .csp, tag := t, op, addr := a, len := 4, data, dst := s.destNode a }

/-- CSP_REG_WRITE and CSP_REG_READ (R388). -/
def Dev.cspRegWrite (s : Dev) (idx : Nat) (w : Word) : Dev := if s.cspOn then s.cspRequest 2 idx (leBytes 4 w.toNat) else s
def Dev.cspRegRead (s : Dev) (idx : Nat) : Dev := if s.cspOn then s.cspRequest 1 idx [] else s

/-- CSP_STATUS: the device drives CSP_STAT (R388). -/
def Dev.cspStatus (s : Dev) : Dev := if s.cspOn then { s with reply := some ⟨.ok, s.cspStat⟩ } else s

/-- A response for the CSP has come: it is what the device drives (R388). -/
def Dev.cspAnswer (s : Dev) (st : Status) (data : List Byte) : Dev := { s with reply := some ⟨st, BitVec.ofNat 32 (ofLeBytes data)⟩ }

/-- CSP_ERR (R388): a transfer with a reserved OP, or one that CSP_CS_N ended early, of which `ws` are the whole words, the command word first:
those of a STREAM have entered the stream. -/
def Dev.cspErr (s : Dev) (ws : List Word) : Dev :=
  if !s.cspOn then s
  else
    let s1 := match ws with
      | c :: rest => if c.toNat / 2 ^ 28 = 1 && !rest.isEmpty then s.cspStream rest else s
      | [] => s
    (s1.count B.CSP F.CSP_STAT_ERR_CNT).event B.CSP 0

end Sys2Proof.Machine
end

