-- ==== Sys2Proof/Machine/Jetty.lean ====
section
/-! DEFINITION. Machine/Jetty.lean: jetty ports and mooring generators (R132 to R134, R344 to R366). The line code of R344 to R346 stands
above these commands: a received frame comes decoded, with the CRC it carried, or as a coding fault. -/

namespace Sys2Proof.Machine

/-- A STATUS frame never carries 0xF: it carries FORMAT in its place (R19, R350, R358). -/
def JFrame.noF (f : JFrame) : JFrame :=
  if f.type = 3 && f.payload.toNat % 16 = 15 then { f with payload := f.payload - 3 } else f

/-- The JP block of a port. -/
def portBlock (p : Nat) : Nat := B.JP (p / 32)

/-- Whether port `p` is enabled and its receiver clocked: EN, main power, the jetty PLL in lock (R345, R359, R363). -/
def Dev.portOn (s : Dev) (p : Nat) : Bool := (s.port p).moor.en && s.clk.mainPower && s.clk.jettyLock

/-- RX_SYNC: a receiver in HUNT enters SYNC (R346). -/
def Dev.rxSync (s : Dev) (p : Nat) : Dev :=
  if !s.portOn p then s else s.setPort p { s.port p with sync := true }

/-- SYNC_LOST: a receiver returns to HUNT (R346). -/
def Dev.syncLost (s : Dev) (p : Nat) : Dev :=
  let x := s.port p
  if !x.sync then s
  else (s.setPort p { x with sync := false, syncLostCnt := satAdd 16 x.syncLostCnt 1 }).event (portBlock p) 2

/-- JETTY_FRAME_RECEIVE (R346, R358): what decoding found. A valid frame waits for a receive slot; on a port whose erg is not running or
whose receive table is empty it is counted and discarded (in OVERRUN_CNT: DEDUCED, notes/assumptions/39.md). -/
def Dev.jettyReceive (s : Dev) (p : Nat) (r : JRecv) : Dev :=
  let x := s.port p
  let blk := portBlock p
  if !s.portOn p || !x.sync then s
  else match r with
  | .codeFault => ((s.setPort p { x with codeCnt := satAdd 16 x.codeCnt 1, faults := x.faults ++ [(s.tide.count, 3)] }).classC blk).event blk 0
  | .frame f crc =>
    if crc ≠ f.crc then ((s.setPort p { x with crcCnt := satAdd 16 x.crcCnt 1, faults := x.faults ++ [(s.tide.count, 2)] }).classC blk).event blk 0
    else if f.type ≠ 1 && f.type ≠ 3 then (s.setPort p { x with formatCnt := satAdd 16 x.formatCnt 1, faults := x.faults ++ [(s.tide.count, 4)] }).event blk 1
    else
      let s1 := if f.noF = f then s else s.event blk 1
      if !s1.ergRuns (p / 8) || x.rx.isEmpty then
        (s1.setPort p { x with overrunCnt := satAdd 16 x.overrunCnt 1 }).event blk 3
      else s1.setPort p { x with fresh := x.fresh ++ [(s1.tide.count, f.noF)] }

/-- The lanes of an RX burst (R132, R133): a frame, or NOFRAME. -/
def rxBurst (f : Option JFrame) : List (BitVec 32) :=
  let lanes : List Nat := match f with
    | some f =>
      let n := f.payload.toNat
      [nfield n 0 30, nfield n 30 30, nfield n 60 20 + 2 ^ 20 * f.type.toNat + 2 ^ 24 * f.seq.toNat, f.stamp.toNat]
    | none => [0, 0, 0, 2 ^ 16]
  (List.range 4).map (fun k => BitVec.ofNat 32 (lanes.getD k 0 + 2 ^ 30 + (if k = 0 then 2 ^ 31 else 0)))

/-- A burst laid over what a port is presenting, from `delay` ticks on. -/
def layBurst (old : List (BitVec 32)) (delay : Nat) (burst : List (BitVec 32)) : List (BitVec 32) :=
  (old.take delay ++ List.replicate (delay - old.length) 0) ++ burst ++ old.drop (delay + 4)

/-- What the capture edge of a receive slot finds (R356, R358): the newest frame that completed by it, if any, how many older ones are
discarded, and otherwise what befell the latest frame; what completed later is left for the next slot. The edge lies 16 ticks
and `phase` before the tick count `slot` of the slot. -/
def PortSt.capture (x : PortSt) (slot phase : Nat) : Option JFrame × Nat × Nat × PortSt :=
  let inTime (n : Nat) : Bool := decide (n + 16 + phase ≤ slot)
  let got := x.fresh.filter (fun f => inTime f.1)
  let faults := x.faults.filter (fun f => inTime f.1)
  (got.getLast?.map (·.2), got.length - 1, if !x.sync then 5 else (faults.getLast?.map (·.2)).getD 1,
   { x with fresh := x.fresh.filter (fun f => !inTime f.1), faults := x.faults.filter (fun f => !inTime f.1), rxDone := slot + 1 })

/-- RECEIVE_SLOT (R133, R356 to R358, R364): entry `idx` of a port's receive table takes the newest frame since the capture before it and
presents it from its tick on, or NOFRAME with the reason. It is due from 16 ticks before that tick, counted back across the turn, and once
in its tide. -/
def Dev.receiveSlot (s : Dev) (p idx : Nat) : Dev :=
  let x := s.port p
  match x.rx[idx]? with
  | none => s
  | some e =>
    let next := decide (e.tick < s.tide.tick)
    let tide := if next then s.tide.num + 1 else s.tide.num
    let delay := if next then s.tideLen - s.tide.tick + e.tick else e.tick - s.tide.tick
    let slot := s.tide.count + delay
    if s.mode ≠ .underway || !s.ergRuns (p / 8) || tide % e.period ≠ e.phase || 16 < delay || slot < x.rxDone then s
    else
      let blk := portBlock p
      let (phase, s0) := s.edgePhase
      let (caught, older, why, x1) := x.capture slot phase
      let frame := if s.gated blk then none else caught
      let s1 := { s0.xingPush (17408 + p) (slot - 16) 16 (.burst p) with fab := { s.fab with
        rxIn := Map.set (fun _ => []) s.fab.rxIn p (layBurst (Map.get (fun _ => []) s.fab.rxIn p) delay (rxBurst frame)) } }
      match frame with
      | some _ =>
        let s2 := s1.setPort p { x1 with overrunCnt := satAdd 16 x.overrunCnt older }
        if older = 0 then s2 else s2.event blk 3
      | none => s1.setPort p { x1 with noframeWhy := if s.gated blk then 1 else why, noframeCnt := satAdd 16 x.noframeCnt 1 }

/-- The next mooring frame of a port's rotation, with a reason (R359, R361); none where it holds none. -/
def PortSt.moorFrame (x : PortSt) (reason : Nat) : Option (JFrame × Nat) :=
  if x.moor.count = 0 then none
  else
    let i := x.next % x.moor.count
    some (⟨2, BitVec.ofNat 4 i, BitVec.ofNat 16 reason, x.moor.payloads.getD i 0⟩, i + 1)

/-- MOORING_FRAME: the INTERVAL of a port's generator has passed, and it sends its next frame (R361); in Anchored, under ANCHOR_HOLD, the
last frame of a transmit slot again (R362). -/
def Dev.mooringFrame (s : Dev) (p : Nat) : Dev :=
  let x := s.port p
  if x.txSrc ≠ .generator then s
  else
    let again := if s.mode = .anchored && x.moor.anchorHold && s.ergRuns (p / 8) then x.lastSlot else none
    match again with
    | some f => s.setPort p { x with sent := f.symbols, moorAt := some s.tide.count }
    | none =>
      let reason := s.moorReason p
      match x.moorFrame reason with
      | some (f, next) => s.setPort p { x with sent := f.symbols, next, reason, moorAt := some s.tide.count }
      | none => s

/-- TICK frequency in kHz: 25 MHz times the multiplier in effect (R353). -/
def Dev.tickKhz (s : Dev) : Nat := 25000 * s.fld B.CLK F.CLK_TICK_CFG_ACTIVE

/-- Whether a mooring frame that began at tick count `m` is still on the line, or within two IDLE symbols after its end, when a slot sampled
from tick count `t` on would send: 19 ticks and 6.67 ns after `t`, against 60 ns (R354, R363). -/
def Dev.lineTaken (s : Dev) (m t : Nat) : Bool := decide (3 * (t + 19 - m) * 1000000 < 160 * s.tickKhz)

/-- The burst that a port's sinks have presented in the last four ticks (R134); a gated cluster and a
path out of service show no VALID (R32, R364). -/
def Dev.txBurst (s : Dev) (p : Nat) : List Nat :=
  if s.gated (portBlock p) || s.jettyPathOut p then [0, 0, 0, 0]
  else
    let h := (Map.get (fun _ => []) s.fab.txHist p).map (·.toNat)
    List.replicate (4 - h.length) 0 ++ h

/-- The frame that a burst of four TX words makes in slot `idx` of a tide (R132, R350, R355): none unless VALID and FIRST hold on beat 0, VALID
on the others, and the type is DATA or STATUS. -/
def burstFrame (b : List Nat) (idx tide : Nat) : Option JFrame :=
  let at_ (k : Nat) : Nat := b.getD k 0
  let type := nfield (at_ 2) 20 4
  if (List.range 4).all (fun k => nbit (at_ k) 30) && nbit (at_ 0) 31 && (type == 1 || type == 3) then
    some (JFrame.noF ⟨BitVec.ofNat 4 type, BitVec.ofNat 4 idx, BitVec.ofNat 16 tide,
      BitVec.ofNat 80 (nfield (at_ 0) 0 30 + 2 ^ 30 * nfield (at_ 1) 0 30 + 2 ^ 60 * nfield (at_ 2) 0 20)⟩)
  else none

/-- TRANSMIT_SLOT: entry `idx` of a port's transmit table has sampled its burst, in the four ticks before this one; the frame crosses to the
symbol clock, stamped with the last of them (R350, R354, R355, R363, R364). -/
def Dev.transmitSlot (s : Dev) (p idx : Nat) : Dev :=
  let x := s.port p
  let blk := portBlock p
  let stamp := s.tide.count - 1
  match x.tx[idx]? with
  | none => s
  | some e =>
    if s.mode ≠ .underway || !s.ergRuns (p / 8) || s.tide.num % e.period ≠ e.phase || s.tide.tick ≠ e.tick + 4 ||
      (Map.get (fun _ => []) s.tide.xing (17664 + p)).any (fun y => y.stamp == stamp) then s
    else
      let b := s.txBurst p
      let valid := nbit (b.getD 0 0) 30
      let s0 := s.xingPush (17664 + p) stamp 16 (.burst p)
      let taken := match x.moorAt with
        | some m => s.lineTaken m (s.tide.count - 4)
        | none => false
      match taken, burstFrame b idx s.tide.num with
      | true, _ => s0.setPort p { x with skipCnt := satAdd 16 x.skipCnt 1 }
      | false, some f => s0.setPort p { x with lastSlot := some f, leaving := x.leaving ++ [(stamp, f)] }
      | false, none =>
        let x1 : PortSt := if valid then { x with txFormatCnt := satAdd 16 x.txFormatCnt 1 } else { x with skipCnt := satAdd 16 x.skipCnt 1 }
        let x2 : PortSt := match (if x.skipMoor then x1.moorFrame 0xD else none) with
          | some (m, next) => { x1 with leaving := x.leaving ++ [(stamp, m)], lastSlot := some m, next, reason := 0xD }
          | none => x1
        let s1 := s0.setPort p x2
        if valid then s1.event blk 4 else s1

/-- JETTY_PLL_LOCK_LOST: every port goes to electrical idle, receivers to HUNT (R363). -/
def Dev.jettyLockLost (s : Dev) : Dev :=
  let s1 := { s with clk := { s.clk with jettyLock := false } }
  (s1.ports.map (·.1)).foldl (fun s p => s.setPort p { s.port p with sync := false }) s1

/-- JETTY_PLL_LOCK: the jetty PLL locks (again), and the ports leave electrical idle (R363). -/
def Dev.jettyLocked (s : Dev) : Dev := { s with clk := { s.clk with jettyLock := true } }

/-- What the registers of a cluster show of the port that JP_PORT_SEL names (R366). -/
def Dev.jettyView (s : Dev) (blk off : Nat) : Option Word :=
  let x := s.port (32 * (blk - 0x28) + s.fld blk F.JP_PORT_SEL_PORT)
  let pay := (x.moor.payloads.getD (s.fld blk F.JP_PORT_SEL_FRAME) 0).toNat
  let w (n : Nat) : Option Word := some (BitVec.ofNat 32 n)
  if off = O.JP_PORT_STAT then
    w ((if !x.moor.en then 0 else if x.sync then 2 else 1) + 4 * x.txSrc.code + 16 * x.reason + 256 * x.noframeWhy)
  else if off = O.JP_RX_CNT0 then w (x.crcCnt + 65536 * x.codeCnt)
  else if off = O.JP_RX_CNT1 then w (x.noframeCnt + 65536 * x.overrunCnt)
  else if off = O.JP_RX_CNT2 then w (x.formatCnt + 65536 * x.syncLostCnt)
  else if off = O.JP_TX_CNT then w (x.skipCnt + 65536 * x.txFormatCnt)
  else if off = O.JP_MOOR_CFG then w (x.moor.en.toNat + 2 * x.moor.count + 16 * x.moor.interval + 512 * x.moor.anchorHold.toNat)
  else if off = O.JP_MOOR_LO then w (pay % 2 ^ 32)
  else if off = O.JP_MOOR_MID then w (pay / 2 ^ 32 % 2 ^ 32)
  else if off = O.JP_MOOR_HI then w (pay / 2 ^ 64)
  else none

end Sys2Proof.Machine
end

