-- ==== Sys2Proof/Machine/Reset.lean ====
section
/-! DEFINITION. Machine/Reset.lean: clocks, resets, the first steps of Boot, main power and the island's supply, and the watchdog
(chapter 14; R7, R472, R494, R498, R535). -/

namespace Sys2Proof.Machine

/-- A change of the device for each element of a list. -/
def Dev.each {α : Type} (s : Dev) (l : List α) (f : Dev → α → Dev) : Dev := l.foldl f s

/-- FULL registers, and the MOOR ones too where main power comes up, take their reset values (R7); the TICK and HCLK multipliers of a
part of grade 2 differ from the table's (R453). -/
def Dev.resetRegs (s : Dev) (moor : Bool) : Dev :=
  let a : Dev := { s with regs := Map.clear (fun o => regDom o == .full || (moor && regDom o == .moor)) s.regs }
  match s.part.code.grade with
  | 2 => ((((a.setFld B.CLK F.CLK_TICK_CFG_MULT 0x64).setFld B.CLK F.CLK_TICK_CFG_ACTIVE 0x64).setFld B.CLK F.CLK_HCLK_CFG_MULT
      0x32).setFld B.CLK F.CLK_HCLK_CFG_ACTIVE 0x32)
  | _ => a

/-- The lowers in flight leave each word of their rows old or new, which the spec leaves open: a free choice per word (R182). -/
def Dev.cutLower (s : Dev) (b : Nat) (c : RowCmd) : Dev :=
  if !c.lower then s
  else (List.range 32).foldl (fun s w =>
    let (new, s1) := s.freeBool
    if new then s1.putHoldWord b c.row w ⟨c.captured.word w, c.captured.check w ^^^ secCheck (c.captured.word w)⟩ else s1) s

/-- Every row command in flight is cut by a reset (R182). -/
def Dev.cutRows (s : Dev) : Dev := s.each s.hold.banks (fun s (e : Nat × BankSt) => s.each e.2.cmds (fun s c => s.cutLower e.1 c))

/-- A jetty port through a reset: its generator runs on (R361, R363, R461). -/
def PortSt.afterReset (x : PortSt) : PortSt :=
  { moor := x.moor, next := x.next, sent := x.sent, txSrc := if x.txSrc = .slots then .generator else x.txSrc }

/-- A DMC through a reset: its device keeps its mode registers and its self-refresh (R268). -/
def DmcSt.afterReset (x : DmcSt) : DmcSt := { modeRegs := x.modeRegs, selfRefresh := x.selfRefresh }

/-- Row registers of every erg are undefined (R119). -/
def loseRows (f : FabSt) : FabSt :=
  { epoch := (List.range 32).foldl (fun m e => Map.modify (fun _ => 0) m e (· + 1)) f.epoch }

/-- What every reset does (R461, step 3): FULL registers take their reset values, configuration latches clear, links go OFF, images and
sessions go, keys are erased. External memory, the hold, the bonded setting, non-volatile cells, the island and the mooring settings
stay. -/
def Dev.resetAll (s : Dev) : Dev :=
  let a := (s.cutRows.cfgReset).eraseKeys
  let b := (a.resetRegs false).setFld B.SEC F.SEC_LC_SCAN_OK 0
  { b with
    reply := none, replyBytes := [], flipArmed := [], pins := {},
    stack := {}, tide := {}, run := {}, wire := {},
    clk := { b.clk with applying := [], feedAt := none, slackFrom := .moored, criticalHeld := false },
    sec := { b.sec with ifaces := [], keysUp := false }, bist := {},
    fab := loseRows b.fab, berths := [], ergs := [], cfg := {},
    hold := { syn := b.hold.syn, spares := b.hold.spares, badSpares := b.hold.badSpares, bond := b.hold.bond },
    net := {}, ext := { dmcs := b.ext.dmcs.foldl (fun m (e : Nat × DmcSt) => Map.set (fun _ => {}) m e.1 e.2.afterReset) [] },
    mce := { former := b.mce.former }, links := [],
    ports := b.ports.foldl (fun m (e : Nat × PortSt) => Map.set (fun _ => {}) m e.1 e.2.afterReset) [],
    pcie := {}, lgts := [], eth := {}, pwr := {}, thm := {}, psw := [] }

/-- CLK_STAT.REF shows the reference (R449). -/
def Dev.showRef (s : Dev) : Dev := s.setFlag B.CLK F.CLK_STAT_REF (!s.clk.refXtal)

/-- Whether the mode may be left by a reset source (R465). -/
def Dev.resetAllowed (s : Dev) (cause : Nat) : Bool :=
  match s.mode with
  | .beacon => false
  | .quarantine => ([1, 2, 3] : List Nat).contains cause
  | .aground => ([1, 2, 3, 6] : List Nat).contains cause
  | _ => true

/-- Whether steps 1 to 4 of a reset are running (R461). -/
def Dev.resetting (s : Dev) : Bool :=
  match s.clk.phase with
  | .selfRefresh => true
  | .held => true
  | .oscWait => true
  | _ => false

/-- The reset with cause WATCHDOG is counted. -/
def Dev.countCause (s : Dev) (cause : Nat) : Dev := if cause = 4 then s.count B.LH F.LH_RST_CNT_WDG else s

/-- A reset source merges into the reset under way: ALL takes it, LAST the highest of the table (R459, R461). -/
def Dev.resetMerge (s : Dev) (cause : Nat) : Dev :=
  let all := s.fld B.LH F.LH_RST_CAUSE_ALL
  if nbit all (cause - 1) then s
  else ((s.setFld B.LH F.LH_RST_CAUSE_ALL (Nat.lor all (2 ^ (cause - 1)))).setFld B.LH F.LH_RST_CAUSE_LAST
    (min cause (s.fld B.LH F.LH_RST_CAUSE_LAST))).countCause cause

/-- A reset is latched with its cause (R461, step 1). -/
def Dev.resetLatch (s : Dev) (cause : Nat) : Dev :=
  (((s.setFld B.LH F.LH_RST_CAUSE_LAST cause).setFld B.LH F.LH_RST_CAUSE_ALL (2 ^ (cause - 1))).count B.LH F.LH_RST_CNT_TOTAL).countCause cause

/-- A reset source other than POWER_ON (R459, R461): steps 1 and 2, or it merges, or the mode does not allow it (R465). Causes: 2 PIN,
3 WIRE, 4 WATCHDOG, 5 HOST, 6 LIFE_CYCLE. -/
def Dev.resetRequest (s : Dev) (cause : Nat) : Dev :=
  if s.resetting then s.resetMerge cause
  else if !s.resetAllowed cause then s
  else
    let s1 := (s.resetLatch cause).retireAll.selfRefresh
    { s1 with clk := { s1.clk with phase := .selfRefresh } }

/-- RESET_ENTRY (R461, step 3): Reset is entered. -/
def Dev.resetEntry (s : Dev) : Dev :=
  if s.clk.phase ≠ .selfRefresh then s
  else
    let s1 := s.resetAll.showRef
    { s1 with clk := { s1.clk with phase := .held } }.setMode .reset

/-- RESET_RELEASE (R461, step 5; R213, R387): the straps are sampled and Boot begins. -/
def Dev.resetRelease (s : Dev) (devX devY csp : Nat) : Dev :=
  if s.clk.phase ≠ .held || s.mode ≠ .reset then s
  else
    let s1 := (s.setFld B.HN F.HN_ID_DEVX devX).setFld B.HN F.HN_ID_DEVY devY
    { s1 with clk := { s1.clk with phase := .plls, cspMode := csp % 4 }, bist := { s1.bist with psFrom := s1.clk.time } }.setMode .boot

/-- LH_RST_CMD (R460): another key is refused and counted; a mode that does not allow it answers STATE (R465). -/
def Dev.hostReset (s : Dev) (w : Word) : Dev :=
  if w.toNat ≠ 0xA55A0F0F then s.refuse B.LH
  else if !s.resetting && !s.resetAllowed 5 then s.finish B.LH .state
  else (s.finish B.LH .ok).resetRequest 5

/-- LH_OSC_CFG.COMMIT (R451): refused with STATE outside Moored (modes R451 does not name: DEDUCED, notes/assumptions/42.md). -/
def Dev.oscCommit (s : Dev) : Dev :=
  if s.mode ≠ .moored then s.finish B.LH .state
  else if s.nvRo 513 then s.finish B.LH .exhausted
  else
    let c := s.fld B.LH F.LH_OSC_CFG_CODE
    let s1 := s.nvWrite 513 (leBytes 1 c)
    ({ s1 with clk := { s1.clk with oscNv := c } }.setFld B.LH F.LH_OSC_CFG_ACTIVE c).finish B.LH .ok

/-- OSC_WAIT_DONE (R450): the reference is trusted. -/
def Dev.oscWaitDone (s : Dev) : Dev :=
  if s.clk.phase = .oscWait then { s with clk := { s.clk with phase := .held } } else s

/-- POWER_ON (R449, R459, R461, R472): from Beacon, by steps 3 to 5. `refclk`: the REFSEL strap. -/
def Dev.powerOn (s : Dev) (refclk : Bool) : Dev :=
  if s.mode ≠ .beacon || !s.clk.island || s.clk.mainPower then s
  else
    let s1 := (s.resetLatch 1).resetAll
    let s2 := { s1 with clk := { s1.clk with mainPower := true, refXtal := !refclk, phase := .oscWait } }
    s2.showRef.setMode .reset

/-- The failure policy in force (R393, R421): HALT where nothing has been written (DESIGN CHOICE, notes/assumptions/43.md). -/
def Dev.failPolicy (s : Dev) : Bool := (s.nvSector 396).headD 0 % 2 == 1

/-- BOOT_PLL_LOCK (R432, R433, R446, R463): the PLLs lock and the island's items are read. The generator reseeds and serves (DEDUCED,
notes/assumptions/46.md). -/
def Dev.bootPllLock (s : Dev) : Dev :=
  if s.clk.phase ≠ .plls || s.mode ≠ .boot then s
  else
    let s1 := (s.setFld B.CLK F.CLK_STAT_LOCK 0x3F).setFlag B.CFG F.CFG_BOOT_STAT_POLICY s.failPolicy
    let s2 := if s.sec.tamperedBeacon then s1.event B.SEC 5 else s1
    { s2 with clk := { s2.clk with phase := .moor, jettyLock := true }, sec := { s2.sec with keysUp := true, tamperedBeacon := false } }.setFlag B.SEC
      F.SEC_RNG_STAT_RUN true

/-- BUNDLE_TEST_DONE (R26, R39, R193, R463, R519): the shoal map and remap tables stand, failed lanes are steered out, dunes whose plane
store failed are out. `lanes`: bundle and lane; `dunes`: dunes by number. -/
def Dev.bundleTestDone (s : Dev) (lanes : List (Nat × Nat)) (dunes : List Nat) : Dev :=
  if s.clk.phase ≠ .bundleTest || s.mode ≠ .boot then s
  else
    let s1 := s.shoalBoot.remapBoot
    let s2 := s1.each lanes (fun s (x : Nat × Nat) => if bundleExists x.1 then s.markLane x.1 (x.2 % 68) 1 else s)
    let s3 := s2.each dunes (fun s g => s.shoalAdd 1 (bundleId 3 (g / 256) (g % 256) 0x7FF) 1)
    { s3 with clk := { s3.clk with phase := .temperature } }

/-! ### Main power and the island -/

/-- The wear bins are written to island non-volatile memory; a read-only sector keeps what it has (R494). -/
def Dev.wearStore (s : Dev) : Dev :=
  let bins := (List.range 4).map (fun n => s.reg B.LH (O.LH_WEAR_BIN n))
  if s.nvRo 514 then s
  else
    let s1 := s.nvWrite 514 (bins.flatMap (fun w => leBytes 4 w.toNat))
    { s1 with wear := { s1.wear with nvBins := bins, nvAt := s1.clk.time, stored := true } }

/-- Life consumed, from the bins (R493). -/
def lifeOf (b0 b1 b2 b3 : Nat) : Nat := min ((b0 + 5 * b1 + 20 * b2 + 80 * b3) / 2000) 0xFFFF

/-- LH_LIFE shows what the bins come to. -/
def Dev.showLife (s : Dev) : Dev :=
  let b (n : Nat) : Nat := (s.reg B.LH (O.LH_WEAR_BIN n)).toNat
  s.setFld B.LH F.LH_LIFE_LIFE (lifeOf (b 0) (b 1) (b 2) (b 3))

/-- ISLAND_SUPPLY_LOSS (R7, R494, R498): in Beacon the island loses its supply, and domain ISL with it. -/
def Dev.islandLoss (s : Dev) : Dev :=
  if s.mode ≠ .beacon || !s.clk.island then s
  else
    let keep (f : Fld) (t : Dev) : Dev := t.setFld B.SEC f (s.fld B.SEC f)
    let s1 := { s with regs := Map.clear (fun o => regDom o == .isl) s.regs }
    let s2 := keep F.SEC_LC_TAMPER_SEEN (keep F.SEC_LC_STATE s1)
    { s2 with
      clk := { s2.clk with island := false }, wire := {}, wear := { nvBins := s2.wear.nvBins },
      log := { nvRing := s2.log.nvRing, nvWr := s2.log.nvWr, nvRd := s2.log.nvRd, nvUnread := s2.log.nvUnread } }

/-- ISLAND_POWER_UP (R492, R494, R498, R535): the island starts; the fault log, the bins, LIFE and the oscillator code reappear as
stored. -/
def Dev.islandUp (s : Dev) : Dev :=
  if s.clk.island then s
  else
    let s1 := { s with
      clk := { s.clk with island := true },
      log := { s.log with ring := s.log.nvRing, wr := s.log.nvWr, rd := s.log.nvRd, unread := s.log.nvUnread } }
    let s2 := (s1.setFld B.LH F.LH_OSC_CFG_ACTIVE s1.clk.oscNv).setFld B.LH F.LH_FLOG_STAT_UNREAD s1.log.unread
    (s2.forN 4 (fun s n => s.setReg B.LH (O.LH_WEAR_BIN n) (s.wear.nvBins.getD n 0))).showLife

/-- MAIN_POWER_LOSS (R200, R472, R494, R535): the device stops at once; the hold, the plane store and external memory lose their
contents; the island is in Beacon, or without supply where it has none of its own. -/
def Dev.mainPowerLoss (s : Dev) (islandSupplied : Bool) : Dev :=
  if !s.clk.mainPower then s
  else
    let s1 := if islandSupplied then (s.logPersist).wearStore else s
    let s2 := s1.resetAll.resetRegs true
    let s3 := { s2 with
      mem := [], fab := {}, hold := {}, ext := {}, mce := {}, ports := [],
      clk := { s2.clk with mainPower := false, jettyLock := false, phase := .off, cspMode := 0 } }
    let s4 := s3.setMode .beacon
    if islandSupplied then s4 else s4.islandLoss

/-! ### PLLs and clocks -/

/-- The CFG register of a settable domain: 0 TICK, 1 HOLD, 2 NET, 3 MEM. -/
def clkCfg (d : Nat) : Nat := O.CLK_TICK_CFG + 4 * d

/-- Whether the staged multiplier of a domain differs from the active one. -/
def Dev.clkDiffers (s : Dev) (d : Nat) : Bool :=
  let w := (s.reg B.CLK (clkCfg d)).toNat
  nfield w 0 8 != nfield w 8 8

/-- CLK_STAT.LOCK shows PLLs locked or not: 0 TICK, 1 HOLD, 2 NET, 3 MEM (R453). -/
def Dev.setPllLocks (s : Dev) (ds : List Nat) (b : Bool) : Dev :=
  s.each ds (fun s d => s.setFlag B.CLK ⟨O.CLK_STAT, 2 + d, 1⟩ b)

/-- CLK_CMD.APPLY (R454): changed domains stop and relock; a relock of TICK empties the sliding windows (R169, R185). -/
def Dev.clkApply (s : Dev) : Dev :=
  let ds := (List.range 4).filter s.clkDiffers
  let dmcs := (List.range 8).any (fun k => s.fld (B.DMC k) F.DMC_STATE_STATE != 0)
  s.guarded B.CLK [(s.mode != .boot && s.mode != .moored, .state), (ds.contains 3 && dmcs, .state), (!s.clk.applying.isEmpty, .busy)] (fun s =>
    if ds.isEmpty then s.finish B.CLK .ok
    else
      let s1 := s.each ds (fun s d =>
        let w := (s.reg B.CLK (clkCfg d)).toNat
        s.setReg B.CLK (clkCfg d) (BitVec.ofNat 32 (putField w 8 8 (nfield w 0 8))))
      let s2 := ({ s1 with clk := { s1.clk with applying := ds } }.setFlag B.CLK F.CLK_STAT_BUSY true).setPllLocks ds false
      let s3 := s2.showBounds
      if ds.contains 0 then ({ s3 with psw := [], hold := { s3.hold with xfers := [] } }.pswShow).xferShow else s3)

/-- The pace of row commands that the clocks give (R178). -/
def Dev.paceOf (s : Dev) : Nat :=
  if s.fld B.CLK F.CLK_TICK_CFG_ACTIVE ≤ 2 * s.fld B.CLK F.CLK_HCLK_CFG_ACTIVE then 8 else 9

/-- APPLY_DONE (R178, R454): the domains restart, PACE is recomputed, APPLY_DONE is raised. -/
def Dev.applyDone (s : Dev) : Dev :=
  if s.clk.applying.isEmpty then s
  else
    let s1 := ({ s with clk := { s.clk with applying := [] } }.setFlag B.CLK F.CLK_STAT_BUSY false).setPllLocks s.clk.applying true
    let s2 := s1.forN 8 (fun s k => s.setFld (B.HOLD k) F.HOLD_CFG_PACE s.paceOf)
    (s2.finish B.CLK .ok).event B.CLK 0

/-- PLL_LOCK_LOST (R455, R538): PLL 0 TICK, 1 HOLD, 2 NET, 3 MEM, or none for the reference. A domain that an APPLY relocks has no lock
to lose. -/
def Dev.pllLockLost (s : Dev) (pll : Option Nat) : Dev :=
  if !s.clk.mainPower || s.mode = .reset || s.mode = .beacon || pll.any s.clk.applying.contains then s
  else
    let k := pll.getD 0
    let s1 := match pll with
      | some k => s.setPllLocks [k] false
      | none => s
    (s1.event B.CLK 1).quarantine 4 k B.CLK 1

/-- SERDES_LOCK_LOST (R328, R372, R455): only its own port goes down. -/
def Dev.serdesLockLost (s : Dev) (p : SerdesPort) : Dev :=
  match p with
  | .causeway n => if s.linkState n = 0 then s else s.linkFall n false
  | .pcie => s.pcieLinkDown
  | .eth p => s.ethLinkChg p false

/-- What the gates' registers always hold: the enables of blocks that cannot be gated, and reserved bits at zero (R456). -/
def Dev.clkEnFix (s : Dev) (k : Nat) : Dev :=
  let w := (List.range 32).foldl (fun a i =>
    let on := match blkKind (32 * k + i) with
      | some kd => !gateable kd || nbit (s.reg B.CLK (O.CLK_EN0 + 4 * k)).toNat i
      | none => (decide (32 * k + i < 0x5B)) && nbit (s.reg B.CLK (O.CLK_EN0 + 4 * k)).toNat i
    a + on.toNat * 2 ^ i) 0
  s.setReg B.CLK (O.CLK_EN0 + 4 * k) (BitVec.ofNat 32 w)

/-- CLK_ENk (R456, R457): gates take effect at once, and an opened block resumes. -/
def Dev.clkEn (s : Dev) (k : Nat) : Dev := ((s.clkEnFix k).hostPump 256).lgtPumps

/-- The frequency of a CLKMON source in kHz (R458). -/
def Dev.monKhz (s : Dev) (src : Nat) : Nat :=
  match src with
  | 0 => 25000
  | 6 => 300000
  | 7 => 500000
  | 8 => 32000
  | _ => match monDomain src with
    | some d => 25000 * nfield (s.reg B.CLK (clkCfg d)).toNat 8 8
    | none => 0

/-- CLKMON_CFG (R458): a write that would exceed 250 MHz is dropped whole and counted. A reserved source leaves SRC as it is (R6). -/
def Dev.clkmonCfg (s : Dev) (w : Word) (store : Dev → Dev) : Dev :=
  let n := w.toNat
  let src := if nfield n 0 4 < 9 then nfield n 0 4 else s.fld B.CLK F.CLKMON_CFG_SRC
  if 250000 * (nfield n 4 12 + 1) < s.monKhz src then s.refuse B.CLK else store s

/-! ### The watchdog -/

/-- Whether the watchdog counts in the present mode (R467). -/
def Dev.wdgCounts (s : Dev) : Bool :=
  s.flag B.WDG F.WDG_CFG_EN && match s.mode with
    | .moored => true
    | .underway => true
    | .slack => true
    | .standDown => true
    | .anchored => !s.halted B.WDG
    | _ => false

/-- The watchdog expires (R468). -/
def Dev.wdgExpire (s : Dev) : Dev := (s.setFld B.WDG F.WDG_COUNT_COUNT 0).resetRequest 4

/-- WDG_LOAD, or a completed feed, reloads the count (R467). -/
def Dev.wdgReload (s : Dev) : Dev := s.setFld B.WDG F.WDG_COUNT_COUNT (s.fld B.WDG F.WDG_LOAD_LOAD)

/-- WDG_FEED (R468): the second word comes within 1 us, 500 cycles of the time clock. -/
def Dev.wdgFeed (s : Dev) (w : Word) : Dev :=
  let s0 := { s with clk := { s.clk with feedAt := none } }
  if !s.flag B.WDG F.WDG_CFG_EN then s0
  else
    let pend := match s.clk.feedAt with
      | some t => decide (s.clk.time ≤ t + 500)
      | none => false
    if pend && w.toNat = 0x5AA5 then s0.wdgReload
    else if !pend && w.toNat = 0xA55A then { s with clk := { s.clk with feedAt := some s.clk.time } }
    else
      let s1 := (s0.count B.WDG F.WDG_BAD_FEED_BAD_FEED_CNT).event B.WDG 1
      if s1.flag B.WDG F.WDG_CFG_STRICT then s1.wdgExpire else s1

/-- WARN (R468): the count reaches WARN; 0 raises no warning. -/
def Dev.wdgWarn (s : Dev) : Dev :=
  let n := s.fld B.WDG F.WDG_WARN_WARN
  if !s.wdgCounts || n = 0 || s.fld B.WDG F.WDG_COUNT_COUNT < n then s else (s.setFld B.WDG F.WDG_COUNT_COUNT n).event B.WDG 0

/-- WATCHDOG (R468): the count reaches zero. -/
def Dev.watchdog (s : Dev) : Dev := if s.wdgCounts then s.wdgExpire else s

/-- A microsecond of the time clock passes at the watchdog (R467). -/
def Dev.wdgMicro (s : Dev) : Dev :=
  if !s.wdgCounts then s
  else
    let n := s.fld B.WDG F.WDG_COUNT_COUNT - 1
    let s1 := s.setFld B.WDG F.WDG_COUNT_COUNT n
    let s2 := if n != 0 && n == s.fld B.WDG F.WDG_WARN_WARN then s1.event B.WDG 0 else s1
    if n = 0 then s2.wdgExpire else s2

/-- One 2 ns cycle of the time clock: what an empty queue makes of a step (R383, R467; DESIGN CHOICE, notes/assumptions/2.md). Without main
power the time clock stands; in Reset station time stays at zero. -/
def Dev.timeCycle (s : Dev) : Dev :=
  if !s.clk.mainPower then s
  else
    let s1 := { s with clk := { s.clk with time := s.clk.time + 1 } }.freezeTimers
    let s2 := if s1.clk.applying.contains 0 then { s1 with bist := { s1.bist with psPause := s1.bist.psPause + 1 } } else s1
    let s3 := if s2.mode = .reset then s2 else s2.stationCycle
    if s3.clk.time % 500 = 0 then s3.wdgMicro else s3

end Sys2Proof.Machine
end

