-- ==== Sys2Proof/Machine/Tamper.lean ====
section
/-! DEFINITION. Machine/Tamper.lean: tamper sources and the tamper response (R444 to R446). -/

namespace Sys2Proof.Machine

/-- Whether a source is armed (R444): 0 to 3 the inputs, 4 voltage, 5 clock glitch, 6 temperature. -/
def Dev.tamperArmed (s : Dev) (k : Nat) : Bool :=
  (s.life == .sealed || nbit (s.reg B.SEC O.SEC_TAMPER_CFG).toNat k) &&
    (decide (k < 4) || !(s.mode == .beacon || s.mode == .reset || s.mode == .dryDock))

/-- The tamper response (R445, R446, R538): `cause` is the bit of the fault record, `src` the value of LAST_SRC, `at_` the input number,
rail, clock or sensor. Beacon and Reset allow no Quarantine (R465). A source that fires in Quarantine joins its record. -/
def Dev.tamper (s : Dev) (cause src at_ : Nat) : Dev :=
  if s.mode = .beacon || s.mode = .reset || s.clk.phase = .selfRefresh then s
  else
    let s1 := (s.setFld B.SEC F.SEC_TAMPER_STAT_LAST_SRC src).setFlag B.SEC F.SEC_LC_TAMPER_SEEN true
    let s2 := if s.mode = .quarantine then s1 else s1.count B.SEC F.SEC_TAMPER_STAT_TAMPER_CNT
    s2.quarantine cause at_ B.SEC 0

/-- TAMPER_INPUT (R444): TAMPER_N[k] has been low for 10 us. -/
def Dev.tamperInput (s : Dev) (k : Nat) : Dev := if s.tamperArmed k then s.tamper 7 (k + 1) k else s

/-- VOLTAGE_MONITOR (R444): a rail, numbered as RAIL_OK: VDD_FAB, VDD_PLN, VDD_HLD, VDD_BASE or VDD_SDS. -/
def Dev.voltageMonitor (s : Dev) (rail : Nat) : Dev := if s.tamperArmed 4 && decide (rail < 5) then s.tamper 8 5 rail else s

/-- CLOCK_GLITCH (R444): a period of TICK 0, HCLK 1, NCLK 2 or MCLK 3 is too short. -/
def Dev.clockGlitch (s : Dev) (d : Nat) : Dev := if s.tamperArmed 5 then s.tamper 9 6 d else s

/-- A temperature extreme at a sensor (R444). -/
def Dev.tamperTemp (s : Dev) (n : Nat) : Dev := if s.tamperArmed 6 then s.tamper 10 7 n else s

/-- TAMPER_BEACON (R446): a tamper input fires in Beacon. -/
def Dev.tamperBeacon (s : Dev) : Dev :=
  if s.mode ≠ .beacon || !s.clk.island then s
  else { s.setFlag B.SEC F.SEC_LC_TAMPER_SEEN true with sec := { s.sec with tamperedBeacon := true } }

end Sys2Proof.Machine
end

