-- ==== Sys2Proof/Machine/Power.lean ====
section
/-! DEFINITION. Machine/Power.lean: Slack of ergs and of the device, the power monitor, temperature sensors with their responses, bond wear
(chapter 15). -/

namespace Sys2Proof.Machine

/-! ### Slack per erg -/

/-- PWR_SLEEP_CMD SLEEP_ERGS (R475): in Moored at once, in Underway at the turn of a commit, in Anchored at the resuming turn. -/
def Dev.sleepErgs (s : Dev) : Dev :=
  let es := (List.range 32).filter (fun e => nbit (s.reg B.PWR O.PWR_ERG_MASK).toNat e)
  let bad := !(s.mode == .moored || s.mode == .underway || s.mode == .anchored) ||
    es.any (fun e => ((s.erg e).mode == .running && !maySleep (s.useMap e)) || s.pendOf e != .none)
  if bad then s.finish B.PWR .state
  else
    let due := if s.mode = .anchored then s.tide.num else s.commitTurn
    (s.each es (fun s e =>
      if (s.erg e).slack ≠ .awake then s
      else if s.mode = .moored then s.slackEnter e s.emulated
      else s.setErg e { s.erg e with slack := .dueIn due })).finish B.PWR .ok

/-- A wake trigger of an erg (R249, R477): it acts once the erg is fully down, in Underway at the next turn, else at once. -/
def Dev.wakeErg (s : Dev) (e : Nat) : Dev :=
  match (s.erg e).slack with
  | .entering => s.setErg e { s.erg e with wakeAsked := true }
  | .down =>
    if s.mode = .underway then s.setErg e { s.erg e with wakeAsked := true }
    else if s.mode = .moored || s.mode = .anchored then s.slackExit e
    else s
  | _ => s

/-- PWR_SLEEP_CMD WAKE_ERGS (R477). Outside the modes in which single ergs wake it is refused (DEDUCED, notes/assumptions/44.md). -/
def Dev.wakeErgs (s : Dev) : Dev :=
  if !(s.mode == .moored || s.mode == .underway || s.mode == .anchored) then s.finish B.PWR .state
  else (s.each ((List.range 32).filter (fun e => nbit (s.reg B.PWR O.PWR_ERG_MASK).toNat e)) Dev.wakeErg).finish B.PWR .ok

/-- An erg's port has woken: held requests for its berths are presented in order of arrival, or answered as R248 says, and those for banks
that are awake are served (R249, R477). -/
def Dev.heldGoOn (s : Dev) (e : Nat) : Dev :=
  let held := Map.get (fun _ => []) s.net.wake e
  let stays (m : Msg) : Bool := addrWin m.h.addr == some .hold && s.asleep (holdBank m.h.addr)
  let s1 := { s with net := { s.net with wake := Map.set (fun _ => []) s.net.wake e (held.filter stays) } }
  s1.each (held.filter (fun m => !stays m)) (fun s m =>
    if addrWin m.h.addr = some .hold then s.enterBank m
    else s.berthTakes (m.h.addr / 0x100000 % 512) m)

/-- An erg runs on under R163: LIVE planes take their INIT values, its CHANGE_PENDING shows. -/
def Dev.ergResume (s : Dev) (e : Nat) : Dev :=
  (((s.setErg e { s.erg e with slack := .awake, wakeAsked := false }).initPlanes e).showChange e).heldGoOn e

/-- ERG_UP (R477): the erg resumes, in Underway at a turn. -/
def Dev.ergUp (s : Dev) (e : Nat) : Dev :=
  let may := s.mode == .moored || s.mode == .anchored || (s.mode == .underway && s.tide.tick == 0)
  if (s.erg e).slack ≠ .waking || !may then s else (s.ergResume e).event B.PWR 3

/-! ### Slack of the whole device -/

/-- PWR_SLEEP_CMD SLEEP_DEVICE (R478). -/
def Dev.sleepDevice (s : Dev) : Dev :=
  let dmcBusy (k : Nat) : Bool :=
    let st := s.fld (B.DMC k) F.DMC_STATE_STATE
    st == 1 || st == 3 || (s.dmc k).window != .none
  let bad := !(s.mode == .moored || s.mode == .underway) || s.flag B.TIDE F.TIDE_CTRL_MASTER || s.flag B.TIDE F.TIDE_CTRL_FOLLOW ||
    (s.mode == .underway && (List.range 32).any (fun e => (s.erg e).mode == .running && !maySleep (s.useMap e))) ||
    s.pipe != 0 || (List.range 8).any dmcBusy
  if bad then s.finish B.PWR .state
  else if s.mode = .moored then (s.enterSlack).finish B.PWR .ok
  else { s with pwr := { s.pwr with sleepAt := some s.commitTurn } }.finish B.PWR .ok

/-- A device wake begins (R479, R480). -/
def Dev.wakeStart (s : Dev) : Dev :=
  if s.mode ≠ .slack || s.pwr.waking then s
  else
    let s1 := (s.hldRetFall.dmcsWake).forN 32 (fun s e => s.setErg e { s.erg e with slack := .waking, wakeAsked := false })
    let s2 := s1.forN 8192 (fun s b => if (s.bank b).power = .retention then s.setBank b { s.bank b with power := .waking } else s)
    { s2 with pwr := { s2.pwr with waking := true } }

/-- PWR_SLEEP_CMD WAKE_DEVICE (R479): STATE outside device-wide Slack (R466). -/
def Dev.wakeDevice (s : Dev) : Dev :=
  if s.mode ≠ .slack then s.finish B.PWR .state else (s.wakeStart).finish B.PWR .ok

/-- A trigger that wakes the erg it is for, or the device in device-wide Slack (R249, R479). -/
def Dev.wakeTrigger (s : Dev) (e : Nat) : Dev := if s.mode = .slack then s.wakeStart else s.wakeErg e

/-- DEV_WAKE (R480): the ergs resume and the device returns to the mode it came from. -/
def Dev.devWake (s : Dev) : Dev :=
  if s.mode ≠ .slack || !s.pwr.waking then s
  else
    let s1 := (s.forN 8192 Dev.bankWake).forN 32 (fun s e => (s.ergResume e).event B.PWR 3)
    let s2 := { s1 with pwr := { s1.pwr with waking := false } }.setFlag B.LH F.LH_MODE_EMULATED false
    (if s2.clk.slackFrom = .underway then s2.tidesGoOn else s2.setMode .moored).event B.PWR 4

/-- ERG_DOWN (R476): the erg is fully down; a trigger that came earlier acts now. -/
def Dev.ergDown (s : Dev) (e : Nat) : Dev :=
  if (s.erg e).slack ≠ .entering then s
  else
    let asked := (s.erg e).wakeAsked
    let s1 := (s.setErg e { s.erg e with slack := .down }).event B.PWR 2
    if asked && s1.mode != .underway then s1.wakeTrigger e else s1

/-- PWR_SLEEP_CMD (R495). -/
def Dev.sleepCmd (s : Dev) (w : Word) : Dev :=
  match w.toNat % 8 with
  | 0 => s
  | 1 => s.sleepErgs
  | 2 => s.wakeErgs
  | 3 => s.sleepDevice
  | 4 => s.wakeDevice
  | _ => s.finish B.PWR .format

/-! ### The power monitor -/

/-- Maximum rail currents in units of 10 mA, in the order of RAIL_OK (R470). -/
def railMaxima : List Nat := [43000, 9000, 12000, 20000, 5000, 1200, 1000, 200]

/-- POWER_ESTIMATE (R473, R474): the estimates of every erg and the sensed currents of every main rail, each in units of 10 mA. -/
def Dev.powerEstimate (s : Dev) (ergs : List ErgEst) (rails : List Nat) : Dev :=
  if !s.clk.mainPower || s.mode = .reset then s
  else
    let put {α : Type} [DecidableEq α] (d : α) (l : List α) (n : Nat) : Map α :=
      (List.range n).foldl (fun m k => Map.set (fun _ => d) m k (l.getD k d)) []
    let most := (List.range 8).foldl (fun m k => Map.set (fun _ => 0) m k (max (Map.get (fun _ => 0) s.pwr.railMax k) (rails.getD k 0))) []
    let s1 := { s with pwr := { s.pwr with ergs := put {} ergs 32, rails := put 0 rails 8, railMax := most } }
    let above := (ergs.take 32).any (fun x => decide (1500 < x.fab) || decide (420 < x.hld) || decide (320 < x.pln))
    let s2 := if above then (s1.count B.PWR F.PWR_OVER_CNT_ERG_OVER_CNT).event B.PWR 0 else s1
    s2.forN 8 (fun s k => if railMaxima.getD k 0 < rails.getD k 0 then (s.count B.PWR F.PWR_OVER_CNT_RAIL_OVER_CNT).event B.PWR 1 else s)

/-- PWR_RAIL_I_READ: MAX clears (R495). -/
def Dev.railRead (s : Dev) : Dev :=
  { s with pwr := { s.pwr with railMax := Map.set (fun _ => 0) s.pwr.railMax (s.fld B.PWR F.PWR_RAIL_SEL_RAIL) 0 } }

/-! ### Temperature -/

/-- A sensor's state. -/
def Dev.sensor (s : Dev) (n : Nat) : SensorSt := Map.get (fun _ => {}) s.thm.sensors n
def Dev.setSensor (s : Dev) (n : Nat) (x : SensorSt) : Dev :=
  { s with thm := { s.thm with sensors := Map.set (fun _ => {}) s.thm.sensors n x } }

/-- θ(k) × P(k, e) in 1/16 °C, truncated (R484): the sensed VDD_BASE current is rail 3. -/
def Dev.modelRise (s : Dev) (k e : Nat) : Int :=
  let x := Map.get (fun _ => {}) s.pwr.ergs e
  let p := 75 * Map.get (fun _ => 0) s.pwr.rails 3 + (if 1 ≤ k then 2400 * x.hld else 0) + (if k = 2 then 2240 * x.fab else 0)
  ((nfield (s.reg B.THM O.THM_THETA).toNat (8 * k) 8 * p / 2000000 : Nat) : Int)

/-- The erg positions that share an edge with e (R484). -/
def ergEdges (e : Nat) : List Nat :=
  (if 8 ≤ e then [e - 8] else []) ++ (if e < 24 then [e + 8] else []) ++ (if e % 8 = 0 then [] else [e - 1]) ++ (if e % 8 = 7 then [] else [e + 1])

/-- A reading comes in (R483, R484): out of range, open or shorted marks the sensor FAILED until the next reset. `reading` in 1/16 °C. -/
def Dev.senseRaw (s : Dev) (n : Nat) (reading : Option Int) : Dev :=
  let x := s.sensor n
  let bad := match reading with
    | some t => decide (t < -960) || decide (2400 < t)
    | none => true
  let s1 := s.setSensor n { x with raw := reading.getD x.raw, failed := x.failed || bad }
  if bad && !x.failed then s1.event B.THM 3 else s1

/-- The outcome of a sensor's check (R484): suspect from a failed check until 16 sweeps in a row have passed; each new suspect raises
SUSPECT. -/
def Dev.senseCheck (s : Dev) (n : Nat) (fails : Bool) : Dev :=
  let x := s.sensor n
  if fails then
    let s1 := s.setSensor n { x with suspect := true, passed := 0 }
    if x.suspect then s1 else s1.event B.THM 2
  else if !x.suspect then s
  else if 16 ≤ x.passed + 1 then s.setSensor n { x with suspect := false, passed := 0 }
  else s.setSensor n { x with passed := x.passed + 1 }

/-- A sensor's acting value: its reading, or what stands for it while it is suspect or failed (R484). -/
def Dev.senseAct (s : Dev) (n : Nat) (instead : Int) : Dev :=
  let x := s.sensor n
  s.setSensor n { x with acting := if x.suspect || x.failed then instead else x.raw }

/-- Layer 3 (R484): the lateral check against the mean of the sensors around that have not failed (DESIGN CHOICE,
notes/assumptions/45.md). -/
def Dev.senseTop (s : Dev) (e : Nat) : Dev :=
  let around := (ergEdges e).map (fun k => s.sensor (96 + k)) |>.filter (fun x => !x.failed)
  let n : Int := around.length
  let sum := around.foldl (fun a x => a + x.raw) 0
  let raw := (s.sensor (96 + e)).raw
  let mean := if n = 0 then raw else sum.tdiv n
  (s.senseCheck (96 + e) (!(s.sensor (96 + e)).failed && decide (n * (raw + 240) < sum))).senseAct (96 + e) mean

/-- Layers 0 to 2 (R484): the vertical check against the layer above and the model. -/
def Dev.senseLayer (s : Dev) (k e : Nat) : Dev :=
  let i := 32 * k + e
  let above := (s.sensor (i + 32)).acting
  let m := above + s.modelRise k e
  let x := s.sensor i
  let tol : Int := (16 * s.fld B.THM F.THM_CFG_MODEL_TOL : Nat)
  (s.senseCheck i (!x.failed && (decide (x.raw < above - 32) || decide (x.raw < m - tol)))).senseAct i (max x.raw m)

/-- The sensors of the I/O areas (R484). -/
def Dev.senseIo (s : Dev) (i : Nat) : Dev :=
  s.senseAct (128 + i) ((List.range 32).foldl (fun a e => max a (s.sensor e).acting) (s.sensor 0).acting)

/-- A limit of the layer a sensor is judged by, in 1/16 °C (R485): `lo` is the field's place in THM_LIMn. -/
def Dev.limit (s : Dev) (n lo : Nat) : Int :=
  16 * (BitVec.ofNat 8 (nfield (s.reg B.THM (O.THM_LIM (if n < 128 then n / 32 else 0))).toNat lo 8)).toInt

/-- A thermal note for the erg at a sensor's position (R131, R486). -/
def Dev.thermNote (s : Dev) (n code : Nat) : Dev :=
  if n < 128 && s.flag (B.ERG (n % 32)) F.ERG_CTRL_NOTE_THERM then s.noteErg (n % 32) code else s

/-- A critical crossing (R466, R487): in Underway Stand-down is due at the turn into T+2; in Boot and Cold hold a high one is kept;
elsewhere Stand-down comes at the end of the sweep. -/
def Dev.critDue (s : Dev) (low : Bool) : Dev :=
  match s.mode with
  | .boot => { s with clk := { s.clk with criticalHeld := true } }
  | .coldHold => { s with clk := { s.clk with criticalHeld := true } }
  | .underway => if s.thm.critAt.isSome then s else { s with thm := { s.thm with critAt := some (s.tide.num + 2, low) } }
  | .moored => if s.thm.critAt.isSome then s else { s with thm := { s.thm with critAt := some (s.tide.num, low) } }
  | .anchored => if s.thm.critAt.isSome then s else { s with thm := { s.thm with critAt := some (s.tide.num, low) } }
  | .slack => if s.thm.critAt.isSome then s else { s with thm := { s.thm with critAt := some (s.tide.num, low) } }
  | _ => s

/-- One limit of a sensor: whether its crossing stands, was (R486): it begins at the limit and ends 5 °C inside it. -/
def crossing (was : Bool) (beyond : Int) : Bool := decide (0 ≤ beyond) || (was && decide (-80 < beyond))

/-- A sensor's acting value is held against its limits (R486, R487). Low limits are not evaluated in Boot and Cold hold. -/
def Dev.senseLimits (s : Dev) (n : Nat) : Dev :=
  let x := s.sensor n
  let a := x.acting
  let low := !(s.mode == .boot || s.mode == .coldHold)
  let y := { x with
    warnHi := crossing x.warnHi (a - s.limit n 0), critHi := crossing x.critHi (a - s.limit n 8),
    warnLo := if low then crossing x.warnLo (s.limit n 16 - a) else x.warnLo,
    critLo := if low then crossing x.critLo (s.limit n 24 - a) else x.critLo }
  let warns := (y.warnHi && !x.warnHi) || (y.warnLo && !x.warnLo)
  let hi := y.critHi && !x.critHi
  let lo := y.critLo && !x.critLo
  let s1 := s.setSensor n y
  let s2 := if warns then (s1.event B.THM 0).thermNote n 1 else s1
  if hi || lo then ((s2.event B.THM 1).thermNote n 2).critDue (!hi) else s2

/-- Whether the device is cool (R489). -/
def Dev.cool (s : Dev) : Bool :=
  (List.range 136).all (fun n => let a := (s.sensor n).acting; decide (a ≤ s.limit n 0 - 80) && decide (s.limit n 16 + 80 ≤ a))

/-- COOL and its event, which the first cool sweep of a Stand-down raises (R489). -/
def Dev.coolShow (s : Dev) : Dev :=
  let c := s.cool
  let s1 := s.setFlag B.THM F.THM_STAT_COOL c
  if c && s.mode = .standDown && !s.thm.coolSeen then { s1 with thm := { s1.thm with coolSeen := true } }.event B.THM 4 else s1

/-- The highest layer-2 acting value (R492). -/
def Dev.fabricTop (s : Dev) : Int := (List.range 32).foldl (fun a e => max a (s.sensor (64 + e)).acting) (s.sensor 64).acting

/-- A half-cycle of `a` sixteenths of a degree is counted in its bin (R492). -/
def Dev.wearCount (s : Dev) (a : Int) : Dev :=
  let bin (n : Nat) : Dev := (s.count B.LH (F.LH_WEAR_BIN_COUNT n))
  if 1280 ≤ a then bin 3 else if 960 ≤ a then bin 2 else if 640 ≤ a then bin 1 else if 320 ≤ a then bin 0 else s

/-- The bond-wear tracker takes a sample (R492). -/
def Dev.wearStep (s : Dev) (t : Int) : Dev :=
  let w := s.wear
  if w.first then { s with wear := { w with p := t, e := t, up := true, first := false } }
  else if w.up then
    if w.e < t then { s with wear := { w with e := t } }
    else if 80 ≤ w.e - t then { s.wearCount (w.e - w.p) with wear := { w with p := w.e, e := t, up := false } }
    else s
  else
    if t < w.e then { s with wear := { w with e := t } }
    else if 80 ≤ t - w.e then { s.wearCount (w.p - w.e) with wear := { w with p := w.e, e := t, up := true } }
    else s

/-- LIFE follows the bins; LIFE_80 is raised once, when it reaches 800 (R493). -/
def Dev.lifeStep (s : Dev) : Dev :=
  let s1 := s.showLife
  if s.fld B.LH F.LH_LIFE_LIFE < 800 && 800 ≤ s1.fld B.LH F.LH_LIFE_LIFE then s1.event B.LH 1 else s1

/-- Sweeps in Cold hold (R491): after 16 warm ones in a row the device returns to Boot at step 5. -/
def Dev.warmStep (s : Dev) : Dev :=
  if s.mode ≠ .coldHold then s
  else
    let warm := (List.range 136).all (fun n => decide (s.limit n 16 ≤ (s.sensor n).acting))
    let k := if warm then s.thm.warm + 1 else 0
    if 16 ≤ k then { s with thm := { s.thm with warm := 0 }, clk := { s.clk with phase := .image } }.setMode .boot
    else { s with thm := { s.thm with warm := k } }

/-- Temperature extremes among the acting values trigger the tamper response (R444). -/
def Dev.senseTamper (s : Dev) : Dev :=
  s.forN 136 (fun s n => let a := (s.sensor n).acting; if 2000 < a || a < -880 then s.tamperTemp n else s)

/-- A sweep is taken in (R483, R484): every sensor has its raw reading, its check and its acting value, layer 3 first. -/
def Dev.senseAll (s : Dev) (readings : List (Option Int)) : Dev :=
  let s1 := s.forN 136 (fun s n => s.senseRaw n (readings.getD n none))
  let s2 := s1.forN 32 Dev.senseTop
  let s3 := ((s2.forN 32 (fun s e => s.senseLayer 2 e)).forN 32 (fun s e => s.senseLayer 1 e)).forN 32 (fun s e => s.senseLayer 0 e)
  s3.forN 8 Dev.senseIo

/-- The island's tracker and LIFE take a sweep (R492, R493). -/
def Dev.wearSweep (s : Dev) : Dev := (s.wearStep s.fabricTop).lifeStep

/-- A sweep in Reset: the tracker takes it, and the THM block is held at its reset values (R461, R492). -/
def Dev.resetSweep (s : Dev) (readings : List (Option Int)) : Dev :=
  let s1 := (s.senseAll readings).wearSweep
  { s1 with thm := {}, regs := Map.clear (fun o => o / blockBytes == B.THM) s1.regs }

/-- THERMAL_SWEEP (R483 to R492): 136 raw readings in 1/16 °C, none for an open or shorted diode. A tamper response goes before a critical
crossing (R466). -/
def Dev.thermalSweep (s : Dev) (readings : List (Option Int)) : Dev :=
  if !s.clk.mainPower then s
  else if s.mode = .reset then s.resetSweep readings
  else (((((s.senseAll readings).forN 136 Dev.senseLimits).wearSweep).senseTamper).critNow.coolShow).warmStep

/-- BOOT_TEMPERATURE_CHECK (R463, R464): the sensors are read; one below -40 °C leads to Cold hold. -/
def Dev.bootTemperature (s : Dev) (readings : List (Option Int)) : Dev :=
  if s.clk.phase ≠ .temperature || s.mode ≠ .boot then s
  else
    let s1 := s.thermalSweep readings
    if s1.mode ≠ .boot then s1
    else if (List.range 136).any (fun n => decide ((s1.sensor n).acting < -640)) then s1.setMode .coldHold
    else { s1 with clk := { s1.clk with phase := .image } }

/-- THM_CMD.RESUME (R489): banks are woken, ergs resume, and the device enters Moored; changes that were held take effect (R558). The 40 us
between are not modelled (notes/assumptions/7.md). -/
def Dev.thmResume (s : Dev) : Dev :=
  if s.mode ≠ .standDown || !s.flag B.THM F.THM_STAT_COOL then s.finish B.THM .state
  else
    let s1 := s.forN 8192 (fun s b => if (s.bank b).power = .awake then s else (s.setBank b { s.bank b with power := .waking }).bankWake b)
    let s2 := s1.forN 32 Dev.ergResume
    let s3 := (s2.setFlag B.THM F.THM_STAT_CRIT false).setFlag B.THM F.THM_STAT_CRIT_LOW false
    ((s3.setMode .moored).commitsAtStop).finish B.THM .ok

/-- THM_SEL (R495): values 136 to 255 set LAST_STATUS to RANGE. -/
def Dev.thmSel (s : Dev) : Dev := if 136 ≤ s.fld B.THM F.THM_SEL_SENSOR then s.done B.THM .range else s

/-- WEAR_PERSIST (R494): at most once per hour, 1,800,000,000,000 cycles of the time clock, while the bins change. -/
def Dev.wearPersist (s : Dev) : Dev :=
  let bins := (List.range 4).map (fun n => s.reg B.LH (O.LH_WEAR_BIN n))
  if s.mode = .beacon || bins = s.wear.nvBins || (s.wear.stored && s.clk.time < s.wear.nvAt + 1800000000000) then s else s.wearStore

/-- Whether self-heating runs (R488, R490, R491): in Cold hold and in a Stand-down for a low critical, where LH_HEAT_CFG enables it. -/
def Dev.selfHeating (s : Dev) : Bool :=
  s.flag B.LH F.LH_HEAT_CFG_EN && (s.mode == .coldHold || (s.mode == .standDown && s.flag B.THM F.THM_STAT_CRIT_LOW))

/-- A temperature as a 12-bit field, saturating (R495). -/
def temp12 (t : Int) : Nat := ((max (-2048) (min 2047 t)) % 4096).toNat

/-- What the power and thermal registers show (R495). -/
def Dev.powerView (s : Dev) (blk off : Nat) : Option Word :=
  let w (n : Nat) : Option Word := some (BitVec.ofNat 32 n)
  if blk = B.PWR then
    if off = O.PWR_STAT then w ((if s.clk.mainPower then 0x1FF else 0) + 512 * s.pins.hldRet.toNat)
    else if off = O.PWR_ERG_SLACK then
      w ((List.range 32).foldl (fun a e => a + (!(s.erg e).slack.runs).toNat * 2 ^ e) 0)
    else if off = O.PWR_ERG_EST then
      let x := Map.get (fun _ => {}) s.pwr.ergs (s.fld B.PWR F.PWR_ERG_SEL_ERG)
      w (min x.fab 0xFFF + 4096 * min x.hld 0x3FF + 4194304 * min x.pln 0x3FF)
    else if off = O.PWR_RAIL_I then
      let k := s.fld B.PWR F.PWR_RAIL_SEL_RAIL
      w (min (Map.get (fun _ => 0) s.pwr.rails k) 0xFFFF + 65536 * min (Map.get (fun _ => 0) s.pwr.railMax k) 0xFFFF)
    else none
  else if blk = B.THM then
    if off = O.THM_VALUE then
      let n := s.fld B.THM F.THM_SEL_SENSOR
      let x := s.sensor n
      w (if 136 ≤ n then 0 else temp12 x.raw + 65536 * temp12 x.acting + 2 ^ 28 * x.suspect.toNat + 2 ^ 29 * x.failed.toNat)
    else if off = O.THM_STAT then
      let all := (List.range 136).map s.sensor
      let hot := (List.range 136).foldl (fun h n => if (s.sensor h).acting < (s.sensor n).acting then n else h) 0
      w ((all.any (fun x => x.warnHi || x.warnLo)).toNat + (s.reg B.THM O.THM_STAT).toNat % 16 / 2 * 2 + 256 * hot +
        65536 * (all.filter (fun x => x.suspect || x.failed)).length)
    else none
  else none

end Sys2Proof.Machine
end

