-- ==== Sys2Proof/Machine/Sec.lean ====
section
/-! DEFINITION. Machine/Sec.lean: life cycle, sessions, the mailboxes, attestation, the random number generator, entry to Dry dock (chapter 13). -/

namespace Sys2Proof.Machine

/-! ### Sessions -/

/-- What a privileged operation needs (R440). -/
inductive Need where
  | open_ | owner | token | vendor | denied
  deriving DecidableEq, Repr

/-- The privileged operations of R440. -/
inductive SecOp where
  | keys | bondSet | bondWipe | programA | programB | bootcfg | drydock | debug | setPassword
  deriving DecidableEq, Repr

/-- The table of R440. -/
def needOf (o : SecOp) (l : Life) : Need :=
  match o, l with
  | .setPassword, .provisioned => .token
  | .setPassword, _ => .denied
  | _, .test => .vendor
  | _, .returned => .vendor
  | _, .blank => .open_
  | _, .provisioned => .owner
  | .keys, .sealed => .owner
  | .bondWipe, .sealed => .owner
  | .programA, .sealed => .token
  | .debug, .sealed => .token
  | _, .sealed => .denied

/-- Whether an interface may do a privileged operation; a request of none of the interfaces has no session (R435, R440). -/
def Dev.mayDo (s : Dev) (iface : Option Nat) (o : SecOp) : Bool :=
  let sess := match iface with
    | some i => (s.iface i).sess
    | none => 0
  match needOf o s.life with
  | .open_ => true
  | .owner => sess == 1 || sess == 2
  | .token => sess == 2
  | .vendor => sess == 3
  | .denied => false

/-! ### The mailbox -/

/-- `n` bytes of an interface's mailbox from byte `o`. -/
def IfaceSt.bytes (x : IfaceSt) (o n : Nat) : List Byte := (List.range n).map (fun k => Map.get (fun _ => 0) x.mbox (o + k))

/-- The mailbox holds bytes from its first on, zeros after them, and LEN is their number. -/
def IfaceSt.fill (x : IfaceSt) (bs : List Byte) : IfaceSt :=
  { x with len := bs.length, mbox := (bs.foldl (fun (a : Nat × Map Byte) b => (a.1 + 1, Map.set (fun _ => 0) a.2 a.1 b)) (0, [])).2 }

/-- The mailbox of an interface is zeroed (R438). -/
def Dev.mboxZero (s : Dev) (i : Nat) : Dev := s.setIface i { s.iface i with mbox := [] }

/-- A write of SEC_MBOX_CTRL (R448): LEN above 8,192 is a reserved encoding (R6); a write sets the pointer to 0. -/
def Dev.mboxCtrl (s : Dev) (i : Nat) (w : Word) : Dev :=
  let n := w.toNat % 16384
  if 8192 < n then (s.setIface i { s.iface i with ptr := 0 }).refuse B.SEC else s.setIface i { s.iface i with len := n, ptr := 0 }

/-- SEC_MBOX_DATA (R448): a write moves a word in at the pointer; at or beyond byte 8,192 it is dropped with RANGE. -/
def Dev.mboxWrite (s : Dev) (i : Nat) (w : Word) : Dev :=
  let x := s.iface i
  if 8192 ≤ x.ptr then s.done B.SEC .range
  else
    let m := (List.range 4).foldl (fun m k => Map.set (fun _ => 0) m (x.ptr + k) (BitVec.ofNat 8 (w.toNat >>> (8 * k)))) x.mbox
    s.setIface i { x with mbox := m, ptr := x.ptr + 4 }

/-- SEC_MBOX_DATA (R448): a read moves a word out and advances the pointer; a peek read changes nothing (R505, R506). -/
def Dev.mboxRead (s : Dev) (i : Nat) (peek : Bool) : Word × Dev :=
  let x := s.iface i
  if 8192 ≤ x.ptr then (0, if peek then s else s.done B.SEC .range)
  else (BitVec.ofNat 32 (ofLeBytes (x.bytes x.ptr 4)), if peek then s else s.setIface i { x with ptr := x.ptr + 4 })

/-! ### Commands -/

/-- Whether the random number generator serves requests (R434). -/
def Dev.rngRuns (s : Dev) : Bool := s.flag B.SEC F.SEC_RNG_STAT_RUN

/-- SEC_CMD NONCE (R434, R436). -/
def Dev.secNonce (s : Dev) (i : Nat) : Dev :=
  if !s.rngRuns then s.finish B.SEC .busy
  else
    let (n, s1) := s.draw
    (s1.setIface i { s1.iface i with nonce := n, fresh := true }).finish B.SEC .ok

/-- An open completes with AUTH (R439). -/
def Dev.authFails (s : Dev) (i : Nat) : Dev :=
  let x := s.iface i
  let n := x.failConsec + 1
  let s1 := (s.setIface i { x with failConsec := min n 8, authFail := satAdd 16 x.authFail 1, locked := x.locked || decide (8 ≤ n) }).event B.SEC 2
  (if !x.locked && decide (8 ≤ n) then s1.event B.SEC 3 else s1).finish B.SEC .auth

/-- A session opens (R435, R439). -/
def Dev.sessOpens (s : Dev) (i kind : Nat) : Dev :=
  ((s.setIface i { s.iface i with sess := kind, failConsec := 0 }).event B.SEC 0).finish B.SEC .ok

/-- The message that OPEN_TOKEN's signature is over (R437). -/
def Dev.tokenMessage (s : Dev) (i : Nat) (vendor : Bool) : List Byte :=
  leBytes 4 0x4E535A41 ++ leBytes 1 (if vendor then 2 else 1) ++ leBytes 1 i ++ leBytes 1 s.life.code ++ [0] ++ leBytes 16 s.part.serial.toNat ++
    leBytes 32 (s.iface i).nonce.toNat ++ List.replicate 8 0

/-- The public key that verifies a token (R437): SESSION_PK, or the vendor session key. -/
def Dev.tokenKey (s : Dev) (vendor : Bool) : List Byte :=
  if vendor then (List.range 1952).map (Config.vendorKey 2)
  else match s.sec.owner with
    | some o => o.sessionPk
    | none => []

/-- SEC_CMD OPEN_TOKEN (R436, R437, R439, R440). -/
def Dev.openToken (s : Dev) (i : Nat) (vendor : Bool) : Dev :=
  let x := s.iface i
  let legal := if vendor then s.life == .test || s.life == .returned else s.life == .provisioned || s.life == .sealed
  s.guarded B.SEC [(x.len != 3312, .format), (!legal || !x.fresh || x.locked, .state)] (fun s =>
    let good := (x.bytes 3309 3).all (· == 0) && Config.mldsaVerify (s.tokenKey vendor) (s.tokenMessage i vendor) (x.bytes 0 3309)
    let s1 := s.closeSession i
    let s2 := s1.setIface i { s1.iface i with fresh := false }
    if good then s2.sessOpens i (if vendor then 3 else 2) else s2.authFails i)

/-- SEC_CMD OPEN_PASSWORD (R438 to R440). -/
def Dev.openPassword (s : Dev) (i : Nat) : Dev :=
  let x := s.iface i
  let legal := s.life == .provisioned && s.sec.owner.any (·.passwordEn)
  (s.guarded B.SEC [(x.len != 32, .format), (!legal || x.locked, .state)] (fun s =>
    let s1 := s.closeSession i
    if s.sec.owner.any (fun o => o.passwordHash == shakeNum (x.bytes 0 32)) then s1.sessOpens i 1 else s1.authFails i)).mboxZero i

/-- SEC_CMD CLOSE (R440). -/
def Dev.secClose (s : Dev) (i : Nat) : Dev := (s.closeSession i).finish B.SEC .ok

/-- SEC_CMD GET_IDKEY (R442). While the identity key is erased there is none to place: STATE (DESIGN CHOICE, notes/assumptions/47.md). -/
def Dev.getIdkey (s : Dev) (i : Nat) : Dev :=
  if s.life = .test || !s.sec.keysUp then s.finish B.SEC .state
  else
    let k := (List.range 1952).map (Config.identityKey s.life.code)
    let c := (List.range 3309).map (Config.identityCert s.life.code)
    (s.setIface i ((s.iface i).fill (k ++ c ++ [0, 0, 0]))).finish B.SEC .ok

/-- The digest of the shoal map that a report carries (R35, R39, R443). After a lost map, and before its first write, the header is taken with
UPDATE_COUNT and LAST_UPDATE zero (DESIGN CHOICE, notes/assumptions/48.md). -/
def Dev.shoalDigest (s : Dev) : List Byte :=
  if s.stack.both then ((nvMapBytes shoalMagic s.stack.shoal.length 0 0 (shoalBytes s.stack.shoal)).drop 32).take 32
  else ((s.nvSector (386 + s.stack.lastCopy)).drop 32).take 32

/-- The least erg of a mask. -/
def leastErg (m : Nat) : Nat := ((List.range 32).find? (nbit m)).getD 32

/-- The ergs in which an image is live: a fence ends it in its erg (R158, R443; DEDUCED, notes/assumptions/143.md). -/
def Dev.liveMask (s : Dev) (i : Image) : Nat :=
  (List.range 32).foldl (fun a e => if nbit i.ergMask e && (s.erg e).mode != .fenced then a + 2 ^ e else a) 0

/-- The user images that are live in some erg, each with the mask of those ergs, by the lowest erg of it (R443). -/
def Dev.userImages (s : Dev) : List Image :=
  let is := (s.cfg.live.filter (fun i => !i.resident)).map (fun i => { i with ergMask := s.liveMask i })
  (List.range 32).flatMap (fun e => is.filter (fun i => i.ergMask != 0 && leastErg i.ergMask == e))

/-- The part of an attestation report that is signed (R443). -/
def Dev.report (s : Dev) (nonce : List Byte) : List Byte :=
  let es := s.userImages
  let z (n : Nat) : List Byte := List.replicate n 0
  let flags := (s.flag B.CFG F.CFG_BOOT_STAT_FALLBACK).toNat + 2 * (s.flag B.SEC F.SEC_LC_TAMPER_SEEN).toNat
  leBytes 4 0x54415A41 ++ leBytes 2 1 ++ leBytes 1 s.life.code ++ leBytes 1 flags ++ leBytes 1 0xA2 ++
    leBytes 1 (s.fld B.CFG F.CFG_ID_STACK_REV) ++ leBytes 2 0x8192 ++ z 4 ++ leBytes 16 s.part.serial.toNat ++ nonce ++
    leBytes 8 s.ns ++ leBytes 8 s.tide.num ++ leBytes 1 (s.fld B.CFG F.CFG_BOOT_STAT_SLOT) ++ leBytes 1 es.length ++ z 6 ++
    leBytes 8 s.cfg.resident.imageId ++ leBytes 32 s.cfg.resident.root.toNat ++ s.shoalDigest ++
    (List.range 4).flatMap (fun n => leBytes 4 (s.reg B.LH (O.LH_WEAR_BIN n)).toNat) ++ leBytes 2 (s.fld B.LH F.LH_LIFE_LIFE) ++ z 14 ++
    es.flatMap (fun i => leBytes 4 i.ergMask ++ z 4 ++ leBytes 8 i.imageId ++ leBytes 32 i.root.toNat)

/-- SEC_CMD ATTEST (R434, R443). -/
def Dev.attest (s : Dev) (i : Nat) : Dev :=
  let x := s.iface i
  s.guarded B.SEC [(x.len != 32, .format), (!s.sec.keysUp, .state), (!s.rngRuns, .busy)] (fun s =>
    let m := s.report (x.bytes 0 32)
    let k := s.sec.draws
    let s1 := { s with sec := { s.sec with draws := k + 1 } }
    let g := (List.range 3309).map (Config.mldsaSign s.life.code m k)
    (s1.setIface i (x.fill (m ++ g ++ [0, 0, 0]))).finish B.SEC .ok)

/-! ### Life cycle -/

/-- The owner record that a mailbox holds (R431); none where it is not well formed. -/
def ownerOf (b : List Byte) : Option Owner :=
  let flags := ofLeBytes ((b.drop 4).take 4)
  let hash := ofLeBytes ((b.drop 0xF48).take 32)
  if b.length ≠ 3976 || ofLeBytes (b.take 4) ≠ 0x524F5A41 || 2 ≤ flags || (flags = 1 && hash = 0) then none
  else some { passwordEn := flags == 1, imagePk := (b.drop 8).take 1952, sessionPk := (b.drop 0x7A8).take 1952,
              passwordHash := BitVec.ofNat 256 hash, kwk := BitVec.ofNat 256 (ofLeBytes ((b.drop 0xF68).take 32)) }

/-- The copy of the owner record that the next write takes (R35, R431); none where both sectors are read-only. -/
def Dev.ownerCopy (s : Dev) : Option Nat := nextCopy ((s.sec.ownerUpdates + 1) % 2) (s.nvRo 394) (s.nvRo 395)

/-- The owner record is written: its sector counts an erase (R424, R431). What the copies hold stands in `sec.owner`. -/
def Dev.ownerWrite (s : Dev) (c : Nat) (o : Owner) : Dev :=
  let s1 := s.nvWrite (394 + c) (leBytes 4 0x524F5A41)
  { s1 with sec := { s1.sec with owner := some o, ownerUpdates := s1.sec.ownerUpdates + 1 } }

/-- The sectors a transition erases (R392, R429). -/
def lcSectors (target : Life) : List Nat :=
  match target with
  | .blank => List.range 386 ++ [396]
  | .returned => List.range 386 ++ [394, 395, 396]
  | _ => []

/-- The session that a permitted transition needs (R429); none where it is not permitted. -/
def lcNeed (from_ dest : Life) : Option Need :=
  match from_, dest with
  | .test, .blank => some .vendor
  | .blank, .provisioned => some .open_
  | .provisioned, .sealed => some .token
  | .provisioned, .returned => some .token
  | .sealed, .returned => some .token
  | _, _ => none

/-- A transition is carried out (R429, R430, R446): steps 1 to 7. FAIL_POLICY becomes HALT, which is 0 (R393). -/
def Dev.lcRun (s : Dev) (target : Life) (owner : Option Owner) : Dev :=
  let whole := target == .blank || target == .returned
  let s1 := s.closeSessions.eraseKeys.wipeBond
  let s2 := if whole then { s1.wipeErgs (List.range 32) with fab := { (s1.wipeErgs (List.range 32)).fab with frames := [] } } else s1
  let s3 := s2.each (lcSectors target) (fun s k => s.nvWrite k (if k = 396 then leBytes 4 0 else []))
  let s4 := if target = .returned then { s3 with sec := { s3.sec with owner := none } } else s3
  let s5 := match owner, s4.ownerCopy with
    | some o, some c => s4.ownerWrite c o
    | _, _ => s4
  let s6 := (s5.setFld B.SEC F.SEC_LC_STATE target.code).setFlag B.SEC F.SEC_LC_TAMPER_SEEN false
  (s6.finish B.SEC .ok).resetRequest 6

/-- SEC_CMD LC_ADVANCE (R429 to R431, R438). -/
def Dev.lcAdvance (s : Dev) (i target : Nat) : Dev :=
  let x := s.iface i
  let dest := Life.ofCode target
  let need := if 5 ≤ target then none else lcNeed s.life dest
  let owner := if dest = .provisioned then ownerOf (x.bytes 0 x.len) else none
  let badRecord := s.life == .blank && dest == .provisioned && owner.isNone
  let denied := match need with
    | some .vendor => x.sess != 3
    | some .token => x.sess != 2
    | _ => false
  (s.guarded B.SEC [(badRecord, .format), (denied, .denied), (!(s.mode == .moored || s.mode == .aground) || need.isNone, .state)] (fun s =>
    if (lcSectors dest).any s.nvRo || (owner.isSome && s.ownerCopy.isNone) then s.finish B.SEC .exhausted
    else s.lcRun dest owner)).mboxZero i

/-- SEC_CMD SET_PASSWORD (R438, R440). A new password leaves PASSWORD_EN as it is (R438 names LEN 0 alone as changing it; DESIGN CHOICE,
notes/assumptions/49.md). -/
def Dev.setPassword (s : Dev) (i : Nat) : Dev :=
  let x := s.iface i
  (s.guarded B.SEC [(x.len != 32 && x.len != 0, .format), (!s.mayDo (some i) .setPassword, .denied)] (fun s =>
    match s.sec.owner, s.ownerCopy with
    | some o, some c =>
      (s.ownerWrite c (if x.len = 0 then { o with passwordEn := false, passwordHash := 0 } else
        { o with passwordHash := shakeNum (x.bytes 0 32) })).finish B.SEC .ok
    | _, _ => s.finish B.SEC .exhausted)).mboxZero i

/-- Dry dock is entered (R447). -/
def Dev.dockEnter (s : Dev) : Dev :=
  let s1 := (if s.mode = .underway then s.tidesEnd else s).closeSessions
  let s2 := ({ s1.eraseKeys with fab := loseRows s1.eraseKeys.fab }.wipeNow (List.range 32)).linksOff.cachesEmpty
  let s3 := s2.cfgReset.dropRun
  let s4 := { s3 with
    sec := { s3.sec with keysUp := false }, ergs := [], stack := { s3.stack with fences := [] },
    tide := { s3.tide with armed := none, started := false, stopAt := none, activated := false, decls := [], bounds := [], gates := [], transfers := [] },
    pwr := { s3.pwr with sleepAt := none }, thm := { s3.thm with critAt := none } }
  (s4.setFlag B.SEC F.SEC_LC_SCAN_OK true).setMode .dryDock |>.steerAll

/-- SEC_CMD DRYDOCK (R440, R447, R465). -/
def Dev.drydock (s : Dev) (i : Nat) : Dev :=
  s.guarded B.SEC [(!s.mayDo (some i) .drydock, .denied), (!(s.mode == .moored || s.mode == .underway), .state)] (fun s =>
    s.dockEnter.finish B.SEC .ok)

/-- SEC_CMD BOOTCFG (R393, R440). -/
def Dev.bootcfg (s : Dev) (i : Nat) : Dev :=
  let x := s.iface i
  let v := ofLeBytes (x.bytes 0 4)
  s.guarded B.SEC [(x.len != 4 || decide (2 ≤ v), .format), (!s.mayDo (some i) .bootcfg, .denied)] (fun s =>
    if s.nvRo 396 then s.finish B.SEC .exhausted else (s.nvWrite 396 (leBytes 4 v)).finish B.SEC .ok)

/-- SEC_CMD from an interface (R448). Each command runs to its end at once, so that none meets another (R441). -/
def Dev.secCmd (s : Dev) (i : Nat) (w : Word) : Dev :=
  let n := w.toNat
  match n % 16 with
  | 0 => s
  | 1 => s.secNonce i
  | 2 => s.openToken i (nbit n 7)
  | 3 => s.openPassword i
  | 4 => s.secClose i
  | 5 => s.attest i
  | 6 => s.getIdkey i
  | 7 => s.lcAdvance i (nfield n 4 3)
  | 8 => s.setPassword i
  | 9 => s.drydock i
  | 10 => s.bootcfg i
  | _ => s.finish B.SEC .format

/-! ### The random number generator -/

/-- RNG_FAIL (R434): a health test fails and the generator stops. -/
def Dev.rngFail (s : Dev) : Dev :=
  if s.mode = .beacon || s.mode = .reset then s
  else ((s.setFlag B.SEC F.SEC_RNG_STAT_RUN false).count B.SEC F.SEC_RNG_STAT_FAIL_CNT).classU B.SEC 4 .ok 0

/-- RNG_RESTART (R434). -/
def Dev.rngRestart (s : Dev) : Dev :=
  if s.mode = .beacon || s.mode = .reset then s else s.setFlag B.SEC F.SEC_RNG_STAT_RUN true

/-- What the security registers show an interface (R435, R444, R448). -/
def Dev.secView (s : Dev) (iface : Nat) (off : Nat) : Option Word :=
  let x := s.iface iface
  if off = O.SEC_SESS then
    some (BitVec.ofNat 32 (x.sess + 4 * iface + 16 * x.locked.toNat + 256 * x.failConsec + 65536 * x.authFail))
  else if off = O.SEC_MBOX_CTRL then some (BitVec.ofNat 32 x.len)
  else if O.SEC_NONCE 0 ≤ off && off ≤ O.SEC_NONCE 7 then some (BitVec.ofNat 32 (x.nonce.toNat >>> (8 * (off - O.SEC_NONCE 0))))
  else if off = O.SEC_TAMPER_CFG && s.life = .sealed then some 0x7F
  else none

end Sys2Proof.Machine
end

