-- ==== Sys2Proof/Machine/SelfTest.lean ====
section
/-! DEFINITION. Machine/SelfTest.lean: marches, dry-dock slots, test runs in Dry dock, their results and repairs, scan, the plane-store
scrubbers, leaky buckets and the port of the fault log (chapter 17; R201 to R204). -/

namespace Sys2Proof.Machine

/-! ### What a test finds -/

/-- Kind and slice of a finding (R521). -/
def TestFind.kind : TestFind → Nat
  | .fabric _ _ => 0 | .lane _ _ _ _ _ => 1 | .bit _ _ _ _ => 2

def TestFind.slice : TestFind → Nat
  | .fabric d _ => d.val / 16 | .lane _ d _ _ _ => d.val / 16 | .bit _ r _ _ => r.val

/-- The dune or bank of a finding. -/
def TestFind.dune : TestFind → Nat
  | .fabric d _ => d.val | .lane _ d _ _ _ => d.val | .bit d _ _ _ => d.val

/-- RES_HI of a finding's record (R525). -/
def TestFind.hi : TestFind → Nat
  | .fabric _ b => b.val
  | .lane j _ k l _ => j.val + 4 * k.val + 8192 * l.val
  | .bit _ r w b => r.val + 1024 * w.val + 32768 * b.val

/-- A result record is queued; one that finds the queue full is lost (R525). -/
def Dev.result (s : Dev) (lo hi : Nat) : Dev :=
  if 64 ≤ s.bist.results.length then (s.count B.BIST F.BIST_RES_STAT_LOST_CNT).event B.BIST 2
  else { s with bist := { s.bist with results := s.bist.results ++ [⟨BitVec.ofNat 32 lo, BitVec.ofNat 32 hi⟩] } }

/-- RES_LO of a record (R525). -/
def Dev.resLo (s : Dev) (kind e d action : Nat) : Nat := kind + 4 * e + 128 * d + 32768 * action + 2 ^ 18 * (s.tide.num % 16384)

/-! ### Repairs (R526): each answers the ACTION taken -/

/-- A bad lane: steered at the next turn, at once where no tides run, or its bundle is exhausted. -/
def Dev.repairLane (s : Dev) (id lane : Nat) (service : Bool) : Dev × Nat :=
  let b := s.bundle id
  let cause := if b.suspect then 3 else 2
  if !bundleExists id || b.exhausted || b.steered.contains lane || b.waiting.contains lane then (s, 0)
  else if 4 ≤ b.steered.length + b.waiting.length then (s.exhaust id cause, 3)
  else
    let s1 := (s.markLane id lane cause).classC B.BIST
    (if service then s1.event B.BIST 8 else s1, 1)

/-- A failing hold word: remapped, or its bank is out of service. A failing spare is used no more; the word it serves moves to
another. -/
def Dev.repairWord (s : Dev) (b row w cause : Nat) : Dev × Nat :=
  let out (s : Dev) : Dev × Nat := ((s.shoalAdd 4 (bundleId 3 (b / 256) (b % 256) 0x7FF) cause).classC B.BIST, 3)
  if row < 512 then
    if (s.spareOf b row w).isSome then (s, 0)
    else if (s.freeSpare b).isNone then out s
    else ((s.remapNow b row w).classC B.BIST, 2)
  else if 8 ≤ w || s.hold.badSpares.contains (8 * b + w) then (s, 0)
  else
    let s1 := { s with hold := { s.hold with badSpares := s.hold.badSpares ++ [8 * b + w] } }
    match s.remapAt b w with
    | none => (s1, 0)
    | some (r, wd) =>
      match s1.freeSpare b with
      | none => out s1
      | some k =>
        let x := Map.get (fun _ => ({} : Spare)) s1.hold.spares (8 * b + w)
        let s2 := { s1 with hold := { s1.hold with
          spares := Map.set (fun _ => {}) s1.hold.spares (8 * b + k) x,
          remap := Map.set (fun _ => none) (Map.set (fun _ => none) s1.hold.remap (8 * b + w) none) (8 * b + k) (some (r, wd)),
          remapDirty := true } }
        (s2.classC B.BIST, 2)

/-- A failing fabric resource: the dune is out of service; class U where it is in use. The device does not fence it. -/
def Dev.repairDune (s : Dev) (g cause : Nat) : Dev × Nat :=
  let used := s.inUse (g / 256) (g % 256)
  let s1 := s.shoalAdd 1 (bundleId 3 (g / 256) (g % 256) 0x7FF) cause
  (if used then s1.classU B.BIST 1 .ok g else s1, 3)

/-- The repair of a finding in erg `e`. -/
def Dev.repair (s : Dev) (e : Nat) (service : Bool) : TestFind → Dev × Nat
  | .lane j d k l _ => s.repairLane (bundleId j.val e d.val k.val) l.val service
  | .bit d r w _ => s.repairWord (256 * e + d.val) r.val w.val 2
  | .fabric d _ => s.repairDune (256 * e + d.val) 2

/-! ### Marches over the hold (R201, R202) -/

/-- A word of a preserving march: corrected; written back as the poison word where it was uncorrectable, and logged as a scrub find. -/
def Dev.marchWord (s : Dev) (wi : Nat) (x : Spare) (put : Dev → Spare → Dev) : Dev :=
  if x.syn = 0 then s
  else match x.value with
    | some d => (put s ⟨d, 0⟩).classC (B.HOLD (wi / 2 ^ 24))
    | none => (put s poisonWord).holdUncorr B.SCRB 1 wi 4 x.syn

/-- An operation of a march on a cell: a write or a read of the background's 0 or 1 (R201). -/
inductive MarchOp where
  | write (one : Bool)
  | read (one : Bool)
  deriving DecidableEq, Repr

/-- The six elements of a hold march, with the order of their rows: none where either will do, else whether they ascend (R201). -/
def marchElements : List (Option Bool × List MarchOp) :=
  [(none, [.write false]), (some true, [.read false, .write true]), (some true, [.read true, .write false]),
   (some false, [.read false, .write true]), (some false, [.read true, .write false]), (none, [.read false])]

/-- What a march writes into a row of 2,304 bits for 0 or 1: all alike on the solid background; 0x5 in every 4-bit group of even rows and
0xA in those of odd rows, or the inverse, on the checkerboard (R201). -/
def marchPattern (checker one : Bool) (row : Nat) : BitVec 2304 :=
  let zero : BitVec 2304 := if !checker then 0 else BitVec.ofNat 2304 ((2 ^ 2304 - 1) / 15 * (if row % 2 = 0 then 5 else 10))
  if one then ~~~zero else zero

/-- Row cycles that a march takes over a bank: every operation of both backgrounds on each of 513 rows; a preserving march reads and writes
back each row besides (R202). -/
def marchCycles (preserving : Bool) : Nat := 513 * (2 * (marchElements.flatMap (·.2)).length + if preserving then 2 else 0)

/-- Whether a march finds a cell that reads as `stuck` whatever is written, where `zero` is the value its background writes for 0: a read of
another value than was written (R201). -/
def marchFinds (stuck : Option Bool) (zero : Bool) : Bool :=
  ((marchElements.flatMap (·.2)).foldl (fun (acc : Bool × Bool) op =>
    match op with
    | .write one => (stuck.getD (one ^^ zero), acc.2)
    | .read one => (acc.1, acc.2 || acc.1 != (one ^^ zero))) (zero, false)).2

/-- A preserving march over one row of one bank, 512 its spares: every word, whether or not another stands for it (R201, R202). For a
spare that serves no word the spec names no word index; a free value stands there (log entry 123). -/
def Dev.marchRow (s : Dev) (b row : Nat) : Dev :=
  if row < 512 then
    s.forN 32 (fun s w => s.marchWord (wordIndex b row w) (s.arrayWord (wordIndex b row w)) (fun s x => s.putArrayWord (wordIndex b row w) x))
  else
    s.forN 8 (fun s k =>
      let x := Map.get (fun _ => ({} : Spare)) s.hold.spares (8 * b + k)
      let put (s : Dev) (x : Spare) : Dev := { s with hold := { s.hold with spares := Map.set (fun _ => {}) s.hold.spares (8 * b + k) x } }
      match s.remapAt b k with
      | some (r, w) => s.marchWord (wordIndex b r w) x put
      | none =>
        if x.syn = 0 then s
        else
          let (v, s1) := s.freeWord
          s1.marchWord (16384 * b + v.toNat % 16384) x put)

/-- A preserving march over the first `n` of the 513 rows of a bank. Only rows that hold an error change. -/
def Dev.marchBank (s : Dev) (b n : Nat) : Dev :=
  let rows := ((s.hold.syn.filter (fun (x : Nat × Byte) => x.1 / 16384 == b)).map (fun (x : Nat × Byte) => x.1 / 32 % 512)).eraseDups ++ [512]
  s.each (rows.filter (· < n)) (fun s r => s.marchRow b r)

/-- A destructive march has touched the first `n` of the 513 rows of the banks of an erg: every word of them is data 0 with check
byte 0x00. -/
def Dev.marchZero (s : Dev) (e n : Nat) : Dev :=
  let word (wi : Nat) : Bool := wi / 0x400000 == e && decide (wi / 32 % 512 < n)
  { s with
    mem := Map.clear (fun k => decide (holdBase ≤ k) && word ((k - holdBase) / 8)) s.mem,
    hold := { s.hold with syn := Map.clear word s.hold.syn,
                          spares := Map.clear (fun k => k / 2048 == e && decide (512 < n)) s.hold.spares } }

/-- The first `n` of the 384 rows of the dune-planes of an erg are marched destructively: their planes are null (R520). -/
def Dev.marchPlanes (s : Dev) (e n : Nat) : Dev :=
  s.forN 8 (fun s p => if 48 * p < n then s.nullPlane e p else s)

/-- Rows of erg `e` that a march has run over, given how many rows the engine has worked through: it marches 8 ergs at once (R202). -/
def March.rowsOf (m : March) (e touched : Nat) : Nat :=
  let full := if m.planeStore then 384 else 513
  if m.aborted then min full (touched - full * ((e - m.first) / 8)) else full

/-- What a march has made of an erg's contents when it ends. -/
def Dev.marchErg (s : Dev) (m : March) (e touched : Nat) : Dev :=
  let n := m.rowsOf e touched
  if m.planeStore then (if m.preserving then s else s.marchPlanes e n)
  else if m.preserving then s.forN 256 (fun s d => s.marchBank (256 * e + d) n)
  else s.marchZero e n

/-- The ergs of a march. -/
def March.ergs (m : March) : List Nat := (List.range 32).filter (fun e => decide (m.first ≤ e) && decide (e ≤ m.last))

/-- The record and the repair of a failing march bit (R525, R526, R527): the record in Dry dock alone. -/
def Dev.marchRepair (s : Dev) (planeStore : Bool) (f : MarchFail) (cause : Nat) : Dev :=
  let b := f.bank.val
  let (s1, a) := if planeStore then s.repairDune b cause else s.repairWord b f.row.val f.word.val cause
  if s.mode ≠ .dryDock then s1
  else if planeStore then
    let w := f.row.val % 48 * 32 + f.word.val
    s1.result (s.resLo 0 (b / 256) (b % 256) a) (64 * w + (if f.bit.val < 64 then f.bit.val else 0))
  else s1.result (s.resLo 2 (b / 256) (b % 256) a) (f.row.val + 1024 * f.word.val + 32768 * f.bit.val)

/-- MARCH_FAIL0 and MARCH_FAIL1 after a march; MARCH_FAIL, bit 15, where it failed anywhere (R203, R209, R520). -/
def Dev.marchShow (s : Dev) (fails : List MarchFail) : Dev :=
  match fails with
  | [] => (s.setReg B.BIST O.MARCH_FAIL0 0).setReg B.BIST O.MARCH_FAIL1 0
  | f :: _ =>
    let s1 := s.setReg B.BIST O.MARCH_FAIL0 (BitVec.ofNat 32 (f.bank.val + 2 ^ 13 * f.row.val + 2 ^ 23 * f.word.val))
    (s1.setReg B.BIST O.MARCH_FAIL1 (BitVec.ofNat 32 (f.bit.val + 128 + 65536 * min fails.length 65535))).event B.BIST 15

/-- MARCH_CMD (R203, R520, R528). A march while a Dry dock run is under way is BUSY. -/
def Dev.marchCmd (s : Dev) (w : Word) : Dev :=
  let n := w.toNat
  let op := n % 4
  let ps := nbit n 2
  let m : March := { planeStore := ps, preserving := op == 2, first := nfield n 3 5, last := nfield n 8 5, aborted := false }
  if op = 0 then s
  else if op = 3 then { s with bist := { s.bist with march := s.bist.march.map (fun (m : March) => { m with aborted := true }) } }
  else
    let modeBad := !(s.mode == .moored || s.mode == .underway || s.mode == .dryDock)
    let ergBad (e : Nat) : Bool := (s.erg e).mode == .running || !(s.erg e).slack.runs
    let slotBad (e : Nat) : Bool := ps && (List.range 8).any (fun p => (s.slot e p).st != .free)
    s.guarded B.BIST [(decide (m.last < m.first), .range),
        (op == 1 && !ps && s.mode != .dryDock && m.ergs.any (fun e => s.hold.bond.ergs.contains e), .denied),
        (modeBad || m.ergs.any ergBad || m.ergs.any slotBad, .state),
        (s.bist.march.isSome || s.bist.ddRun.isSome, .busy)]
      (fun s => { s with bist := { s.bist with march := some m } })

/-- MARCH_DONE (R203): the march under way ends, with the failing bits it found. `touched`: the rows it has worked through, which count
where ABORT ended it. -/
def Dev.marchDone (s : Dev) (fails : List MarchFail) (touched : Nat) : Dev :=
  match s.bist.march with
  | none => s
  | some m =>
    let found := fails.filter (fun f => m.ergs.contains (f.bank.val / 256) && (!m.planeStore || decide (f.row.val < 384)))
    let s1 := { s with bist := { s.bist with march := none } }.each m.ergs (fun s e => s.marchErg m e touched)
    let s2 := s1.each found (fun s f => s.marchRepair m.planeStore f 2)
    ((s2.marchShow found).event B.BIST 14).finish B.BIST .ok

/-- The march of the hold at Boot (R204): `mode` 1 PRESERVE, 2 SKIP, else ZERO; bonded banks are preserved unless main power came up.
A bank with more failing words than good spares is out of service. -/
def Dev.bootMarch (s : Dev) (mode : Nat) (fails : List MarchFail) : Dev :=
  let cold := s.fld B.LH F.LH_RST_CAUSE_LAST == 1
  let s1 := s.forN 32 (fun s e =>
    if !cold && s.hold.bond.ergs.contains e then s.forN 256 (fun s d => s.marchBank (256 * e + d) 513)
    else if !cold && mode = 1 then s.forN 256 (fun s d => s.marchBank (256 * e + d) 513)
    else if !cold && mode = 2 then s
    else s.marchZero e 513)
  let skipped (f : MarchFail) : Bool := !cold && mode == 2 && !s.hold.bond.ergs.contains (f.bank.val / 256)
  s1.each (fails.filter (fun f => !skipped f)) (fun s f => (s.repairWord f.bank.val f.row.val f.word.val 1).1)

/-! ### Slices, slots and runs -/

/-- Slices of a lap (R521). -/
def lapSlices : Nat → Nat
  | 2 => 513 | _ => 16

/-- The lap of an erg and kind. -/
def Dev.lap (s : Dev) (e kind : Nat) : LapSt := Map.get (fun _ => {}) s.bist.laps (4 * e + kind)
def Dev.setLap (s : Dev) (e kind : Nat) (x : LapSt) : Dev :=
  { s with bist := { s.bist with laps := Map.set (fun _ => {}) s.bist.laps (4 * e + kind) x } }

/-- Whether a finding lies in a SUSPECT bundle, which a slot tests first (R30). -/
def Dev.findSuspect (s : Dev) (e : Nat) : TestFind → Bool
  | .lane j d k _ _ => (s.bundle (bundleId j.val e d.val k.val)).suspect
  | _ => false

/-- A slice is tested (R521, R525, R526): a HOLD slice marches its row; SUSPECT bundles are tested first (R30); a slice that fails places
one record, of its first finding, and raises DD_FAIL, bit 1; everything found is repaired. The lap goes on; one that completes raises
DD_LAP, bit 0 (R527). A SUSPECT bundle in which no faulty lane is found stays SUSPECT (DESIGN CHOICE, notes/assumptions/122.md). -/
def Dev.testSlice (s : Dev) (e kind : Nat) (finds : List TestFind) (service : Bool) : Dev :=
  let x := s.lap e kind
  let x0 : LapSt := if x.slice = 0 then { x with lapStart := s.tide.num } else x
  let s1 := if kind = 2 then s.forN 256 (fun s d => s.marchRow (256 * e + d) x.slice) else s
  let here := finds.filter (fun f => f.kind == kind && f.slice == x.slice)
  let mine := here.filter (s.findSuspect e) ++ here.filter (fun f => !s.findSuspect e f)
  let s2 := match mine with
    | [] => s1
    | f :: rest =>
      let (t, a) := s1.repair e service f
      let t1 := (t.result (s.resLo kind e f.dune a) f.hi).event B.BIST 1
      t1.each rest (fun s f => (s.repair e service f).1)
  let x1 : LapSt := if mine.isEmpty then x0 else { x0 with fails := satAdd 16 x0.fails 1 }
  if x.slice + 1 < lapSlices kind then s2.setLap e kind { x1 with slice := x1.slice + 1 }
  else
    let len := if service then min (s.tide.num - x1.lapStart + 1) 0xFFFFFFFF else 0
    (s2.setLap e kind { x1 with slice := 0, laps := satAdd 16 x1.laps 1, lapTides := len }).event B.BIST 0

/-- Whether the patterns of the next FABRIC slice of an erg stand in plane 7 (R524). -/
def Dev.patternsReady (s : Dev) (e : Nat) : Bool :=
  let y := (s.lap e 0).slice
  s.bist.patterns.contains (e, y) &&
    (List.range 16).all (fun x => (Map.get (fun _ => none) s.fab.frames (8 * (256 * e + 16 * y + x) + 7)).isSome)

/-- Whether a slot runs its slice (R524). -/
def Dev.sliceRuns (s : Dev) (e kind : Nat) : Bool :=
  s.mode == .underway && s.ergRuns e && !s.gated B.BIST && !s.halted B.BIST &&
    (kind != 0 || ((s.slot e 7).st == .lent && s.patternsReady e))

/-- The slot of an erg whose last tick has just passed. -/
def Dev.slotEnded (s : Dev) (e : Nat) : Option DockSlot :=
  s.bist.slots.find? (fun (d : DockSlot) => d.erg == e && usedIn d.period d.phase s.tide.num && s.tide.tick == d.tick + d.dwell)

/-- DRYDOCK_SLOT: the ticks of a slot have come and gone, in which the erg drove what R523 says; the engine has tested its slice or skipped
it (R524). Each slot is served once a tide. -/
def Dev.drydockSlot (s : Dev) (e : Nat) (finds : List TestFind) : Dev :=
  match s.slotEnded e with
  | none => s
  | some d =>
    let stamp := s.tide.num * 65536 + d.tick + 1
    if s.mode ≠ .underway || Map.get (fun _ => 0) s.bist.served e = stamp then s
    else
      let s1 := { s with bist := { s.bist with served := Map.set (fun _ => 0) s.bist.served e stamp } }
      if s1.sliceRuns e d.kind then s1.testSlice e d.kind finds true
      else
        let x := s1.lap e d.kind
        s1.setLap e d.kind { x with skips := satAdd 16 x.skips 1 }

/-- FABRIC_PATTERN_WRITE: the engine writes the 16 frames of the next FABRIC slice into plane 7 while it is LENT and no slot selects it
(R144, R523, R524). An armed mask of SCRB takes word 0 of the first (R530). -/
def Dev.patternWrite (s : Dev) (e : Nat) : Dev :=
  let y := (s.lap e 0).slice
  if (s.slot e 7).st ≠ .lent || s.gated B.BIST || s.halted B.BIST || (s.inDock e).isSome then s
  else
    let s1 := s.forN 16 (fun s x =>
      let g := 256 * e + 16 * y + x
      let (mask, s1) := s.takeFlip B.SCRB
      let flips : Map (BitVec 72) := if mask = 0 then [] else [(0, mask.setWidth 72)]
      { s1 with fab := { s1.fab with
          frames := Map.set (fun _ => none) s1.fab.frames (8 * g + 7) (some ⟨Config.testFrame g % 2 ^ 98304, flips⟩) } })
    { s1 with bist := { s1.bist with patterns := s1.bist.patterns.filter (fun p => p.1 != e) ++ [(e, y)] } }

/-- BIST_DD_CMD (R528). -/
def Dev.ddCmd (s : Dev) (w : Word) : Dev :=
  let first := nfield w.toNat 2 5
  let last := nfield w.toNat 7 5
  match w.toNat % 4 with
  | 1 => s.guarded B.BIST [(decide (last < first), .range), (s.mode != .dryDock, .state),
      (s.bist.ddRun.isSome || s.bist.march.isSome, .busy)]
      (fun s => { s with bist := { s.bist with ddRun := some (first, last), ddAborting := false } })
  | 2 => if s.bist.ddRun.isSome then { s with bist := { s.bist with ddAborting := true } } else s
  | _ => s

/-- The slices of one lap of every kind over one erg. -/
def ergLap (e : Nat) : List (Nat × Nat) := (List.replicate 16 (e, 0)) ++ (List.replicate 16 (e, 1)) ++ (List.replicate 513 (e, 2))

/-- DD_RUN_DONE (R528): the run under way completes, or ends after `slices` slices where ABORT stopped it. `finds`: what it found, by
erg. -/
def Dev.ddRunDone (s : Dev) (finds : List (Fin 32 × TestFind)) (slices : Nat) : Dev :=
  match s.bist.ddRun with
  | none => s
  | some (first, last) =>
    let all := ((List.range 32).filter (fun e => decide (first ≤ e) && decide (e ≤ last))).flatMap ergLap
    let run := if s.bist.ddAborting then all.take slices else all
    let s1 := s.each run (fun s (x : Nat × Nat) =>
      s.testSlice x.1 x.2 ((finds.filter (fun (f : Fin 32 × TestFind) => f.1.val == x.1)).map (·.2)) false)
    { s1 with bist := { s1.bist with ddRun := none, ddAborting := false } }.finish B.BIST .ok

/-- BIST_RES_LO_READ (R540): the oldest record leaves the queue. -/
def Dev.resLoRead (s : Dev) : Dev :=
  match s.bist.results with
  | [] => s.done B.BIST .range
  | r :: rest => { s with bist := { s.bist with results := rest } }.setReg B.BIST O.BIST_RES_HI r.hi

/-! ### Scan (R529) -/

/-- Whether a request may reach the scan registers. -/
def Dev.scanAllowed (s : Dev) (src : Src) : Bool :=
  s.flag B.SEC F.SEC_LC_SCAN_OK && (match src.iface with
    | some i => (s.iface i).sess == 3
    | none => false)

/-- BIST_SCAN_DATA written: 32 bits go in and 32 come out, which the spec does not give; nothing moves unless EN connects the chain. -/
def Dev.scanShift (s : Dev) : Dev :=
  if !s.flag B.BIST F.BIST_SCAN_CTRL_EN then s
  else
    let (v, s1) := s.freeWord
    { s1 with bist := { s1.bist with scanOut := v.setWidth 32 } }

/-! ### Plane-store scrubbers (R531 to R533) -/

/-- Whether the scrubbers are clocked. -/
def Dev.psRuns (s : Dev) : Bool := s.mode != .beacon && s.mode != .reset && !s.clk.applying.contains 0

/-- The time that the scrubbers' timers count, in cycles of 2 ns. -/
def Dev.psClock (s : Dev) : Nat := s.clk.time - s.bist.psPause

def Dev.ps (s : Dev) (e : Nat) : PsScrub := Map.get (fun _ => {}) s.bist.ps e
def Dev.setPs (s : Dev) (e : Nat) (x : PsScrub) : Dev := { s with bist := { s.bist with ps := Map.set (fun _ => {}) s.bist.ps e x } }

/-- When the latest heartbeat of an erg's scrubber came, or the scrubber started. -/
def Dev.psBeat (s : Dev) (e : Nat) : Nat := (s.ps e).beat.getD s.bist.psFrom

/-- The next place at or after `k` in an erg's walk that a dune-plane which is not null holds. -/
def Dev.psNext (s : Dev) (e k : Nat) : Option Nat :=
  match (List.range 2048).find? (fun j => decide (k / 1536 ≤ j) && (Map.get (fun _ => none) s.fab.frames (2048 * e + j)).isSome) with
  | some j => some (if j = k / 1536 then k else 1536 * j)
  | none => none

/-- A lap ends: its duration, the count, the heartbeat (R531, R533). -/
def Dev.psLap (s : Dev) (e : Nat) : Dev :=
  let x := s.ps e
  s.setPs e { x with place := 0, laps := satAdd 16 x.laps 1, lapUs := min ((s.psClock - s.psBeat e) / 500) 0xFFFF, beat := some s.psClock }

/-- A plane-store word that cannot be corrected, by the state of its slot (R532). -/
def Dev.psUncorr (s : Dev) (e d p w : Nat) (syn : Byte) : Dev :=
  let a := psAddr (256 * e + d) p w
  let log (s : Dev) (st : Status) : Dev := s.classU B.SCRB 3 st a 0 syn.toNat
  match (s.slot e p).st with
  | .free => s
  | .live => s.quarantine 5 a B.SCRB 0 syn.toNat
  | .loading => (log s .integrity).refuseImage .integrity s.loadStage
  | .staged => (log s .integrity).refuseImage .integrity (if s.pipe = 2 then 7 else 8)
  | .committed => ((log s .integrity).unpend s.cfg.coming).refuseImage .integrity 8
  | _ =>
    let t := log s .uncorr
    { t with fab := { t.fab with frames := Map.set (fun _ => none) t.fab.frames (8 * (256 * e + d) + p) none } }

/-- The scrubber reads one word (R532). -/
def Dev.psRead (s : Dev) (e place : Nat) : Dev :=
  let w := place % 1536
  let p := place / 1536 % 8
  let d := place / 12288
  let k := 8 * (256 * e + d) + p
  match Map.get (fun _ => none) s.fab.frames k with
  | none => s
  | some f =>
    let x := Map.get (fun _ => 0) f.flips w
    if (s.slot e p).st = .free then s
    else match secDecode (secSyndrome x) with
      | .clean => s
      | .bit _ =>
        let f1 : FrameSt := { f with flips := Map.set (fun _ => 0) f.flips w (flipLeft x) }
        ({ s with fab := { s.fab with frames := Map.set (fun _ => none) s.fab.frames k (some f1) } }.count B.SCRB
          F.SCRB_PS_CNT_CORR).classC B.SCRB
      | .uncorr => s.psUncorr e d p w (secSyndrome x)

/-- PLANE_SCRUB_READ: an erg's scrubber votes its copies, of which `bad` disagree, and reads one word, a queued one first; where none is
left in the lap, the lap ends (R530 to R533). -/
def Dev.planeScrub (s : Dev) (e bad : Nat) : Dev :=
  if !s.psRuns || (s.ps e).stopped then s
  else if 2 ≤ bad then s.setPs e { s.ps e with stopped := true }
  else
    let s1 := if bad = 1 then (s.count B.SCRB F.SCRB_PS_CNT_VOTE_FIX).classC B.SCRB else s
    match (s1.ps e).queue with
    | q :: rest => (s1.setPs e { s1.ps e with queue := rest }).psRead e q
    | [] =>
      match s1.psNext e (s1.ps e).place with
      | none => s1.psLap e
      | some k =>
        let s2 := (s1.setPs e { s1.ps e with place := k + 1 }).psRead e k
        if (s2.psNext e (k + 1)).isNone then s2.psLap e else s2

/-- SCRUB_STALL: 16 ms without a heartbeat of an erg's scrubber, class F (R533). -/
def Dev.scrubStall (s : Dev) (e : Nat) : Dev :=
  if !s.psRuns || s.psClock < s.psBeat e + 8000000 then s else s.quarantine 6 e B.SCRB 0

/-! ### Buckets and the fault log's port -/

/-- BUCKET_LEAK: the leak period of a block's bucket expires (R12, R534); LEAK 0xF never does. -/
def Dev.bucketLeak (s : Dev) (blk : Nat) : Dev :=
  if !s.clk.mainPower || s.fld blk F.EVT_BUCKET_LEAK = 15 then s
  else s.setFld blk F.EVT_BUCKET_LEVEL (s.fld blk F.EVT_BUCKET_LEVEL - 1)

/-- What LH_FLOG_PORT shows: the next word of the oldest unread entry, or zero (R537). -/
def Dev.flogWord (s : Dev) : Word :=
  if s.log.unread = 0 then 0 else (Map.get (fun _ => 0) s.log.ring s.log.rd).extractLsb' (32 * s.log.word) 32

/-- LH_FLOG_PORT_READ (R537): the port moves on; the entry counts as read after its eighth word. -/
def Dev.flogRead (s : Dev) : Dev :=
  if s.log.unread = 0 then s.done B.LH .range
  else if s.log.word < 7 then { s with log := { s.log with word := s.log.word + 1 } }
  else
    { s with log := { s.log with word := 0, rd := (s.log.rd + 1) % 512, unread := s.log.unread - 1 } }.setFld B.LH
      F.LH_FLOG_STAT_UNREAD (s.log.unread - 1)

/-- What the registers of the test engine and of the plane-store scrubbers show (R540). -/
def Dev.bistView (s : Dev) (off : Nat) (peek : Bool) : Option Word :=
  let x := s.lap (s.fld B.BIST F.BIST_DD_SEL_ERG) (s.fld B.BIST F.BIST_DD_SEL_KIND)
  if off = O.BIST_DD_LAP then some (BitVec.ofNat 32 (x.slice + 65536 * x.laps))
  else if off = O.BIST_DD_LAPTIME then some (BitVec.ofNat 32 x.lapTides)
  else if off = O.BIST_DD_CNT then some (BitVec.ofNat 32 (x.skips + 65536 * x.fails))
  else if off = O.BIST_RES_STAT then
    some (BitVec.ofNat 32 (s.bist.results.length + 65536 * s.fld B.BIST F.BIST_RES_STAT_LOST_CNT))
  else if off = O.BIST_RES_LO then some (match s.bist.results with | r :: _ => r.lo | [] => 0)
  else if off = O.BIST_RES_HI && peek then some (match s.bist.results with | r :: _ => r.hi | [] => 0)
  else if off = O.BIST_SCAN_DATA then some s.bist.scanOut
  else none

def Dev.scrbView (s : Dev) (off : Nat) : Option Word :=
  let x := s.ps (s.fld B.SCRB F.SCRB_PS_SEL_ERG)
  if off = O.SCRB_PS_LAP then some (BitVec.ofNat 32 (x.lapUs + 65536 * x.laps)) else none

/-- Whether a word-port request at a bank waits because a row it goes to next is under test in a HOLD slot (R523). -/
def Dev.rowUnderTest (s : Dev) (b : Nat) : Bool :=
  match s.inDock (b / 256), (s.arb (8 + b)).grant with
  | some d, some q =>
    d.kind == 2 && s.sliceRuns (b / 256) 2 &&
      (List.range 4).any (fun n => decide (q.served + n < reqWords q.msg.h.addr q.msg.h.len) &&
        (reqWord q.msg.h.addr (q.served + n)).1 == (s.lap (b / 256) 2).slice)
  | _, _ => false

end Sys2Proof.Machine
end

