-- ==== Sys2Proof/Machine/RegBus.lean ====
section
/-! DEFINITION. Machine/RegBus.lean: an access to a register: who is served (R248, R435, R440, R456, R460, R463, R465, R529), what a write
stores and does, what a read shows and does (R3 to R13, R505). -/

namespace Sys2Proof.Machine

/-! ### What a write does, block by block: the fields are stored by access code, then the register acts -/

/-- Stores a word in a register that a select indexes: `old` is what the register shows, `put` keeps what it shows from now on. -/
def Dev.storeVia (s : Dev) (blk off : Nat) (old w : Word) (put : Dev → Word → Dev) : Dev :=
  let was := s.reg blk off
  let s1 := (s.setReg blk off old).storeReg blk off w
  put (s1.setReg blk off was) (s1.reg blk off)

/-- A write that the register ignores in its present state, and counts (R6, R15). -/
def Dev.storeUnless (s : Dev) (bad : Bool) (blk off : Nat) (w : Word) : Dev := if bad then s.refuse blk else s.storeReg blk off w

def Dev.writeLH (s : Dev) (off : Nat) (w : Word) : Dev :=
  if off = O.LH_RST_CMD then s.hostReset w
  else if off = O.LH_OSC_CFG then
    let s1 := s.storeReg B.LH off w
    if nbit w.toNat 8 then s1.oscCommit else s1
  else s.storeReg B.LH off w

def Dev.writeCLK (s : Dev) (off : Nat) (w : Word) : Dev :=
  if off = O.CLK_CMD then (if nbit w.toNat 0 then s.clkApply else s)
  else if O.CLK_EN0 ≤ off && off ≤ O.CLK_EN2 then (s.storeReg B.CLK off w).clkEn ((off - O.CLK_EN0) / 4)
  else if off = O.CLKMON_CFG then s.clkmonCfg w (fun s => s.storeReg B.CLK off w)
  else s.storeReg B.CLK off w

def Dev.writePWR (s : Dev) (off : Nat) (w : Word) : Dev :=
  if off = O.PWR_SLEEP_CMD then s.sleepCmd w else s.storeReg B.PWR off w

def Dev.writeTHM (s : Dev) (off : Nat) (w : Word) : Dev :=
  if off = O.THM_CMD then (if nbit w.toNat 0 then s.thmResume else s)
  else if off = O.THM_SEL then (s.storeReg B.THM off w).thmSel
  else s.storeReg B.THM off w

def Dev.writeCFG (s : Dev) (off : Nat) (w : Word) : Dev :=
  if off = O.CFG_CMD then s.cfgCmd w else s.storeReg B.CFG off w

/-- `i`: the interface of the request (R435). -/
def Dev.writeSEC (s : Dev) (i off : Nat) (w : Word) : Dev :=
  if off = O.SEC_CMD then s.secCmd i w
  else if off = O.SEC_MBOX_CTRL then s.mboxCtrl i w
  else if off = O.SEC_MBOX_DATA then s.mboxWrite i w
  else s.storeReg B.SEC off w

/-- TIDE_CTRL (R57, R58, R89): MASTER and FOLLOW are stored, the breach records cleared, then CMD acts. -/
def Dev.tideCtrl (s : Dev) (w : Word) : Dev :=
  let s1 := s.storeReg B.TIDE O.TIDE_CTRL w
  let s2 := if nbit w.toNat 2 then s1.breachClr else s1
  match w.toNat % 4 with
  | 1 => s2.tideStartCmd
  | 2 => s2.tideStopCmd
  | _ => s2

def Dev.writeTIDE (s : Dev) (off : Nat) (w : Word) : Dev :=
  if off = O.TIDE_CTRL then s.tideCtrl w
  else if off = O.PSW_CTRL || off = O.PSW_LIMIT then (s.storeReg B.TIDE off w).pswShow
  else s.storeReg B.TIDE off w

/-- DBG_CTRL (R513). -/
def Dev.dbgCtrl (s : Dev) (w : Word) : Dev :=
  let lk := nbit w.toNat 2
  match w.toNat % 4 with
  | 1 => s.dbgHalt lk
  | 2 => s.dbgResume lk
  | 3 => s.dbgStep lk
  | _ => s

def Dev.writeDBG (s : Dev) (off : Nat) (w : Word) : Dev := if off = O.DBG_CTRL then s.dbgCtrl w else s.storeReg B.DBG off w

def Dev.writeADM (s : Dev) (off : Nat) (w : Word) : Dev := if off = O.ADM_BOUND_SEL then s.boundSel w else s.storeReg B.ADM off w

/-- Whether a range whose counters the metadata region holds is not DISABLED (R295). -/
def Dev.ctrRangeUp (s : Dev) : Bool :=
  (List.range 16).any (fun r => (s.range r).st != .disabled && (match (s.range r).img with | some g => g.mode == 2 | none => false))

def Dev.writeMCE (s : Dev) (off : Nat) (w : Word) : Dev :=
  let r := s.fld B.MCE F.MCE_RANGE_SEL_RANGE
  if off = O.MCE_RANGE_CFG then s.storeVia B.MCE off (s.range r).cfg w (fun s v => s.setRange r { s.range r with cfg := v })
  else if off = O.MCE_RANGE_META then s.storeVia B.MCE off (s.range r).first w (fun s v => s.setRange r { s.range r with first := v })
  else if off = O.MCE_META_CFG then s.storeUnless s.ctrRangeUp B.MCE off w
  else if off = O.MCE_KEY_CMD then s.keyCmd w
  else if O.MCE_WRAP 0 ≤ off && off ≤ O.MCE_WRAP 17 then s.setReg B.MCE off w
  else if off = O.MCE_RANGE_CMD then s.rangeCmd w
  else s.storeReg B.MCE off w

def Dev.writePCIE (s : Dev) (off : Nat) (w : Word) : Dev :=
  if 0x1000 ≤ off && off < 0x2000 then s.msixWrite ((off - 0x1000) / 4) w else s.storeReg B.PCIE off w

/-- ST_CTRL (R384, R385). -/
def Dev.stCtrl (s : Dev) (w : Word) : Dev :=
  let s1 := s.storeReg B.ETH O.ST_CTRL w
  if nbit w.toNat 8 then s1.stStep else s1

def Dev.writeETH (s : Dev) (off : Nat) (w : Word) : Dev :=
  if off = O.ST_CTRL then s.stCtrl w
  else if off = O.ST_RATE then s.storeUnless (decide (2 ≤ s.stSrc)) B.ETH off w
  else s.storeReg B.ETH off w

def Dev.writeLGT (s : Dev) (off : Nat) (w : Word) : Dev :=
  let n := (off - 0x100) / 0x20
  if off < 0x100 || 0x300 ≤ off then s.storeReg B.LGT off w
  else if off = O.LGT_CFG n then s.lgtCfg n (fun s => s.storeReg B.LGT off w)
  else if off = O.LGT_PROD n then (s.storeReg B.LGT off w).lgtKick n
  else if off = O.LGT_CMD n then
    match w.toNat % 4 with
    | 1 => s.lgtStop n
    | 2 => s.lgtClear n
    | _ => s
  else s.storeReg B.LGT off w

/-- DMC_CFG and the timing registers (R272, R276): ignored while ONLINE, and in MAINT but for TIMING1.REF_2X. -/
def Dev.dmcTiming (s : Dev) (k off : Nat) (w : Word) : Dev :=
  let blk := B.DMC k
  let st := s.fld blk F.DMC_STATE_STATE
  let s1 := if st = 3 && off = O.DMC_TIMING1 then
      s.storeReg blk off (BitVec.ofNat 32 (putField (s.reg blk off).toNat F.DMC_TIMING1_REF_2X.lo F.DMC_TIMING1_REF_2X.w
        (nfield w.toNat F.DMC_TIMING1_REF_2X.lo F.DMC_TIMING1_REF_2X.w)))
    else s.storeUnless (decide (2 ≤ st)) blk off w
  s1.showBounds

def Dev.writeDMC (s : Dev) (k off : Nat) (w : Word) : Dev :=
  let blk := B.DMC k
  if off = O.DMC_CMD then s.dmcCmd k w
  else if off = O.DMC_TRAIN_CMD then s.trainCmd k w
  else if off = O.DMC_MRW then s.mrw k w
  else if off = O.DMC_LANE_SEL then s.laneSel k w
  else if off = O.DMC_LANE_CFG then s.laneCfg k w
  else if off = O.DMC_CFG || off = O.DMC_TIMING0 || off = O.DMC_TIMING1 then s.dmcTiming k off w
  else if off = O.MCACHE_CFG then (s.storeUnless (decide (2 ≤ s.fld blk F.DMC_STATE_STATE)) blk off w).cacheResized k (s.eccWays k)
  else if k = 0 && off = O.DMC_MAP_LO then s.mapStage false w
  else if k = 0 && off = O.DMC_MAP_HI then s.mapStage true w
  else if k = 0 && off = O.DMC_MAP_CMD then s.mapApply w
  else if off = O.ARB_FLAG then (s.storeReg blk off w).arbUncut blk
  else s.storeReg blk off w

/-- CW_CTRL (R322, R328, R338): EN, then RETRAIN and KEY_SWITCH. -/
def Dev.cwCtrl (s : Dev) (n : Nat) (w : Word) : Dev :=
  let s1 := s.linkEnable n (nbit w.toNat 0)
  let s2 := if nbit w.toNat 1 then s1.retrain n else s1
  if nbit w.toNat 2 then s2.keySwitch n else s2

def Dev.writeCW (s : Dev) (n off : Nat) (w : Word) : Dev :=
  if off = O.CW_CTRL then s.cwCtrl n w
  else if off = O.CW_KEY_CFG then s.storeUnless (decide (2 ≤ s.linkState n)) (B.CW n) off w
  else s.storeReg (B.CW n) off w

def Dev.writeERG (s : Dev) (e off : Nat) (w : Word) : Dev :=
  if off = O.ERG_NOTE_POST then s.notePost e w
  else if off = O.ERG_PLANE_CMD then s.planeCmd e w
  else s.storeReg (B.ERG e) off w

def Dev.writeHOLD (s : Dev) (k off : Nat) (w : Word) : Dev :=
  let blk := B.HOLD k
  let s1 := s.storeReg blk off w
  if off = O.HOLD_REMAP_CMD then s1.remapCmd k w
  else if off = O.ARB_FLAG then s1.arbUncut blk
  else if k = 0 && off = O.HOLD_BOND_CMD then s1.bondCmd w
  else if k = 0 && (off = O.HOLD_XFER_WINDOW || off = O.HOLD_XFER_LIMIT) then s1.xferShow
  else s1

def Dev.writeBIST (s : Dev) (off : Nat) (w : Word) : Dev :=
  if off = O.STK_BUNDLE_SEL then s.bundleSel w
  else if off = O.STK_SHOAL_CMD then
    let s1 := s.storeReg B.BIST off w
    match w.toNat % 4 with
    | 1 => s1.shoalRead (nfield w.toNat 16 13)
    | 2 => s1.shoalHostAdd
    | _ => s1
  else if off = O.MARCH_CMD then s.marchCmd w
  else if off = O.BIST_DD_CMD then s.ddCmd w
  else if off = O.BIST_SCAN_DATA then s.scanShift
  else s.storeReg B.BIST off w

def Dev.writeWDG (s : Dev) (off : Nat) (w : Word) : Dev :=
  if off = O.WDG_FEED then s.wdgFeed w
  else if off = O.WDG_LOAD then
    let s1 := s.storeReg B.WDG off w
    if s.locked B.WDG || s.fieldBad B.WDG off w.toNat 0 then s1 else s1.wdgReload
  else s.storeReg B.WDG off w

/-- A write in a block's own registers. -/
def Dev.writeKind (s : Dev) (src : Src) (blk off : Nat) (w : Word) : Dev :=
  match blkKind blk with
  | none => s
  | some .lh => s.writeLH off w
  | some .clk => s.writeCLK off w
  | some .pwr => s.writePWR off w
  | some .thm => s.writeTHM off w
  | some .cfg => s.writeCFG off w
  | some .sec => s.writeSEC (src.iface.getD 0) off w
  | some .tide => s.writeTIDE off w
  | some .dbg => s.writeDBG off w
  | some .hn => s.storeReg blk off w
  | some .adm => s.writeADM off w
  | some .mce => s.writeMCE off w
  | some .pcie => s.writePCIE off w
  | some .eth => s.writeETH off w
  | some .csp => s.storeReg blk off w
  | some .lgt => s.writeLGT off w
  | some .dmc => s.writeDMC (blk - 0x10) off w
  | some .cw => s.writeCW (blk - 0x18) off w
  | some .jp => s.storeReg blk off w
  | some .erg => s.writeERG (blk - 0x30) off w
  | some .hold => s.writeHOLD (blk - 0x50) off w
  | some .bist => s.writeBIST off w
  | some .scrb => if off = O.SCRB_CMD then s.scrbCmd w else s.storeReg blk off w
  | some .wdg => s.writeWDG off w

/-! ### The header -/

/-- Requests held because a halt stopped their endpoint go on where it no longer does (R248, R250). Endpoints: a berth by its number, a
bank at 512 plus its number; what is parked for the image stream aperture stands delivered again. -/
def Dev.unpark (s : Dev) : Dev :=
  s.net.park.foldl (fun s (x : Nat × List Msg) =>
    let blk := if x.1 < 512 then B.ERG (x.1 / 16) else if x.1 < 8704 then B.HOLD ((x.1 - 512) / 1024) else B.CFG
    if s.halted blk then s
    else
      let s1 := { s with net := { s.net with park := Map.set (fun _ => []) s.net.park x.1 [] } }
      s1.each x.2 (fun s m => if x.1 < 512 then s.berthTakes x.1 m else if x.1 < 8704 then s.enterBank m
        else { s with net := { s.net with delivered := s.net.delivered ++ [m] } })) s

/-- A halt no longer stops some block, or a gate has opened: what waited goes on. -/
def Dev.goOn (s : Dev) : Dev := (s.unpark.hostPump 256).lgtPumps

/-- BLK_CTRL (R4, R8): fields, then REFUSE_CLR. -/
def Dev.blkCtrl (s : Dev) (blk : Nat) (w : Word) : Dev :=
  let s1 := s.storeReg blk O.BLK_CTRL w
  if nbit w.toNat 1 then s1.setFld blk F.BLK_STATUS_REFUSE_CNT 0 else s1

/-- BLK_FREEZE (R8, R514). -/
def Dev.blkFreeze (s : Dev) (blk : Nat) (w : Word) : Dev :=
  let s1 := s.storeReg blk O.BLK_FREEZE w
  if s.halted blk && !s1.halted blk then s1.goOn else s1

/-- EVT_FORCE (R10): bits of EVT_STATUS, and no more. -/
def Dev.evtForce (s : Dev) (blk : Nat) (w : Word) : Dev := s.setReg blk O.EVT_STATUS (s.reg blk O.EVT_STATUS ||| w)

/-- ECC_FLIP_LO (R13): stores the low half of the mask and arms a mask that is not zero. -/
def Dev.eccFlipLo (s : Dev) (blk : Nat) (w : Word) : Dev :=
  let s1 := s.storeReg blk O.ECC_FLIP_LO w
  let rest := s1.flipArmed.filter (· != blk)
  { s1 with flipArmed := if w = 0 && s1.reg blk O.ECC_FLIP_HI = 0 then rest else rest ++ [blk] }

/-- Whether a block has stored-data codes (R14). -/
def flips (blk : Nat) : Bool := match blkKind blk with | some k => k.flips | none => false

/-- A write to an offset of a block; one to a reserved offset is ignored (R5). -/
def Dev.writeReg (s : Dev) (src : Src) (blk off : Nat) (w : Word) : Dev :=
  if (blkKind blk).isNone then s
  else if off = O.BLK_CTRL then s.blkCtrl blk w
  else if off = O.BLK_FREEZE then s.blkFreeze blk w
  else if off = O.EVT_FORCE then s.evtForce blk w
  else if off = O.ECC_FLIP_LO && flips blk then s.eccFlipLo blk w
  else if (regFind blk off).isSome || blk = B.PCIE then s.writeKind src blk off w
  else s

/-! ### Who may do what -/

/-- Whether a write needs what the request has not (R435, R440, R460, R529): it is refused with DENIED. -/
def Dev.writeDenied (s : Dev) (src : Src) (blk off : Nat) (w : Word) : Bool :=
  let n := w.toNat
  if blk = B.LH then off == O.LH_RST_CMD && src.iface.isNone
  else if blk = B.SEC then src.iface.isNone
  else if blk = B.DBG then !s.mayDo src.iface .debug
  else if blk = B.MCE then
    (off == O.MCE_KEY_CMD || (decide (O.MCE_WRAP 0 ≤ off) && decide (off ≤ O.MCE_WRAP 17))) && !s.mayDo src.iface .keys
  else if blk = B.HOLD 0 then
    off == O.HOLD_BOND_CMD && ((n % 4 == 1 && !s.mayDo src.iface .bondSet) || (n % 4 == 2 && !s.mayDo src.iface .bondWipe))
  else if blk = B.CFG then
    off == O.CFG_CMD && n % 8 == 4 &&
      ((nfield n 3 2 == 1 && !s.mayDo src.iface .programA) || (nfield n 3 2 == 2 && !s.mayDo src.iface .programB))
  else if blk = B.BIST then (off == O.BIST_SCAN_CTRL || off == O.BIST_SCAN_DATA) && !s.scanAllowed src
  else false

/-- Whether a read is refused with DENIED (R435, R529). -/
def Dev.readDenied (s : Dev) (src : Src) (blk off : Nat) : Bool :=
  if blk = B.SEC then src.iface.isNone && decide (0x20 ≤ off) && off != O.SEC_LC
  else if blk = B.BIST then (off == O.BIST_SCAN_CTRL || off == O.BIST_SCAN_DATA) && !s.scanAllowed src
  else false

/-- What becomes of an access in the present mode and under the present gates. -/
inductive Gate where
  | silent
  | refused
  | zero
  | open_
  deriving DecidableEq, Repr

/-- Whether a register may be read in Boot and in Cold hold (R463). -/
def bootReads (blk off : Nat) : Bool :=
  blk == B.LH || blk == B.CLK || blk == B.PWR || blk == B.THM || blk == B.DBG || (blk == B.SEC && off == O.SEC_LC)

/-- Whether a block is one of an erg's or of its hold. -/
def ergBlock (blk : Nat) : Bool := decide (0x30 ≤ blk) && decide (blk < 0x58)

/-- What a mode makes of a register access (R463, R465). -/
def Dev.modeGate (s : Dev) (src : Src) (blk off : Nat) (write : Bool) : Gate :=
  let only (b : Bool) : Gate := if b then .open_ else .refused
  if src = .cfgctl then .open_
  else match s.mode with
    | .beacon => .silent
    | .reset => .silent
    | .boot => only (!write && bootReads blk off)
    | .coldHold => only (!write && bootReads blk off)
    | .moored => .open_
    | .underway => .open_
    | .anchored => .open_
    | .slack => only (src != .csp && !ergBlock blk)
    | .standDown => .open_
    | .quarantine => .refused
    | .dryDock => only src.iface.isSome
    | .aground => only (src == .wire)

/-- The gate of an access: the mode, then the block's clock (R456). -/
def Dev.gateOf (s : Dev) (src : Src) (blk off : Nat) (write : Bool) : Gate :=
  match s.modeGate src blk off write with
  | .open_ => if s.gated blk then .zero else .open_
  | g => g

/-- A write of a whole aligned register of the window at offset `a` from its base: its answer, none where nothing answers, and what it
leaves. DENIED goes before the STATE of the mode (R557). -/
def Dev.busWrite (s : Dev) (src : Src) (a : Nat) (w : Word) : Option Status × Dev :=
  let blk := a / blockBytes
  let off := a % blockBytes
  match s.gateOf src blk off true with
  | .silent => (none, s)
  | .refused => (some (if s.writeDenied src blk off w then .denied else .state), s)
  | .zero => (some .ok, s)
  | .open_ =>
    if s.writeDenied src blk off w then (some .denied, s)
    else (some .ok, s.writeReg src blk off w)

/-! ### Reads -/

/-- What a register shows where another part of the state holds it. -/
def Dev.viewOf (s : Dev) (src : Src) (blk off : Nat) (peek : Bool) : Option Word :=
  match blkKind blk with
  | some .lh =>
    if off = O.LH_FLOG_PORT then some s.flogWord
    else if off = O.LH_PART then some (BitVec.ofNat 32 (s.part.code.grade + 16 * s.part.code.rangeX.toNat))
    else none
  | some .pwr | some .thm => s.powerView blk off
  | some .cfg => s.cfgView off
  | some .sec => s.secView (src.iface.getD 0) off
  | some .tide | some .adm => s.tideView blk off
  | some .dbg => s.runView off
  | some .mce => s.mceView off
  | some .eth => s.stationView off
  | some .csp => if off = O.CSP_STAT then some s.cspStat else none
  | some .dmc => s.dmcView (blk - 0x10) off
  | some .jp => s.jettyView blk off
  | some .erg => (s.berthView (blk - 0x30) off).or (s.planeView (blk - 0x30) off)
  | some .bist => (s.stackView off).or (s.bistView off peek)
  | some .scrb => s.scrbView off
  | some .hold => s.holdView (blk - 0x50) off
  | _ => none

/-- What a peek read of a high word shows: the live high word (R505). -/
def Dev.liveHigh (s : Dev) (blk off : Nat) : Option Word :=
  let w (n : Nat) : Option Word := some (BitVec.ofNat 32 n)
  if blk = B.TIDE && off = O.TIDE_NUM_HI then w (s.tide.num / 2 ^ 32)
  else if blk = B.TIDE && off = O.TURN_TIME_HI then w (s.tide.turnTime / 2 ^ 64)
  else if blk = B.ETH && off = O.ST_NOW_HI then w (s.ns / 2 ^ 32)
  else if blk = B.ETH && off = O.ST_NOW_FRAC then w s.eth.time
  else if blk = B.ETH && off = O.ST_PPS_CAP_HI then w (s.eth.ppsCap / 2 ^ 32)
  else if blk = B.DBG && off = O.DBG_HALT_TIDE_HI then w (s.run.haltTide / 2 ^ 32)
  else if blk = B.DBG && off = O.DBG_RESUME_AT_HI then w (s.run.resumeShown / 2 ^ 32)
  else none

/-- The bits of a register that reads show: those of its WO fields read as zero (R4). -/
def readMask (blk off : Nat) : Nat :=
  match regFind blk off with
  | none => 0
  | some d => d.fields.foldl (fun a f => if f.acc = .wo then a else a + (2 ^ f.w - 1) * 2 ^ f.lo) 0

/-- BLK_STATUS.BUSY: a command of the block is in progress (R8). -/
def Dev.blkBusy (s : Dev) (blk : Nat) : Bool :=
  match blkKind blk with
  | some .clk => !s.clk.applying.isEmpty
  | some .mce => s.mce.walker.isSome || (List.range 16).any (fun r => (s.range r).st == .init || (s.range r).st == .zeroising)
  | some .cfg => s.pipe == 5
  | some .dmc => (s.dmc (blk - 0x10)).op.isSome
  | some .hold => (Map.get (fun _ => none) s.hold.adds (blk - 0x50)).isSome || (blk == B.HOLD 0 && s.hold.wipe.isSome)
  | some .bist => s.bist.march.isSome || s.bist.ddRun.isSome
  | some .scrb => s.hold.scrub.isSome
  | _ => false

/-- The word a register shows; zero at a reserved offset (R5). -/
def Dev.showReg (s : Dev) (src : Src) (blk off : Nat) (peek : Bool) : Word :=
  if blk = B.PCIE && 0x1000 ≤ off && off < 0x2000 then Map.get msixReset s.pcie.table ((off - 0x1000) / 4)
  else if blk = B.PCIE && 0x2000 ≤ off && off < 0x2020 then s.pbaWord ((off - 0x2000) / 4)
  else match if peek then s.liveHigh blk off else none with
    | some w => w
    | none => match s.viewOf src blk off peek with
      | some w => w
      | none =>
        let v := s.reg blk off &&& BitVec.ofNat 32 (readMask blk off)
        if off = O.BLK_STATUS && s.blkBusy blk then v ||| 16 else v

/-- HOLD_XFER_MAX and HN_SCH_MAXWAIT clear on read (R209, R252). -/
def Dev.xferMaxRead (s : Dev) : Dev := s.setFld (B.HOLD 0) F.HOLD_XFER_MAX_MAX 0
def Dev.schMaxRead (s : Dev) : Dev := s.setFld B.HN F.HN_SCH_MAXWAIT_MAX 0

/-- What a read of a register does (R505, R506). -/
def Dev.readActs (s : Dev) (src : Src) (blk off : Nat) (peek : Bool) : Dev :=
  if blk = B.SEC then (if off = O.SEC_MBOX_DATA then (s.mboxRead (src.iface.getD 0) peek).2 else s)
  else if peek then s
  else if blk = B.LH then (if off = O.LH_FLOG_PORT then s.flogRead else s)
  else if blk = B.PWR then (if off = O.PWR_RAIL_I then s.railRead else s)
  else if blk = B.TIDE then
    (if off = O.TIDE_NUM_LO then s.tideNumRead else if off = O.TURN_TIME_LO then s.turnTimeRead
     else if off = O.TIDE_SKEW then s.skewRead else if off = O.PSW_MAX then s.pswMaxRead else s)
  else if blk = B.DBG then
    (if off = O.DBG_HALT_TIDE_LO then s.haltTideRead else if off = O.DBG_RESUME_AT_LO then s.resumeAtRead else s)
  else if blk = B.HN then (if off = O.HN_SCH_MAXWAIT then s.schMaxRead else s)
  else if blk = B.ETH then
    (if off = O.ST_NOW_LO then s.stNowRead else if off = O.ST_PPS_CAP_LO then s.ppsCapRead else s)
  else if blk = B.HOLD 0 then (if off = O.HOLD_XFER_MAX then s.xferMaxRead else s)
  else if blk = B.BIST then (if off = O.BIST_RES_LO then s.resLoRead else s)
  else s

/-- The word a read returns, and what it leaves. -/
def Dev.readReg (s : Dev) (src : Src) (blk off : Nat) (peek : Bool) : Word × Dev :=
  let v := if blk = B.SEC && off = O.SEC_MBOX_DATA then (s.mboxRead (src.iface.getD 0) peek).1 else s.showReg src blk off peek
  (v, s.readActs src blk off peek)

/-- A read of a whole aligned register of the window at offset `a` from its base: its answer, none where nothing answers, and what it
leaves. DENIED goes before the STATE of the mode (R557). -/
def Dev.busRead (s : Dev) (src : Src) (peek : Bool) (a : Nat) : Option Reply × Dev :=
  let blk := a / blockBytes
  let off := a % blockBytes
  match s.gateOf src blk off false with
  | .silent => (none, s)
  | .refused => (some ⟨if s.readDenied src blk off then .denied else .state, 0⟩, s)
  | .zero => (some ⟨.ok, 0⟩, s)
  | .open_ =>
    if s.readDenied src blk off then (some ⟨.denied, 0⟩, s)
    else
      let (v, s1) := s.readReg src blk off peek
      (some ⟨.ok, v⟩, s1)

/-- A write command: the access and its answer. -/
def Dev.accessWrite (s : Dev) (src : Src) (a : Nat) (w : Word) : Dev :=
  let (st, s1) := s.busWrite src a w
  { s1 with reply := st.map (fun st => ⟨st, 0⟩) }

/-- A read command: the access and its answer. -/
def Dev.accessRead (s : Dev) (src : Src) (peek : Bool) (a : Nat) : Dev :=
  let (r, s1) := s.busRead src peek a
  { s1 with reply := r }

/-- An access to the register window that is narrower than a register or unaligned: RANGE, and no effect (R3). -/
def Dev.narrowAccess (s : Dev) : Dev :=
  if s.mode = .beacon || s.mode = .reset then { s with reply := none } else { s with reply := some ⟨.range, 0⟩ }

end Sys2Proof.Machine
end

