-- ==== Sys2Proof/Machine/Boot.lean ====
section
/-! DEFINITION. Machine/Boot.lean: the end of Boot: steps 5 and 6 of R420 (R204, R407 to R409, R463). -/

namespace Sys2Proof.Machine

/-- The bonded setting of a BOOT record (R409). -/
def bootBond (w : Nat) : Bond := { ergA := nfield w 8 5, enA := nbit w 13, ergB := nfield w 14 5, enB := nbit w 19 }

/-- The bonded setting of the image takes effect (R409): where it differs from the kept one, the banks of the old and the new ergs are wiped
first, as SET does (R199). -/
def Dev.bondBoot (s : Dev) (new : Bond) : Dev :=
  if new = s.hold.bond then s.setBond new
  else
    let es := s.hold.bond.ergs ++ new.ergs
    if es.isEmpty then s.setBond new
    else (s.wipeNow es).setBond new

/-- The word of the image's BOOT record; zero where it has none: HOLD_BOOT ZERO, no AUTO_START, no bonded region (R409). -/
def Dev.bootWord (s : Dev) : Nat := s.cfg.coming.boot.getD 0

/-- Step 5 of R420: the hold is initialised, the bonded setting applied. `fails`: what the march finds. -/
def Dev.bootHold (s : Dev) (fails : List MarchFail) : Dev :=
  (s.bootMarch (nfield s.bootWord 0 2) fails).bondBoot (bootBond s.bootWord)

/-- A register write of the resident image (R407, R408): the controller's own; a write that a register refuses has that register's outcome. -/
def Dev.bootWrite (s : Dev) (r : RegEntry) : Dev :=
  (s.busWrite .cfgctl r.off (s.maskedWord (r.off / blockBytes) (r.off % blockBytes) r.value r.mask)).2

/-- The entries left to carry out, kept with the image. -/
def Dev.entriesLeft (s : Dev) (rs : List RegEntry) : Dev :=
  { s with cfg := { s.cfg with coming := { s.cfg.coming with regs := rs } } }

/-- Entries in record order (R407, R408), up to a WAIT that is not fulfilled; DELAY only takes time. -/
def Dev.bootEntries (s : Dev) : List RegEntry → Dev × List RegEntry
  | [] => (s, [])
  | r :: rs =>
    match r.op with
    | 0 => (s.bootWrite r).bootEntries rs
    | 1 =>
      match s.busRead .cfgctl false r.off with
      | (some v, s1) => if v.data &&& r.mask = r.value then s1.bootEntries rs else (s1, r :: rs)
      | (none, s1) => (s1, r :: rs)
    | _ => s.bootEntries rs

/-- A WAIT has lasted 10 ms (R407): the rest of its record is skipped; WAIT_TO, bit 5 of CFG. -/
def Dev.waitEnds (s : Dev) : List RegEntry → Dev × List RegEntry
  | [] => (s, [])
  | r :: rs =>
    (((s.setFlag B.CFG F.CFG_BOOT_STAT_WAIT_TO true).event B.CFG 5), rs.dropWhile (fun x => x.record == r.record))

/-- The watch erg is activated at once, as in Moored (R162, R420). An image without one activates nothing. CFG_RESULT is not touched. -/
def Dev.watchActivate (s : Dev) : Dev :=
  if s.cfg.coming.ergMask = 0 then s.cfgIdle .ok
  else (s.commitImage.2).setReg B.CFG O.CFG_RESULT (s.reg B.CFG O.CFG_RESULT)

/-- The end of Boot (R409, R420, R466): the watch erg is activated, the device enters Moored, START follows under AUTO_START; a critical
crossing kept from Boot leads to Stand-down. -/
def Dev.bootEnds (s : Dev) : Dev :=
  let w := s.bootWord
  let i := s.cfg.coming
  let s1 := { s with clk := { s.clk with phase := .done }, cfg := { s.cfg with resident := { i with regs := [] } } }
  let s2 := ((s1.setFld B.CFG F.CFG_BOOT_STAT_SLOT s1.bootSlot).setMode .moored).watchActivate
  if s2.clk.criticalHeld then ({ s2 with clk := { s2.clk with criticalHeld := false } }).standDown false
  else if nbit w 2 then ((s2.setReg B.TIDE O.TIDE_START_LO 0).setReg B.TIDE O.TIDE_START_HI 0).tideStartCmd
  else s2

/-- Step 6 of R420, as far as its waits let it come. -/
def Dev.bootGo (s : Dev) (rs : List RegEntry) : Dev :=
  let (s1, left) := s.bootEntries rs
  let s2 := s1.entriesLeft left
  if s2.mode ≠ .boot then s2
  else if left.isEmpty then s2.bootEnds
  else { s2 with clk := { s2.clk with phase := .waiting } }

/-- BOOT_APPLY (R420): steps 5 and 6. At a WAIT that is not fulfilled Boot stands; commanded again, it goes on where the register now shows
the value, else the 10 ms have passed. -/
def Dev.bootApply (s : Dev) (fails : List MarchFail) : Dev :=
  if s.mode ≠ .boot then s
  else match s.clk.phase with
    | .apply => let s1 := s.bootHold fails; s1.bootGo s1.cfg.coming.regs
    | .waiting =>
      let (s1, left) := s.bootEntries s.cfg.coming.regs
      if left = s.cfg.coming.regs then
        let (s2, more) := s1.waitEnds left
        s2.bootGo more
      else if s1.mode ≠ .boot then s1
      else if left.isEmpty then (s1.entriesLeft []).bootEnds
      else s1.entriesLeft left
    | _ => s

end Sys2Proof.Machine
end

