-- ==== Sys2Proof/Machine/Wire.lean ====
section
/-! DEFINITION. Machine/Wire.lean: the Daminaosh wire: its pulses, requests and replies, the island space, attachment (R496 to R505, R516,
R517). A request row is a whole request, its break first, that passed its CRC. -/

namespace Sys2Proof.Machine

/-- Whether a debugger is attached (R504). -/
def Dev.attached (s : Dev) : Bool := s.flag B.DBG F.DBG_STAT_ATTACHED

/-- A reply is made ready: the status byte, the data, the CRC (R499, R500). -/
def Dev.wireReply (s : Dev) (st : Status) (tag : Nat) (pending : Bool) (data : List Byte) : Dev :=
  let b := BitVec.ofNat 8 (st.code + 16 * tag + 64 * pending.toNat + 128 * (s.mode == .anchored).toNat)
  { s with replyBytes := b :: data ++ [crc8 (b :: data)] }

/-- A request has come that passed its CRC; without the island nothing answers (R498, R504). -/
def Dev.wireHears (s : Dev) (f : Dev → Dev) : Dev :=
  if !s.clk.island then s
  else f { s with wire := { s.wire with lastRequest := s.clk.time, waitBreak := false } }

/-- A tag's latest operation. -/
def Dev.wireOp (s : Dev) (t : Nat) : WireOp := Map.get (fun _ => {}) s.wire.ops t
def Dev.setWireOp (s : Dev) (t : Nat) (x : WireOp) : Dev :=
  { s with wire := { s.wire with ops := Map.set (fun _ => {}) s.wire.ops t x } }

/-- An erg's emulated Slack becomes real (R517): its row registers are lost and its banks enter retention. -/
def Dev.slackReal (s : Dev) (e : Nat) : Dev :=
  match (s.erg e).slack with
  | .entering | .down =>
    { s with fab := { s.fab with
        rows := Map.clear (fun k => k / 512 == e) s.fab.rows,
        epoch := Map.modify (fun _ => 0) s.fab.epoch e (· + 1) } }.bankRetention e
  | _ => s

/-- Attachment ends (R504, R517): the WIRE session closes, pending operations are abandoned, ATTACH_CHG is raised, an emulated Slack
becomes real unless the device is waking from it. -/
def Dev.attachEnds (s : Dev) : Dev :=
  if !s.attached then s
  else
    let s1 := s.setFlag B.DBG F.DBG_STAT_ATTACHED false
    let s2 := s1.forN 4 (fun s t => if (s.wireOp t).pending then s.dropOut .wire t else s)
    let s3 := { s2 with wire := { s2.wire with ops := [] } }
    let s4 := ((s3.closeSession 2).event B.DBG 4).forN 32 Dev.slackReal
    if s4.mode = .slack && !s4.pwr.waking then (s4.selfRefresh.setFlag B.LH F.LH_MODE_EMULATED false).hldRetRise else s4

/-- WIRE_RESET (R459, R496, R498): a pulse of 100 us or longer. -/
def Dev.wireReset (s : Dev) : Dev := if s.mode = .beacon then s else (s.attachEnds).resetRequest 3

/-- WIRE_BREAK (R496). -/
def Dev.wireBreak (s : Dev) : Dev :=
  if !s.clk.island then s else { s with wire := { s.wire with waitBreak := false }, replyBytes := [] }

/-- A wire error is counted and raises WIRE_ERR, bit 3 of DBG; in Beacon the DBG block has no power (R465, R518). -/
def Dev.wireErrCount (s : Dev) (f : Fld) : Dev := if s.mode = .beacon then s else (s.count B.DBG f).event B.DBG 3

/-- WIRE_ERR (R496): a framing error; the request is discarded and the wire waits for a break. -/
def Dev.wireErr (s : Dev) : Dev :=
  if !s.clk.island then s
  else { s with wire := { s.wire with waitBreak := true }, replyBytes := [] }.wireErrCount F.DBG_WIRE_CNT_FRAME_CNT

/-- WIRE_REQUEST_MALFORMED (R502). -/
def Dev.wireMalformed (s : Dev) (b : WireBad) : Dev :=
  match b with
  | .crc =>
    if !s.clk.island then s
    else ({ s with wire := { s.wire with waitBreak := false } }.wireErrCount F.DBG_WIRE_CNT_CRC_CNT).wireReply .format 0 false []
  | .format t => s.wireHears (fun s => s.wireReply .format t.val false [])

/-- ID (R501). -/
def Dev.wireId (s : Dev) (t : Nat) : Dev :=
  s.wireHears (fun s => s.wireReply .ok t false
    (leBytes 1 0xA2 ++ leBytes 2 0x8192 ++ leBytes 1 (s.fld B.SEC F.SEC_LC_STATE) ++ leBytes 1 (s.fld B.LH F.LH_MODE_MODE) ++
      leBytes 1 s.attached.toNat))

/-- ATTACH (R501, R504). -/
def Dev.wireAttach (s : Dev) (t : Nat) : Dev :=
  s.wireHears (fun s =>
    if s.mode = .beacon then s.wireReply .state t false []
    else if s.attached then s.wireReply .ok t false []
    else (({ s with wire := { s.wire with ops := [] } }.setFlag B.DBG F.DBG_STAT_ATTACHED true).event B.DBG 4).wireReply .ok t false [])

/-- DETACH (R501, R504). -/
def Dev.wireDetach (s : Dev) (t : Nat) : Dev := s.wireHears (fun s => s.attachEnds.wireReply .ok t false [])

/-- ATTACH_TIMEOUT (R504): a second, 500,000,000 cycles of the time clock, without a request that passes its CRC. -/
def Dev.attachTimeout (s : Dev) : Dev := if s.wire.lastRequest + 500000000 ≤ s.clk.time then s.attachEnds else s

/-- Whether a place of the island space is implemented (R503). -/
def islandHas (off : Nat) : Bool :=
  let o := off % 16384
  o % 4 == 0 && (match off / 16384 % 4 with
    | 0 => (regFind B.LH o).isSome
    | 1 => (regFind B.DBG o).isSome
    | 2 => o == 0 || o == 4
    | _ => true)

/-- What a read of the island space gives and leaves (R503): LH and DBG registers are read as any initiator reads them (R506). -/
def Dev.islandRead (s : Dev) (off : Nat) : Word × Dev :=
  let o := off % 16384
  match off / 16384 % 4 with
  | 0 => s.readReg .wire B.LH o false
  | 1 => if s.mode = .beacon then (0, s) else s.readReg .wire B.DBG o false
  | 2 => (s.showReg .wire B.SEC (if o = 0 then O.SEC_LC else O.SEC_TAMPER_STAT) true, s)
  | _ => ((Map.get (fun _ => 0) s.log.ring (o / 32)).extractLsb' (8 * (o % 32)) 32, s)

/-- IRD (R501, R503). -/
def Dev.wireIrd (s : Dev) (t off : Nat) : Dev :=
  s.wireHears (fun s =>
    if !islandHas off then s.wireReply .range t false (leBytes 4 0)
    else
      let (v, s1) := s.islandRead off
      s1.wireReply .ok t false (leBytes 4 v.toNat))

/-- IWR (R501, R503): the DBG region needs the session that R440 requires; the other regions but LH are read-only. RANGE goes before DENIED,
and that before STATE (R557). -/
def Dev.wireIwr (s : Dev) (t off : Nat) (w : Word) : Dev :=
  s.wireHears (fun s =>
    let o := off % 16384
    let region := off / 16384 % 4
    if !islandHas off then s.wireReply .range t false []
    else if region = 1 && !s.mayDo (some 2) .debug then s.wireReply .denied t false []
    else if s.mode = .beacon then s.wireReply .state t false []
    else match region with
      | 0 => (s.writeReg .wire B.LH o w).wireReply .ok t false []
      | 1 => (s.writeReg .wire B.DBG o w).wireReply .ok t false []
      | _ => s.wireReply .ok t false [])

/-- Whether the network carries an RD or WR in the present mode (R501, R502). -/
def Dev.wireCarries (s : Dev) (a : Nat) : Bool :=
  match s.mode with
  | .boot | .moored | .underway | .anchored | .slack | .standDown | .dryDock => true
  | .aground => addrWin a == some .regs
  | _ => false

/-- RD and WR (R502): a request of the wire initiator, or a refusal before issue: RANGE, for an unaligned address too, before STATE (R557). A
refusal with RANGE is the outcome of the latest operation on its tag, but where the command is not carried out at all. -/
def Dev.wireIssue (s : Dev) (t op a : Nat) (data : List Byte) (peek : Bool) : Dev :=
  s.wireHears (fun s =>
    let held := !s.wireCarries a || (s.wireOp t).pending
    if a % 4 ≠ 0 || addrBad a 4 then
      (if held then s else s.setWireOp t { used := true, isRead := op == 1, status := .range }).wireReply .range t false []
    else if held then s.wireReply .state t false []
    else
      let s1 := s.setWireOp t { used := true, pending := true, isRead := op == 1 }
      (s1.request { src := .wire, tag := t, op, addr := a, len := 4, data, dst := s.destNode a, peek }).wireReply .ok t true [])

def Dev.wireRd (s : Dev) (t a : Nat) (peek : Bool) : Dev := s.wireIssue t 1 a [] peek
def Dev.wireWr (s : Dev) (t a : Nat) (w : Word) : Dev := s.wireIssue t 2 a (leBytes 4 w.toNat) false

/-- A response for the wire, or its timeout: the operation on its tag has finished (R502). -/
def Dev.wireAnswer (s : Dev) (t : Nat) (st : Status) (data : List Byte) : Dev :=
  let x := s.wireOp t
  if !x.pending then s
  else s.setWireOp t { x with pending := false, status := st, data := if st = .ok then BitVec.ofNat 32 (ofLeBytes (data.take 4)) else 0 }

/-- POLL (R502). -/
def Dev.wirePoll (s : Dev) (t : Nat) : Dev :=
  s.wireHears (fun s =>
    let x := s.wireOp t
    if s.mode = .beacon || !x.used then s.wireReply .state t false (leBytes 4 0)
    else if x.pending then s.wireReply .ok t true (leBytes 4 0)
    else s.wireReply x.status t false (leBytes 4 (if x.isRead then x.data.toNat else 0)))

end Sys2Proof.Machine
end

