-- ==== Sys2Proof/Machine/NetServe.lean ====
section
/-! DEFINITION. Machine/NetServe.lean: what becomes of a message that has reached its endpoint (R221 to R224, R234 to R240, R248 to
R250, R287): targets serve requests, initiators take responses, timers and leases expire. -/

namespace Sys2Proof.Machine

/-! ### Form -/

/-- Whether a message is malformed (R224): its header, one of its packets, or another count of data flits than PLEN says. -/
def Dev.malformed (s : Dev) (m : Msg) : Bool := m.bad || s.hdrBad m.hdr

/-- A malformed packet reaches its target (R224): FORMAT_IN, bit 2 of HN; a request is answered FORMAT, a response discarded. -/
def Dev.formatIn (s : Dev) (h : Hdr) : Dev :=
  let s1 := s.classU B.HN 2 .format h.addr (nodeDev h.src)
  if h.op = 4 then s1 else s1.respond h .format

/-- A message that stands delivered is taken by its endpoint, if the command is for its OP. Where the endpoint holds it back, it stays.
Nothing is taken in Quarantine (R20). -/
def Dev.netTake (s : Dev) (m : Msg) (mine : Nat → Bool) (run : Dev → Option Dev) : Dev :=
  if !mine m.h.op || !s.net.delivered.contains m || s.mode = .quarantine then s
  else
    let s1 := { s with net := { s.net with delivered := dropFirst m s.net.delivered } }
    if s1.malformed m then s1.formatIn m.h else (run s1).getD s

/-! ### Targets -/

/-- A request to the register port (R3, R217, R463, R465): one aligned 32-bit word. A block that gives no answer leaves it unanswered. -/
def Dev.serveRegs (s : Dev) (m : Msg) : Dev :=
  let h := m.h
  let a := h.addr - 0x003000000000
  let src := s.nodeSrc h.src
  if h.op = 1 then
    match s.busRead src h.peek a with
    | (some r, s1) => s1.respond h r.status (leBytes 4 r.data.toNat)
    | (none, s1) => s1
  else if h.op = 2 then
    if !m.poison.isEmpty then s.respond h .uncorr
    else match s.busWrite src a (BitVec.ofNat 32 (ofLeBytes (m.data.take 4))) with
      | (some st, s1) => s1.respond h st
      | (none, s1) => s1
  else s.respond h .range

/-- A request for an erg that is in Slack waits in its router's wake buffer; the first one wakes the erg (R249, R250). -/
def Dev.holdForWake (s : Dev) (e : Nat) (m : Msg) : Dev :=
  let held := Map.get (fun _ => []) s.net.wake e
  if heldRoom < packetsOf held + m.packets then s.bufferBusy m.h
  else
    let s1 := { s with net := { s.net with wake := Map.set (fun _ => []) s.net.wake e (held ++ [m]) } }
    if held.isEmpty then s1.wakeTrigger e else s1

/-- Whether requests for a bank are held (R248, R516). -/
def Dev.bankSleeps (s : Dev) (b : Nat) : Bool :=
  s.asleep b || (match (s.erg (b / 256)).slack with
    | .entering | .down => true
    | .waking => s.emulated
    | _ => false)

/-- A request for a bank of the hold reaches its router (R190, R248, R505, R516). -/
def Dev.bankArrive (s : Dev) (m : Msg) : Dev :=
  let b := holdBank m.h.addr
  let blk := B.HOLD (b / 1024)
  if s.gated blk then s.gatedAnswer m.h
  else if s.bankSleeps b && !(m.h.peek && s.emulated && !s.asleep b) then s.holdForWake (b / 256) m
  else if s.halted blk then s.parkMsg (512 + b) m
  else s.enterBank m

/-- A request for a berth reaches its router (R248): a RUNNING erg in Slack has it held. -/
def Dev.berthArrive (s : Dev) (m : Msg) : Dev :=
  let b := m.h.addr / 0x100000 % 512
  let e := b / 16
  if s.gated (B.ERG e) then s.gatedAnswer m.h
  else if (s.erg e).mode == .running && !(s.erg e).slack.runs && !m.h.peek && s.tidesStand then s.holdForWake e m
  else s.berthTakes b m

/-- A request for external memory reaches its DMC (R255, R272, R287): RANGE beyond the usable size, DENIED by a protected range or the
metadata region, STATE while the DMC is OFFLINE or TRAINING; else it meets the locks. -/
def Dev.extArrive (s : Dev) (m : Msg) : Dev :=
  let h := m.h
  let k := s.dmcOf h.addr
  if s.gated (B.DMC k) then s.gatedAnswer h
  else if s.beyondUsable k h.addr h.len then s.respond h .range
  else if s.protDenied h.src h.addr (touched h.op h.len) then (s.count B.MCE F.MCE_ERR_CNT_DENIED_CNT).respond h .denied
  else if s.fld (B.DMC k) F.DMC_STATE_STATE < 2 then s.respond h .state
  else s.lockEnter m

/-- A request at the image stream aperture (R412, R413); none where the stream holds its source back. -/
def Dev.apertureArrive (s : Dev) (m : Msg) : Option Dev :=
  let h := m.h
  if h.op ≠ 2 then some (s.respond h .denied)
  else if !m.poison.isEmpty then some (s.respond h .uncorr)
  else if s.halted B.CFG then some (s.parkMsg 8704 m)
  else (s.streamData (s.nodeSrc h.src) (some (h.addr % 4096)) m.data false).map (fun (st, s1) => s1.respond h st)

/-- A request reaches its target (R214, R216). -/
def Dev.serveRequest (s : Dev) (m : Msg) : Option Dev :=
  let h := m.h
  let lock := h.op == 5 || h.op == 6
  if addrBad h.addr h.len && !lock then some (s.respond h .range)
  else match addrWin h.addr with
    | some .ext => some (s.extArrive m)
    | some .hold => some (s.bankArrive m)
    | some .berth => some (if lock then s.respond h .range else s.berthArrive m)
    | some .regs => some (s.serveRegs m)
    | some .stream => if lock then some (s.respond h .range) else s.apertureArrive m
    | none => some (s.respond h .range)

/-- Metadata requests of a cipher engine join the reserved queue of their DMC (R221, R251). -/
def Dev.metaArrive (s : Dev) (m : Msg) : Dev :=
  let h := m.h
  let k := s.dmcOf h.addr
  if s.gated (B.DMC k) then s.gatedAnswer h
  else if addrWin h.addr ≠ some .ext || s.beyondUsable k h.addr h.len then s.respond h .range
  else if s.fld (B.DMC k) F.DMC_STATE_STATE < 2 then s.respond h .state
  else s.arbPush k m

/-! ### Initiators -/

/-- An initiator is given the answer to a request it made (R222). -/
def Dev.giveAnswer (s : Dev) (o : Out) (st : Status) (data : List Byte) : Dev :=
  match o.src with
  | .berth b =>
    (match o.decl with
     | some (id, issue) => if o.op = 2 && addrWin o.addr == some .berth then s else s.schedArrive id issue st data
     | none => s.berthAnswer b.val o.tag st data)
  | .host => s.hostAnswer o.tag st data
  | .lighter n => s.lgtAnswer n.val o.tag st data
  | .csp => s.cspAnswer st data
  | .wire => s.wireAnswer o.tag st data
  | .engine e => if o.op = 7 then s.fetched e o.addr else s.fetchPump
  | .cfgctl | .remote _ => s

/-- The pieces of a request (R222): offset and length of each. -/
def Out.pieces (o : Out) : List (Nat × Nat) :=
  if addrWin o.addr = some .ext && (o.op = 1 || o.op = 2) then extPieces o.addr o.len else [(0, o.len)]

/-- The offset of the piece that a response answers. The response to a write carries no address: it is the first piece, not yet answered,
that went to the DMC it comes from (DEDUCED, notes/assumptions/50.md). -/
def Dev.answered (s : Dev) (o : Out) (h : Hdr) : Nat :=
  if o.op = 1 then h.addr - o.addr
  else
    let open_ := o.pieces.filter (fun p => !o.parts.any (fun q => q.1 == p.1))
    match open_.find? (fun p => s.destNode (o.addr + p.1) == h.src) with
    | some p => p.1
    | none => (open_.headD (0, 0)).1

/-- The earlier of two failures in address order (R222). -/
def earlier (a : Option (Nat × Status)) (off : Nat) (st : Status) : Option (Nat × Status) :=
  if st = .ok then a
  else match a with
    | some (o, x) => if off < o then some (off, st) else some (o, x)
    | none => some (off, st)

/-- Puts the parts of a read together, in address order. -/
def joinParts (ps : List (Nat × List Byte)) : List Byte := (ps.mergeSort (fun a b => decide (a.1 ≤ b.1))).flatMap (fun p => p.2)

/-- One response to an outstanding request (R222, R223): the last piece completes it. Poisoned data make it UNCORR. -/
def Dev.outPart (s : Dev) (o : Out) (m : Msg) : Dev :=
  let h := m.h
  let st : Status := if m.poison.isEmpty then Status.ofCode h.status else .uncorr
  let off := s.answered o h
  let o1 := { o with left := o.left - 1, bad := earlier o.bad off st, parts := o.parts ++ [(off, if st = .ok then m.data else [])] }
  let others := s.net.outs.filter (· != o)
  if 0 < o1.left then { s with net := { s.net with outs := others ++ [o1] } }
  else
    let s1 := { s with net := { s.net with outs := others } }
    match o1.bad with
    | some (_, x) => s1.giveAnswer o x []
    | none => s1.giveAnswer o .ok (if o.op = 1 then joinParts o1.parts else [])

/-- The outstanding request that a response matches (R232, R234). -/
def Dev.matching (s : Dev) (h : Hdr) : Option Out :=
  s.net.outs.find? (fun o => s.srcNode o.src == h.dst && o.tag == h.tag && o.stamp == h.stamp && o.decl.isSome == h.sch)

/-- Whether the gate of an initiator's block discards responses for it (R248). -/
def Dev.srcGated (s : Dev) (src : Src) : Bool :=
  match src with
  | .berth b => s.gated (B.ERG (b.val / 16))
  | .lighter _ => s.gated B.LGT
  | .csp => s.gated B.CSP
  | _ => false

/-- A response reaches its initiator (R222, R234, R248): stale ones are discarded and counted, STALE_RSP, bit 5 of HN; those for a gated
block are discarded; those for an initiator that a halt has stopped are kept until it goes on. -/
def Dev.responseIn (s : Dev) (m : Msg) : Option Dev :=
  match s.matching m.h with
  | none => some ((s.count B.HN F.HN_ERR_CNT_STALE_CNT).event B.HN 5)
  | some o =>
    if s.srcGated o.src then some s
    else match o.src with
      | .berth _ => some (s.outPart o m)
      | .lighter _ => some (s.outPart o m)
      | src => if s.srcHalted src then none else some (s.outPart o m)

/-! ### Commands -/

/-- NET_READ. A packet with a reserved OP is met here too (R224). -/
def Dev.netRead (s : Dev) (m : Msg) : Dev :=
  s.netTake m (fun op => !([2, 4, 5, 6, 7, 8].contains op)) (fun s => s.serveRequest m)
/-- NET_WRITE. -/
def Dev.netWrite (s : Dev) (m : Msg) : Dev := s.netTake m (· == 2) (fun s => s.serveRequest m)
/-- NET_RESPONSE. -/
def Dev.netResponse (s : Dev) (m : Msg) : Dev := s.netTake m (· == 4) (fun s => s.responseIn m)
/-- NET_ACQUIRE. -/
def Dev.netAcquire (s : Dev) (m : Msg) : Dev := s.netTake m (· == 5) (fun s => s.serveRequest m)
/-- NET_RELINQUISH. -/
def Dev.netRelinquish (s : Dev) (m : Msg) : Dev := s.netTake m (· == 6) (fun s => s.serveRequest m)
/-- NET_MREAD. -/
def Dev.netMread (s : Dev) (m : Msg) : Dev := s.netTake m (· == 7) (fun s => some (s.metaArrive m))
/-- NET_MWRITE. -/
def Dev.netMwrite (s : Dev) (m : Msg) : Dev := s.netTake m (· == 8) (fun s => some (s.metaArrive m))

/-- A request has timed out (R125, R236): the initiator makes a response TIMEOUT and frees the slot; class U: TIMEOUT, bit 1 of HN. -/
def Dev.timedOut (s : Dev) (o : Out) : Dev :=
  let s1 := { s with net := { s.net with outs := s.net.outs.filter (· != o) } }
  let s2 := (s1.count B.HN F.HN_TO_CNT_TIMEOUT_CNT).classU B.HN 1 .timeout o.addr s.coord
  let s3 := match o.src with
    | .berth b => s2.setBerth b.val { s2.berth b.val with timeouts := satAdd 16 (s2.berth b.val).timeouts 1 }
    | _ => s2
  s3.giveAnswer o .timeout []

/-- INITIATOR_TIMEOUT: the timer of an initiator's request under a tag has expired (R236). -/
def Dev.initiatorTimeout (s : Dev) (src : Src) (tag : Nat) : Dev :=
  match s.net.outs.find? (fun o => o.src.sameSlots src && o.tag == tag && timerOver o.deadline s.clk.time) with
  | none => s
  | some o => if s.srcHalted o.src || s.mode = .quarantine then s else s.timedOut o

end Sys2Proof.Machine
end

