-- ==== Sys2Proof/Machine/Guards.lean ====
section
/-! DEFINITION. Machine/Guards.lean: register commands as accesses of the register window, and what keeps an event of a unit from
happening when it is commanded: a clock that relocks (R452), a gated block (R456), a block that a halt stops (R514), a dry-dock
slot that covers the rows concerned (R521, R523). Such a command leaves the state as it is. -/

namespace Sys2Proof.Machine

/-- A register command: a write of a word to the command's register (R3, R216). -/
def Dev.command (s : Dev) (r : RegSrc) (blk off : Nat) (w : Word) : Dev := s.accessWrite r.src (blockBytes * blk + off) w

/-- A register read with a named effect; a peek read where the initiator may send one (R3, R505). -/
def Dev.readCommand (s : Dev) (r : RegSrc) (peek : Bool) (blk off : Nat) : Dev :=
  s.accessRead r.src (r.peeks peek) (blockBytes * blk + off)

/-- A function of the device that Quarantine stops: every one but the island with its thermal sweeps, station time, the mooring generators
and the refresh of external memory (R20). -/
def Dev.live (s : Dev) (f : Dev → Dev) : Dev := if s.mode = .quarantine then s else f s

/-- An event of a clock domain (0 TICK, 1 HOLD, 2 NET, 3 MEM), unless its PLL relocks in an APPLY (R452) or the device is in Quarantine
(R20). -/
def Dev.clocked (s : Dev) (d : Nat) (f : Dev → Dev) : Dev := if s.clk.applying.contains d then s else s.live f

/-- A row command of a fabric sink, unless the TICK clock relocks or a dry-dock slot covers the erg (R452, R521). -/
def Dev.hlSink (s : Dev) (e : Nat) (f : Dev → Dev) : Dev := if (s.inDock e).isSome then s else s.clocked 0 f

/-- A step at a bank's word port, unless the HOLD clock relocks or the next word's row is under test (R452, R523). -/
def Dev.wordPort (s : Dev) (b : Nat) (f : Dev → Dev) : Dev := if s.rowUnderTest b then s else s.clocked 1 f

/-- Work of a block that neither its clock gate nor a halt stops (R456, R514), nor Quarantine (R20). -/
def Dev.unlessStopped (s : Dev) (blk : Nat) (f : Dev → Dev) : Dev := if s.gated blk || s.halted blk then s else s.live f

/-- The erg whose row the scrubber visits next in a quadrant, idle or triggered. -/
def Dev.scrubErg (s : Dev) (idle : Bool) (q : Nat) : Option Nat :=
  if idle then some ((quadrantRows * q + Map.get (fun _ => 0) s.hold.idleRows q) / 131072)
  else s.hold.scrub.bind (fun r => (r.next q).map (· / 131072))

/-- A turn of the hold scrubber in a quadrant (R205, R208): none while SCRB is stopped, the HOLD clock relocks or the erg's hold is under
test (R523). -/
def Dev.scrubTurn (s : Dev) (idle : Bool) (q : Nat) : Dev :=
  let tested := match s.scrubErg idle q with
    | some e => (match s.inDock e with
      | some d => d.kind == 2
      | none => false)
    | none => false
  if s.clk.applying.contains 1 || tested then s else s.unlessStopped B.SCRB (fun s => s.scrubRow idle q)

/-- A turn of a port arbiter (R243): none while the NET clock relocks or the arbiter's block is stopped. -/
def Dev.arbTurn (s : Dev) (a : Nat) : Dev :=
  if s.clk.applying.contains 2 then s else s.unlessStopped (arbBlock a) (fun s => s.arbiterGrant a)

/-- Bytes for the image stream (R412 to R416). Bytes that a full buffer holds back, and those that meet a halted configuration
controller (R514), are not taken: the command leaves the state as it is. -/
def Dev.streamCommand (s : Dev) (r : RegSrc) (aperture : Option Nat) (bytes : List Byte) (last : Bool) : Dev :=
  if s.halted B.CFG then s
  else match s.streamData r.src aperture bytes last with
    | some (st, s1) => { s1 with reply := some ⟨st, 0⟩ }
    | none => s

/-- An access to SEC_MBOX_DATA (R448): a write of a word, or a read. -/
def Dev.mboxAccess (s : Dev) (r : RegSrc) (write : Option Word) (peek : Bool) : Dev :=
  match write with
  | some w => s.command r B.SEC O.SEC_MBOX_DATA w
  | none => s.readCommand r peek B.SEC O.SEC_MBOX_DATA

end Sys2Proof.Machine
end

