-- ==== Sys2Proof/Machine/State.lean ====
section
/-! DEFINITION. Machine/State.lean: the state of the machine: the device, and the commands that wait; the reasons to stop; the state
after reset. -/

namespace Sys2Proof.Machine

/-- The machine: the device (Machine/Dev.lean), and the queue of commands that wait, first in, first out. -/
structure State where
  dev : Dev := {}
  pending : List Instr := []
  deriving DecidableEq, Repr

/-- Reasons for which a command stops the machine: there are none. The spec answers every misuse with a status, and gives every row of
the table an effect. -/
inductive Fault where
  deriving DecidableEq, Repr

/-- Reasons for which the machine has no meaning for a command. -/
inductive Refusal where
  /-- Raised by exec's arm of a command that has no meaning yet; safe: the run ends. No arm raises it now. -/
  | notModelled (mnemonic : String)
  deriving DecidableEq, Repr

/-- The part right after its island supply comes up, main power still absent: mode Beacon (R490, R499). Every register holds the reset
value of its definition; the tables of the other parts of the state list nothing. -/
def State.reset : State := {}

end Sys2Proof.Machine
end

