-- ==== Sys2Proof/Machine/Run.lean ====
section
/-! DEFINITION. Machine/Run.lean: how a change of the device becomes a command's outcome: the outputs settle after it, and the machine
goes on. -/

namespace Sys2Proof.Machine

/-- A command whose effect on the device is `f`: a next state in which the interrupt requests, the vectors, the pins and the sources
of the jetty lines follow from the registers again (R8, R363, R371, R458, R546). -/
def run (f : Dev → Dev) (s : State) : Host.Outcome State Fault Refusal :=
  .next { s with dev := (f s.dev).settle }

end Sys2Proof.Machine
end

