-- ==== Sys2Proof/Machine/CmdBerth.lean ====
section
/-! DEFINITION. Machine/CmdBerth.lean: berth messages, release reads, what the router presents, notes (R121 to R131). One meaning for
each command, by the rule its docstring names. -/

namespace Sys2Proof.Machine

/-- BERTH_READ (R126). -/
def execBerthRead (b : Fin 512) (msg : BMsg) (m : State) : Host.Outcome State Fault Refusal :=
  run (fun s => s.live (fun s => s.berthRead b.val msg)) m

/-- BERTH_WRITE (R126). -/
def execBerthWrite (b : Fin 512) (msg : BMsg) (m : State) : Host.Outcome State Fault Refusal :=
  run (fun s => s.live (fun s => s.berthWrite b.val msg)) m

/-- BERTH_SCHED (R67). -/
def execBerthSched (b : Fin 512) (msg : BMsg) (m : State) : Host.Outcome State Fault Refusal :=
  run (fun s => s.live (fun s => s.berthSched b.val msg)) m

/-- BERTH_RESPONSE (R127). -/
def execBerthResponse (b : Fin 512) (msg : BMsg) (m : State) : Host.Outcome State Fault Refusal :=
  run (fun s => s.live (fun s => s.berthResponse b.val msg)) m

/-- BERTH_ACQUIRE (R238). -/
def execBerthAcquire (b : Fin 512) (msg : BMsg) (m : State) : Host.Outcome State Fault Refusal :=
  run (fun s => s.live (fun s => s.berthAcquire b.val msg)) m

/-- BERTH_RELINQUISH (R238). -/
def execBerthRelinquish (b : Fin 512) (msg : BMsg) (m : State) : Host.Outcome State Fault Refusal :=
  run (fun s => s.live (fun s => s.berthRelinquish b.val msg)) m

/-- RELEASE_READ (R129). -/
def execReleaseRead (b : Fin 512) (beat : BitVec 11) (m : State) : Host.Outcome State Fault Refusal :=
  run (fun s => s.live (fun s => s.releaseRead b.val beat.toNat)) m

/-- RELEASE_READ_RETURN (R129). -/
def execReleaseReadReturn (b : Fin 512) (m : State) : Host.Outcome State Fault Refusal :=
  run (fun s => s.live (fun s => s.releaseReadReturn b.val)) m

/-- SERVED_REQUEST_PRESENT (R124). -/
def execServedRequestPresent (b : Fin 512) (m : State) : Host.Outcome State Fault Refusal :=
  run (fun s => s.live (fun s => s.servedPresent b.val)) m

/-- LATE_DELIVERY_PRESENT (R130). -/
def execLateDeliveryPresent (b : Fin 512) (m : State) : Host.Outcome State Fault Refusal :=
  run (fun s => s.live (fun s => s.latePresent b.val)) m

/-- NOTE_PRESENT (R131). -/
def execNotePresent (b : Fin 512) (m : State) : Host.Outcome State Fault Refusal :=
  run (fun s => s.live (fun s => s.notePresent b.val)) m

/-- ERG_NOTE_POST (R131). -/
def execErgNotePost (src : RegSrc) (e : Fin 32) (data : Word) (m : State) : Host.Outcome State Fault Refusal :=
  run (fun s => s.command src (B.ERG e.val) O.ERG_NOTE_POST (withField data 4 1 1)) m

end Sys2Proof.Machine
end

