-- ==== Sys2Proof/Machine/CmdCauseway.lean ====
section
/-! DEFINITION. Machine/CmdCauseway.lean: causeway links: training, frames, service messages (chapter 09). One meaning for each command,
by the rule its docstring names. -/

namespace Sys2Proof.Machine

/-- LINK_ENABLE (R324). -/
def execLinkEnable (src : RegSrc) (n : Fin 16) (data : Word) (m : State) : Host.Outcome State Fault Refusal :=
  run (fun s => s.command src (B.CW n.val) O.CW_CTRL data) m

/-- RETRAIN (R328). -/
def execRetrain (src : RegSrc) (n : Fin 16) (data : Word) (m : State) : Host.Outcome State Fault Refusal :=
  run (fun s => s.command src (B.CW n.val) O.CW_CTRL (withField data 1 1 1)) m

/-- KEY_SWITCH (R338). -/
def execKeySwitch (src : RegSrc) (n : Fin 16) (data : Word) (m : State) : Host.Outcome State Fault Refusal :=
  run (fun s => s.command src (B.CW n.val) O.CW_CTRL (withField data 2 1 1)) m

/-- TS1_ROW (R324). -/
def execTs1Row (n : Fin 16) (blocks : List DWord) (skew : Nat) (polarity : BitVec 8) (m : State) : Host.Outcome State Fault Refusal :=
  run (fun s => s.ts1Row n.val blocks skew polarity.toNat) m

/-- TS2_ROW (R324). -/
def execTs2Row (n : Fin 16) (block : DWord) (m : State) : Host.Outcome State Fault Refusal :=
  run (fun s => s.ts2Row n.val block) m

/-- SOF_ROW (R324). -/
def execSofRow (n : Fin 16) (m : State) : Host.Outcome State Fault Refusal :=
  run (fun s => s.sofRow n.val) m

/-- TRAIN_FAIL (R324). -/
def execTrainFail (n : Fin 16) (m : State) : Host.Outcome State Fault Refusal :=
  run (fun s => s.trainFail n.val) m

/-- FRAME_SEND (R318). -/
def execFrameSend (n : Fin 16) (m : State) : Host.Outcome State Fault Refusal :=
  run (fun s => s.frameSend n.val) m

/-- FRAME_RECEIVE (R326). -/
def execFrameReceive (n : Fin 16) (blocks : List DWord) (badHeaders : List (Nat × Nat)) (m : State) : Host.Outcome State Fault Refusal :=
  run (fun s => s.frameReceive n.val blocks badHeaders) m

/-- RELOCK_TIMEOUT (R328). -/
def execRelockTimeout (n : Fin 16) (m : State) : Host.Outcome State Fault Refusal :=
  run (fun s => s.relockTimeout n.val) m

/-- SVC_BREACH (R334). -/
def execSvcBreach (n : Fin 16) (payload : BitVec 56) (m : State) : Host.Outcome State Fault Refusal :=
  run (fun s => s.svcReceive n.val 1 payload.toNat) m

/-- SVC_HALT (R507). -/
def execSvcHalt (n : Fin 16) (payload : BitVec 56) (m : State) : Host.Outcome State Fault Refusal :=
  run (fun s => s.svcReceive n.val 2 payload.toNat) m

/-- SVC_RESUME (R511). -/
def execSvcResume (n : Fin 16) (payload : BitVec 56) (m : State) : Host.Outcome State Fault Refusal :=
  run (fun s => s.svcReceive n.val 3 payload.toNat) m

/-- START_A (R87). -/
def execStartA (n : Fin 16) (payload : BitVec 56) (m : State) : Host.Outcome State Fault Refusal :=
  run (fun s => s.svcReceive n.val 4 payload.toNat) m

/-- START_B (R87). -/
def execStartB (n : Fin 16) (payload : BitVec 56) (m : State) : Host.Outcome State Fault Refusal :=
  run (fun s => s.svcReceive n.val 5 payload.toNat) m

/-- SVC_TURN (R337). -/
def execSvcTurn (n : Fin 16) (payload : BitVec 56) (m : State) : Host.Outcome State Fault Refusal :=
  run (fun s => s.svcReceive n.val 6 payload.toNat) m

/-- SYNC (R337). -/
def execSync (n : Fin 16) (payload : BitVec 56) (m : State) : Host.Outcome State Fault Refusal :=
  run (fun s => s.svcReceive n.val 7 payload.toNat) m

/-- SYNC_RX (R337). -/
def execSyncRx (n : Fin 16) (payload : BitVec 56) (m : State) : Host.Outcome State Fault Refusal :=
  run (fun s => s.svcReceive n.val 8 payload.toNat) m

/-- EPOCH (R385). -/
def execEpoch (n : Fin 16) (payload : BitVec 56) (m : State) : Host.Outcome State Fault Refusal :=
  run (fun s => s.svcReceive n.val 9 payload.toNat) m

end Sys2Proof.Machine
end

