-- ==== Sys2Proof/Machine/CmdCipher.lean ====
section
/-! DEFINITION. Machine/CmdCipher.lean: protected ranges, keys, metadata and rekey walks (chapter 08). One meaning for each command, by
the rule its docstring names. -/

namespace Sys2Proof.Machine

/-- RANGE_ENABLE (R280). -/
def execRangeEnable (src : RegSrc) (data : Word) (m : State) : Host.Outcome State Fault Refusal :=
  run (fun s => s.command src B.MCE O.MCE_RANGE_CMD (withField data 0 3 1)) m

/-- RANGE_DISABLE (R281). -/
def execRangeDisable (src : RegSrc) (data : Word) (m : State) : Host.Outcome State Fault Refusal :=
  run (fun s => s.command src B.MCE O.MCE_RANGE_CMD (withField data 0 3 2)) m

/-- REKEY (R306). -/
def execRekey (src : RegSrc) (data : Word) (m : State) : Host.Outcome State Fault Refusal :=
  run (fun s => s.command src B.MCE O.MCE_RANGE_CMD (withField data 0 3 3)) m

/-- REKEY_ABORT (R308). -/
def execRekeyAbort (src : RegSrc) (data : Word) (m : State) : Host.Outcome State Fault Refusal :=
  run (fun s => s.command src B.MCE O.MCE_RANGE_CMD (withField data 0 3 4)) m

/-- INIT_DONE (R281). -/
def execInitDone (range : Fin 16) (m : State) : Host.Outcome State Fault Refusal :=
  run (fun s => s.clocked 3 (fun s => s.initDone range.val)) m

/-- KEY_GEN (R289). -/
def execKeyGen (src : RegSrc) (data : Word) (m : State) : Host.Outcome State Fault Refusal :=
  run (fun s => s.command src B.MCE O.MCE_KEY_CMD (withField data 0 3 1)) m

/-- KEY_UNWRAP (R289). -/
def execKeyUnwrap (src : RegSrc) (data : Word) (m : State) : Host.Outcome State Fault Refusal :=
  run (fun s => s.command src B.MCE O.MCE_KEY_CMD (withField data 0 3 2)) m

/-- KEY_RETIRE (R290). -/
def execKeyRetire (src : RegSrc) (data : Word) (m : State) : Host.Outcome State Fault Refusal :=
  run (fun s => s.command src B.MCE O.MCE_KEY_CMD (withField data 0 3 3)) m

/-- KEY_ZEROISE (R290). -/
def execKeyZeroise (src : RegSrc) (data : Word) (m : State) : Host.Outcome State Fault Refusal :=
  run (fun s => s.command src B.MCE O.MCE_KEY_CMD (withField data 0 3 4)) m

/-- META_FETCH (R298). -/
def execMetaFetch (range : Fin 16) (page : Nat) (found : List MetaFound) (m : State) : Host.Outcome State Fault Refusal :=
  run (fun s => s.clocked 3 (fun s => s.metaFetch range.val page found)) m

/-- PAGE_REENCRYPT (R299). -/
def execPageReencrypt (engine : Fin 4) (m : State) : Host.Outcome State Fault Refusal :=
  run (fun s => s.clocked 3 (fun s => s.pageReencrypt engine.val)) m

/-- REKEY_UNIT (R307). -/
def execRekeyUnit (m : State) : Host.Outcome State Fault Refusal :=
  run (fun s => s.clocked 3 Dev.rekeyUnit) m

/-- WALK_DONE (R307). -/
def execWalkDone (m : State) : Host.Outcome State Fault Refusal :=
  run (fun s => s.clocked 3 Dev.walkDone) m

end Sys2Proof.Machine
end

