-- ==== Sys2Proof/Machine/CmdClocks.lean ====
section
/-! DEFINITION. Machine/CmdClocks.lean: clocks, power entry, resets, Boot and the watchdog (chapter 14). One meaning for each command, by
the rule its docstring names. -/

namespace Sys2Proof.Machine

/-- CLK_APPLY (R454). -/
def execClkApply (src : RegSrc) (data : Word) (m : State) : Host.Outcome State Fault Refusal :=
  run (fun s => s.command src B.CLK O.CLK_CMD (withField data 0 1 1)) m

/-- APPLY_DONE (R454). -/
def execApplyDone (m : State) : Host.Outcome State Fault Refusal :=
  run (fun s => s.live (fun s => s.applyDone)) m

/-- PLL_LOCK_LOST (R455). -/
def execPllLockLost (pll : Option (Fin 4)) (m : State) : Host.Outcome State Fault Refusal :=
  run (fun s => s.pllLockLost (pll.map Fin.val)) m

/-- SERDES_LOCK_LOST (R455). -/
def execSerdesLockLost (port : SerdesPort) (m : State) : Host.Outcome State Fault Refusal :=
  run (fun s => s.serdesLockLost port) m

/-- OSC_COMMIT (R451). -/
def execOscCommit (src : RegSrc) (data : Word) (m : State) : Host.Outcome State Fault Refusal :=
  run (fun s => s.command src B.LH O.LH_OSC_CFG (withField data 8 1 1)) m

/-- CLK_EN (R456). -/
def execClkEn (src : RegSrc) (k : Fin 3) (data : Word) (m : State) : Host.Outcome State Fault Refusal :=
  run (fun s => s.command src B.CLK (O.CLK_EN0 + 4 * k.val) data) m

/-- CLKMON_CFG (R458). -/
def execClkmonCfg (src : RegSrc) (data : Word) (m : State) : Host.Outcome State Fault Refusal :=
  run (fun s => s.command src B.CLK O.CLKMON_CFG data) m

/-- POWER_ON (R472). -/
def execPowerOn (refclk : Bool) (m : State) : Host.Outcome State Fault Refusal :=
  run (fun s => s.powerOn refclk) m

/-- MAIN_POWER_LOSS (R472). -/
def execMainPowerLoss (islandSupplied : Bool) (m : State) : Host.Outcome State Fault Refusal :=
  run (fun s => s.mainPowerLoss islandSupplied) m

/-- OSC_WAIT_DONE (R450). -/
def execOscWaitDone (m : State) : Host.Outcome State Fault Refusal :=
  run (fun s => s.oscWaitDone) m

/-- RESET_PIN (R459). -/
def execResetPin (m : State) : Host.Outcome State Fault Refusal :=
  run (fun s => s.resetRequest 2) m

/-- HOST_RESET (R460). -/
def execHostReset (src : RegSrc) (m : State) : Host.Outcome State Fault Refusal :=
  run (fun s => s.command src B.LH O.LH_RST_CMD 0xA55A0F0F) m

/-- RESET_ENTRY (R461). -/
def execResetEntry (m : State) : Host.Outcome State Fault Refusal :=
  run (fun s => s.resetEntry) m

/-- RESET_RELEASE (R461). -/
def execResetRelease (devX : Fin 8) (devY : Fin 8) (csp : Fin 4) (m : State) : Host.Outcome State Fault Refusal :=
  run (fun s => s.resetRelease devX.val devY.val csp.val) m

/-- BOOT_PLL_LOCK (R463). -/
def execBootPllLock (m : State) : Host.Outcome State Fault Refusal :=
  run (fun s => s.bootPllLock) m

/-- BUNDLE_TEST_DONE (R26). -/
def execBundleTestDone (lanes : List (BitVec 26 × Fin 68)) (dunes : List (Fin 8192)) (m : State) : Host.Outcome State Fault Refusal :=
  run (fun s => s.bundleTestDone (lanes.map (fun x => (x.1.toNat, x.2.val))) (dunes.map Fin.val)) m

/-- BOOT_TEMPERATURE_CHECK (R464). -/
def execBootTemperatureCheck (readings : List (Option Int)) (m : State) : Host.Outcome State Fault Refusal :=
  run (fun s => s.bootTemperature readings) m

/-- RESIDENT_IMAGE_READ (R420). -/
def execResidentImageRead (m : State) : Host.Outcome State Fault Refusal :=
  run (fun s => s.residentImageRead) m

/-- BOOT_APPLY (R420). -/
def execBootApply (fails : List MarchFail) (m : State) : Host.Outcome State Fault Refusal :=
  run (fun s => s.bootApply fails) m

/-- WDG_FEED (R468). -/
def execWdgFeed (src : RegSrc) (data : Word) (m : State) : Host.Outcome State Fault Refusal :=
  run (fun s => s.command src B.WDG O.WDG_FEED data) m

/-- WDG_EN (R467). -/
def execWdgEn (src : RegSrc) (data : Word) (m : State) : Host.Outcome State Fault Refusal :=
  run (fun s => s.command src B.WDG O.WDG_CFG (withField data 0 1 1)) m

/-- WDG_LOAD (R467). -/
def execWdgLoad (src : RegSrc) (data : Word) (m : State) : Host.Outcome State Fault Refusal :=
  run (fun s => s.command src B.WDG O.WDG_LOAD data) m

/-- WARN (R468). -/
def execWarn (m : State) : Host.Outcome State Fault Refusal :=
  run (fun s => s.wdgWarn) m

/-- WATCHDOG (R468). -/
def execWatchdog (m : State) : Host.Outcome State Fault Refusal :=
  run (fun s => s.watchdog) m

end Sys2Proof.Machine
end

