-- ==== Sys2Proof/Machine/CmdDebug.lean ====
section
/-! DEFINITION. Machine/CmdDebug.lean: the Daminaosh wire and run control (chapter 16). One meaning for each command, by the rule its
docstring names. -/

namespace Sys2Proof.Machine

/-- WIRE_RESET (R496). -/
def execWireReset (m : State) : Host.Outcome State Fault Refusal :=
  run (fun s => s.wireReset) m

/-- WIRE_BREAK (R496). -/
def execWireBreak (m : State) : Host.Outcome State Fault Refusal :=
  run (fun s => s.wireBreak) m

/-- WIRE_ERR (R496). -/
def execWireErr (m : State) : Host.Outcome State Fault Refusal :=
  run (fun s => s.wireErr) m

/-- ISLAND_SUPPLY_LOSS (R498). -/
def execIslandSupplyLoss (m : State) : Host.Outcome State Fault Refusal :=
  run (fun s => s.islandLoss) m

/-- ID (R501). -/
def execWireId (tag : Fin 4) (m : State) : Host.Outcome State Fault Refusal :=
  run (fun s => s.wireId tag.val) m

/-- ATTACH (R504). -/
def execAttach (tag : Fin 4) (m : State) : Host.Outcome State Fault Refusal :=
  run (fun s => s.wireAttach tag.val) m

/-- DETACH (R504). -/
def execDetach (tag : Fin 4) (m : State) : Host.Outcome State Fault Refusal :=
  run (fun s => s.wireDetach tag.val) m

/-- IRD (R503). -/
def execIrd (tag : Fin 4) (off : BitVec 16) (m : State) : Host.Outcome State Fault Refusal :=
  run (fun s => s.wireIrd tag.val off.toNat) m

/-- IWR (R503). -/
def execIwr (tag : Fin 4) (off : BitVec 16) (data : Word) (m : State) : Host.Outcome State Fault Refusal :=
  run (fun s => s.wireIwr tag.val off.toNat data) m

/-- RD (R502). -/
def execRd (tag : Fin 4) (addr : BitVec 48) (peek : Bool) (m : State) : Host.Outcome State Fault Refusal :=
  run (fun s => s.wireRd tag.val addr.toNat peek) m

/-- WR (R502). -/
def execWr (tag : Fin 4) (addr : BitVec 48) (data : Word) (m : State) : Host.Outcome State Fault Refusal :=
  run (fun s => s.wireWr tag.val addr.toNat data) m

/-- POLL (R502). -/
def execPoll (tag : Fin 4) (m : State) : Host.Outcome State Fault Refusal :=
  run (fun s => s.wirePoll tag.val) m

/-- WIRE_REQUEST_MALFORMED (R502). -/
def execWireRequestMalformed (bad : WireBad) (m : State) : Host.Outcome State Fault Refusal :=
  run (fun s => s.wireMalformed bad) m

/-- ATTACH_TIMEOUT (R504). -/
def execAttachTimeout (m : State) : Host.Outcome State Fault Refusal :=
  run (fun s => s.attachTimeout) m

/-- DBG_HALT (R507). -/
def execDbgHalt (src : RegSrc) (data : Word) (m : State) : Host.Outcome State Fault Refusal :=
  run (fun s => s.command src B.DBG O.DBG_CTRL (withField data 0 2 1)) m

/-- DBG_RESUME (R511). -/
def execDbgResume (src : RegSrc) (data : Word) (m : State) : Host.Outcome State Fault Refusal :=
  run (fun s => s.command src B.DBG O.DBG_CTRL (withField data 0 2 2)) m

/-- DBG_STEP (R512). -/
def execDbgStep (src : RegSrc) (data : Word) (m : State) : Host.Outcome State Fault Refusal :=
  run (fun s => s.command src B.DBG O.DBG_CTRL (withField data 0 2 3)) m

/-- RESUMED (R511). -/
def execResumed (m : State) : Host.Outcome State Fault Refusal :=
  run (fun s => s.resumed) m

/-- DBG_HALT_TIDE_LO_READ (R518). -/
def execDbgHaltTideLoRead (src : RegSrc) (peek : Bool) (m : State) : Host.Outcome State Fault Refusal :=
  run (fun s => s.readCommand src peek B.DBG O.DBG_HALT_TIDE_LO) m

/-- DBG_RESUME_AT_LO_READ (R518). -/
def execDbgResumeAtLoRead (src : RegSrc) (peek : Bool) (m : State) : Host.Outcome State Fault Refusal :=
  run (fun s => s.readCommand src peek B.DBG O.DBG_RESUME_AT_LO) m

end Sys2Proof.Machine
end

