-- ==== Sys2Proof/Machine/CmdHold.lean ====
section
/-! DEFINITION. Machine/CmdHold.lean: the hold: row commands, word ports, remap, retention, the bonded region, marches and scrubs
(chapter 05). One meaning for each command, by the rule its docstring names. -/

namespace Sys2Proof.Machine

/-- HOIST (R177). -/
def execHoist (e : Fin 32) (dune : Fin 256) (reg : Fin 2) (row : Fin 512) (m : State) : Host.Outcome State Fault Refusal :=
  run (fun s => s.hlSink e.val (fun s => s.rowCommand false e.val dune.val reg.val row.val)) m

/-- LOWER (R181). -/
def execLower (e : Fin 32) (dune : Fin 256) (reg : Fin 2) (row : Fin 512) (m : State) : Host.Outcome State Fault Refusal :=
  run (fun s => s.hlSink e.val (fun s => s.rowCommand true e.val dune.val reg.val row.val)) m

/-- ROW_CYCLE (R177). -/
def execRowCycle (bank : Fin 8192) (m : State) : Host.Outcome State Fault Refusal :=
  run (fun s => s.clocked 1 (fun s => s.rowCycle bank.val)) m

/-- HOIST_LAND (R179). -/
def execHoistLand (bank : Fin 8192) (m : State) : Host.Outcome State Fault Refusal :=
  run (fun s => s.clocked 0 (fun s => s.hoistLand bank.val)) m

/-- WORD_PORT_READ (R188). -/
def execWordPortRead (bank : Fin 8192) (m : State) : Host.Outcome State Fault Refusal :=
  run (fun s => s.wordPort bank.val (fun s => s.wordPortRead bank.val)) m

/-- WORD_PORT_WRITE (R186). -/
def execWordPortWrite (bank : Fin 8192) (m : State) : Host.Outcome State Fault Refusal :=
  run (fun s => s.wordPort bank.val (fun s => s.wordPortWrite bank.val)) m

/-- PARTIAL_WRITE (R186). -/
def execPartialWrite (bank : Fin 8192) (m : State) : Host.Outcome State Fault Refusal :=
  run (fun s => s.wordPort bank.val (fun s => s.partialWrite bank.val)) m

/-- REMAP_READ (R192). -/
def execRemapRead (src : RegSrc) (k : Fin 8) (data : Word) (m : State) : Host.Outcome State Fault Refusal :=
  run (fun s => s.command src (B.HOLD k.val) O.HOLD_REMAP_CMD (withField data 0 2 1)) m

/-- REMAP_ADD (R192). -/
def execRemapAdd (src : RegSrc) (k : Fin 8) (data : Word) (m : State) : Host.Outcome State Fault Refusal :=
  run (fun s => s.command src (B.HOLD k.val) O.HOLD_REMAP_CMD (withField data 0 2 2)) m

/-- REMAP_MIGRATION (R192). -/
def execRemapMigration (k : Fin 8) (m : State) : Host.Outcome State Fault Refusal :=
  run (fun s => s.clocked 1 (fun s => s.remapMigration k.val)) m

/-- REMAP_ADD_TIMEOUT (R192). -/
def execRemapAddTimeout (k : Fin 8) (m : State) : Host.Outcome State Fault Refusal :=
  run (fun s => s.live (fun s => s.remapAddTimeout k.val)) m

/-- BANK_RETENTION_ENTRY (R195). -/
def execBankRetentionEntry (e : Fin 32) (m : State) : Host.Outcome State Fault Refusal :=
  run (fun s => s.live (fun s => s.bankRetention e.val)) m

/-- BANK_WAKE (R196). -/
def execBankWake (bank : Fin 8192) (m : State) : Host.Outcome State Fault Refusal :=
  run (fun s => s.live (fun s => s.bankWake bank.val)) m

/-- BOND_SET (R197). -/
def execBondSet (src : RegSrc) (data : Word) (m : State) : Host.Outcome State Fault Refusal :=
  run (fun s => s.command src (B.HOLD 0) O.HOLD_BOND_CMD (withField data 0 2 1)) m

/-- BOND_WIPE (R200). -/
def execBondWipe (src : RegSrc) (data : Word) (m : State) : Host.Outcome State Fault Refusal :=
  run (fun s => s.command src (B.HOLD 0) O.HOLD_BOND_CMD (withField data 0 2 2)) m

/-- BOND_WIPED (R199). -/
def execBondWiped (m : State) : Host.Outcome State Fault Refusal :=
  run (fun s => s.clocked 1 Dev.bondWiped) m

/-- MARCH_DESTRUCTIVE (R203). -/
def execMarchDestructive (src : RegSrc) (data : Word) (m : State) : Host.Outcome State Fault Refusal :=
  run (fun s => s.command src B.BIST O.MARCH_CMD (withField data 0 2 1)) m

/-- MARCH_PRESERVING (R203). -/
def execMarchPreserving (src : RegSrc) (data : Word) (m : State) : Host.Outcome State Fault Refusal :=
  run (fun s => s.command src B.BIST O.MARCH_CMD (withField data 0 2 2)) m

/-- MARCH_ABORT (R203). -/
def execMarchAbort (src : RegSrc) (data : Word) (m : State) : Host.Outcome State Fault Refusal :=
  run (fun s => s.command src B.BIST O.MARCH_CMD (withField data 0 2 3)) m

/-- MARCH_DONE (R203). -/
def execMarchDone (fails : List MarchFail) (touched : Nat) (m : State) : Host.Outcome State Fault Refusal :=
  run (fun s => s.unlessStopped B.BIST (fun s => s.marchDone fails touched)) m

/-- SCRB_START (R207). -/
def execScrbStart (src : RegSrc) (data : Word) (m : State) : Host.Outcome State Fault Refusal :=
  run (fun s => s.command src B.SCRB O.SCRB_CMD (withField data 0 2 1)) m

/-- SCRB_ABORT (R207). -/
def execScrbAbort (src : RegSrc) (data : Word) (m : State) : Host.Outcome State Fault Refusal :=
  run (fun s => s.command src B.SCRB O.SCRB_CMD (withField data 0 2 2)) m

/-- SCRUB_ROW (R205). -/
def execScrubRow (place : ScrubPlace) (m : State) : Host.Outcome State Fault Refusal :=
  run (fun s => s.scrubTurn place.idle place.quadrant.val) m

/-- DONE (R207). -/
def execScrubDone (m : State) : Host.Outcome State Fault Refusal :=
  run (fun s => s.live (fun s => s.scrubDone)) m

/-- LAP (R208). -/
def execScrubLap (us : Nat) (m : State) : Host.Outcome State Fault Refusal :=
  run (fun s => s.live (fun s => s.scrubLap us)) m

/-- HOLD_XFER_MAX_READ (R209). -/
def execHoldXferMaxRead (src : RegSrc) (peek : Bool) (m : State) : Host.Outcome State Fault Refusal :=
  run (fun s => s.readCommand src peek (B.HOLD 0) O.HOLD_XFER_MAX) m

end Sys2Proof.Machine
end

