-- ==== Sys2Proof/Machine/CmdHost.lean ====
section
/-! DEFINITION. Machine/CmdHost.lean: the PCI Express port, lighters, Ethernet ports, station time and the CSP pins (chapter 11). One
meaning for each command, by the rule its docstring names. -/

namespace Sys2Proof.Machine

/-- HOST_READ_TLP (R369). -/
def execHostReadTlp (bar : Fin 3) (off : BitVec 40) (len : Fin 4097) (m : State) : Host.Outcome State Fault Refusal :=
  run (fun s => s.live (fun s => s.hostTlp true bar.val off.toNat len.val [])) m

/-- HOST_WRITE_TLP (R369). -/
def execHostWriteTlp (bar : Fin 3) (off : BitVec 40) (data : List Byte) (m : State) : Host.Outcome State Fault Refusal :=
  run (fun s => s.live (fun s => s.hostTlp false bar.val off.toNat data.length data)) m

/-- MSIX_MESSAGE (R371). -/
def execMsixMessage (vector : Fin 256) (m : State) : Host.Outcome State Fault Refusal :=
  run (fun s => s.live (fun s => s.msixMessage vector.val)) m

/-- PCIE_LINK_DOWN (R372). -/
def execPcieLinkDown (m : State) : Host.Outcome State Fault Refusal :=
  run (fun s => s.pcieLinkDown) m

/-- LGT_PROD (R377). -/
def execLgtProd (src : RegSrc) (n : Fin 16) (data : Word) (m : State) : Host.Outcome State Fault Refusal :=
  run (fun s => s.command src B.LGT (O.LGT_PROD n.val) data) m

/-- LGT_STOP (R377). -/
def execLgtStop (src : RegSrc) (n : Fin 16) (data : Word) (m : State) : Host.Outcome State Fault Refusal :=
  run (fun s => s.command src B.LGT (O.LGT_CMD n.val) (withField data 0 2 1)) m

/-- LGT_CLEAR (R377). -/
def execLgtClear (src : RegSrc) (n : Fin 16) (data : Word) (m : State) : Host.Outcome State Fault Refusal :=
  run (fun s => s.command src B.LGT (O.LGT_CMD n.val) (withField data 0 2 2)) m

/-- LGT_CFG (R377). -/
def execLgtCfg (src : RegSrc) (n : Fin 16) (data : Word) (m : State) : Host.Outcome State Fault Refusal :=
  run (fun s => s.command src B.LGT (O.LGT_CFG n.val) data) m

/-- LIGHTER_DESCRIPTOR (R374). -/
def execLighterDescriptor (n : Fin 16) (host : List Byte) (m : State) : Host.Outcome State Fault Refusal :=
  run (fun s => s.live (fun s => s.lighterDescriptor n.val host)) m

/-- LIGHTER_PIECE_DONE (R376). -/
def execLighterPieceDone (n : Fin 16) (off : Nat) (answer : HostAnswer) (m : State) : Host.Outcome State Fault Refusal :=
  run (fun s => s.live (fun s => s.lighterPieceDone n.val off answer)) m

/-- ETH_FRAME_RECEIVE (R378). -/
def execEthFrameReceive (port : Fin 4) (frame : List Byte) (fcsOk : Bool) (m : State) : Host.Outcome State Fault Refusal :=
  run (fun s => s.live (fun s => s.ethFrameReceive port.val frame fcsOk)) m

/-- ETH_RX_DELIVER (R380). -/
def execEthRxDeliver (n : Fin 16) (m : State) : Host.Outcome State Fault Refusal :=
  run (fun s => s.live (fun s => s.ethRxDeliver n.val)) m

/-- ETH_TX_SLOT (R381). -/
def execEthTxSlot (n : Fin 16) (m : State) : Host.Outcome State Fault Refusal :=
  run (fun s => s.live (fun s => s.ethTxSlot n.val)) m

/-- ST_STEP (R385). -/
def execStStep (src : RegSrc) (data : Word) (m : State) : Host.Outcome State Fault Refusal :=
  run (fun s => s.command src B.ETH O.ST_CTRL (withField data 8 1 1)) m

/-- ST_NOW_LO_READ (R383). -/
def execStNowLoRead (src : RegSrc) (peek : Bool) (m : State) : Host.Outcome State Fault Refusal :=
  run (fun s => s.readCommand src peek B.ETH O.ST_NOW_LO) m

/-- ST_PPS_CAP_LO_READ (R390). -/
def execStPpsCapLoRead (src : RegSrc) (peek : Bool) (m : State) : Host.Outcome State Fault Refusal :=
  run (fun s => s.readCommand src peek B.ETH O.ST_PPS_CAP_LO) m

/-- PPS_IN (R386). -/
def execPpsIn (m : State) : Host.Outcome State Fault Refusal :=
  run (fun s => s.ppsIn) m

/-- PPS_OUT (R386). -/
def execPpsOut (m : State) : Host.Outcome State Fault Refusal :=
  run (fun s => s.ppsOut) m

/-- CSP_STREAM (R388). -/
def execCspStream (words : List Word) (m : State) : Host.Outcome State Fault Refusal :=
  run (fun s => s.cspStream words) m

/-- CSP_REG_WRITE (R388). -/
def execCspRegWrite (idx : BitVec 22) (data : Word) (m : State) : Host.Outcome State Fault Refusal :=
  run (fun s => s.cspRegWrite idx.toNat data) m

/-- CSP_REG_READ (R388). -/
def execCspRegRead (idx : BitVec 22) (m : State) : Host.Outcome State Fault Refusal :=
  run (fun s => s.cspRegRead idx.toNat) m

/-- CSP_STATUS (R388). -/
def execCspStatus (m : State) : Host.Outcome State Fault Refusal :=
  run (fun s => s.cspStatus) m

/-- CSP_ERR (R388). -/
def execCspErr (words : List Word) (m : State) : Host.Outcome State Fault Refusal :=
  run (fun s => s.cspErr words) m

end Sys2Proof.Machine
end

