-- ==== Sys2Proof/Machine/CmdImages.lean ====
section
/-! DEFINITION. Machine/CmdImages.lean: the image stream and pipeline, the shoal map, planes (chapters 01, 04, 12). One meaning for each
command, by the rule its docstring names. -/

namespace Sys2Proof.Machine

/-- STREAM_DATA (R413). -/
def execStreamData (src : RegSrc) (aperture : Option (BitVec 12)) (bytes : List Byte) (last : Bool)
    (m : State) : Host.Outcome State Fault Refusal :=
  run (fun s => s.streamCommand src (aperture.map BitVec.toNat) bytes last) m

/-- SIGNATURE_VERIFIED (R397). -/
def execSignatureVerified (m : State) : Host.Outcome State Fault Refusal :=
  run (fun s => s.live (fun s => s.signatureVerified)) m

/-- CFG_ABORT (R416). -/
def execCfgAbort (src : RegSrc) (data : Word) (m : State) : Host.Outcome State Fault Refusal :=
  run (fun s => s.command src B.CFG O.CFG_CMD (withField data 0 3 1)) m

/-- CFG_ACTIVATE (R415). -/
def execCfgActivate (src : RegSrc) (data : Word) (m : State) : Host.Outcome State Fault Refusal :=
  run (fun s => s.command src B.CFG O.CFG_CMD (withField data 0 3 2)) m

/-- WITHDRAW (R416). -/
def execWithdraw (src : RegSrc) (data : Word) (m : State) : Host.Outcome State Fault Refusal :=
  run (fun s => s.command src B.CFG O.CFG_CMD (withField data 0 3 3)) m

/-- PROGRAM (R421). -/
def execProgram (src : RegSrc) (data : Word) (m : State) : Host.Outcome State Fault Refusal :=
  run (fun s => s.command src B.CFG O.CFG_CMD (withField data 0 3 4)) m

/-- SHOAL_PERSIST (R38). -/
def execShoalPersist (m : State) : Host.Outcome State Fault Refusal :=
  run (fun s => s.live (fun s => s.persistMaps)) m

/-- STK_BUNDLE_SEL (R46). -/
def execStkBundleSel (src : RegSrc) (data : Word) (m : State) : Host.Outcome State Fault Refusal :=
  run (fun s => s.command src B.BIST O.STK_BUNDLE_SEL data) m

/-- SHOAL_READ (R46). -/
def execShoalRead (src : RegSrc) (data : Word) (m : State) : Host.Outcome State Fault Refusal :=
  run (fun s => s.command src B.BIST O.STK_SHOAL_CMD (withField data 0 2 1)) m

/-- SHOAL_ADD (R37). -/
def execShoalAdd (src : RegSrc) (data : Word) (m : State) : Host.Outcome State Fault Refusal :=
  run (fun s => s.command src B.BIST O.STK_SHOAL_CMD (withField data 0 2 2)) m

/-- FENCE (R158). -/
def execFence (src : RegSrc) (e : Fin 32) (data : Word) (m : State) : Host.Outcome State Fault Refusal :=
  run (fun s => s.command src (B.ERG e.val) O.ERG_PLANE_CMD (withField data 0 4 1)) m

/-- RELEASE (R151). -/
def execRelease (src : RegSrc) (e : Fin 32) (data : Word) (m : State) : Host.Outcome State Fault Refusal :=
  run (fun s => s.command src (B.ERG e.val) O.ERG_PLANE_CMD (withField data 0 4 2)) m

/-- LEND (R164). -/
def execLend (src : RegSrc) (e : Fin 32) (data : Word) (m : State) : Host.Outcome State Fault Refusal :=
  run (fun s => s.command src (B.ERG e.val) O.ERG_PLANE_CMD (withField data 0 4 3)) m

/-- RECALL (R165). -/
def execRecall (src : RegSrc) (e : Fin 32) (data : Word) (m : State) : Host.Outcome State Fault Refusal :=
  run (fun s => s.command src (B.ERG e.val) O.ERG_PLANE_CMD (withField data 0 4 4)) m

/-- PSW_MAX_READ (R170). -/
def execPswMaxRead (src : RegSrc) (peek : Bool) (m : State) : Host.Outcome State Fault Refusal :=
  run (fun s => s.readCommand src peek B.TIDE O.PSW_MAX) m

end Sys2Proof.Machine
end

