-- ==== Sys2Proof/Machine/CmdJetty.lean ====
section
/-! DEFINITION. Machine/CmdJetty.lean: jetty ports and mooring generators (chapter 10). One meaning for each command, by the rule its
docstring names. -/

namespace Sys2Proof.Machine

/-- JETTY_FRAME_RECEIVE (R358). -/
def execJettyFrameReceive (p : Fin 256) (got : JRecv) (m : State) : Host.Outcome State Fault Refusal :=
  run (fun s => s.live (fun s => s.jettyReceive p.val got)) m

/-- SYNC_LOST (R346). -/
def execSyncLost (p : Fin 256) (m : State) : Host.Outcome State Fault Refusal :=
  run (fun s => s.live (fun s => s.syncLost p.val)) m

/-- RECEIVE_SLOT (R356). -/
def execReceiveSlot (p : Fin 256) (idx : Fin 16) (m : State) : Host.Outcome State Fault Refusal :=
  run (fun s => s.clocked 0 (fun s => s.receiveSlot p.val idx.val)) m

/-- TRANSMIT_SLOT (R355). -/
def execTransmitSlot (p : Fin 256) (idx : Fin 16) (m : State) : Host.Outcome State Fault Refusal :=
  run (fun s => s.clocked 0 (fun s => s.transmitSlot p.val idx.val)) m

/-- MOORING_FRAME (R361). -/
def execMooringFrame (p : Fin 256) (m : State) : Host.Outcome State Fault Refusal :=
  run (fun s => s.mooringFrame p.val) m

/-- JETTY_PLL_LOCK_LOST (R363). -/
def execJettyPllLockLost (m : State) : Host.Outcome State Fault Refusal :=
  run (fun s => s.jettyLockLost) m

end Sys2Proof.Machine
end

