-- ==== Sys2Proof/Machine/CmdLate.lean ====
section
/-! DEFINITION. Machine/CmdLate.lean: locks gained again, links that come up, the island supply (R346, R363, R372, R378, R498). One
meaning for each command, by the rule its docstring names. -/

namespace Sys2Proof.Machine

/-- RX_SYNC (R346). -/
def execRxSync (p : Fin 256) (m : State) : Host.Outcome State Fault Refusal :=
  run (fun s => s.live (fun s => s.rxSync p.val)) m

/-- JETTY_PLL_LOCK (R363). -/
def execJettyPllLock (m : State) : Host.Outcome State Fault Refusal :=
  run (fun s => s.jettyLocked) m

/-- PCIE_LINK_UP (R372). -/
def execPcieLinkUp (gen : Fin 3) (width : Fin 4) (bar4 : Fin 6) (m : State) : Host.Outcome State Fault Refusal :=
  run (fun s => s.pcieLinkUp (4 + gen.val) (([1, 4, 8, 16] : List Nat).getD width.val 1) bar4.val) m

/-- LINK_CHG (R378). -/
def execLinkChg (port : Fin 4) (up : Bool) (m : State) : Host.Outcome State Fault Refusal :=
  run (fun s => s.live (fun s => s.ethLinkChg port.val up)) m

/-- ISLAND_POWER_UP (R498). -/
def execIslandPowerUp (m : State) : Host.Outcome State Fault Refusal :=
  run (fun s => s.islandUp) m

end Sys2Proof.Machine
end

