-- ==== Sys2Proof/Machine/CmdMemory.lean ====
section
/-! DEFINITION. Machine/CmdMemory.lean: the GDDR7 memory controllers (chapter 07). One meaning for each command, by the rule its
docstring names. -/

namespace Sys2Proof.Machine

/-- DMC_START (R272). -/
def execDmcStart (src : RegSrc) (k : Fin 8) (data : Word) (m : State) : Host.Outcome State Fault Refusal :=
  run (fun s => s.command src (B.DMC k.val) O.DMC_CMD (withField data 0 3 1)) m

/-- DMC_GO (R272). -/
def execDmcGo (src : RegSrc) (k : Fin 8) (data : Word) (m : State) : Host.Outcome State Fault Refusal :=
  run (fun s => s.command src (B.DMC k.val) O.DMC_CMD (withField data 0 3 2)) m

/-- DMC_MAINT (R276). -/
def execDmcMaint (src : RegSrc) (k : Fin 8) (data : Word) (m : State) : Host.Outcome State Fault Refusal :=
  run (fun s => s.command src (B.DMC k.val) O.DMC_CMD (withField data 0 3 3)) m

/-- DMC_END (R276). -/
def execDmcEnd (src : RegSrc) (k : Fin 8) (data : Word) (m : State) : Host.Outcome State Fault Refusal :=
  run (fun s => s.command src (B.DMC k.val) O.DMC_CMD (withField data 0 3 4)) m

/-- WR_FIFO (R275). -/
def execWrFifo (src : RegSrc) (k : Fin 8) (data : Word) (m : State) : Host.Outcome State Fault Refusal :=
  run (fun s => s.command src (B.DMC k.val) O.DMC_TRAIN_CMD (withField data 0 2 1)) m

/-- RD_FIFO (R275). -/
def execRdFifo (src : RegSrc) (k : Fin 8) (data : Word) (m : State) : Host.Outcome State Fault Refusal :=
  run (fun s => s.command src (B.DMC k.val) O.DMC_TRAIN_CMD (withField data 0 2 2)) m

/-- CA_LOOP (R275). -/
def execCaLoop (src : RegSrc) (k : Fin 8) (data : Word) (m : State) : Host.Outcome State Fault Refusal :=
  run (fun s => s.command src (B.DMC k.val) O.DMC_TRAIN_CMD (withField data 0 2 3)) m

/-- TRAIN_DONE (R275). -/
def execTrainDone (k : Fin 8) (errs : List (Fin 56 × BitVec 16)) (m : State) : Host.Outcome State Fault Refusal :=
  run (fun s => s.clocked 3 (fun s => s.trainDone k.val (errs.map (fun x => (x.1.val, x.2.toNat))))) m

/-- DMC_MRW (R274). -/
def execDmcMrw (src : RegSrc) (k : Fin 8) (data : Word) (m : State) : Host.Outcome State Fault Refusal :=
  run (fun s => s.command src (B.DMC k.val) O.DMC_MRW (withField data 31 1 1)) m

/-- APPLY (R257). -/
def execMapApply (src : RegSrc) (data : Word) (m : State) : Host.Outcome State Fault Refusal :=
  run (fun s => s.command src (B.DMC 0) O.DMC_MAP_CMD (withField data 0 1 1)) m

/-- DMC_LANE_SEL (R278). -/
def execDmcLaneSel (src : RegSrc) (k : Fin 8) (data : Word) (m : State) : Host.Outcome State Fault Refusal :=
  run (fun s => s.command src (B.DMC k.val) O.DMC_LANE_SEL data) m

/-- REFRESH (R268). -/
def execRefresh (k : Fin 8) (ch : Fin 4) (m : State) : Host.Outcome State Fault Refusal :=
  run (fun s => s.clocked 3 (fun s => s.refresh k.val ch.val)) m

/-- DMC_ACCESS (R266). -/
def execDmcAccess (k : Fin 8) (bank : Fin 64) (found : AccessFound) (m : State) : Host.Outcome State Fault Refusal :=
  run (fun s => s.clocked 3 (fun s => s.dmcAccess k.val bank.val found)) m

/-- WRITE_CRC_REPORT (R264). -/
def execWriteCrcReport (place : ReportPlace) (m : State) : Host.Outcome State Fault Refusal :=
  run (fun s => s.clocked 3 (fun s => s.writeCrcReport place.dmc.val place.line.val)) m

/-- CA_ERR (R264). -/
def execCaErr (k : Fin 8) (recent : Nat) (m : State) : Host.Outcome State Fault Refusal :=
  run (fun s => s.clocked 3 (fun s => s.caErr k.val recent)) m

end Sys2Proof.Machine
end

