-- ==== Sys2Proof/Machine/CmdNetwork.lean ====
section
/-! DEFINITION. Machine/CmdNetwork.lean: the Harbour Network: routers, messages at their endpoints, timers, locks, arbiters (chapter 06).
One meaning for each command, by the rule its docstring names. -/

namespace Sys2Proof.Machine

/-- ROUTER_HOP (R227). -/
def execRouterHop (router : Fin 72) (output : Fin 6) (errs : List (Fin 4 × BitVec 72)) (m : State) : Host.Outcome State Fault Refusal :=
  run (fun s => s.clocked 2 (fun s => s.routerHop router.val output.val (errs.map (fun x => (x.1.val, x.2))))) m

/-- NET_READ (R221). -/
def execNetRead (msg : Msg) (m : State) : Host.Outcome State Fault Refusal :=
  run (fun s => s.netRead msg) m

/-- NET_WRITE (R221). -/
def execNetWrite (msg : Msg) (m : State) : Host.Outcome State Fault Refusal :=
  run (fun s => s.netWrite msg) m

/-- NET_RESPONSE (R234). -/
def execNetResponse (msg : Msg) (m : State) : Host.Outcome State Fault Refusal :=
  run (fun s => s.netResponse msg) m

/-- NET_ACQUIRE (R238). -/
def execNetAcquire (msg : Msg) (m : State) : Host.Outcome State Fault Refusal :=
  run (fun s => s.netAcquire msg) m

/-- NET_RELINQUISH (R238). -/
def execNetRelinquish (msg : Msg) (m : State) : Host.Outcome State Fault Refusal :=
  run (fun s => s.netRelinquish msg) m

/-- NET_MREAD (R221). -/
def execNetMread (msg : Msg) (m : State) : Host.Outcome State Fault Refusal :=
  run (fun s => s.netMread msg) m

/-- NET_MWRITE (R221). -/
def execNetMwrite (msg : Msg) (m : State) : Host.Outcome State Fault Refusal :=
  run (fun s => s.netMwrite msg) m

/-- INITIATOR_TIMEOUT (R236). -/
def execInitiatorTimeout (who : Src) (tag : BitVec 9) (m : State) : Host.Outcome State Fault Refusal :=
  run (fun s => s.initiatorTimeout who tag.toNat) m

/-- LEASE_EXP (R240). -/
def execLeaseExp (table : Fin 40) (line : Nat) (m : State) : Host.Outcome State Fault Refusal :=
  run (fun s => s.live (fun s => s.leaseExp table.val line)) m

/-- ARBITER_GRANT (R243). -/
def execArbiterGrant (arb : Fin 8200) (m : State) : Host.Outcome State Fault Refusal :=
  run (fun s => s.arbTurn arb.val) m

/-- ARBITER_WINDOW (R244). -/
def execArbiterWindow (arb : Fin 8200) (m : State) : Host.Outcome State Fault Refusal :=
  run (fun s => s.clocked 2 (fun s => s.arbiterWindow arb.val)) m

/-- ARB_CUT (R246). -/
def execArbCut (arb : Fin 8200) (m : State) : Host.Outcome State Fault Refusal :=
  run (fun s => s.clocked 2 (fun s => s.arbCut arb.val)) m

/-- HN_SCH_MAXWAIT_READ (R252). -/
def execHnSchMaxwaitRead (src : RegSrc) (peek : Bool) (m : State) : Host.Outcome State Fault Refusal :=
  run (fun s => s.readCommand src peek B.HN O.HN_SCH_MAXWAIT) m

end Sys2Proof.Machine
end

