-- ==== Sys2Proof/Machine/CmdPower.lean ====
section
/-! DEFINITION. Machine/CmdPower.lean: Slack, the power monitor, temperature and wear (chapter 15). One meaning for each command, by the
rule its docstring names. -/

namespace Sys2Proof.Machine

/-- SLEEP_ERGS (R475). -/
def execSleepErgs (src : RegSrc) (data : Word) (m : State) : Host.Outcome State Fault Refusal :=
  run (fun s => s.command src B.PWR O.PWR_SLEEP_CMD (withField data 0 3 1)) m

/-- WAKE_ERGS (R477). -/
def execWakeErgs (src : RegSrc) (data : Word) (m : State) : Host.Outcome State Fault Refusal :=
  run (fun s => s.command src B.PWR O.PWR_SLEEP_CMD (withField data 0 3 2)) m

/-- SLEEP_DEVICE (R478). -/
def execSleepDevice (src : RegSrc) (data : Word) (m : State) : Host.Outcome State Fault Refusal :=
  run (fun s => s.command src B.PWR O.PWR_SLEEP_CMD (withField data 0 3 3)) m

/-- WAKE_DEVICE (R479). -/
def execWakeDevice (src : RegSrc) (data : Word) (m : State) : Host.Outcome State Fault Refusal :=
  run (fun s => s.command src B.PWR O.PWR_SLEEP_CMD (withField data 0 3 4)) m

/-- ERG_DOWN (R476). -/
def execErgDown (e : Fin 32) (m : State) : Host.Outcome State Fault Refusal :=
  run (fun s => s.live (fun s => s.ergDown e.val)) m

/-- ERG_UP (R477). -/
def execErgUp (e : Fin 32) (m : State) : Host.Outcome State Fault Refusal :=
  run (fun s => s.live (fun s => s.ergUp e.val)) m

/-- DEV_WAKE (R480). -/
def execDevWake (m : State) : Host.Outcome State Fault Refusal :=
  run (fun s => s.live (fun s => s.devWake)) m

/-- POWER_ESTIMATE (R473). -/
def execPowerEstimate (ergs : List ErgEst) (rails : List Nat) (m : State) : Host.Outcome State Fault Refusal :=
  run (fun s => s.powerEstimate ergs rails) m

/-- PWR_RAIL_I_READ (R495). -/
def execPwrRailIRead (src : RegSrc) (peek : Bool) (m : State) : Host.Outcome State Fault Refusal :=
  run (fun s => s.readCommand src peek B.PWR O.PWR_RAIL_I) m

/-- THERMAL_SWEEP (R484). -/
def execThermalSweep (readings : List (Option Int)) (m : State) : Host.Outcome State Fault Refusal :=
  run (fun s => s.thermalSweep readings) m

/-- WEAR_PERSIST (R494). -/
def execWearPersist (m : State) : Host.Outcome State Fault Refusal :=
  run (fun s => s.wearPersist) m

/-- THM_LIM_WRITE (R485). -/
def execThmLimWrite (src : RegSrc) (n : Fin 4) (data : Word) (m : State) : Host.Outcome State Fault Refusal :=
  run (fun s => s.command src B.THM (O.THM_LIM n.val) data) m

/-- THM_SEL (R495). -/
def execThmSel (src : RegSrc) (data : Word) (m : State) : Host.Outcome State Fault Refusal :=
  run (fun s => s.command src B.THM O.THM_SEL data) m

/-- RESUME (R489). -/
def execThmResume (src : RegSrc) (data : Word) (m : State) : Host.Outcome State Fault Refusal :=
  run (fun s => s.command src B.THM O.THM_CMD (withField data 0 1 1)) m

end Sys2Proof.Machine
end

