-- ==== Sys2Proof/Machine/CmdRegister.lean ====
section
/-! DEFINITION. Machine/CmdRegister.lean: the register commands of every block: accesses, locks, event and error injection (R3 to R17,
R534). One meaning for each command, by the rule its docstring names. -/

namespace Sys2Proof.Machine

/-- REGISTER_WRITE (R4). -/
def execRegisterWrite (src : RegSrc) (addr : BitVec 22) (data : Word) (m : State) : Host.Outcome State Fault Refusal :=
  run (fun s => s.accessWrite src.src (regOffset addr) data) m

/-- NARROW_ACCESS (R3). -/
def execNarrowAccess (src : RegSrc) (addr : BitVec 24) (size : Fin 9) (m : State) : Host.Outcome State Fault Refusal :=
  run (fun s => s.narrowAccess) m

/-- LOCK (R4). -/
def execLock (src : RegSrc) (blk : BitVec 8) (data : Word) (m : State) : Host.Outcome State Fault Refusal :=
  run (fun s => s.command src blk.toNat O.BLK_CTRL (withField data 31 1 1)) m

/-- REFUSE_CLR (R8). -/
def execRefuseClr (src : RegSrc) (blk : BitVec 8) (data : Word) (m : State) : Host.Outcome State Fault Refusal :=
  run (fun s => s.command src blk.toNat O.BLK_CTRL (withField data 1 1 1)) m

/-- EVT_FORCE (R10). -/
def execEvtForce (src : RegSrc) (blk : BitVec 8) (data : Word) (m : State) : Host.Outcome State Fault Refusal :=
  run (fun s => s.command src blk.toNat O.EVT_FORCE data) m

/-- ECC_FLIP_ARM (R13). -/
def execEccFlipArm (src : RegSrc) (blk : BitVec 8) (data : Word) (m : State) : Host.Outcome State Fault Refusal :=
  run (fun s => s.command src blk.toNat O.ECC_FLIP_LO data) m

/-- BUCKET_LEAK (R534). -/
def execBucketLeak (blk : BitVec 8) (m : State) : Host.Outcome State Fault Refusal :=
  run (fun s => s.bucketLeak blk.toNat) m

end Sys2Proof.Machine
end

