-- ==== Sys2Proof/Machine/CmdSecurity.lean ====
section
/-! DEFINITION. Machine/CmdSecurity.lean: the SEC block, tamper sources, the random number generator (chapter 13). One meaning for each
command, by the rule its docstring names. -/

namespace Sys2Proof.Machine

/-- NONCE (R436). -/
def execNonce (src : RegSrc) (data : Word) (m : State) : Host.Outcome State Fault Refusal :=
  run (fun s => s.command src B.SEC O.SEC_CMD (withField data 0 4 1)) m

/-- OPEN_TOKEN (R437). -/
def execOpenToken (src : RegSrc) (data : Word) (m : State) : Host.Outcome State Fault Refusal :=
  run (fun s => s.command src B.SEC O.SEC_CMD (withField data 0 4 2)) m

/-- OPEN_PASSWORD (R438). -/
def execOpenPassword (src : RegSrc) (data : Word) (m : State) : Host.Outcome State Fault Refusal :=
  run (fun s => s.command src B.SEC O.SEC_CMD (withField data 0 4 3)) m

/-- CLOSE (R440). -/
def execClose (src : RegSrc) (data : Word) (m : State) : Host.Outcome State Fault Refusal :=
  run (fun s => s.command src B.SEC O.SEC_CMD (withField data 0 4 4)) m

/-- ATTEST (R443). -/
def execAttest (src : RegSrc) (data : Word) (m : State) : Host.Outcome State Fault Refusal :=
  run (fun s => s.command src B.SEC O.SEC_CMD (withField data 0 4 5)) m

/-- GET_IDKEY (R442). -/
def execGetIdkey (src : RegSrc) (data : Word) (m : State) : Host.Outcome State Fault Refusal :=
  run (fun s => s.command src B.SEC O.SEC_CMD (withField data 0 4 6)) m

/-- LC_ADVANCE (R430). -/
def execLcAdvance (src : RegSrc) (data : Word) (m : State) : Host.Outcome State Fault Refusal :=
  run (fun s => s.command src B.SEC O.SEC_CMD (withField data 0 4 7)) m

/-- SET_PASSWORD (R438). -/
def execSetPassword (src : RegSrc) (data : Word) (m : State) : Host.Outcome State Fault Refusal :=
  run (fun s => s.command src B.SEC O.SEC_CMD (withField data 0 4 8)) m

/-- DRYDOCK (R447). -/
def execDrydock (src : RegSrc) (data : Word) (m : State) : Host.Outcome State Fault Refusal :=
  run (fun s => s.command src B.SEC O.SEC_CMD (withField data 0 4 9)) m

/-- BOOTCFG (R440). -/
def execBootcfg (src : RegSrc) (data : Word) (m : State) : Host.Outcome State Fault Refusal :=
  run (fun s => s.command src B.SEC O.SEC_CMD (withField data 0 4 10)) m

/-- SEC_MBOX_DATA (R448). -/
def execSecMboxData (src : RegSrc) (write : Option Word) (peek : Bool) (m : State) : Host.Outcome State Fault Refusal :=
  run (fun s => s.mboxAccess src write peek) m

/-- TAMPER_INPUT (R444). -/
def execTamperInput (input : Fin 4) (m : State) : Host.Outcome State Fault Refusal :=
  run (fun s => s.tamperInput input.val) m

/-- VOLTAGE_MONITOR (R444). -/
def execVoltageMonitor (rail : Fin 5) (m : State) : Host.Outcome State Fault Refusal :=
  run (fun s => s.voltageMonitor rail.val) m

/-- CLOCK_GLITCH (R444). -/
def execClockGlitch (domain : Fin 4) (m : State) : Host.Outcome State Fault Refusal :=
  run (fun s => s.clockGlitch domain.val) m

/-- TAMPER_BEACON (R446). -/
def execTamperBeacon (m : State) : Host.Outcome State Fault Refusal :=
  run (fun s => s.tamperBeacon) m

/-- RNG_FAIL (R434). -/
def execRngFail (m : State) : Host.Outcome State Fault Refusal :=
  run (fun s => s.live (fun s => s.rngFail)) m

/-- RNG_RESTART (R434). -/
def execRngRestart (m : State) : Host.Outcome State Fault Refusal :=
  run (fun s => s.live (fun s => s.rngRestart)) m

end Sys2Proof.Machine
end

