-- ==== Sys2Proof/Machine/CmdTest.lean ====
section
/-! DEFINITION. Machine/CmdTest.lean: dry-dock slots, test runs, scan, plane-store scrubbers, the fault log (chapter 17). One meaning for
each command, by the rule its docstring names. -/

namespace Sys2Proof.Machine

/-- DRYDOCK_SLOT (R523). -/
def execDrydockSlot (e : Fin 32) (finds : List TestFind) (m : State) : Host.Outcome State Fault Refusal :=
  run (fun s => s.live (fun s => s.drydockSlot e.val finds)) m

/-- FABRIC_PATTERN_WRITE (R524). -/
def execFabricPatternWrite (e : Fin 32) (m : State) : Host.Outcome State Fault Refusal :=
  run (fun s => s.live (fun s => s.patternWrite e.val)) m

/-- DD_RUN (R528). -/
def execDdRun (src : RegSrc) (data : Word) (m : State) : Host.Outcome State Fault Refusal :=
  run (fun s => s.command src B.BIST O.BIST_DD_CMD (withField data 0 2 1)) m

/-- DD_ABORT (R528). -/
def execDdAbort (src : RegSrc) (data : Word) (m : State) : Host.Outcome State Fault Refusal :=
  run (fun s => s.command src B.BIST O.BIST_DD_CMD (withField data 0 2 2)) m

/-- DD_RUN_DONE (R528). -/
def execDdRunDone (finds : List (Fin 32 × TestFind)) (slices : Nat) (m : State) : Host.Outcome State Fault Refusal :=
  run (fun s => s.unlessStopped B.BIST (fun s => s.ddRunDone finds slices)) m

/-- BIST_RES_LO_READ (R540). -/
def execBistResLoRead (src : RegSrc) (peek : Bool) (m : State) : Host.Outcome State Fault Refusal :=
  run (fun s => s.readCommand src peek B.BIST O.BIST_RES_LO) m

/-- BIST_SCAN_DATA (R529). -/
def execBistScanData (src : RegSrc) (data : Word) (m : State) : Host.Outcome State Fault Refusal :=
  run (fun s => s.command src B.BIST O.BIST_SCAN_DATA data) m

/-- PLANE_SCRUB_READ (R531). -/
def execPlaneScrubRead (e : Fin 32) (bad : Nat) (m : State) : Host.Outcome State Fault Refusal :=
  run (fun s => s.live (fun s => s.planeScrub e.val bad)) m

/-- SCRUB_STALL (R533). -/
def execScrubStall (e : Fin 32) (m : State) : Host.Outcome State Fault Refusal :=
  run (fun s => s.live (fun s => s.scrubStall e.val)) m

/-- LH_FLOG_PORT_READ (R537). -/
def execLhFlogPortRead (src : RegSrc) (peek : Bool) (m : State) : Host.Outcome State Fault Refusal :=
  run (fun s => s.readCommand src peek B.LH O.LH_FLOG_PORT) m

end Sys2Proof.Machine
end

