-- ==== Sys2Proof/Machine/CmdTide.lean ====
section
/-! DEFINITION. Machine/CmdTide.lean: the fabric tick, sentinels, tides, crossings, scheduled transfers and admission (chapters 01 to
03). One meaning for each command, by the rule its docstring names. -/

namespace Sys2Proof.Machine

/-- FABRIC_TICK (R95). -/
def execFabricTick (m : State) : Host.Outcome State Fault Refusal :=
  run (fun s => s.clocked 0 Dev.fabricTick) m

/-- SENTINEL_FAIL (R30). -/
def execSentinelFail (bundle : BitVec 26) (m : State) : Host.Outcome State Fault Refusal :=
  run (fun s => s.live (fun s => s.sentinelFail bundle.toNat)) m

/-- TIDE_TURN (R54). -/
def execTideTurn (m : State) : Host.Outcome State Fault Refusal :=
  run (fun s => s.clocked 0 Dev.tideTurn) m

/-- TIDE_CTRL_START (R57). -/
def execTideCtrlStart (src : RegSrc) (data : Word) (m : State) : Host.Outcome State Fault Refusal :=
  run (fun s => s.command src B.TIDE O.TIDE_CTRL (withField data 0 2 1)) m

/-- TIDE_CTRL_STOP (R58). -/
def execTideCtrlStop (src : RegSrc) (data : Word) (m : State) : Host.Outcome State Fault Refusal :=
  run (fun s => s.command src B.TIDE O.TIDE_CTRL (withField data 0 2 2)) m

/-- BREACH_CLR (R89). -/
def execBreachClr (src : RegSrc) (data : Word) (m : State) : Host.Outcome State Fault Refusal :=
  run (fun s => s.command src B.TIDE O.TIDE_CTRL (withField data 2 1 1)) m

/-- TIDE_START (R57). -/
def execTideStart (m : State) : Host.Outcome State Fault Refusal :=
  run (fun s => s.clocked 0 Dev.tideStart) m

/-- XING_RELEASE (R59). -/
def execXingRelease (queue : Fin 34320) (arrival : Nat) (m : State) : Host.Outcome State Fault Refusal :=
  run (fun s => s.live (fun s => s.xingRelease queue.val arrival)) m

/-- SCHED_ISSUE_TICK (R67). -/
def execSchedIssueTick (decl : BitVec 13) (m : State) : Host.Outcome State Fault Refusal :=
  run (fun s => s.live (fun s => s.schedIssueTick decl.toNat)) m

/-- SCHED_COMPLETE (R66). -/
def execSchedComplete (decl : BitVec 13) (issueTide : Nat) (status : Status) (data : List Byte)
    (m : State) : Host.Outcome State Fault Refusal :=
  run (fun s => s.live (fun s => s.schedComplete decl.toNat issueTide status data)) m

/-- TIDE_NUM_LO_READ (R89). -/
def execTideNumLoRead (src : RegSrc) (peek : Bool) (m : State) : Host.Outcome State Fault Refusal :=
  run (fun s => s.readCommand src peek B.TIDE O.TIDE_NUM_LO) m

/-- TURN_TIME_LO_READ (R89). -/
def execTurnTimeLoRead (src : RegSrc) (peek : Bool) (m : State) : Host.Outcome State Fault Refusal :=
  run (fun s => s.readCommand src peek B.TIDE O.TURN_TIME_LO) m

/-- TIDE_SKEW_READ (R89). -/
def execTideSkewRead (src : RegSrc) (peek : Bool) (m : State) : Host.Outcome State Fault Refusal :=
  run (fun s => s.readCommand src peek B.TIDE O.TIDE_SKEW) m

/-- ADM_BOUND_SEL (R89). -/
def execAdmBoundSel (src : RegSrc) (data : Word) (m : State) : Host.Outcome State Fault Refusal :=
  run (fun s => s.command src B.ADM O.ADM_BOUND_SEL data) m

/-- ADMISSION (R75). -/
def execAdmission (m : State) : Host.Outcome State Fault Refusal :=
  run (fun s => s.live (fun s => s.admission)) m

end Sys2Proof.Machine
end

