-- ==== Sys2Proof/Machine/Dispatch.lean ====
section
/-! DEFINITION. Machine/Dispatch.lean: one arm for each command, a direct call of its meaning. -/

namespace Sys2Proof.Machine

/-- The effect of a command on everything but the queue. -/
def exec (i : Instr) (s : State) : Host.Outcome State Fault Refusal :=
  match i with
  | .registerWrite src addr data => Sys2Proof.Machine.execRegisterWrite src addr data s
  | .narrowAccess src addr size => Sys2Proof.Machine.execNarrowAccess src addr size s
  | .lock src blk data => Sys2Proof.Machine.execLock src blk data s
  | .refuseClr src blk data => Sys2Proof.Machine.execRefuseClr src blk data s
  | .evtForce src blk data => Sys2Proof.Machine.execEvtForce src blk data s
  | .eccFlipArm src blk data => Sys2Proof.Machine.execEccFlipArm src blk data s
  | .bucketLeak blk => Sys2Proof.Machine.execBucketLeak blk s
  | .fabricTick => Sys2Proof.Machine.execFabricTick s
  | .sentinelFail bundle => Sys2Proof.Machine.execSentinelFail bundle s
  | .tideTurn => Sys2Proof.Machine.execTideTurn s
  | .tideCtrlStart src data => Sys2Proof.Machine.execTideCtrlStart src data s
  | .tideCtrlStop src data => Sys2Proof.Machine.execTideCtrlStop src data s
  | .breachClr src data => Sys2Proof.Machine.execBreachClr src data s
  | .tideStart => Sys2Proof.Machine.execTideStart s
  | .xingRelease queue arrival => Sys2Proof.Machine.execXingRelease queue arrival s
  | .schedIssueTick decl => Sys2Proof.Machine.execSchedIssueTick decl s
  | .schedComplete decl issueTide status data => Sys2Proof.Machine.execSchedComplete decl issueTide status data s
  | .tideNumLoRead src peek => Sys2Proof.Machine.execTideNumLoRead src peek s
  | .turnTimeLoRead src peek => Sys2Proof.Machine.execTurnTimeLoRead src peek s
  | .tideSkewRead src peek => Sys2Proof.Machine.execTideSkewRead src peek s
  | .admBoundSel src data => Sys2Proof.Machine.execAdmBoundSel src data s
  | .admission => Sys2Proof.Machine.execAdmission s
  | .berthRead b msg => Sys2Proof.Machine.execBerthRead b msg s
  | .berthWrite b msg => Sys2Proof.Machine.execBerthWrite b msg s
  | .berthSched b msg => Sys2Proof.Machine.execBerthSched b msg s
  | .berthResponse b msg => Sys2Proof.Machine.execBerthResponse b msg s
  | .berthAcquire b msg => Sys2Proof.Machine.execBerthAcquire b msg s
  | .berthRelinquish b msg => Sys2Proof.Machine.execBerthRelinquish b msg s
  | .releaseRead b beat => Sys2Proof.Machine.execReleaseRead b beat s
  | .releaseReadReturn b => Sys2Proof.Machine.execReleaseReadReturn b s
  | .servedRequestPresent b => Sys2Proof.Machine.execServedRequestPresent b s
  | .lateDeliveryPresent b => Sys2Proof.Machine.execLateDeliveryPresent b s
  | .notePresent b => Sys2Proof.Machine.execNotePresent b s
  | .ergNotePost src e data => Sys2Proof.Machine.execErgNotePost src e data s
  | .hoist e dune reg row => Sys2Proof.Machine.execHoist e dune reg row s
  | .lower e dune reg row => Sys2Proof.Machine.execLower e dune reg row s
  | .rowCycle bank => Sys2Proof.Machine.execRowCycle bank s
  | .hoistLand bank => Sys2Proof.Machine.execHoistLand bank s
  | .wordPortRead bank => Sys2Proof.Machine.execWordPortRead bank s
  | .wordPortWrite bank => Sys2Proof.Machine.execWordPortWrite bank s
  | .partialWrite bank => Sys2Proof.Machine.execPartialWrite bank s
  | .remapRead src k data => Sys2Proof.Machine.execRemapRead src k data s
  | .remapAdd src k data => Sys2Proof.Machine.execRemapAdd src k data s
  | .remapMigration k => Sys2Proof.Machine.execRemapMigration k s
  | .remapAddTimeout k => Sys2Proof.Machine.execRemapAddTimeout k s
  | .bankRetentionEntry e => Sys2Proof.Machine.execBankRetentionEntry e s
  | .bankWake bank => Sys2Proof.Machine.execBankWake bank s
  | .bondSet src data => Sys2Proof.Machine.execBondSet src data s
  | .bondWipe src data => Sys2Proof.Machine.execBondWipe src data s
  | .bondWiped => Sys2Proof.Machine.execBondWiped s
  | .marchDestructive src data => Sys2Proof.Machine.execMarchDestructive src data s
  | .marchPreserving src data => Sys2Proof.Machine.execMarchPreserving src data s
  | .marchAbort src data => Sys2Proof.Machine.execMarchAbort src data s
  | .marchDone fails touched => Sys2Proof.Machine.execMarchDone fails touched s
  | .scrbStart src data => Sys2Proof.Machine.execScrbStart src data s
  | .scrbAbort src data => Sys2Proof.Machine.execScrbAbort src data s
  | .scrubRow place => Sys2Proof.Machine.execScrubRow place s
  | .scrubDone => Sys2Proof.Machine.execScrubDone s
  | .scrubLap us => Sys2Proof.Machine.execScrubLap us s
  | .holdXferMaxRead src peek => Sys2Proof.Machine.execHoldXferMaxRead src peek s
  | .routerHop router output errs => Sys2Proof.Machine.execRouterHop router output errs s
  | .netRead msg => Sys2Proof.Machine.execNetRead msg s
  | .netWrite msg => Sys2Proof.Machine.execNetWrite msg s
  | .netResponse msg => Sys2Proof.Machine.execNetResponse msg s
  | .netAcquire msg => Sys2Proof.Machine.execNetAcquire msg s
  | .netRelinquish msg => Sys2Proof.Machine.execNetRelinquish msg s
  | .netMread msg => Sys2Proof.Machine.execNetMread msg s
  | .netMwrite msg => Sys2Proof.Machine.execNetMwrite msg s
  | .initiatorTimeout who tag => Sys2Proof.Machine.execInitiatorTimeout who tag s
  | .leaseExp table line => Sys2Proof.Machine.execLeaseExp table line s
  | .arbiterGrant arb => Sys2Proof.Machine.execArbiterGrant arb s
  | .arbiterWindow arb => Sys2Proof.Machine.execArbiterWindow arb s
  | .arbCut arb => Sys2Proof.Machine.execArbCut arb s
  | .hnSchMaxwaitRead src peek => Sys2Proof.Machine.execHnSchMaxwaitRead src peek s
  | .dmcStart src k data => Sys2Proof.Machine.execDmcStart src k data s
  | .dmcGo src k data => Sys2Proof.Machine.execDmcGo src k data s
  | .dmcMaint src k data => Sys2Proof.Machine.execDmcMaint src k data s
  | .dmcEnd src k data => Sys2Proof.Machine.execDmcEnd src k data s
  | .wrFifo src k data => Sys2Proof.Machine.execWrFifo src k data s
  | .rdFifo src k data => Sys2Proof.Machine.execRdFifo src k data s
  | .caLoop src k data => Sys2Proof.Machine.execCaLoop src k data s
  | .trainDone k errs => Sys2Proof.Machine.execTrainDone k errs s
  | .dmcMrw src k data => Sys2Proof.Machine.execDmcMrw src k data s
  | .mapApply src data => Sys2Proof.Machine.execMapApply src data s
  | .dmcLaneSel src k data => Sys2Proof.Machine.execDmcLaneSel src k data s
  | .refresh k ch => Sys2Proof.Machine.execRefresh k ch s
  | .dmcAccess k bank found => Sys2Proof.Machine.execDmcAccess k bank found s
  | .writeCrcReport place => Sys2Proof.Machine.execWriteCrcReport place s
  | .caErr k recent => Sys2Proof.Machine.execCaErr k recent s
  | .rangeEnable src data => Sys2Proof.Machine.execRangeEnable src data s
  | .rangeDisable src data => Sys2Proof.Machine.execRangeDisable src data s
  | .rekey src data => Sys2Proof.Machine.execRekey src data s
  | .rekeyAbort src data => Sys2Proof.Machine.execRekeyAbort src data s
  | .initDone range => Sys2Proof.Machine.execInitDone range s
  | .keyGen src data => Sys2Proof.Machine.execKeyGen src data s
  | .keyUnwrap src data => Sys2Proof.Machine.execKeyUnwrap src data s
  | .keyRetire src data => Sys2Proof.Machine.execKeyRetire src data s
  | .keyZeroise src data => Sys2Proof.Machine.execKeyZeroise src data s
  | .metaFetch range page found => Sys2Proof.Machine.execMetaFetch range page found s
  | .pageReencrypt engine => Sys2Proof.Machine.execPageReencrypt engine s
  | .rekeyUnit => Sys2Proof.Machine.execRekeyUnit s
  | .walkDone => Sys2Proof.Machine.execWalkDone s
  | .linkEnable src n data => Sys2Proof.Machine.execLinkEnable src n data s
  | .retrain src n data => Sys2Proof.Machine.execRetrain src n data s
  | .keySwitch src n data => Sys2Proof.Machine.execKeySwitch src n data s
  | .ts1Row n blocks skew polarity => Sys2Proof.Machine.execTs1Row n blocks skew polarity s
  | .ts2Row n block => Sys2Proof.Machine.execTs2Row n block s
  | .sofRow n => Sys2Proof.Machine.execSofRow n s
  | .trainFail n => Sys2Proof.Machine.execTrainFail n s
  | .frameSend n => Sys2Proof.Machine.execFrameSend n s
  | .frameReceive n blocks badHeaders => Sys2Proof.Machine.execFrameReceive n blocks badHeaders s
  | .relockTimeout n => Sys2Proof.Machine.execRelockTimeout n s
  | .svcBreach n payload => Sys2Proof.Machine.execSvcBreach n payload s
  | .svcHalt n payload => Sys2Proof.Machine.execSvcHalt n payload s
  | .svcResume n payload => Sys2Proof.Machine.execSvcResume n payload s
  | .startA n payload => Sys2Proof.Machine.execStartA n payload s
  | .startB n payload => Sys2Proof.Machine.execStartB n payload s
  | .svcTurn n payload => Sys2Proof.Machine.execSvcTurn n payload s
  | .sync n payload => Sys2Proof.Machine.execSync n payload s
  | .syncRx n payload => Sys2Proof.Machine.execSyncRx n payload s
  | .epoch n payload => Sys2Proof.Machine.execEpoch n payload s
  | .jettyFrameReceive p got => Sys2Proof.Machine.execJettyFrameReceive p got s
  | .syncLost p => Sys2Proof.Machine.execSyncLost p s
  | .receiveSlot p idx => Sys2Proof.Machine.execReceiveSlot p idx s
  | .transmitSlot p idx => Sys2Proof.Machine.execTransmitSlot p idx s
  | .mooringFrame p => Sys2Proof.Machine.execMooringFrame p s
  | .jettyPllLockLost => Sys2Proof.Machine.execJettyPllLockLost s
  | .hostReadTlp bar off len => Sys2Proof.Machine.execHostReadTlp bar off len s
  | .hostWriteTlp bar off data => Sys2Proof.Machine.execHostWriteTlp bar off data s
  | .msixMessage vector => Sys2Proof.Machine.execMsixMessage vector s
  | .pcieLinkDown => Sys2Proof.Machine.execPcieLinkDown s
  | .lgtProd src n data => Sys2Proof.Machine.execLgtProd src n data s
  | .lgtStop src n data => Sys2Proof.Machine.execLgtStop src n data s
  | .lgtClear src n data => Sys2Proof.Machine.execLgtClear src n data s
  | .lgtCfg src n data => Sys2Proof.Machine.execLgtCfg src n data s
  | .lighterDescriptor n host => Sys2Proof.Machine.execLighterDescriptor n host s
  | .lighterPieceDone n off answer => Sys2Proof.Machine.execLighterPieceDone n off answer s
  | .ethFrameReceive port frame fcsOk => Sys2Proof.Machine.execEthFrameReceive port frame fcsOk s
  | .ethRxDeliver n => Sys2Proof.Machine.execEthRxDeliver n s
  | .ethTxSlot n => Sys2Proof.Machine.execEthTxSlot n s
  | .stStep src data => Sys2Proof.Machine.execStStep src data s
  | .stNowLoRead src peek => Sys2Proof.Machine.execStNowLoRead src peek s
  | .stPpsCapLoRead src peek => Sys2Proof.Machine.execStPpsCapLoRead src peek s
  | .ppsIn => Sys2Proof.Machine.execPpsIn s
  | .ppsOut => Sys2Proof.Machine.execPpsOut s
  | .cspStream words => Sys2Proof.Machine.execCspStream words s
  | .cspRegWrite idx data => Sys2Proof.Machine.execCspRegWrite idx data s
  | .cspRegRead idx => Sys2Proof.Machine.execCspRegRead idx s
  | .cspStatus => Sys2Proof.Machine.execCspStatus s
  | .cspErr words => Sys2Proof.Machine.execCspErr words s
  | .streamData src aperture bytes last => Sys2Proof.Machine.execStreamData src aperture bytes last s
  | .signatureVerified => Sys2Proof.Machine.execSignatureVerified s
  | .cfgAbort src data => Sys2Proof.Machine.execCfgAbort src data s
  | .cfgActivate src data => Sys2Proof.Machine.execCfgActivate src data s
  | .withdraw src data => Sys2Proof.Machine.execWithdraw src data s
  | .program src data => Sys2Proof.Machine.execProgram src data s
  | .shoalPersist => Sys2Proof.Machine.execShoalPersist s
  | .stkBundleSel src data => Sys2Proof.Machine.execStkBundleSel src data s
  | .shoalRead src data => Sys2Proof.Machine.execShoalRead src data s
  | .shoalAdd src data => Sys2Proof.Machine.execShoalAdd src data s
  | .fence src e data => Sys2Proof.Machine.execFence src e data s
  | .release src e data => Sys2Proof.Machine.execRelease src e data s
  | .lend src e data => Sys2Proof.Machine.execLend src e data s
  | .recall src e data => Sys2Proof.Machine.execRecall src e data s
  | .pswMaxRead src peek => Sys2Proof.Machine.execPswMaxRead src peek s
  | .nonce src data => Sys2Proof.Machine.execNonce src data s
  | .openToken src data => Sys2Proof.Machine.execOpenToken src data s
  | .openPassword src data => Sys2Proof.Machine.execOpenPassword src data s
  | .close src data => Sys2Proof.Machine.execClose src data s
  | .attest src data => Sys2Proof.Machine.execAttest src data s
  | .getIdkey src data => Sys2Proof.Machine.execGetIdkey src data s
  | .lcAdvance src data => Sys2Proof.Machine.execLcAdvance src data s
  | .setPassword src data => Sys2Proof.Machine.execSetPassword src data s
  | .drydock src data => Sys2Proof.Machine.execDrydock src data s
  | .bootcfg src data => Sys2Proof.Machine.execBootcfg src data s
  | .secMboxData src write peek => Sys2Proof.Machine.execSecMboxData src write peek s
  | .tamperInput input => Sys2Proof.Machine.execTamperInput input s
  | .voltageMonitor rail => Sys2Proof.Machine.execVoltageMonitor rail s
  | .clockGlitch domain => Sys2Proof.Machine.execClockGlitch domain s
  | .tamperBeacon => Sys2Proof.Machine.execTamperBeacon s
  | .rngFail => Sys2Proof.Machine.execRngFail s
  | .rngRestart => Sys2Proof.Machine.execRngRestart s
  | .clkApply src data => Sys2Proof.Machine.execClkApply src data s
  | .applyDone => Sys2Proof.Machine.execApplyDone s
  | .pllLockLost pll => Sys2Proof.Machine.execPllLockLost pll s
  | .serdesLockLost port => Sys2Proof.Machine.execSerdesLockLost port s
  | .oscCommit src data => Sys2Proof.Machine.execOscCommit src data s
  | .clkEn src k data => Sys2Proof.Machine.execClkEn src k data s
  | .clkmonCfg src data => Sys2Proof.Machine.execClkmonCfg src data s
  | .powerOn refclk => Sys2Proof.Machine.execPowerOn refclk s
  | .mainPowerLoss islandSupplied => Sys2Proof.Machine.execMainPowerLoss islandSupplied s
  | .oscWaitDone => Sys2Proof.Machine.execOscWaitDone s
  | .resetPin => Sys2Proof.Machine.execResetPin s
  | .hostReset src => Sys2Proof.Machine.execHostReset src s
  | .resetEntry => Sys2Proof.Machine.execResetEntry s
  | .resetRelease devX devY csp => Sys2Proof.Machine.execResetRelease devX devY csp s
  | .bootPllLock => Sys2Proof.Machine.execBootPllLock s
  | .bundleTestDone lanes dunes => Sys2Proof.Machine.execBundleTestDone lanes dunes s
  | .bootTemperatureCheck readings => Sys2Proof.Machine.execBootTemperatureCheck readings s
  | .residentImageRead => Sys2Proof.Machine.execResidentImageRead s
  | .bootApply fails => Sys2Proof.Machine.execBootApply fails s
  | .wdgFeed src data => Sys2Proof.Machine.execWdgFeed src data s
  | .wdgEn src data => Sys2Proof.Machine.execWdgEn src data s
  | .wdgLoad src data => Sys2Proof.Machine.execWdgLoad src data s
  | .warn => Sys2Proof.Machine.execWarn s
  | .watchdog => Sys2Proof.Machine.execWatchdog s
  | .sleepErgs src data => Sys2Proof.Machine.execSleepErgs src data s
  | .wakeErgs src data => Sys2Proof.Machine.execWakeErgs src data s
  | .sleepDevice src data => Sys2Proof.Machine.execSleepDevice src data s
  | .wakeDevice src data => Sys2Proof.Machine.execWakeDevice src data s
  | .ergDown e => Sys2Proof.Machine.execErgDown e s
  | .ergUp e => Sys2Proof.Machine.execErgUp e s
  | .devWake => Sys2Proof.Machine.execDevWake s
  | .powerEstimate ergs rails => Sys2Proof.Machine.execPowerEstimate ergs rails s
  | .pwrRailIRead src peek => Sys2Proof.Machine.execPwrRailIRead src peek s
  | .thermalSweep readings => Sys2Proof.Machine.execThermalSweep readings s
  | .wearPersist => Sys2Proof.Machine.execWearPersist s
  | .thmLimWrite src n data => Sys2Proof.Machine.execThmLimWrite src n data s
  | .thmSel src data => Sys2Proof.Machine.execThmSel src data s
  | .thmResume src data => Sys2Proof.Machine.execThmResume src data s
  | .wireReset => Sys2Proof.Machine.execWireReset s
  | .wireBreak => Sys2Proof.Machine.execWireBreak s
  | .wireErr => Sys2Proof.Machine.execWireErr s
  | .islandSupplyLoss => Sys2Proof.Machine.execIslandSupplyLoss s
  | .wireId tag => Sys2Proof.Machine.execWireId tag s
  | .attach tag => Sys2Proof.Machine.execAttach tag s
  | .detach tag => Sys2Proof.Machine.execDetach tag s
  | .ird tag off => Sys2Proof.Machine.execIrd tag off s
  | .iwr tag off data => Sys2Proof.Machine.execIwr tag off data s
  | .rd tag addr peek => Sys2Proof.Machine.execRd tag addr peek s
  | .wr tag addr data => Sys2Proof.Machine.execWr tag addr data s
  | .poll tag => Sys2Proof.Machine.execPoll tag s
  | .wireRequestMalformed bad => Sys2Proof.Machine.execWireRequestMalformed bad s
  | .attachTimeout => Sys2Proof.Machine.execAttachTimeout s
  | .dbgHalt src data => Sys2Proof.Machine.execDbgHalt src data s
  | .dbgResume src data => Sys2Proof.Machine.execDbgResume src data s
  | .dbgStep src data => Sys2Proof.Machine.execDbgStep src data s
  | .resumed => Sys2Proof.Machine.execResumed s
  | .dbgHaltTideLoRead src peek => Sys2Proof.Machine.execDbgHaltTideLoRead src peek s
  | .dbgResumeAtLoRead src peek => Sys2Proof.Machine.execDbgResumeAtLoRead src peek s
  | .drydockSlot e finds => Sys2Proof.Machine.execDrydockSlot e finds s
  | .fabricPatternWrite e => Sys2Proof.Machine.execFabricPatternWrite e s
  | .ddRun src data => Sys2Proof.Machine.execDdRun src data s
  | .ddAbort src data => Sys2Proof.Machine.execDdAbort src data s
  | .ddRunDone finds slices => Sys2Proof.Machine.execDdRunDone finds slices s
  | .bistResLoRead src peek => Sys2Proof.Machine.execBistResLoRead src peek s
  | .bistScanData src data => Sys2Proof.Machine.execBistScanData src data s
  | .planeScrubRead e bad => Sys2Proof.Machine.execPlaneScrubRead e bad s
  | .scrubStall e => Sys2Proof.Machine.execScrubStall e s
  | .lhFlogPortRead src peek => Sys2Proof.Machine.execLhFlogPortRead src peek s
  | .rxSync p => Sys2Proof.Machine.execRxSync p s
  | .jettyPllLock => Sys2Proof.Machine.execJettyPllLock s
  | .pcieLinkUp gen width bar4 => Sys2Proof.Machine.execPcieLinkUp gen width bar4 s
  | .linkChg port up => Sys2Proof.Machine.execLinkChg port up s
  | .islandPowerUp => Sys2Proof.Machine.execIslandPowerUp s

end Sys2Proof.Machine
end

