-- ==== Sys2Proof/Machine/Step.lean ====
section
/-! DEFINITION. Machine/Step.lean: one step: the command at the front of the queue; on an empty queue, a cycle of the time clock. -/

namespace Sys2Proof.Machine

/-- What a step does on an empty queue (log entry 2): one cycle of the 500 MHz time clock passes. -/
def idle (s : State) : Host.Outcome State Fault Refusal := run Dev.timeCycle s

/-- One step. -/
def step (s : State) : Host.Outcome State Fault Refusal :=
  match s.pending with
  | [] => idle s
  | c :: rest => exec c { s with pending := rest }

/-- The state with the command that a word spells put at the front of the queue; no word spells one. -/
def State.withFetchWord (s : State) (nbits w : Nat) : State :=
  match decodeTableWord nbits w with
  | some c => { s with pending := c :: s.pending }
  | none => s

end Sys2Proof.Machine
end

