-- ==== Sys2Proof/WellFormed.lean ====
section
/-! DEFINITION. WellFormed.lean: which commands have operands that the command can have. exec gives every command a meaning; an ill-formed
one is no command that the block's surroundings can send. -/

namespace Sys2Proof

open Machine

/-- A peek read is the wire's alone (R505). -/
def peekOk (src : RegSrc) (peek : Bool) : Bool := !peek || src == .wire

/-- A block of the register window (R217). -/
def blkOk (blk : BitVec 8) : Bool := (blkKind blk.toNat).isSome

/-- A finding of a test of one kind of resource lies in the resource's place (R23, R24, R525). -/
def findOk : TestFind → Bool
  | .lane j d b _ _ => bundleExists (j.val + 128 * d.val + 32768 * b.val)
  | _ => true

/-- Whether a command's operands are such as the command can have. -/
def Instr.wellFormed : Instr → Bool
  | .narrowAccess _ addr size => decide (0 < size.val) && decide (size.val ≤ 8) && (decide (size.val < 4) || addr.toNat % 4 != 0)
  | .lock _ blk _ => blkOk blk
  | .refuseClr _ blk _ => blkOk blk
  | .evtForce _ blk _ => blkOk blk
  | .eccFlipArm _ blk _ => blkOk blk
  | .bucketLeak blk => blkOk blk
  | .sentinelFail bundle => bundleExists bundle.toNat
  | .schedComplete _ _ _ data => decide (data.length ≤ 65536)
  | .tideNumLoRead src peek => peekOk src peek
  | .turnTimeLoRead src peek => peekOk src peek
  | .tideSkewRead src peek => peekOk src peek
  | .holdXferMaxRead src peek => peekOk src peek
  | .hnSchMaxwaitRead src peek => peekOk src peek
  | .stNowLoRead src peek => peekOk src peek
  | .stPpsCapLoRead src peek => peekOk src peek
  | .pswMaxRead src peek => peekOk src peek
  | .secMboxData src write peek => peekOk src peek && (write.isNone || !peek)
  | .pwrRailIRead src peek => peekOk src peek
  | .dbgHaltTideLoRead src peek => peekOk src peek
  | .dbgResumeAtLoRead src peek => peekOk src peek
  | .bistResLoRead src peek => peekOk src peek
  | .lhFlogPortRead src peek => peekOk src peek
  | .ts1Row _ blocks _ _ => blocks.length == 8
  | .frameReceive _ blocks bad => blocks.length == 40 && bad.all (fun x => decide (x.1 < 40))
  | .hostReadTlp _ _ len => decide (0 < len.val)
  | .hostWriteTlp _ _ data => decide (0 < data.length) && decide (data.length ≤ 4096)
  | .lighterDescriptor _ host => host.length == 0 || host.length == 32
  | .lighterPieceDone _ _ (.data b) => decide (b.length ≤ 4096)
  | .streamData _ aperture bytes _ => decide (0 < bytes.length) && (aperture.isNone || decide (bytes.length ≤ 4096))
  | .bundleTestDone lanes _ => lanes.all (fun x => bundleExists x.1.toNat)
  | .bootTemperatureCheck readings => readings.length == 136
  | .thermalSweep readings => readings.length == 136
  | .powerEstimate ergs rails => ergs.length == 32 && rails.length == 8
  | .drydockSlot _ finds => finds.all findOk
  | .ddRunDone finds _ => finds.all (fun x => findOk x.2)
  | .routerHop _ _ errs => decide (errs.length ≤ 4)
  | .planeScrubRead _ bad => decide (bad ≤ 2)
  | .cspStream words => decide (0 < words.length)
  | _ => true

end Sys2Proof
end

