-- ==== Sys2Proof/Safety.lean ====
section
/-! DEFINITION. Safety.lean: the terms that statements about the machine are made in: what it means that a command completes, that a request to a register
is carried out, that the outputs show the state, that tables are in their canonical form. -/

namespace Sys2Proof.Machine

/-- The command, sent in state `s`, COMPLETES with an effect of which `p` holds: exec answers a next state, the queue is as it was, and `p`
holds of the device of that state. -/
def Completes (c : Instr) (s : State) (p : Dev → Prop) : Prop :=
  ∃ d : Dev, exec c s = .next { s with dev := d } ∧ p d

/-- The command, sent in state `s`, completes and the device BECOMES `d`, its outputs settled. -/
def Becomes (c : Instr) (s : State) (d : Dev) : Prop := exec c s = .next { s with dev := d.settle }

/-- No DMC holds a write that it has still to retire (R267, R461). -/
def Dev.writesDone (s : Dev) : Prop := ∀ k < 8, (s.arb k).grant = none ∧ ∀ p ∈ (s.dmc k).pieces, p.write = false

/-- The device carries out the write of word `w` to the register at `off` of block `blk`: mode, clock gate and rights allow it (R435,
R440, R456, R463, R465). -/
def Dev.writes (s : Dev) (r : RegSrc) (blk off : Nat) (w : Word) : Prop :=
  s.gateOf r.src blk off true = .open_ ∧ s.writeDenied r.src blk off w = false

/-- The device carries out the read of the register at `off` of block `blk`. -/
def Dev.reads (s : Dev) (r : RegSrc) (blk off : Nat) : Prop :=
  s.gateOf r.src blk off false = .open_ ∧ s.readDenied r.src blk off = false

/-- The device with the answer OK to the latest access, and a read's data (R3). -/
def Dev.okReply (s : Dev) (v : Word := 0) : Dev := { s with reply := some ⟨.ok, v⟩ }

/-- The output pins, the interrupt requests, the MSI-X vectors and what drives the jetty lines show the state (R8, R362, R371, R458, R546). -/
structure OutputsShow (d : Dev) : Prop where
  irq : d.pins.irq = d.irqBlocks
  vectors : d.pcie.asserted = d.vectorsOf d.irqBlocks
  cfgErr : d.pins.cfgErrLow = (d.mode == .aground)
  clkmon : d.pins.clkmon = d.clkmonPin
  ports : ∀ p, (d.port p).txSrc = d.portSource p

/-- Every beat of a message has a credit: those the fabric holds and those that come back while it presents the beats (R123). -/
def Dev.berthPays (s : Dev) (b : Nat) (m : BMsg) : Prop :=
  1 + m.beats.length ≤ (s.berth b).outCredits + min m.returned (1 + m.beats.length)

/-- A message that a berth's interface takes (R123, R126): the berth is live, the tag is free, no beat lacks a credit, the header is clean
and spells operation `op`. -/
def Dev.berthTakesMsg (s : Dev) (b : Nat) (m : BMsg) (op : Nat) : Prop :=
  s.berthLive b = true ∧ (s.berth b).tags.any (fun t => t.1 == (BHdr.dec m.hdr).tag) = false ∧ s.berthPays b m ∧
    bhdrClean m.hdr = true ∧ (BHdr.dec m.hdr).op = op

/-- The berth with the message's credits spent (R123). -/
def Dev.berthPaid (s : Dev) (b : Nat) (m : BMsg) : Dev := (s.takeCredits b m).1

/-- The berth with the message's credits spent and its tag busy (R123, R125). -/
def Dev.berthBegun (s : Dev) (b : Nat) (m : BMsg) : Dev := (s.berthPaid b m).busyTag b (BHdr.dec m.hdr).tag

/-- The router presents the next beat of a message at the head of a berth's queue in this tick (R124, R129, R32, R60): nothing else is on the I
path, no release read returns, the message has crossed, the berth's path is in service. -/
def Dev.presents (s : Dev) (b : Nat) (m : IMsg) : Prop :=
  s.iBusy b = false ∧ s.rrDue b = false ∧ s.iReady b m = true ∧ s.berthPathOut b = false

/-- The status byte of a reply (R500). -/
def wireStatus (d : Dev) (st : Status) (tag : Nat) (pending : Bool) : Byte :=
  BitVec.ofNat 8 (st.code + 16 * tag + 64 * pending.toNat + 128 * (d.mode == .anchored).toNat)

/-- What a reply holds: the status byte, the data, the CRC over both (R499, R500). -/
def wireSays (s d : Dev) (st : Status) (tag : Nat) (pending : Bool) (data : List Byte) : Prop :=
  d.replyBytes = wireStatus s st tag pending :: data ++ [crc8 (wireStatus s st tag pending :: data)]

end Sys2Proof.Machine

namespace Sys2Proof

open Machine

/-- The register access that a command is (R3, R4): its sender, the block, the offset and the word written, none for a read. The other
commands are no such access. -/
def Instr.access : Instr → Option (RegSrc × Nat × Nat × Option Word)
  | .registerWrite src addr data => some (src, regOffset addr / blockBytes, regOffset addr % blockBytes, some data)
  | .lock src blk data => some (src, blk.toNat, O.BLK_CTRL, some (withField data 31 1 1))
  | .refuseClr src blk data => some (src, blk.toNat, O.BLK_CTRL, some (withField data 1 1 1))
  | .evtForce src blk data => some (src, blk.toNat, O.EVT_FORCE, some data)
  | .eccFlipArm src blk data => some (src, blk.toNat, O.ECC_FLIP_LO, some data)
  | .tideCtrlStart src data => some (src, B.TIDE, O.TIDE_CTRL, some (withField data 0 2 1))
  | .tideCtrlStop src data => some (src, B.TIDE, O.TIDE_CTRL, some (withField data 0 2 2))
  | .breachClr src data => some (src, B.TIDE, O.TIDE_CTRL, some (withField data 2 1 1))
  | .tideNumLoRead src _ => some (src, B.TIDE, O.TIDE_NUM_LO, none)
  | .turnTimeLoRead src _ => some (src, B.TIDE, O.TURN_TIME_LO, none)
  | .tideSkewRead src _ => some (src, B.TIDE, O.TIDE_SKEW, none)
  | .admBoundSel src data => some (src, B.ADM, O.ADM_BOUND_SEL, some data)
  | .ergNotePost src e data => some (src, B.ERG e.val, O.ERG_NOTE_POST, some (withField data 4 1 1))
  | .remapRead src k data => some (src, B.HOLD k.val, O.HOLD_REMAP_CMD, some (withField data 0 2 1))
  | .remapAdd src k data => some (src, B.HOLD k.val, O.HOLD_REMAP_CMD, some (withField data 0 2 2))
  | .bondSet src data => some (src, B.HOLD 0, O.HOLD_BOND_CMD, some (withField data 0 2 1))
  | .bondWipe src data => some (src, B.HOLD 0, O.HOLD_BOND_CMD, some (withField data 0 2 2))
  | .marchDestructive src data => some (src, B.BIST, O.MARCH_CMD, some (withField data 0 2 1))
  | .marchPreserving src data => some (src, B.BIST, O.MARCH_CMD, some (withField data 0 2 2))
  | .marchAbort src data => some (src, B.BIST, O.MARCH_CMD, some (withField data 0 2 3))
  | .scrbStart src data => some (src, B.SCRB, O.SCRB_CMD, some (withField data 0 2 1))
  | .scrbAbort src data => some (src, B.SCRB, O.SCRB_CMD, some (withField data 0 2 2))
  | .holdXferMaxRead src _ => some (src, B.HOLD 0, O.HOLD_XFER_MAX, none)
  | .hnSchMaxwaitRead src _ => some (src, B.HN, O.HN_SCH_MAXWAIT, none)
  | .dmcStart src k data => some (src, B.DMC k.val, O.DMC_CMD, some (withField data 0 3 1))
  | .dmcGo src k data => some (src, B.DMC k.val, O.DMC_CMD, some (withField data 0 3 2))
  | .dmcMaint src k data => some (src, B.DMC k.val, O.DMC_CMD, some (withField data 0 3 3))
  | .dmcEnd src k data => some (src, B.DMC k.val, O.DMC_CMD, some (withField data 0 3 4))
  | .wrFifo src k data => some (src, B.DMC k.val, O.DMC_TRAIN_CMD, some (withField data 0 2 1))
  | .rdFifo src k data => some (src, B.DMC k.val, O.DMC_TRAIN_CMD, some (withField data 0 2 2))
  | .caLoop src k data => some (src, B.DMC k.val, O.DMC_TRAIN_CMD, some (withField data 0 2 3))
  | .dmcMrw src k data => some (src, B.DMC k.val, O.DMC_MRW, some (withField data 31 1 1))
  | .mapApply src data => some (src, B.DMC 0, O.DMC_MAP_CMD, some (withField data 0 1 1))
  | .dmcLaneSel src k data => some (src, B.DMC k.val, O.DMC_LANE_SEL, some data)
  | .rangeEnable src data => some (src, B.MCE, O.MCE_RANGE_CMD, some (withField data 0 3 1))
  | .rangeDisable src data => some (src, B.MCE, O.MCE_RANGE_CMD, some (withField data 0 3 2))
  | .rekey src data => some (src, B.MCE, O.MCE_RANGE_CMD, some (withField data 0 3 3))
  | .rekeyAbort src data => some (src, B.MCE, O.MCE_RANGE_CMD, some (withField data 0 3 4))
  | .keyGen src data => some (src, B.MCE, O.MCE_KEY_CMD, some (withField data 0 3 1))
  | .keyUnwrap src data => some (src, B.MCE, O.MCE_KEY_CMD, some (withField data 0 3 2))
  | .keyRetire src data => some (src, B.MCE, O.MCE_KEY_CMD, some (withField data 0 3 3))
  | .keyZeroise src data => some (src, B.MCE, O.MCE_KEY_CMD, some (withField data 0 3 4))
  | .linkEnable src n data => some (src, B.CW n.val, O.CW_CTRL, some data)
  | .retrain src n data => some (src, B.CW n.val, O.CW_CTRL, some (withField data 1 1 1))
  | .keySwitch src n data => some (src, B.CW n.val, O.CW_CTRL, some (withField data 2 1 1))
  | .lgtProd src n data => some (src, B.LGT, O.LGT_PROD n.val, some data)
  | .lgtStop src n data => some (src, B.LGT, O.LGT_CMD n.val, some (withField data 0 2 1))
  | .lgtClear src n data => some (src, B.LGT, O.LGT_CMD n.val, some (withField data 0 2 2))
  | .lgtCfg src n data => some (src, B.LGT, O.LGT_CFG n.val, some data)
  | .stStep src data => some (src, B.ETH, O.ST_CTRL, some (withField data 8 1 1))
  | .stNowLoRead src _ => some (src, B.ETH, O.ST_NOW_LO, none)
  | .stPpsCapLoRead src _ => some (src, B.ETH, O.ST_PPS_CAP_LO, none)
  | .cfgAbort src data => some (src, B.CFG, O.CFG_CMD, some (withField data 0 3 1))
  | .cfgActivate src data => some (src, B.CFG, O.CFG_CMD, some (withField data 0 3 2))
  | .withdraw src data => some (src, B.CFG, O.CFG_CMD, some (withField data 0 3 3))
  | .program src data => some (src, B.CFG, O.CFG_CMD, some (withField data 0 3 4))
  | .stkBundleSel src data => some (src, B.BIST, O.STK_BUNDLE_SEL, some data)
  | .shoalRead src data => some (src, B.BIST, O.STK_SHOAL_CMD, some (withField data 0 2 1))
  | .shoalAdd src data => some (src, B.BIST, O.STK_SHOAL_CMD, some (withField data 0 2 2))
  | .fence src e data => some (src, B.ERG e.val, O.ERG_PLANE_CMD, some (withField data 0 4 1))
  | .release src e data => some (src, B.ERG e.val, O.ERG_PLANE_CMD, some (withField data 0 4 2))
  | .lend src e data => some (src, B.ERG e.val, O.ERG_PLANE_CMD, some (withField data 0 4 3))
  | .recall src e data => some (src, B.ERG e.val, O.ERG_PLANE_CMD, some (withField data 0 4 4))
  | .pswMaxRead src _ => some (src, B.TIDE, O.PSW_MAX, none)
  | .nonce src data => some (src, B.SEC, O.SEC_CMD, some (withField data 0 4 1))
  | .openToken src data => some (src, B.SEC, O.SEC_CMD, some (withField data 0 4 2))
  | .openPassword src data => some (src, B.SEC, O.SEC_CMD, some (withField data 0 4 3))
  | .close src data => some (src, B.SEC, O.SEC_CMD, some (withField data 0 4 4))
  | .attest src data => some (src, B.SEC, O.SEC_CMD, some (withField data 0 4 5))
  | .getIdkey src data => some (src, B.SEC, O.SEC_CMD, some (withField data 0 4 6))
  | .lcAdvance src data => some (src, B.SEC, O.SEC_CMD, some (withField data 0 4 7))
  | .setPassword src data => some (src, B.SEC, O.SEC_CMD, some (withField data 0 4 8))
  | .drydock src data => some (src, B.SEC, O.SEC_CMD, some (withField data 0 4 9))
  | .bootcfg src data => some (src, B.SEC, O.SEC_CMD, some (withField data 0 4 10))
  | .clkApply src data => some (src, B.CLK, O.CLK_CMD, some (withField data 0 1 1))
  | .oscCommit src data => some (src, B.LH, O.LH_OSC_CFG, some (withField data 8 1 1))
  | .clkEn src k data => some (src, B.CLK, O.CLK_EN0 + 4 * k.val, some data)
  | .clkmonCfg src data => some (src, B.CLK, O.CLKMON_CFG, some data)
  | .hostReset src => some (src, B.LH, O.LH_RST_CMD, some 0xA55A0F0F)
  | .wdgFeed src data => some (src, B.WDG, O.WDG_FEED, some data)
  | .wdgEn src data => some (src, B.WDG, O.WDG_CFG, some (withField data 0 1 1))
  | .wdgLoad src data => some (src, B.WDG, O.WDG_LOAD, some data)
  | .sleepErgs src data => some (src, B.PWR, O.PWR_SLEEP_CMD, some (withField data 0 3 1))
  | .wakeErgs src data => some (src, B.PWR, O.PWR_SLEEP_CMD, some (withField data 0 3 2))
  | .sleepDevice src data => some (src, B.PWR, O.PWR_SLEEP_CMD, some (withField data 0 3 3))
  | .wakeDevice src data => some (src, B.PWR, O.PWR_SLEEP_CMD, some (withField data 0 3 4))
  | .pwrRailIRead src _ => some (src, B.PWR, O.PWR_RAIL_I, none)
  | .thmLimWrite src n data => some (src, B.THM, O.THM_LIM n.val, some data)
  | .thmSel src data => some (src, B.THM, O.THM_SEL, some data)
  | .thmResume src data => some (src, B.THM, O.THM_CMD, some (withField data 0 1 1))
  | .dbgHalt src data => some (src, B.DBG, O.DBG_CTRL, some (withField data 0 2 1))
  | .dbgResume src data => some (src, B.DBG, O.DBG_CTRL, some (withField data 0 2 2))
  | .dbgStep src data => some (src, B.DBG, O.DBG_CTRL, some (withField data 0 2 3))
  | .dbgHaltTideLoRead src _ => some (src, B.DBG, O.DBG_HALT_TIDE_LO, none)
  | .dbgResumeAtLoRead src _ => some (src, B.DBG, O.DBG_RESUME_AT_LO, none)
  | .ddRun src data => some (src, B.BIST, O.BIST_DD_CMD, some (withField data 0 2 1))
  | .ddAbort src data => some (src, B.BIST, O.BIST_DD_CMD, some (withField data 0 2 2))
  | .bistResLoRead src _ => some (src, B.BIST, O.BIST_RES_LO, none)
  | .bistScanData src data => some (src, B.BIST, O.BIST_SCAN_DATA, some data)
  | .secMboxData src w _ => some (src, B.SEC, O.SEC_MBOX_DATA, w)
  | .lhFlogPortRead src _ => some (src, B.LH, O.LH_FLOG_PORT, none)
  | _ => none

end Sys2Proof
end

