-- ==== Sys2Proof/Certificates/Slice0/Obligations.lean ====
section
/-! DEFINITION. Certificates/Slice0/Obligations.lean: the statements for the provers. -/

open Sys2Proof Sys2Proof.Machine

/-- R3, R4, R8: the register commands that any block takes. -/
def Obligations.BlockHeaderCommands : Prop :=
  ∀ (s : State) (src : RegSrc) (blk : BitVec 8) (data : Word), (blkKind blk.toNat).isSome →
    (s.dev.writes src blk.toNat O.BLK_CTRL (withField data 31 1 1) → Completes (.lock src blk data) s (fun d =>
      d.flag blk.toNat F.BLK_CTRL_LOCK = true ∧ d.mem = s.dev.mem ∧ d.reply = some ⟨.ok, 0⟩)) ∧
    (s.dev.writes src blk.toNat O.BLK_CTRL (withField data 1 1 1) → Completes (.refuseClr src blk data) s (fun d =>
      d.fld blk.toNat F.BLK_STATUS_REFUSE_CNT = 0 ∧ d.mem = s.dev.mem ∧ d.reply = some ⟨.ok, 0⟩)) ∧
    (s.dev.writes src blk.toNat O.EVT_FORCE data →
      Becomes (.evtForce src blk data) s
        (s.dev.setReg blk.toNat O.EVT_STATUS (s.dev.reg blk.toNat O.EVT_STATUS ||| data)).okReply) ∧
    (s.dev.writes src blk.toNat O.ECC_FLIP_LO data → flips blk.toNat → Completes (.eccFlipArm src blk data) s (fun d =>
      d.reg blk.toNat O.ECC_FLIP_LO = data ∧ d.reg blk.toNat O.ECC_FLIP_HI = s.dev.reg blk.toNat O.ECC_FLIP_HI ∧
      (d.flipArmed.contains blk.toNat ↔ data ≠ 0 ∨ s.dev.reg blk.toNat O.ECC_FLIP_HI ≠ 0))) ∧
    (s.dev.clk.mainPower → s.dev.fld blk.toNat F.EVT_BUCKET_LEAK ≠ 15 → Becomes (.bucketLeak blk) s
      (s.dev.setFld blk.toNat F.EVT_BUCKET_LEVEL (s.dev.fld blk.toNat F.EVT_BUCKET_LEVEL - 1)))

/-! ### Tides (chapter 02) -/

/-- R54, R57, R58, R95: ticks, turns, the commands START and STOP and the start of tide 0. In Moored no tide runs: the fabric stands and the
tick counts go on, with what crosses to TICK and the row commands under way. -/
def Obligations.TideCommands : Prop :=
  ∀ (s : State) (src : RegSrc) (data : Word), OutputsShow s.dev → ¬ 0 ∈ s.dev.clk.applying →
    (s.dev.mode = .underway → s.dev.tide.tick < s.dev.tideLen → Becomes .fabricTick s s.dev.tideTick) ∧
    (s.dev.mode ≠ .underway → s.dev.mode.ticks → Becomes .fabricTick s s.dev.bareTick) ∧
    (s.dev.mode = .moored → s.dev.tide.xing = [] → s.dev.hold.banks = [] → Completes .fabricTick s (fun d =>
      d.tide = { s.dev.tide with count := s.dev.tide.count + 1, exec := s.dev.tide.exec + 1 } ∧ d.fab = s.dev.fab ∧ d.berths = s.dev.berths ∧
      d.mem = s.dev.mem)) ∧
    (s.dev.mode = .underway → s.dev.tide.tick = s.dev.tideLen → Becomes .tideTurn s s.dev.turn) ∧
    (∀ t, s.dev.mode = .moored → s.dev.tide.started → s.dev.tide.armed = some t → t ≤ s.dev.ns → Completes .tideStart s (fun d =>
      d.mode = .underway ∧ d.tide.num = 0 ∧ d.tide.tick = 0 ∧ d.tide.armed = none ∧ d.mem = s.dev.mem)) ∧
    (let w := withField data 0 2 1
     s.dev.writes src B.TIDE O.TIDE_CTRL w → s.dev.mode = .moored → s.dev.tide.activated → ¬ s.dev.tide.started →
      nbit w.toNat 2 = false → (s.dev.storeReg B.TIDE O.TIDE_CTRL w).flag B.TIDE F.TIDE_CTRL_MASTER = false →
      (s.dev.storeReg B.TIDE O.TIDE_CTRL w).flag B.TIDE F.TIDE_CTRL_FOLLOW = false → Completes (.tideCtrlStart src data) s (fun d =>
        d.tide = { s.dev.tide with started := true, armed := some (s.dev.reg64 B.TIDE O.TIDE_START_LO O.TIDE_START_HI) } ∧
        d.fld B.TIDE F.BLK_STATUS_LAST_STATUS = Status.ok.code ∧ d.mode = .moored)) ∧
    (let w := withField data 0 2 2
     s.dev.writes src B.TIDE O.TIDE_CTRL w → s.dev.mode = .moored → s.dev.tide.started → nbit w.toNat 2 = false →
      Completes (.tideCtrlStop src data) s (fun d =>
        d.tide = { s.dev.tide with started := false, armed := none, startSeen := none } ∧
        d.fld B.TIDE F.BLK_STATUS_LAST_STATUS = Status.ok.code ∧ d.mode = .moored)) ∧
    (let w := withField data 0 2 2
     s.dev.writes src B.TIDE O.TIDE_CTRL w → s.dev.mode = .underway → s.dev.tide.stopAt = none → nbit w.toNat 2 = false →
      Completes (.tideCtrlStop src data) s (fun d =>
        d.tide.stopAt = some (s.dev.tide.num + 1, .stop) ∧ d.mode = .underway ∧
        d.fld B.TIDE F.BLK_STATUS_LAST_STATUS = Status.ok.code))

/-- R89, R76: BREACH_CLR, the reads of the tide registers, the selection of a bound. A peek read has no side effect (R505) and is covered by
PeekReads. -/
def Obligations.TideRegisters : Prop :=
  ∀ (s : State) (src : RegSrc) (data : Word) (peek : Bool), src.peeks peek = false →
    (let w := withField data 2 1 1
     s.dev.writes src B.TIDE O.TIDE_CTRL w → Completes (.breachClr src data) s (fun d =>
      d.reg B.TIDE O.BREACH_FIRST0 = 0 ∧ d.reg B.TIDE O.BREACH_FIRST1 = 0 ∧ d.reg B.TIDE O.BREACH_LAST0 = 0 ∧
      d.reg B.TIDE O.BREACH_LAST1 = 0 ∧ d.reg B.TIDE O.BREACH_CNT = 0 ∧ d.reply = some ⟨.ok, 0⟩ ∧ d.mem = s.dev.mem)) ∧
    (let w := withField data 2 1 1
     s.dev.writes src B.TIDE O.TIDE_CTRL w → w.toNat % 4 = 0 →
      Becomes (.breachClr src data) s (s.dev.storeReg B.TIDE O.TIDE_CTRL w).breachClr.okReply) ∧
    (s.dev.reads src B.TIDE O.TIDE_NUM_LO → Becomes (.tideNumLoRead src peek) s
      ((s.dev.setReg B.TIDE O.TIDE_NUM_HI (BitVec.ofNat 32 (s.dev.tide.num / 2 ^ 32))).okReply (BitVec.ofNat 32 s.dev.tide.num))) ∧
    (s.dev.reads src B.TIDE O.TURN_TIME_LO → Becomes (.turnTimeLoRead src peek) s
      ((s.dev.setReg B.TIDE O.TURN_TIME_HI (BitVec.ofNat 32 (s.dev.tide.turnTime / 2 ^ 64))).okReply
        (BitVec.ofNat 32 (s.dev.tide.turnTime / 2 ^ 32)))) ∧
    (s.dev.reads src B.TIDE O.TIDE_SKEW → Completes (.tideSkewRead src peek) s (fun d =>
      d.reply = some ⟨.ok, s.dev.showReg src.src B.TIDE O.TIDE_SKEW false⟩ ∧ d.fld B.TIDE F.TIDE_SKEW_SKEW_MAX = 0 ∧ d.mem = s.dev.mem)) ∧
    (s.dev.writes src B.ADM O.ADM_BOUND_SEL data → data.toNat % 8192 < s.dev.tide.decls.length →
      Becomes (.admBoundSel src data) s ((s.dev.setReg B.ADM O.ADM_BOUND_SEL (BitVec.ofNat 32 (data.toNat % 8192))).okReply)) ∧
    (s.dev.writes src B.ADM O.ADM_BOUND_SEL data → s.dev.tide.decls.length ≤ data.toNat % 8192 →
      Becomes (.admBoundSel src data) s (((s.dev.setReg B.ADM O.ADM_BOUND_SEL (BitVec.ofNat 32 (data.toNat % 8192))).done B.ADM .range).okReply))

/-- R30, R59, R66, R67, R75: a failing sentinel, a queue's release, the issue tick and the completion of a scheduled transfer, admission. -/
def Obligations.TideEvents : Prop :=
  ∀ s : State, s.dev.mode ≠ .quarantine →
    (∀ id : BitVec 26, bundleExists id.toNat → (s.dev.bundle id.toNat).sentinel → s.dev.inUse (bErg id.toNat) (bDune id.toNat) = false →
      Becomes (.sentinelFail id) s (((s.dev.setBundle id.toNat { s.dev.bundle id.toNat with
        suspect := true, miss := satAdd 16 (s.dev.bundle id.toNat).miss 1 }).event B.BIST 9).classC B.BIST)) ∧
    (∀ id : BitVec 26, bundleExists id.toNat → (s.dev.bundle id.toNat).sentinel → s.dev.inUse (bErg id.toNat) (bDune id.toNat) = true →
      Becomes (.sentinelFail id) s (((s.dev.setBundle id.toNat { s.dev.bundle id.toNat with
        suspect := true, miss := satAdd 16 (s.dev.bundle id.toNat).miss 1 }).event B.BIST 9).breach 4 (bErg id.toNat) 0)) ∧
    (∀ (q : Fin 34320) (arrival : Nat) (e : XEntry) (rest : List XEntry), Map.get (fun _ => []) s.dev.tide.xing q.val = e :: rest →
      e.release ≤ s.dev.tide.count → arrival ≤ s.dev.tide.count →
      Becomes (.xingRelease q arrival) s (s.dev.xingTake q.val (decide (e.release < arrival)))) ∧
    (∀ (q : Fin 34320) (arrival : Nat) (e : XEntry) (rest : List XEntry), Map.get (fun _ => []) s.dev.tide.xing q.val = e :: rest →
      Map.get (fun _ => []) s.dev.net.crossing q.val = [] → e.release ≤ s.dev.tide.count → arrival ≤ s.dev.tide.count →
      ¬ (17664 ≤ q.val ∧ q.val < 17920) → Completes (.xingRelease q arrival) s (fun d =>
        Map.get (fun _ => []) d.tide.xing q.val = rest.dropWhile (fun x => x.stamp == e.stamp) ∧
        Map.get (fun _ => []) d.tide.released q.val = e :: rest.takeWhile (fun x => x.stamp == e.stamp) ∧
        d.tide.num = s.dev.tide.num ∧ d.mem = s.dev.mem)) ∧
    (∀ (id : BitVec 13) (d : Decl) (len tag : Nat) (bytes : List Byte), s.dev.tide.decls[id.toNat]? = some d → s.dev.mode = .underway →
      s.dev.tide.tick = d.issueTick → d.issues s.dev.tide.num → s.dev.gate id.toNat s.dev.tide.num = .held len tag bytes →
      s.dev.ergRuns (d.srcBerth / 16) → Becomes (.schedIssueTick id) s (s.dev.schedSend id.toNat d s.dev.tide.num len tag bytes)) ∧
    (∀ (id : BitVec 13) (issue : Nat) (st : Status) (bytes : List Byte) (t : Transfer),
      s.dev.tide.transfers.find? (fun t => t.decl == id.toNat && t.issueTide == issue && !t.remote) = some t → t.kind ≠ 2 → ¬ t.done →
      Completes (.schedComplete id issue st bytes) s (fun d =>
        d.tide.transfers = s.dev.tide.transfers.filter (fun u => u != t) ++
          [{ t with done := true, onTime := s.dev.inMargin t.releaseTide, status := st, data := bytes }] ∧ d.mem = s.dev.mem)) ∧
    (∀ f, s.dev.pipe = 2 → s.dev.mode ≠ .quarantine → s.dev.admitImage s.dev.cfg.coming = .inl f →
      Becomes .admission s ((s.dev.admRecord (some f)).refuseImage f.status 7)) ∧
    (∀ bs, s.dev.pipe = 2 → s.dev.mode ≠ .quarantine → s.dev.admitImage s.dev.cfg.coming = .inr bs →
      s.dev.flag B.CFG F.CFG_ACT_CTRL_AUTO = false → Completes .admission s (fun d =>
        d.cfg.coming.bounds = bs ∧ d.fld B.CFG F.CFG_PIPE_STATE = 3 ∧ d.tide.decls = s.dev.tide.decls))

/-! ### Berths (chapter 03) -/

/-- R67, R125, R126, R238: the requests a berth presents leave for the network under its tag, with the header's address, length, data and lease; a
scheduled request of the coming issue is held at its gate. -/
def Obligations.BerthRequests : Prop :=
  ∀ (s : State) (b : Fin 512) (m : BMsg), let h := BHdr.dec m.hdr
    (∀ dv, s.dev.berthTakesMsg b.val m 1 → m.beats = [] → m.closed → 0 < h.len → h.len ≤ 4096 → (s.dev.berthBegun b.val m).berthDev h = some dv →
      addrBad h.addr h.len = false → Becomes (.berthRead b m) s ((s.dev.berthBegun b.val m).request
        { src := .berth b, tag := h.tag, op := 1, addr := h.addr, len := h.len, data := [],
          dst := (s.dev.berthBegun b.val m).destNode h.addr / 64 * 64 + dv, lease := 0 })) ∧
    (∀ dv, s.dev.berthTakesMsg b.val m 2 → m.beats.length = (h.len + 31) / 32 → m.closed → 0 < h.len → h.len ≤ 4096 →
      (s.dev.berthBegun b.val m).berthDev h = some dv → addrBad h.addr h.len = false →
      Becomes (.berthWrite b m) s ((s.dev.berthBegun b.val m).request
        { src := .berth b, tag := h.tag, op := 2, addr := h.addr, len := h.len, data := beatBytes h.len m.beats,
          dst := (s.dev.berthBegun b.val m).destNode h.addr / 64 * 64 + dv, lease := 0 })) ∧
    (∀ d : Decl, s.dev.berthTakesMsg b.val m 3 → s.dev.tide.decls[h.decl]? = some d → d.srcBerth = b.val →
      m.beats.length = (if d.kind = 1 then 0 else (h.len + 31) / 32) → m.closed → h.len ≤ d.size → d.live →
      s.dev.tide.tick + 8 < s.dev.tideLen → d.issues s.dev.tide.num → s.dev.gate h.decl s.dev.tide.num = .idle →
      s.dev.tide.tick + 8 ≤ d.issueTick → Becomes (.berthSched b m) s ((s.dev.berthBegun b.val m).setGate h.decl s.dev.tide.num
        (.held h.len h.tag (beatBytes h.len m.beats)))) ∧
    (∀ dv, s.dev.berthTakesMsg b.val m 5 → m.beats = [] → m.closed → (s.dev.berthBegun b.val m).berthDev h = some dv → addrBad h.addr h.len = false →
      Becomes (.berthAcquire b m) s ((s.dev.berthBegun b.val m).request
        { src := .berth b, tag := h.tag, op := 5, addr := h.addr, len := h.len, data := [],
          dst := (s.dev.berthBegun b.val m).destNode h.addr / 64 * 64 + dv, lease := h.context })) ∧
    (∀ dv, s.dev.berthTakesMsg b.val m 6 → m.beats = [] → m.closed → (s.dev.berthBegun b.val m).berthDev h = some dv → addrBad h.addr h.len = false →
      Becomes (.berthRelinquish b m) s ((s.dev.berthBegun b.val m).request
        { src := .berth b, tag := h.tag, op := 6, addr := h.addr, len := h.len, data := [],
          dst := (s.dev.berthBegun b.val m).destNode h.addr / 64 * 64 + dv, lease := 0 }))

/-- R124, R127, R129, R130, R131: what the router presents to a berth, responses to served requests, release reads and notes. -/
def Obligations.BerthPresentation : Prop :=
  ∀ (s : State) (b : Fin 512), s.dev.mode ≠ .quarantine →
    (∀ (m : BMsg) (q : Served), let h := BHdr.dec m.hdr
      s.dev.berthLive b.val → s.dev.berthPays b.val m → bhdrClean m.hdr → h.op = 4 → h.status ≠ 15 → m.closed →
      (s.dev.berth b.val).served.find? (fun q => q.context == h.context) = some q → h.len = (if q.isRead && h.status == 0 then q.len else 0) →
      m.beats.length = (h.len + 31) / 32 → Becomes (.berthResponse b m) s
        (((s.dev.berthPaid b.val m).setBerth b.val { (s.dev.berthPaid b.val m).berth b.val with
          served := (s.dev.berth b.val).served.filter (fun y => y.context != h.context) }).berthForward b.val q
          (Status.ofCode h.status) (beatBytes h.len m.beats))) ∧
    (∀ i : BitVec 11, s.dev.berthLive b.val → (∀ t, (s.dev.berth b.val).rrLast = some t → t + 1 < s.dev.tide.exec) →
      Completes (.releaseRead b i) s (fun d =>
      (d.berth b.val).rr = (s.dev.berth b.val).rr ++ [⟨s.dev.tide.exec + 24, (viewBeat (s.dev.berth b.val).view i.toNat).1,
        (viewBeat (s.dev.berth b.val).view i.toNat).2.1, (viewBeat (s.dev.berth b.val).view i.toNat).2.2⟩] ∧
      (d.berth b.val).view = (s.dev.berth b.val).view ∧ d.mem = s.dev.mem)) ∧
    (∀ (r : RrItem) (rest : List RrItem), (s.dev.berth b.val).rr = r :: rest → r.due ≤ s.dev.tide.exec → s.dev.iBusy b.val = false →
      Becomes (.releaseReadReturn b) s ((s.dev.setBerth b.val { s.dev.berth b.val with rr := rest }).putBeat b.val r.data
        (2 * 16 + 64 * r.status + 1024 * r.empty.toNat))) ∧
    (∀ (m : IMsg) (rest : List IMsg) (x : BitVec 256), (s.dev.berth b.val).inq = m :: rest → m.src = 1 → m.beats = [x] →
      s.dev.presents b.val m → (s.dev.berth b.val).rqCredits ≠ 0 → Completes (.servedRequestPresent b) s (fun d =>
        (d.berth b.val).inq = rest ∧ (d.berth b.val).rqCredits = (s.dev.berth b.val).rqCredits - 1 ∧ d.iBusy b.val = true)) ∧
    (∀ (m : IMsg) (rest : List IMsg) (x : BitVec 256), (s.dev.berth b.val).inq = m :: rest → m.src = 3 → m.beats = [x] →
      s.dev.presents b.val m → Completes (.lateDeliveryPresent b) s (fun d =>
        (d.berth b.val).inq = rest ∧ (d.berth b.val).rqCredits = (s.dev.berth b.val).rqCredits ∧ d.iBusy b.val = true)) ∧
    (∀ (n : Note) (rest : List Note), (s.dev.berth b.val).notes = n :: rest → s.dev.berthLive b.val → n.tide < s.dev.tide.num →
      8 ≤ s.dev.tide.tick → (s.dev.iWord b.val).getLsbD 267 = false → Completes (.notePresent b) s (fun d =>
        (d.berth b.val).notes = rest ∧ (d.iWord b.val).getLsbD 267 = true)) ∧
    (∀ (src : RegSrc) (e : Fin 32) (data : Word), let w := withField data 4 1 1
      s.dev.writes src (B.ERG e.val) O.ERG_NOTE_POST w → s.dev.takesNotes e.val → (s.dev.berth (16 * e.val + w.toNat % 16)).notes.length < 4 →
      Becomes (.ergNotePost src e data) s ((s.dev.setBerth (16 * e.val + w.toNat % 16)
        { s.dev.berth (16 * e.val + w.toNat % 16) with
          notes := (s.dev.berth (16 * e.val + w.toNat % 16)).notes ++ [⟨4, s.dev.tide.num⟩] }).finish (B.ERG e.val) .ok).okReply)

/-! ### The hold (chapter 05) -/

/-- R177 to R181: a row command of a running fabric is sampled, a lower with the register it captures; once it has been released, the bank carries
the oldest one out: a lower writes back the captured register, a hoist reads the row, which lands at the end of its tick. -/
def Obligations.HoldRowCommands : Prop :=
  ∀ s : State, s.dev.mode ≠ .quarantine →
    (∀ (e : Fin 32) (dune : Fin 256) (reg : Fin 2) (row : Fin 512), let b := 256 * e.val + dune.val
      let s1 := s.dev.setBank b { s.dev.bank b with lastCmd := some s.dev.tide.count }
      ¬ 0 ∈ s.dev.clk.applying → s.dev.inDock e.val = none → s.dev.mode = .underway → s.dev.ergRuns e.val →
      (∀ t, (s.dev.bank b).lastCmd = some t → t + s.dev.pace ≤ s.dev.tide.count) → s1.rowIgnored b = false →
      Becomes (.hoist e dune reg row) s ((s1.xferCountOne.setBank b { s1.bank b with cmds := (s1.bank b).cmds ++
        [{ lower := false, reg := reg.val, row := row.val, stamp := s.dev.tide.count, captured := {}, at_ := s.dev.tide.exec }] }).xingPush b
          s.dev.tide.count 8 (.rowCommand e.val dune.val row.val false)) ∧
      Becomes (.lower e dune reg row) s ((s1.xferCountOne.setBank b { s1.bank b with cmds := (s1.bank b).cmds ++
        [{ lower := true, reg := reg.val, row := row.val, stamp := s.dev.tide.count, captured := s.dev.fab.row b reg.val,
           at_ := s.dev.tide.exec }] }).xingPush b s.dev.tide.count 8 (.rowCommand e.val dune.val row.val true))) ∧
    (∀ (bank : Fin 8192) (c : RowCmd) (rest : List RowCmd), let s1 := s.dev.setBank bank.val { s.dev.bank bank.val with cmds := rest }
      ¬ 1 ∈ s.dev.clk.applying → (s.dev.bank bank.val).cmds = c :: rest → s.dev.crossed bank.val c.stamp → c.stamp + 8 ≤ s.dev.tide.count →
      Becomes (.rowCycle bank) s (s1.rowRun bank.val c) ∧
      (s1.hoistLost bank.val = false → s1.bankOut bank.val = false → s1.wiped bank.val = false →
        (c.lower = true → s1.rowRun bank.val c = s1.lowerRow bank.val c.row c.captured) ∧
        (c.lower = false → let s2 := (s1.hoistRow bank.val c.row).2
          s1.rowRun bank.val c = (s2.setBank bank.val { s2.bank bank.val with landings := (s2.bank bank.val).landings ++
            [{ due := c.at_ + 40, reg := c.reg, row := (s1.hoistRow bank.val c.row).1, stamp := c.stamp + 32 }] }).xingPush
              (8192 + bank.val) (c.stamp + 32) 8 (.row (bank.val / 256) (bank.val % 256))))) ∧
    (∀ (bank : Fin 8192) (l : Landing) (rest : List Landing), ¬ 0 ∈ s.dev.clk.applying → (s.dev.bank bank.val).landings = l :: rest →
      l.due < s.dev.tide.exec → s.dev.crossed (8192 + bank.val) l.stamp →
      let s1 := { s.dev.setBank bank.val { s.dev.bank bank.val with landings := rest } with fab := s.dev.fab.setRow bank.val l.reg l.row }
      Becomes (.hoistLand bank) s (if s.dev.fab.wrote.contains (bank.val, l.reg) then s1.event (B.ERG (bank.val / 256)) 2 else s1))

/-- A bank's word port serves the request `q` under its grant (R186, R190): the HOLD clock runs, the row is under no test, the bank is awake and
nothing refuses the request. -/
def Obligations.HoldWordPorts : Prop :=
  ∀ (s : State) (bank : Fin 8192) (q : ArbReq), let b := bank.val
    s.dev.mode ≠ .quarantine → ¬ 1 ∈ s.dev.clk.applying → s.dev.rowUnderTest b = false → (s.dev.arb (8 + b)).grant = some q → s.dev.asleep b = false →
    s.dev.bankRefusal (s.dev.nodeSrc q.msg.h.src) b = none →
    (q.msg.h.op = 1 → Becomes (.wordPortRead bank) s
      ((Dev.portRead b 4 (s.dev, q)).1.bankServed b (Dev.portRead b 4 (s.dev, q)).2 4)) ∧
    (q.msg.h.op = 2 → reqWords q.msg.h.addr q.msg.h.len = 1 → q.served = 0 → fullWord q → (s.dev.arb (8 + b)).heldFor = 0 →
      poisonedWord q = false → s.dev.flipArmed.contains (B.HOLD (b / 1024)) = false →
      let s1 := s.dev.putHoldWord b (reqWord q.msg.h.addr 0).1 (reqWord q.msg.h.addr 0).2 (flippedWord (mergeWord 0 q) 0)
      Becomes (.wordPortWrite bank) s ((s1.setArb (8 + b) { s1.arb (8 + b) with grant := none, heldFor := 0 }).respondFrom (8 + b) q.msg.h
        (q.bad.getD .ok) ((q.got.drop (q.msg.h.addr % 8)).take q.msg.h.len))) ∧
    (∀ x, q.msg.h.op = 2 → fullWord q = false → q.served < reqWords q.msg.h.addr q.msg.h.len →
      s.dev.holdWord b (reqWord q.msg.h.addr q.served).1 (reqWord q.msg.h.addr q.served).2 = x → ∀ v, x.value = some v → x.correctable = false →
      Becomes (.partialWrite bank) s ((s.dev.portStore b q (mergeWord v q)).1.bankServed b (s.dev.portStore b q (mergeWord v q)).2
        ((s.dev.arb (8 + b)).heldFor + 1))) ∧
    (∀ x, q.msg.h.op = 2 → fullWord q = false → q.served < reqWords q.msg.h.addr q.msg.h.len →
      s.dev.holdWord b (reqWord q.msg.h.addr q.served).1 (reqWord q.msg.h.addr q.served).2 = x → x.value = none → q.bad = none →
      Becomes (.partialWrite bank) s ((s.dev.holdUncorr (B.HOLD (b / 1024)) 0
        (wordIndex b (reqWord q.msg.h.addr q.served).1 (reqWord q.msg.h.addr q.served).2) 2 x.syn).bankServed b
        { q with served := q.served + 1, bad := some .uncorr } ((s.dev.arb (8 + b)).heldFor + 1)))

/-- R191, R192, R209: remapping a word of a bank. -/
def Obligations.HoldRemap : Prop :=
  ∀ (s : State) (src : RegSrc) (k : Fin 8) (data : Word), s.dev.mode ≠ .quarantine →
    (let w := withField data 0 2 1
     let b := 1024 * k.val + nfield w.toNat 16 10
     s.dev.writes src (B.HOLD k.val) O.HOLD_REMAP_CMD w → Completes (.remapRead src k data) s (fun d =>
      d.fld (B.HOLD k.val) F.HOLD_REMAP_ENTRY_VALID = (s.dev.remapAt b (nfield w.toNat 2 3)).isSome.toNat ∧
      (∀ row wd, row < 512 → wd < 32 → s.dev.remapAt b (nfield w.toNat 2 3) = some (row, wd) →
        d.fld (B.HOLD k.val) F.HOLD_REMAP_ENTRY_ROW = row ∧ d.fld (B.HOLD k.val) F.HOLD_REMAP_ENTRY_WORD = wd) ∧
      d.hold = s.dev.hold ∧ d.fld (B.HOLD k.val) F.BLK_STATUS_LAST_STATUS = Status.ok.code)) ∧
    (let w := withField data 0 2 2
     let b := 1024 * k.val + nfield w.toNat 16 10
     let row := s.dev.fld (B.HOLD k.val) F.HOLD_REMAP_ENTRY_ROW
     let wd := s.dev.fld (B.HOLD k.val) F.HOLD_REMAP_ENTRY_WORD
     s.dev.writes src (B.HOLD k.val) O.HOLD_REMAP_CMD w → s.dev.spareOf b row wd = none → (s.dev.freeSpare b).isSome →
      s.dev.asleep b = false → s.dev.marched b = false → s.dev.wiped b = false → Map.get (fun _ => none) s.dev.hold.adds k.val = none →
      Completes (.remapAdd src k data) s (fun d =>
        d.hold = { s.dev.hold with adds := Map.set (fun _ => none) s.dev.hold.adds k.val (some ⟨b, row, wd⟩) } ∧ d.mem = s.dev.mem)) ∧
    (∀ (a : RemapAdd) (i : Nat) (v : DWord), ¬ 1 ∈ s.dev.clk.applying → Map.get (fun _ => none) s.dev.hold.adds k.val = some a →
      s.dev.spareOf a.bank a.row a.word = none → s.dev.freeSpare a.bank = some i → (s.dev.holdWord a.bank a.row a.word).value = some v → Completes (.remapMigration k) s (fun d =>
        Map.get (fun _ => none) d.hold.adds k.val = none ∧ d.remapAt a.bank i = some (a.row, a.word) ∧ d.mem = s.dev.mem ∧
        d.fld (B.HOLD k.val) F.BLK_STATUS_LAST_STATUS = Status.ok.code)) ∧
    (∀ a : RemapAdd, Map.get (fun _ => none) s.dev.hold.adds k.val = some a → Completes (.remapAddTimeout k) s (fun d =>
        Map.get (fun _ => none) d.hold.adds k.val = none ∧ d.hold.remap = s.dev.hold.remap ∧ d.mem = s.dev.mem ∧
        d.fld (B.HOLD k.val) F.BLK_STATUS_LAST_STATUS = Status.busy.code))

/-- R195 to R200, R205: retention and wake of banks, and the bonded region. -/
def Obligations.HoldBond : Prop :=
  ∀ (s : State) (src : RegSrc) (data : Word), s.dev.mode ≠ .quarantine →
    (∀ e : Fin 32, (s.dev.erg e.val).slack.runs = false → (s.dev.erg e.val).slack ≠ .waking → s.dev.emulated = false → s.dev.mode ≠ .slack →
      (∀ i < 256, (s.dev.bank (256 * e.val + i)).cmds = [] ∧ (s.dev.arb (8 + (256 * e.val + i))).grant = none) →
      Completes (.bankRetentionEntry e) s (fun d =>
        (∀ i < 256, (d.bank (256 * e.val + i)).power = .retention) ∧ d.mem = s.dev.mem ∧ d.hold.syn = s.dev.hold.syn)) ∧
    (∀ bank : Fin 8192, (s.dev.bank bank.val).power = .waking →
      Map.get (fun _ => []) s.dev.net.wake (bank.val / 256) = [] → Completes (.bankWake bank) s (fun d =>
        (d.bank bank.val).power = .awake ∧ d.mem = s.dev.mem)) ∧
    (let w := withField data 0 2 1
     let new : Bond := { ergA := nfield w.toNat 2 5, enA := nbit w.toNat 7, ergB := nfield w.toNat 8 5, enB := nbit w.toNat 13 }
     s.dev.writes src (B.HOLD 0) O.HOLD_BOND_CMD w → ¬ (new.enA = true ∧ new.enB = true ∧ new.ergA = new.ergB) →
      (∀ e ∈ s.dev.hold.bond.ergs ++ new.ergs, (s.dev.erg e).mode ≠ .running ∧ (s.dev.erg e).slack.runs = true) → s.dev.hold.wipe = none →
      let s1 := s.dev.storeReg (B.HOLD 0) O.HOLD_BOND_CMD w
      Becomes (.bondSet src data) s
        ({ s1 with hold := { s1.hold with wipe := some new } }.wakeForWipe.setFlag (B.HOLD 0) F.HOLD_BOND_STAT_WIPING true).okReply) ∧
    (let w := withField data 0 2 2
     s.dev.writes src (B.HOLD 0) O.HOLD_BOND_CMD w → s.dev.hold.wipe = none →
      let s1 := s.dev.storeReg (B.HOLD 0) O.HOLD_BOND_CMD w
      Becomes (.bondWipe src data) s
        ({ s1 with hold := { s1.hold with wipe := some s1.hold.bond } }.wakeForWipe.setFlag (B.HOLD 0) F.HOLD_BOND_STAT_WIPING true).okReply) ∧
    (∀ new, ¬ 1 ∈ s.dev.clk.applying → s.dev.hold.wipe = some new → Completes .bondWiped s (fun d =>
        d.hold.wipe = none ∧ d.hold.bond = new ∧ d.flag (B.HOLD 0) F.HOLD_BOND_STAT_WIPING = false ∧
        d.mem = (s.dev.wipeErgs (s.dev.hold.bond.ergs ++ new.ergs)).mem ∧
        d.fld (B.HOLD 0) F.BLK_STATUS_LAST_STATUS = Status.ok.code))

/-- R203, R520: marches start, stop and end. -/
def Obligations.Marches : Prop :=
  ∀ (s : State) (src : RegSrc) (data : Word),
    let march (w : Word) (p : Bool) : March :=
      { planeStore := nbit w.toNat 2, preserving := p, first := nfield w.toNat 3 5, last := nfield w.toNat 8 5, aborted := false }
    let may (w : Word) (p : Bool) : Prop := (march w p).first ≤ (march w p).last ∧
      (s.dev.mode = .moored ∨ s.dev.mode = .underway ∨ s.dev.mode = .dryDock) ∧
      (∀ e ∈ (march w p).ergs, (s.dev.erg e).mode ≠ .running ∧ (s.dev.erg e).slack.runs = true ∧
        (nbit w.toNat 2 = true → ∀ q < 8, (s.dev.slot e q).st = .free) ∧
        (p = false → nbit w.toNat 2 = false → s.dev.mode ≠ .dryDock → e ∉ s.dev.hold.bond.ergs)) ∧
      s.dev.bist.march = none ∧ s.dev.bist.ddRun = none
    (let w := withField data 0 2 1
     s.dev.writes src B.BIST O.MARCH_CMD w → may w false →
      Becomes (.marchDestructive src data) s { s.dev with bist := { s.dev.bist with march := some (march w false) } }.okReply) ∧
    (let w := withField data 0 2 2
     s.dev.writes src B.BIST O.MARCH_CMD w → may w true →
      Becomes (.marchPreserving src data) s { s.dev with bist := { s.dev.bist with march := some (march w true) } }.okReply) ∧
    (∀ m : March, s.dev.writes src B.BIST O.MARCH_CMD (withField data 0 2 3) → s.dev.bist.march = some m →
      Becomes (.marchAbort src data) s { s.dev with bist := { s.dev.bist with march := some { m with aborted := true } } }.okReply) ∧
    (∀ (m : March) (fails : List MarchFail) (touched : Nat), s.dev.mode ≠ .quarantine → s.dev.gated B.BIST = false → s.dev.halted B.BIST = false →
      s.dev.bist.march = some m →
      let found := fails.filter (fun f => m.ergs.contains (f.bank.val / 256) && (!m.planeStore || decide (f.row.val < 384)))
      Becomes (.marchDone fails touched) s ((((({ s.dev with bist := { s.dev.bist with march := none } }.each m.ergs
        (fun s e => s.marchErg m e touched)).each found (fun s f => s.marchRepair m.planeStore f 2)).marchShow found).event B.BIST 14).finish
          B.BIST .ok))

/-- R205 to R209: the scrubber, and the transfer monitor's largest count. -/
def Obligations.Scrubs : Prop :=
  ∀ (s : State) (src : RegSrc) (data : Word), s.dev.mode ≠ .quarantine →
    (let first := s.dev.fld B.SCRB F.SCRB_START_ROW
     let n := s.dev.fld B.SCRB F.SCRB_ROWS_COUNT
     s.dev.writes src B.SCRB O.SCRB_CMD (withField data 0 2 1) → 0 < n → first + n ≤ 0x400000 → s.dev.hold.scrub = none →
      Completes (.scrbStart src data) s (fun d => d.hold = { s.dev.hold with scrub := some { first, count := n } } ∧
        d.reg B.SCRB O.SCRB_CORR = 0 ∧ d.reg B.SCRB O.SCRB_UNCORR = 0 ∧ d.reg B.SCRB O.SCRB_FIRST = 0 ∧ d.reg B.SCRB O.SCRB_LAST = 0)) ∧
    (s.dev.writes src B.SCRB O.SCRB_CMD (withField data 0 2 1) → s.dev.fld B.SCRB F.SCRB_ROWS_COUNT = 0 → s.dev.hold.scrub = none →
      Completes (.scrbStart src data) s (fun d => d.hold = s.dev.hold ∧ d.mem = s.dev.mem ∧
        nbit (d.reg B.SCRB O.EVT_STATUS).toNat 0 = true ∧ d.reg B.SCRB O.SCRB_CORR = 0 ∧ d.reg B.SCRB O.SCRB_UNCORR = 0 ∧
        d.fld B.SCRB F.BLK_STATUS_LAST_STATUS = Status.ok.code)) ∧
    (∀ r, s.dev.writes src B.SCRB O.SCRB_CMD (withField data 0 2 2) → s.dev.hold.scrub = some r → Completes (.scrbAbort src data) s (fun d =>
        d.hold = { s.dev.hold with scrub := some { r with aborted := true } } ∧ d.mem = s.dev.mem)) ∧
    (∀ (q : Fin 8) (r : ScrubRun) (g : Nat), ¬ 1 ∈ s.dev.clk.applying → s.dev.gated B.SCRB = false → s.dev.halted B.SCRB = false →
      s.dev.hold.scrub = some r → r.aborted = false → r.next q.val = some g → s.dev.inDock (g / 131072) = none →
      s.dev.scrubSkips (g / 512) = false → s.dev.scrubFree (g / 512) → let s1 := s.dev.scrubOne true g
      Becomes (.scrubRow ⟨false, q⟩) s { s1 with hold := { s1.hold with
        scrub := some { r with visited := Map.modify (fun _ => 0) r.visited q.val (· + 1) } } }) ∧
    (∀ q : Fin 8, let n := Map.get (fun _ => 0) s.dev.hold.idleRows q.val
      let g := quadrantRows * q.val + n
      ¬ 1 ∈ s.dev.clk.applying → s.dev.gated B.SCRB = false → s.dev.halted B.SCRB = false → s.dev.inDock (g / 131072) = none →
      s.dev.flag B.SCRB F.SCRB_IDLE_CTRL_EN → s.dev.scrubIn q.val = false → n < quadrantRows → s.dev.scrubSkips (g / 512) = false →
      s.dev.scrubFree (g / 512) → let s1 := s.dev.scrubOne false g
      Becomes (.scrubRow ⟨true, q⟩) s { s1 with hold := { s1.hold with idleRows := Map.set (fun _ => 0) s1.hold.idleRows q.val (n + 1) } }) ∧
    (∀ r : ScrubRun, s.dev.hold.scrub = some r → r.over_ = true → Completes .scrubDone s (fun d =>
      d.hold = { s.dev.hold with scrub := none } ∧ d.flag B.SCRB F.SCRB_UNCORR_ABORTED = r.aborted ∧ d.mem = s.dev.mem ∧
      d.fld B.SCRB F.BLK_STATUS_LAST_STATUS = Status.ok.code)) ∧
    (∀ us : Nat, s.dev.flag B.SCRB F.SCRB_IDLE_CTRL_EN → (∀ q < 8, quadrantRows ≤ Map.get (fun _ => 0) s.dev.hold.idleRows q) →
      us < 2 ^ 32 → Completes (.scrubLap us) s (fun d =>
        (d.reg B.SCRB O.SCRB_IDLE_LAP).toNat = us ∧ d.hold = { s.dev.hold with idleRows := [] } ∧ d.mem = s.dev.mem)) ∧
    (∀ peek, src.peeks peek = false → s.dev.reads src (B.HOLD 0) O.HOLD_XFER_MAX → Completes (.holdXferMaxRead src peek) s (fun d =>
      d.reply = some ⟨.ok, s.dev.showReg src.src (B.HOLD 0) O.HOLD_XFER_MAX false⟩ ∧ d.fld (B.HOLD 0) F.HOLD_XFER_MAX_MAX = 0 ∧
      d.fld (B.HOLD 0) F.HOLD_XFER_MAX_OVER_CNT = s.dev.fld (B.HOLD 0) F.HOLD_XFER_MAX_OVER_CNT ∧ d.hold = s.dev.hold))

/-! ### The Harbour Network (chapter 06) -/

/-- R16, R214, R216, R221, R224, R239, R241: a well-formed message that stands delivered at its endpoint, and what a target does with a request: a register
access and its answer, a request for a bank of the hold on its way through the locks to the bank's arbiter. -/
def Obligations.NetworkMessages : Prop :=
  (∀ (s : State) (m : Msg), let s1 : Dev := { s.dev with net := { s.dev.net with delivered := dropFirst m s.dev.net.delivered } }
    s.dev.net.delivered.contains m → s.dev.mode ≠ .quarantine → s1.malformed m = false →
    (∀ d, s1.serveRequest m = some d →
      (m.h.op = 1 → Becomes (.netRead m) s d) ∧ (m.h.op = 2 → Becomes (.netWrite m) s d) ∧ (m.h.op = 5 → Becomes (.netAcquire m) s d) ∧
      (m.h.op = 6 → Becomes (.netRelinquish m) s d)) ∧
    (∀ o : Out, m.h.op = 4 → s1.matching m.h = some o → s1.srcGated o.src = false → s1.srcHalted o.src = false →
      Becomes (.netResponse m) s (s1.outPart o m)) ∧
    (∀ k, k = s1.dmcOf m.h.addr →
      s1.gated (B.DMC k) = false → addrWin m.h.addr = some .ext → s1.beyondUsable k m.h.addr m.h.len = false →
      2 ≤ s1.fld (B.DMC k) F.DMC_STATE_STATE →
      (m.h.op = 7 → Becomes (.netMread m) s (s1.arbPush k m)) ∧ (m.h.op = 8 → Becomes (.netMwrite m) s (s1.arbPush k m)))) ∧
  (∀ (s : Dev) (m : Msg), addrBad m.h.addr m.h.len = false →
    (∀ r d, addrWin m.h.addr = some .regs → m.h.op = 1 →
      s.busRead (s.nodeSrc m.h.src) m.h.peek (m.h.addr - regWindow) = (some r, d) →
      s.serveRequest m = some (d.respond m.h r.status (leBytes 4 r.data.toNat))) ∧
    (∀ st d, addrWin m.h.addr = some .regs → m.h.op = 2 → m.poison = [] →
      s.busWrite (s.nodeSrc m.h.src) (m.h.addr - regWindow) (BitVec.ofNat 32 (ofLeBytes (m.data.take 4))) = (some st, d) →
      s.serveRequest m = some (d.respond m.h st)) ∧
    (addrWin m.h.addr = some .hold → s.gated (B.HOLD (holdBank m.h.addr / 1024)) = false →
      s.bankSleeps (holdBank m.h.addr) = false → s.halted (B.HOLD (holdBank m.h.addr / 1024)) = false →
      s.bankRefusal (s.nodeSrc m.h.src) (holdBank m.h.addr) = none → s.serveRequest m = some (s.lockEnter m)) ∧
    (m.h.op ≤ 2 → m.h.len = 0 → s.lockEnter m = s.respond m.h .ok) ∧
    ((m.h.op ≤ 2 → m.h.len ≠ 0) → m.h.op = 6 ∨ s.lockMeets m = false → s.lockEnter m = s.arbPush (s.arbOf m.h.addr) m) ∧
    ((m.h.op ≤ 2 → m.h.len ≠ 0) → m.h.op ≠ 6 → s.lockMeets m = true → (s.lockWaiters (s.lockTable m.h.addr)).length < waitRoom →
      s.lockEnter m = s.setWaiters (s.lockTable m.h.addr) (s.lockWaiters (s.lockTable m.h.addr) ++ [m])) ∧
    (∀ st, addrWin m.h.addr = some .hold → s.gated (B.HOLD (holdBank m.h.addr / 1024)) = false → s.bankSleeps (holdBank m.h.addr) = false →
      s.halted (B.HOLD (holdBank m.h.addr / 1024)) = false → s.bankRefusal (s.nodeSrc m.h.src) (holdBank m.h.addr) = some st →
      s.serveRequest m = some (s.respond m.h st)))

/-- R223, R227, R236, R240: a router output's cycle, a timer's end, a lease's end. -/
def Obligations.NetworkTimers : Prop :=
  ∀ s : State,
    (∀ (router : Fin 72) (output : Fin 6) (errs : List (Fin 4 × BitVec 72)), ¬ 2 ∈ s.dev.clk.applying → s.dev.mode ≠ .quarantine →
      let s0 := s.dev.inject router.val 64
      let x := s0.router router.val
      let s1 := s0.setRouter router.val { x with wheel := Map.set (fun _ => 0) x.wheel output.val (Map.get (fun _ => 0) x.wheel output.val + 1) }
      (wheelPick (Map.get (fun _ => 0) x.wheel output.val) (s0.candidates router.val output.val) = none → Becomes (.routerHop router output errs) s s1) ∧
      (∀ c, wheelPick (Map.get (fun _ => 0) x.wheel output.val) (s0.candidates router.val output.val) = some c →
        Becomes (.routerHop router output errs) s (s1.hopFlit router.val output.val c (errs.map (fun x => (x.1.val, x.2)))))) ∧
    (∀ (who : Src) (tag : BitVec 9) (o : Out),
      s.dev.net.outs.find? (fun o => o.src.sameSlots who && o.tag == tag.toNat && timerOver o.deadline s.dev.clk.time) = some o →
      s.dev.mode ≠ .quarantine → s.dev.srcHalted o.src = false → (∀ b, o.src ≠ .berth b) → Becomes (.initiatorTimeout who tag) s
        ((({ s.dev with net := { s.dev.net with outs := s.dev.net.outs.filter (· != o) } }.count B.HN F.HN_TO_CNT_TIMEOUT_CNT).classU B.HN 1
          .timeout o.addr s.dev.coord).giveAnswer o .timeout [])) ∧
    (∀ (who : Src) (tag : BitVec 9) (o : Out) (b : Fin 512),
      s.dev.net.outs.find? (fun o => o.src.sameSlots who && o.tag == tag.toNat && timerOver o.deadline s.dev.clk.time) = some o →
      s.dev.mode ≠ .quarantine → s.dev.srcHalted o.src = false → o.src = .berth b →
      let s1 := ({ s.dev with net := { s.dev.net with outs := s.dev.net.outs.filter (· != o) } }.count B.HN F.HN_TO_CNT_TIMEOUT_CNT).classU B.HN 1
          .timeout o.addr s.dev.coord
      Becomes (.initiatorTimeout who tag) s ((s1.setBerth b.val { s1.berth b.val with
        timeouts := satAdd 16 (s1.berth b.val).timeouts 1 }).giveAnswer o .timeout [])) ∧
    (∀ (table : Fin 40) (line : Nat) (l : Lock), (s.dev.locks table.val).find? (fun l => l.line == line) = some l → timerOver l.expires s.dev.clk.time →
      s.dev.mode ≠ .quarantine → s.dev.leaseStands l = false → Becomes (.leaseExp table line) s
        ((((s.dev.setLocks table.val ((s.dev.locks table.val).filter (· != l))).count B.HN F.HN_MISC_CNT_LEASE_EXP_CNT).classU B.HN 4 .ok
          (64 * line) (nodeDev l.holder)).waitersGo table.val))

/-- R238, R239, R241 to R246, R252: port arbiters. The grant goes to the highest-numbered input that has a request and is not masked, with no exception, and none where
every input with a request is masked; what a granted request does: a READ or a WRITE holds the grant, an ACQUIRE takes its line, its holder's RELINQUISH frees
it; a window's end clears the counts; a write grant held too long is cut off, its input flagged and masked at this arbiter. -/
def Obligations.Arbiters : Prop :=
  ∀ (s : State) (arb : Fin 8200), let a := arb.val
    (∀ (i : Nat) (q : ArbReq), ¬ 2 ∈ s.dev.clk.applying → s.dev.mode ≠ .quarantine → s.dev.gated (arbBlock a) = false →
      s.dev.halted (arbBlock a) = false → (s.dev.arb a).grant = none →
      (a < 8 → s.dev.fld (B.DMC a) F.DMC_STATE_STATE = 2 ∧ (q.msg.h.op ≤ 2 → s.dev.dmcRoom a q.msg = true)) →
      i < 16 → s.dev.arbMasked a i = false → (s.dev.arb a).queue.find? (fun q => s.dev.arbInput a q.msg.h.qg == i) = some q →
      (∀ j, i < j → j < 16 → s.dev.arbMasked a j = true ∨ ∀ r ∈ (s.dev.arb a).queue, s.dev.arbInput a r.msg.h.qg ≠ j) →
      let used := Map.modify (fun _ => 0) (s.dev.arb a).used i (· + 1)
      Becomes (.arbiterGrant arb) s
        (((s.dev.setArb a { s.dev.arb a with queue := (s.dev.arb a).queue.erase q, used }).showArb a).arbServe a { q with input := i })) ∧
    ((s.dev.arb a).grant = none → (∀ i, i < 16 → s.dev.arbMasked a i = true ∨ ∀ r ∈ (s.dev.arb a).queue, s.dev.arbInput a r.msg.h.qg ≠ i) →
      Becomes (.arbiterGrant arb) s s.dev) ∧
    (∀ (d : Dev) (q : ArbReq), let m := q.msg
      (m.h.op ≤ 2 → d.lockMeets m = false → ((d.arbServe a q).arb a).grant = some q ∧ (d.arbServe a q).net.outs = d.net.outs) ∧
      (m.h.op = 5 → d.lockMeets m = false → (∀ l ∈ d.locks (d.lockTable m.h.addr), l.line ≠ m.h.addr / 64) →
        (d.locks (d.lockTable m.h.addr)).length < lockRoom (d.lockTable m.h.addr) →
        d.arbServe a q = (d.setLocks (d.lockTable m.h.addr) (d.locks (d.lockTable m.h.addr) ++
          [{ line := m.h.addr / 64, holder := m.h.src, expires := timerEnd d.clk.time (8 * m.h.lease) }])).respondFrom
            (d.arbOf m.h.addr) m.h .ok) ∧
      (m.h.op = 6 → (∀ l ∈ d.locks (d.lockTable m.h.addr), l.line = m.h.addr / 64 → l.holder ≠ m.h.src) →
        d.arbServe a q = d.respondFrom (d.arbOf m.h.addr) m.h .state) ∧
      (∀ l ∈ d.locks (d.lockTable m.h.addr), m.h.op = 6 → l.line = m.h.addr / 64 → l.holder = m.h.src →
        d.arbServe a q = ((d.setLocks (d.lockTable m.h.addr) ((d.locks (d.lockTable m.h.addr)).filter (fun l =>
          !(l.line == m.h.addr / 64 && l.holder == m.h.src)))).respondFrom (d.arbOf m.h.addr) m.h .ok).waitersGo (d.lockTable m.h.addr))) ∧
    (¬ 2 ∈ s.dev.clk.applying → s.dev.mode ≠ .quarantine → s.dev.mode ≠ .underway →
      1000 * s.dev.fld (arbBlock a) F.ARB_CFG_WIN ≤ 2 * (s.dev.clk.time - (s.dev.arb a).windowAt) * s.dev.nclk →
      Completes (.arbiterWindow arb) s (fun d => (d.arb a).used = [] ∧ (d.arb a).windowAt = s.dev.clk.time ∧
        (d.arb a).queue = (s.dev.arb a).queue ∧ (d.arb a).grant = (s.dev.arb a).grant ∧ d.mem = s.dev.mem)) ∧
    (∀ q, ¬ 2 ∈ s.dev.clk.applying → s.dev.mode ≠ .quarantine → (s.dev.arb a).grant = some q → q.msg.h.op = 2 → s.dev.grantOld a →
      Becomes (.arbCut arb) s
      ((((((s.dev.setArb a { s.dev.arb a with grant := none, heldFor := 0, cut := (s.dev.arb a).cut.filter (· != q.input) ++ [q.input] }).setReg
        (arbBlock a) O.ARB_FLAG (s.dev.reg (arbBlock a) O.ARB_FLAG ||| BitVec.ofNat 32 (2 ^ q.input))).count (arbBlock a)
          F.ARB_CUT_CNT_CUT_CNT).classU (arbBlock a) 16 .cutoff q.msg.h.addr (nodeDev q.msg.h.src)).respondFrom a q.msg.h .cutoff))) ∧
    (∀ (src : RegSrc) (peek : Bool), src.peeks peek = false → s.dev.reads src B.HN O.HN_SCH_MAXWAIT →
      Completes (.hnSchMaxwaitRead src peek) s (fun d =>
        d.reply = some ⟨.ok, s.dev.showReg src.src B.HN O.HN_SCH_MAXWAIT false⟩ ∧ d.fld B.HN F.HN_SCH_MAXWAIT_MAX = 0 ∧
        d.fld B.HN F.HN_SCH_MAXWAIT_OVER_CNT = s.dev.fld B.HN F.HN_SCH_MAXWAIT_OVER_CNT ∧ d.net = s.dev.net ∧ d.mem = s.dev.mem))

/-! ### The GDDR7 controllers (chapter 07) -/

/-- R257, R272, R276, R278: the commands of a controller that change its state, the map, the lane shown. -/
def Obligations.DmcCommands : Prop :=
  ∀ (s : State) (src : RegSrc) (k : Fin 8) (data : Word),
    let blk := B.DMC k.val
    let st := s.dev.fld blk F.DMC_STATE_STATE
    let okay (d : Dev) : Prop := d.fld blk F.BLK_STATUS_LAST_STATUS = Status.ok.code ∧ d.mem = s.dev.mem
    (s.dev.writes src blk O.DMC_CMD (withField data 0 3 1) → st = 0 →
      Completes (.dmcStart src k data) s (fun d =>
        d.fld blk F.DMC_STATE_STATE = 1 ∧ d.dmc k.val = (s.dev.dmc k.val).started s.dev.clk.time ∧ okay d)) ∧
    (s.dev.writes src blk O.DMC_CMD (withField data 0 3 2) → st = 1 → Completes (.dmcGo src k data) s (fun d =>
        d.fld blk F.DMC_STATE_STATE = 2 ∧ d.ext = s.dev.ext ∧ okay d)) ∧
    (let w := withField data 0 3 3
     let n := nfield w.toNat 8 8
     let ahead := (s.dev.fld blk F.DMC_MAINT_TIDE_TIDE + 2 ^ 32 - s.dev.tide.num % 2 ^ 32) % 2 ^ 32
     s.dev.writes src blk O.DMC_CMD w → st = 2 →
      (s.dev.mode = .moored → Becomes (.dmcMaint src k data) s ((s.dev.windowStart k.val 0 false).finish blk .ok).okReply) ∧
      (s.dev.mode = .underway → n ≠ 0 → 2 ≤ ahead → ahead < 2 ^ 31 → (s.dev.dmc k.val).window = .none →
        s.dev.windowMeets s.dev.tide.decls k.val (s.dev.tide.num + ahead) n = false → Completes (.dmcMaint src k data) s (fun d =>
          (d.dmc k.val).window = .pending (s.dev.tide.num + ahead) n ∧ d.flag blk F.DMC_STATE_PENDING = true ∧ okay d))) ∧
    (s.dev.writes src blk O.DMC_CMD (withField data 0 3 4) → st = 3 →
      ((s.dev.dmc k.val).window = .running false true → Completes (.dmcEnd src k data) s (fun d =>
        (d.dmc k.val).window = .running true true ∧ d.fld blk F.DMC_STATE_STATE = 3 ∧ okay d)) ∧
      ((s.dev.dmc k.val).window = .running false false →
        Becomes (.dmcEnd src k data) s ((s.dev.windowEnd k.val).finish blk .ok).okReply)) ∧
    (s.dev.writes src (B.DMC 0) O.DMC_MAP_CMD (withField data 0 1 1) → (∀ i < 9, maskLegal i (maskOf s.dev.ext.staged i) = true) →
      (∀ j < 8, s.dev.fld (B.DMC j) F.DMC_STATE_STATE < 2) → Completes (.mapApply src data) s (fun d =>
        d.ext = { s.dev.ext with active := s.dev.ext.staged } ∧ d.mem = s.dev.mem ∧
        d.fld (B.DMC 0) F.BLK_STATUS_LAST_STATUS = Status.ok.code)) ∧
    (s.dev.writes src blk O.DMC_LANE_SEL data → data.toNat % 64 < 56 → Completes (.dmcLaneSel src k data) s (fun d =>
        d.fld blk F.DMC_LANE_SEL_LANE = data.toNat % 64 ∧ d.ext = s.dev.ext ∧ d.mem = s.dev.mem))

/-- R274, R275: training: pattern operations start, end and count; mode registers are written. -/
def Obligations.DmcTraining : Prop :=
  ∀ (s : State) (src : RegSrc) (k : Fin 8) (data : Word),
    let blk := B.DMC k.val
    let buf := (List.range 16).flatMap (fun i => leBytes 4 (s.dev.reg blk (O.DMC_CMP i)).toNat)
    let started (op : Nat) (w : Word) (d : Dev) : Prop :=
      (d.dmc k.val).op = some { op, ch := nfield w.toNat 2 2, count := nfield w.toNat 16 16 } ∧
      (∀ l < 56, (Map.get (fun _ => {}) (d.dmc k.val).lanes l).err = 0) ∧ d.mem = s.dev.mem
    let wide (w : Word) : Prop := nfield w.toNat 16 16 ≠ 0
    let atOnce (c : Instr) : Prop := Completes c s (fun d => (d.dmc k.val).op = none ∧
      (∀ l < 56, (Map.get (fun _ => {}) (d.dmc k.val).lanes l).err = 0) ∧ (d.dmc k.val).fifo = (s.dev.dmc k.val).fifo ∧
      d.fld blk F.BLK_STATUS_LAST_STATUS = Status.ok.code ∧ d.mem = s.dev.mem)
    s.dev.trainRefusal k.val = none →
    (let w := withField data 0 2 1
     s.dev.writes src blk O.DMC_TRAIN_CMD w → wide w → Completes (.wrFifo src k data) s (fun d => started 1 w d ∧
      Map.get (fun _ => []) (d.dmc k.val).fifo (nfield w.toNat 2 2) = buf)) ∧
    (let w := withField data 0 2 2
     s.dev.writes src blk O.DMC_TRAIN_CMD w → wide w → Completes (.rdFifo src k data) s (fun d => started 2 w d ∧
      (d.dmc k.val).fifo = (s.dev.dmc k.val).fifo)) ∧
    (let w := withField data 0 2 3
     s.dev.writes src blk O.DMC_TRAIN_CMD w → wide w → Completes (.caLoop src k data) s (fun d => started 3 w d ∧
      (d.dmc k.val).fifo = (s.dev.dmc k.val).fifo)) ∧
    (∀ w, nfield w.toNat 16 16 = 0 → s.dev.writes src blk O.DMC_TRAIN_CMD w →
      (w = withField data 0 2 1 → atOnce (.wrFifo src k data)) ∧ (w = withField data 0 2 2 → atOnce (.rdFifo src k data)) ∧
      (w = withField data 0 2 3 → atOnce (.caLoop src k data))) ∧
    (let w := withField data 31 1 1
     let chs := if nbit w.toNat 22 then [0, 1, 2, 3] else [nfield w.toNat 20 2]
     s.dev.writes src blk O.DMC_MRW w → Completes (.dmcMrw src k data) s (fun d =>
      (∀ c ∈ chs, Map.get (fun _ => 0) (d.dmc k.val).modeRegs (256 * c + nfield w.toNat 12 8) = w.toNat % 4096) ∧
      (d.dmc k.val).op = (s.dev.dmc k.val).op ∧ d.mem = s.dev.mem ∧ d.fld blk F.BLK_STATUS_LAST_STATUS = Status.ok.code))

/-- R264 to R268, R275: what happens at the device: refresh, service of pieces, reports of errors, the end of a pattern operation. -/
def Obligations.DmcEvents : Prop :=
  ∀ (s : State) (k : Fin 8), ¬ 3 ∈ s.dev.clk.applying → s.dev.mode ≠ .quarantine →
    (∀ (o : PatternOp) (errs : List (Fin 56 × BitVec 16)), (s.dev.dmc k.val).op = some o →
      let sure := s.dev.fifoErrs k.val o
      let good := sure ++ (errs.map (fun x => (x.1.val, x.2.toNat))).filter
        (fun (l, n) => o.counts l && decide (n ≤ o.count) && !sure.any (fun x => x.1 == l))
      let lanes := good.foldl (fun m (l, n) => Map.modify (fun _ => {}) m l (fun x => { x with err := satAdd 16 x.err n })) (s.dev.dmc k.val).lanes
      Becomes (.trainDone k errs) s
        (((s.dev.setDmc k.val { s.dev.dmc k.val with op := none, lanes }).event (B.DMC k.val) 4).finish (B.DMC k.val) .ok)) ∧
    (∀ ch : Fin 4, s.dev.refreshes k.val → s.dev.refreshDue k.val ch.val →
      let nextRef := Map.modify (fun _ => 0) (s.dev.dmc k.val).nextRef ch.val refreshNext
      let refAt := Map.set (fun _ => 0) (s.dev.dmc k.val).refAt ch.val s.dev.clk.time
      Becomes (.refresh k ch) s (s.dev.setDmc k.val { s.dev.dmc k.val with nextRef, refAt })) ∧
    (∀ (bank : Fin 64) (found : AccessFound), s.dev.fld (B.DMC k.val) F.DMC_STATE_STATE = 2 → (s.dev.dmc k.val).selfRefresh = false →
      let s0 := s.dev.dmcTake k.val
      (∀ q rest, (s0.dmc k.val).meta_ = q :: rest → Becomes (.dmcAccess k bank found) s
        ((s0.setDmc k.val { s0.dmc k.val with meta_ := rest }).serveMeta q)) ∧
      (∀ q, (s0.dmc k.val).meta_ = [] → s0.nextPiece k.val bank.val = some q → q.write = true → (s0.serveWrite k.val found.word q).2 = true →
        Becomes (.dmcAccess k bank found) s ((s0.serveWrite k.val found.word q).1.pieceServed k.val q)) ∧
      (∀ q, (s0.dmc k.val).meta_ = [] → s0.nextPiece k.val bank.val = some q → q.write = false →
        let served := s0.serveRead k.val found ((dropFirst q (s0.dmc k.val).pieces).filter (·.write)) q
        served.2 = true → Becomes (.dmcAccess k bank found) s (served.1.pieceServed k.val q))) ∧
    (∀ (d : Dev) (q : Piece) (found : AccessFound) (pend : List Piece), d.rangeAt q.addr = none →
      d.serveWrite k.val found.word q = (d.writePiece k.val found.word q, true) ∧
      (2 ≤ found.edc → (d.serveRead k.val found pend q).2 = true) ∧
      (found.edc = 0 → (∀ a ∈ linesOf q.addr q.len, ∃ p ∈ pend, p.holds a = true) → d.mode ≠ .quarantine →
        let got := d.readLines k.val pend (linesOf q.addr q.len)
        got.1.mode ≠ .quarantine → got.2.1 = none →
          d.serveRead k.val found pend q = (got.1.pieceEnd q .ok ((got.2.2.drop (q.addr % 64)).take q.len), true))) ∧
    (∀ q (line : Fin 4), (s.dev.dmc k.val).recent.find? (·.write) = some q → (s.dev.dmc k.val).retried ≠ some (q.lineAt line.val) →
      Becomes (.writeCrcReport ⟨k, line⟩) s ((s.dev.classC (B.DMC k.val)).setDmc k.val { s.dev.dmc k.val with
        retried := some (q.lineAt line.val) })) ∧
    (∀ q (line : Fin 4), (s.dev.dmc k.val).recent.find? (·.write) = some q → (s.dev.dmc k.val).retried = some (q.lineAt line.val) →
      Becomes (.writeCrcReport ⟨k, line⟩) s ((((s.dev.dmcError k.val 0 5 (q.lineAt line.val) 0 true).storePoison (q.lineAt line.val)).amend q).setDmc
        k.val { s.dev.dmc k.val with retried := none })) ∧
    (∀ (n : Nat) (q : Piece), ((s.dev.dmc k.val).recent.take n).getLast? = some q →
      let s1 := s.dev.dmcError k.val 1 2 q.addr 0 q.write
      Becomes (.caErr k n) s ((((s.dev.dmc k.val).recent.take n).foldl Dev.amend s1).setDmc k.val { s1.dmc k.val with recent := [] }))

/-! ### Protected ranges and keys (chapter 08) -/

/-- R280, R281, R306, R308: the commands of the range that MCE_RANGE_SEL shows. -/
def Obligations.RangeCommands : Prop :=
  ∀ (s : State) (src : RegSrc) (data : Word),
    let r := s.dev.fld B.MCE F.MCE_RANGE_SEL_RANGE
    let x := s.dev.range r
    (let others := s.dev.otherImgs r
     let mb := s.dev.fld B.MCE F.MCE_META_CFG_BASE
     let slots := s.dev.fld B.MCE F.MCE_META_CFG_SLOTS
     let k := s.dev.key x.sKey
     s.dev.writes src B.MCE O.MCE_RANGE_CMD (withField data 0 3 1) → x.sMode ≠ 3 →
      (∀ g ∈ others, meet x.sBase x.sSize g.base g.size = false ∧ (g.mode = 2 → meet x.sSlot x.sSize g.slot g.size = false)) →
      (slots ≠ 0 → meet (x.sBase * unit64) (x.sSize * unit64) (mb * unit64) (slots * slotBytes) = false) →
      (x.sBase + x.sSize) * unit64 ≤ s.dev.usableEnd → (x.sMode = 2 → x.sSlot + x.sSize ≤ slots) → x.st = .disabled → k.st = .active →
      s.dev.allOnline → s.dev.declReaches (x.sBase * unit64) ((x.sBase + x.sSize) * unit64) = false →
      Becomes (.rangeEnable src data) s (s.dev.setRange r { x with
        st := .init, keyId := x.sKey, walking := none, poisonAll := false,
        img := some { base := x.sBase, size := x.sSize, mode := x.sMode, slot := x.sSlot, metaBase := mb, dataKey := k.data, macKey := k.mac,
                      masks := s.dev.ext.active } }).okReply) ∧
    (∀ g, s.dev.writes src B.MCE O.MCE_RANGE_CMD (withField data 0 3 2) → x.img = some g → x.st = .enabled → x.walking = none →
      s.dev.allOnline → s.dev.declReaches g.lo g.hi = false → Completes (.rangeDisable src data) s (fun d =>
        d.range r = { x with st := .zeroising } ∧ d.mem = s.dev.mem)) ∧
    (∀ g, let w := withField data 0 3 3
     let new := nfield w.toNat 4 6
     s.dev.writes src B.MCE O.MCE_RANGE_CMD w → x.img = some g → x.st = .enabled → g.mode ≠ 0 →
      (∀ k < 16, k ≠ r → (s.dev.range k).st = .enabled → (s.dev.range k).keyId = x.keyId → ∀ h, (s.dev.range k).img = some h → h.mode = 0) →
      s.dev.declReaches g.lo g.hi = false → new ≠ x.keyId → (s.dev.key new).st = .active →
      (x.walking = none ∧ (s.dev.key x.keyId).st = .active) ∨ (x.walking = some new ∧ (s.dev.key x.keyId).st = .draining) →
      s.dev.mce.walker = none →
      Completes (.rekey src data) s (fun d =>
        d.mce.walker = some { range := r, newId := new, unit := g.split } ∧ (d.key x.keyId).st = .draining ∧ (d.key new).st = .active ∧
        d.range r = { x with walking := some new, img := some { g with newData := (s.dev.key new).data, newMac := (s.dev.key new).mac } } ∧
        d.mem = s.dev.mem)) ∧
    (∀ w : Walker, s.dev.writes src B.MCE O.MCE_RANGE_CMD (withField data 0 3 4) → s.dev.mce.walker = some w → w.range = r →
      Completes (.rekeyAbort src data) s (fun d => d.mce = { s.dev.mce with walker := some { w with aborting := true } } ∧
        d.mem = s.dev.mem ∧ d.fld B.MCE F.BLK_STATUS_LAST_STATUS = Status.ok.code))

/-- R289, R290: the key commands. A key's generation counts each time it leaves FREE. -/
def Obligations.KeyCommands : Prop :=
  ∀ (s : State) (src : RegSrc) (data : Word),
    let okay (d : Dev) : Prop := d.fld B.MCE F.BLK_STATUS_LAST_STATUS = Status.ok.code ∧ d.mem = s.dev.mem
    (let w := withField data 0 3 1
     let id := nfield w.toNat 4 6
     s.dev.writes src B.MCE O.MCE_KEY_CMD w → nbit w.toNat 3 = false → (s.dev.key id).st = .free → s.dev.flag B.SEC F.SEC_RNG_STAT_RUN →
      Completes (.keyGen src data) s (fun d =>
        d.key id = { st := .active, gen := satAdd 16 (s.dev.key id).gen 1, data := s.dev.draw.1, mac := s.dev.draw.2.draw.1 } ∧ okay d)) ∧
    (∀ kek : BitVec 256, let w := withField data 0 3 2
     let id := nfield w.toNat 4 6
     s.dev.writes src B.MCE O.MCE_KEY_CMD w → nbit w.toNat 3 = false → (s.dev.key id).st = .free → s.dev.kwk = some kek →
      Completes (.keyUnwrap src data) s (fun d => d.mem = s.dev.mem ∧ (∀ n < 18, d.reg B.MCE (O.MCE_WRAP n) = 0) ∧
        match Aes.unwrap kek (s.dev.wrapped 72) with
        | some b => d.key id = { st := .active, gen := satAdd 16 (s.dev.key id).gen 1, data := BitVec.ofNat 256 (ofLeBytes (toBytes (b.take 32))),
                                 mac := BitVec.ofNat 256 (ofLeBytes (toBytes (b.drop 32))) } ∧
            d.fld B.MCE F.BLK_STATUS_LAST_STATUS = Status.ok.code
        | none => d.key id = s.dev.key id ∧ d.fld B.MCE F.BLK_STATUS_LAST_STATUS = Status.auth.code)) ∧
    (let w := withField data 0 3 3
     let id := nfield w.toNat 4 6
     s.dev.writes src B.MCE O.MCE_KEY_CMD w → nbit w.toNat 3 = false → (s.dev.key id).st = .active → Completes (.keyRetire src data) s (fun d =>
        d.key id = { s.dev.key id with st := .retired } ∧ okay d)) ∧
    (let w := withField data 0 3 4
     let id := nfield w.toNat 4 6
     s.dev.writes src B.MCE O.MCE_KEY_CMD w → nbit w.toNat 3 = false → (s.dev.key id).st = .retired → (s.dev.key id).gen ≠ 0xFFFF →
      Completes (.keyZeroise src data) s (fun d =>
        (d.key id).st = .free ∧ (d.key id).gen = (s.dev.key id).gen ∧ (∀ r < 16, (d.range r).under id = false) ∧
        ((∀ r < 16, (s.dev.range r).under id = false) → okay d)))

/-- R281, R298, R299, R302, R307: what the engines do with ranges. A walk's unit without written lines, a page without written lines: what they
count is what the statement shows. -/
def Obligations.CipherEvents : Prop :=
  ∀ s : State, ¬ 3 ∈ s.dev.clk.applying → s.dev.mode ≠ .quarantine →
    (∀ (range : Fin 16) (g : RangeImg), (s.dev.range range.val).st = .init → (s.dev.range range.val).img = some g →
      Completes (.initDone range) s (fun d => (d.range range.val).st = .enabled ∧ (g.mode = 0 → d.mem = s.dev.mem) ∧
        d.fld B.MCE F.BLK_STATUS_LAST_STATUS = Status.ok.code)) ∧
    (∀ (range : Fin 16) (g : RangeImg), (s.dev.range range.val).st = .init → (s.dev.range range.val).img = some g → g.mode = 1 →
      Becomes (.initDone range) s ((((s.dev.clearExt g.lo g.hi).setRange range.val { s.dev.range range.val with st := .enabled }).event B.MCE
        4).finish B.MCE .ok)) ∧
    (∀ range : Fin 16, (s.dev.range range.val).st = .zeroising →
      Becomes (.initDone range) s (((s.dev.zeroiseRange range.val).event B.MCE 4).finish B.MCE .ok)) ∧
    (∀ (range : Fin 16) (page : Nat) (found : List MetaFound) (g : RangeImg) (f : FetchRound), (s.dev.range range.val).img = some g →
      s.dev.mce.rounds.find? (fun f => f.range == range.val && f.page == page && f.todo.isEmpty && f.wanted.isEmpty) = some f →
      s.dev.mce.rootFlips = [] →
      let ready (d : Dev) : Dev :=
        (f.lines.foldl Dev.metaJoin { d with mce := { d.mce with rounds := d.mce.rounds.filter (· != f) } }).metaGoes g page
      ((∀ x ∈ found, x.a = .good ∧ x.b = .good) → Becomes (.metaFetch range page found) s (ready s.dev)) ∧
      (∀ kind, found = [⟨kind, .uncorr, .good⟩] → f.lines.contains (g.metaAddr kind.val page) →
        Becomes (.metaFetch range page found) s (ready ((s.dev.event B.MCE 0).classC B.MCE))) ∧
      (∀ kind, found = [⟨kind, .badMac, .good⟩] → f.lines.contains (g.metaAddr kind.val page) →
        Becomes (.metaFetch range page found) s (s.dev.quarantine 1 (g.metaAddr kind.val page) B.MCE 0))) ∧
    (∀ (engine : Fin 4) (x : Reenc) (g : RangeImg), Map.get (fun _ => none) s.dev.mce.reencs engine.val = some x →
      (s.dev.range x.range).img = some g → x.waits = none →
      (∀ i < 64, Map.get (fun _ => false) g.written ((g.lo + 4096 * x.page + 64 * i) / 64) = false) →
      Completes (.pageReencrypt engine) s (fun d => ∃ h, (d.range x.range).img = some h ∧
        (h.ctr x.page).major = (g.ctr x.page).major + 1 ∧ (h.ctr x.page).minors = 0 ∧ d.mem = s.dev.mem)) ∧
    (∀ (w : Walker) (g : RangeImg), s.dev.mce.walker = some w → (s.dev.range w.range).img = some g → w.unit < g.size * 32 → g.mode = 1 →
      w.aborting = false → (∀ e ∈ g.written, e.1 / 32768 ≠ g.lo / 2097152 + w.unit) →
      Completes .rekeyUnit s (fun d => d.mce.walker = some { w with unit := w.unit + 1 } ∧
        (∃ h, (d.range w.range).img = some h ∧ h.split = w.unit + 1) ∧ d.mem = s.dev.mem)) ∧
    (∀ (w : Walker) (g : RangeImg), s.dev.mce.walker = some w → (s.dev.range w.range).img = some g → g.size * 32 ≤ w.unit →
      (∀ o ∈ s.dev.net.outs, ∀ e, o.src = .engine e → o.op = 8 → g.metaCovers o.addr = false) →
      Completes .walkDone s (fun d => d.mce.walker = none ∧ (d.range w.range).keyId = w.newId ∧ (d.range w.range).walking = none ∧
        (d.key (s.dev.range w.range).keyId).st = .retired ∧ (∃ h, (d.range w.range).img = some h ∧ h.dataKey = g.newData ∧ h.macKey = g.newMac) ∧
        d.mem = s.dev.mem ∧ d.fld B.MCE F.BLK_STATUS_LAST_STATUS = Status.ok.code))

/-! ### Causeway links (chapter 09) -/

/-- R322, R324, R328, R338: the commands of CW_CTRL, and what training and RELOCK do in time. -/
def Obligations.LinkControl : Prop :=
  ∀ (s : State) (src : RegSrc) (n : Fin 16) (data : Word), OutputsShow s.dev →
    let blk := B.CW n.val
    let st := s.dev.linkState n.val
    (s.dev.writes src blk O.CW_CTRL data → nbit data.toNat 1 = false → nbit data.toNat 2 = false →
      (nbit data.toNat 0 = true → st = 0 → Completes (.linkEnable src n data) s (fun d =>
        d.linkState n.val = 1 ∧ d.flag blk F.CW_CTRL_EN = true ∧ (d.link n.val).step = .ts1 ∧ d.mem = s.dev.mem)) ∧
      (nbit data.toNat 0 = false → Becomes (.linkEnable src n data) s (s.dev.linkOff n.val).okReply)) ∧
    (let w := withField data 1 1 1
     s.dev.writes src blk O.CW_CTRL w → nbit w.toNat 0 = true → nbit w.toNat 2 = false →
      (st = 1 → Completes (.retrain src n data) s (fun d =>
        d.linkState n.val = 1 ∧ (d.link n.val).step = .ts1 ∧ (d.link n.val).rows1 = 0 ∧ d.fld blk F.BLK_STATUS_LAST_STATUS = Status.ok.code)) ∧
      (2 ≤ st → Becomes (.retrain src n data) s
        (((s.dev.setFlag blk F.CW_CTRL_EN true).linkFall n.val false).finish blk .ok).okReply)) ∧
    (let w := withField data 2 1 1
     let next := s.dev.fld blk F.CW_KEY_NEXT_TX_NEXT
     s.dev.writes src blk O.CW_CTRL w → nbit w.toNat 0 = true → nbit w.toNat 1 = false → s.dev.linkKeyActive next →
      s.dev.flag blk F.CW_KEY_CFG_TX_EN → st = 2 → Completes (.keySwitch src n data) s (fun d =>
        d.fld blk F.CW_KEY_CFG_TX_ID = next ∧ d.flag blk F.CW_STATUS_KPH = !s.dev.flag blk F.CW_STATUS_KPH ∧
        (d.link n.val).lastTxId = some next ∧ d.linkState n.val = 2 ∧ d.mem = s.dev.mem ∧
        d.fld blk F.BLK_STATUS_LAST_STATUS = Status.ok.code)) ∧
    (st = 1 → (s.dev.link n.val).step = .sof → Completes (.sofRow n) s (fun d =>
        d.link n.val = { s.dev.link n.val with step := .frames } ∧ d.linkState n.val = 1 ∧ d.mem = s.dev.mem)) ∧
    (st = 1 → Becomes (.trainFail n) s ((s.dev.event blk 4).trainStart n.val)) ∧
    (st = 3 → Becomes (.relockTimeout n) s (s.dev.linkFall n.val false))

/-- R310, R311, R323 to R327: a row of TS1 or TS2 received in training (sixteen agreeing rows take training on), and frames: a replay goes before a new frame,
neither goes encrypted once SEQ has saturated or an enabled key is not ACTIVE, a frame whose CRC is wrong leaves a NAK to be sent once, a frame in its
turn is opened. -/
def Obligations.LinkReception : Prop :=
  (∀ (s : State) (n : Fin 16), OutputsShow s.dev → s.dev.linkState n.val = 1 →
    let l := s.dev.link n.val
    (∀ (blocks : List DWord) (skew : Nat) (pol : BitVec 8), l.step = .ts1 → skew ≤ 128 → blocks.length = 8 →
      (∀ k < 8, nfield (blocks.getD k 0).toNat 0 8 = 0x4B ∧ nfield (blocks.getD k 0).toNat 8 3 = k ∧
        nfield (blocks.getD k 0).toNat 11 4 = Nat.xor n.val 8 ∧ some (nfield (blocks.getD k 0).toNat 15 6) = s.dev.linkPeer n.val ∧
        nfield (blocks.getD k 0).toNat 24 8 = 1 ∧ nbit (blocks.getD k 0).toNat 32 = true) → l.ownAccept = true →
      Completes (.ts1Row n blocks skew pol) s (fun d =>
        (l.rows1 + 1 < 16 → (d.link n.val).step = .ts1 ∧ (d.link n.val).rows1 = l.rows1 + 1 ∧ (d.link n.val).ownAccept = true) ∧
        (16 ≤ l.rows1 + 1 → (d.link n.val).step = .ts2 ∧ (d.link n.val).ownAccept = false) ∧
        d.fld (B.CW n.val) F.CW_DELAY_SKEW = skew ∧ d.fld (B.CW n.val) F.CW_STATUS_LANE_POL = pol.toNat ∧ d.linkState n.val = 1)) ∧
    (∀ block : DWord, l.step = .ts2 → nfield block.toNat 0 8 = 0x55 → nbit block.toNat 43 = true → l.ownAccept = true → l.rows2 + 1 < 16 →
      nbit block.toNat 40 = s.dev.flag (B.CW n.val) F.CW_KEY_CFG_RX_EN → s.dev.flag (B.CW n.val) F.CW_KEY_CFG_RX_EN = false →
      s.dev.flag (B.CW n.val) F.CW_KEY_CFG_TX_EN = false → Completes (.ts2Row n block) s (fun d =>
        (d.link n.val).rows2 = l.rows2 + 1 ∧ (d.link n.val).step = .ts2 ∧ d.reg (B.CW n.val) O.CW_CREDIT = BitVec.ofNat 32 (block.toNat / 256) ∧
        d.flag (B.CW n.val) F.CW_STATUS_SHORT_CREDIT = (decide (nfield block.toNat 8 8 < 64) || decide (nfield block.toNat 24 8 < 64))))) ∧
  (∀ (s : State) (n : Fin 16), OutputsShow s.dev → s.dev.run.flagAt = none →
    let l := s.dev.link n.val
    let enc := s.dev.flag (B.CW n.val) F.CW_STATUS_ENC_ON
    s.dev.linkState n.val = 2 ∨ s.dev.linkState n.val = 1 ∧ (l.step = .sof ∨ l.step = .frames) →
    (enc = true → 2 ^ 64 - 1 ≤ l.nextSeq → Becomes (.frameSend n) s (s.dev.event B.MCE 6)) ∧
    (enc = true → l.nextSeq < 2 ^ 64 - 1 → s.dev.linkKeysActive n.val = false → Becomes (.frameSend n) s s.dev) ∧
    ((enc = true → l.nextSeq < 2 ^ 64 - 1 ∧ s.dev.linkKeysActive n.val = true) →
      (∀ (q : Nat) (k : KeptFrame), l.replayAt = some q → l.replay.find? (fun k => k.seq == q) = some k →
        Completes (.frameSend n) s (fun d => (d.link n.val).sent = k.blocks ∧ (d.link n.val).nextSeq = l.nextSeq ∧ d.mem = s.dev.mem)) ∧
      (l.replayAt = none → Becomes (.frameSend n) s (s.dev.frameNew n.val)))) ∧
  (∀ (s : State) (n : Fin 16), OutputsShow s.dev → s.dev.linkState n.val = 2 →
    let l := s.dev.link n.val
    (∀ (blocks : List DWord) (bad : List (Nat × Nat)), blocks.getD 39 0 ≠ BitVec.ofNat 64 (frameCrc blocks) → bad = [] →
      l.hdrBad = [] → l.failed = none → Completes (.frameReceive n blocks bad) s (fun d =>
        (d.link n.val).nak = true ∧ (d.link n.val).failed = some (l.expect, false) ∧ (d.link n.val).expect = l.expect ∧
        (d.link n.val).rx = l.rx ∧ d.mem = s.dev.mem)) ∧
    (∀ (blocks : List DWord) (bad : List (Nat × Nat)), blocks.length = 40 → blocks.getD 39 0 = BitVec.ofNat 64 (frameCrc blocks) →
      (blocks.getD 1 0).toNat = l.expect → bad = [] → l.hdrBad = [] →
      Becomes (.frameReceive n blocks bad) s ((s.dev.headerErrors n.val bad).1.frameOpen n.val blocks)))

/-- R83, R87, R332 to R337, R385, R507, R511: service messages on a link that is UP. -/
def Obligations.ServiceMessages : Prop :=
  ∀ (s : State) (n : Fin 16) (p : BitVec 56), OutputsShow s.dev → s.dev.linkState n.val = 2 →
    let from_ := p.toNat / 2 ^ 50 % 64
    let quiet (d : Dev) : Prop := d.mem = s.dev.mem ∧ d.hold = s.dev.hold ∧ d.ext = s.dev.ext
    (s.dev.flagCopy 1 p.toNat = false → s.dev.mode = .underway → s.dev.tide.policyFixed = true →
      let s1 := s.dev.sendFlag 1 p.toNat from_ (some n.val)
      s.dev.tide.num < s1.flagTide p.toNat → Becomes (.svcBreach n p) s ((s1.event B.TIDE 4).breachRecord 7 0 0)) ∧
    (s.dev.flagCopy 2 p.toNat = false → s.dev.mode = .underway →
      let s1 := s.dev.sendFlag 2 p.toNat from_ (some n.val)
      s.dev.tide.num < s1.flagTide p.toNat → Becomes (.svcHalt n p) s (s1.haltAt (s1.flagTide p.toNat) true 2)) ∧
    (s.dev.flagCopy 3 p.toNat = false → s.dev.mode = .anchored → s.dev.run.resumeAt = none →
      let s1 := s.dev.sendFlag 3 p.toNat from_ (some n.val)
      Becomes (.svcResume n p) s (s1.resumeSoon (s1.ns / resumeGrid * resumeGrid))) ∧
    Completes (.startA n p) s (fun d => d.link n.val = { s.dev.link n.val with gotA := some p.toNat } ∧ d.tide = s.dev.tide ∧ quiet d) ∧
    (∀ a, let time := a % 2 ^ 32 + 2 ^ 32 * (p.toNat % 2 ^ 32)
      (s.dev.link n.val).gotA = some a → s.dev.flag B.TIDE F.TIDE_CTRL_FOLLOW → s.dev.mode = .moored → s.dev.tide.armed = none →
      s.dev.tide.startSeen = some (time, s.dev.tideLen) → a / 2 ^ 32 % 2 ^ 17 = s.dev.tideLen → s.dev.tide.activated →
      Completes (.startB n p) s (fun d => d.tide = { s.dev.tide with armed := some time, started := true } ∧ d.mode = .moored ∧ quiet d)) ∧
    (p.toNat / 2 ^ 36 % 2 ^ 20 = (s.dev.tide.num + 1) % 2 ^ 20 → (∀ t ∈ s.dev.tide.turns, t.1 ≠ p.toNat / 2 ^ 36 % 2 ^ 20) →
      Completes (.svcTurn n p) s (fun d => d.link n.val = { s.dev.link n.val with turnRx := some p.toNat } ∧ d.tide = s.dev.tide ∧ quiet d)) ∧
    (∀ t, s.dev.tide.turns.find? (fun t => t.1 == p.toNat / 2 ^ 36 % 2 ^ 20) = some t →
      Becomes (.svcTurn n p) s (s.dev.turnCompare n.val p.toNat t.2)) ∧
    Becomes (.sync n p) s (((s.dev.setLink n.val { s.dev.link n.val with t3 := some p.toNat, t4 := some s.dev.t56 }).svcPend n.val 8
      s.dev.t56).linkMeasure n.val) ∧
    Becomes (.syncRx n p) s ((s.dev.setLink n.val { s.dev.link n.val with t2 := some p.toNat }).linkMeasure n.val) ∧
    (s.dev.stSrc = 3 → s.dev.fld B.ETH F.ST_CTRL_LINK = n.val → s.dev.flag B.ETH F.ST_STAT_VALID = false → Completes (.epoch n p) s (fun d =>
      d.eth.time / 2 ^ 40 = p.toNat ∧ d.flag B.ETH F.ST_STAT_VALID = true ∧ d.free = s.dev.free + 1 ∧ quiet d))

/-! ### Jetty ports (chapter 10) -/

/-- R346, R358, R363: what a receiver decoded, its entry to SYNC and its return to HUNT, the lock of the jetty PLL. -/
def Obligations.JettyReceivers : Prop :=
  ∀ (s : State) (p : Fin 256), OutputsShow s.dev → s.dev.mode ≠ .quarantine →
    let x := s.dev.port p.val
    let blk := portBlock p.val
    (s.dev.portOn p.val → x.sync = true →
      Becomes (.jettyFrameReceive p .codeFault) s
        (((s.dev.setPort p.val { x with codeCnt := satAdd 16 x.codeCnt 1, faults := x.faults ++ [(s.dev.tide.count, 3)] }).classC blk).event blk 0) ∧
      (∀ (f : JFrame) (crc : BitVec 16), crc ≠ f.crc → Becomes (.jettyFrameReceive p (.frame f crc)) s
        (((s.dev.setPort p.val { x with crcCnt := satAdd 16 x.crcCnt 1, faults := x.faults ++ [(s.dev.tide.count, 2)] }).classC blk).event blk 0)) ∧
      (∀ f : JFrame, f.type ≠ 1 → f.type ≠ 3 → Becomes (.jettyFrameReceive p (.frame f f.crc)) s
        ((s.dev.setPort p.val { x with formatCnt := satAdd 16 x.formatCnt 1, faults := x.faults ++ [(s.dev.tide.count, 4)] }).event blk 1)) ∧
      (∀ f : JFrame, s.dev.ergRuns (p.val / 8) → x.rx ≠ [] → f.type = 1 ∨ f.type = 3 ∧ f.payload.toNat % 16 ≠ 15 →
        Completes (.jettyFrameReceive p (.frame f f.crc)) s (fun d =>
          d.port p.val = { x with fresh := x.fresh ++ [(s.dev.tide.count, f)] } ∧ d.regs = s.dev.regs ∧ d.mem = s.dev.mem)) ∧
      (∀ f : JFrame, s.dev.ergRuns (p.val / 8) → x.rx ≠ [] → f.type = 3 → f.payload.toNat % 16 = 15 →
        Becomes (.jettyFrameReceive p (.frame f f.crc)) s
          ((s.dev.event blk 1).setPort p.val { x with fresh := x.fresh ++ [(s.dev.tide.count, { f with payload := f.payload - 3 })] })) ∧
      (∀ f : JFrame, f.type = 1 → s.dev.ergRuns (p.val / 8) = false ∨ x.rx = [] → Completes (.jettyFrameReceive p (.frame f f.crc)) s (fun d =>
          d.port p.val = { x with overrunCnt := satAdd 16 x.overrunCnt 1 } ∧ d.fab = s.dev.fab ∧ d.mem = s.dev.mem)) ∧
      Becomes (.syncLost p) s ((s.dev.setPort p.val { x with sync := false, syncLostCnt := satAdd 16 x.syncLostCnt 1 }).event blk 2)) ∧
    (s.dev.portOn p.val → Completes (.rxSync p) s (fun d =>
      d.port p.val = { x with sync := true } ∧ (∀ q ≠ p.val, d.port q = s.dev.port q) ∧ d.regs = s.dev.regs ∧ d.mem = s.dev.mem)) ∧
    Completes .jettyPllLock s (fun d => d.clk = { s.dev.clk with jettyLock := true } ∧ d.mem = s.dev.mem ∧
      ∀ q, d.port q = { s.dev.port q with txSrc := d.portSource q }) ∧
    Completes .jettyPllLockLost s (fun d => d.clk = { s.dev.clk with jettyLock := false } ∧ d.mem = s.dev.mem ∧
      ∀ q, d.port q = { s.dev.port q with sync := false, txSrc := .idle })

/-- R132, R133, R347, R348, R350, R354 to R357, R359, R361 to R363: receive slots, transmit slots and mooring frames, and the symbols of a frame. -/
def Obligations.JettySlots : Prop :=
  ∀ (s : State) (p : Fin 256) (idx : Fin 16) (e : SlotEntry), OutputsShow s.dev →
    let x := s.dev.port p.val
    let blk := portBlock p.val
    let runs := ¬ 0 ∈ s.dev.clk.applying ∧ s.dev.mode = .underway ∧ s.dev.ergRuns (p.val / 8) = true
    (∀ delay num, runs → x.rx[idx.val]? = some e → s.dev.gated blk = false → num % e.period = e.phase → delay ≤ 16 →
      (s.dev.tide.tick ≤ e.tick ∧ delay = e.tick - s.dev.tide.tick ∧ num = s.dev.tide.num) ∨
        (e.tick < s.dev.tide.tick ∧ delay = s.dev.tideLen - s.dev.tide.tick + e.tick ∧ num = s.dev.tide.num + 1) →
      let slot := s.dev.tide.count + delay
      let inTime (n : Nat) : Bool := decide (n + 16 + s.dev.edgePhase.1 ≤ slot)
      let got := x.fresh.filter (fun f => inTime f.1)
      let x1 : PortSt := { x with fresh := x.fresh.filter (fun f => !inTime f.1), faults := x.faults.filter (fun f => !inTime f.1), rxDone := slot + 1 }
      let lay (d : Dev) (f : Option JFrame) : Prop := Map.get (fun _ => []) d.fab.rxIn p.val =
        layBurst (Map.get (fun _ => []) s.dev.fab.rxIn p.val) delay (rxBurst f)
      x.rxDone ≤ slot →
      (∀ f, got.getLast? = some f → Completes (.receiveSlot p idx) s (fun d => lay d (some f.2) ∧
        d.port p.val = { x1 with overrunCnt := satAdd 16 x.overrunCnt (got.length - 1) } ∧ d.mem = s.dev.mem)) ∧
      (got = [] → Completes (.receiveSlot p idx) s (fun d => lay d none ∧ d.port p.val = { x1 with
        noframeWhy := if x.sync then (((x.faults.filter (fun f => inTime f.1)).getLast?.map (·.2)).getD 1) else 5,
        noframeCnt := satAdd 16 x.noframeCnt 1 } ∧ d.mem = s.dev.mem))) ∧
    (let stamp := s.dev.tide.count - 1
     let s0 := s.dev.xingPush (17664 + p.val) stamp 16 (.burst p.val)
     let b (k : Nat) : Nat := (s.dev.txBurst p.val).getD k 0
     let type := nfield (b 2) 20 4
     let good := nbit (b 0) 31 = true ∧ (∀ k < 4, nbit (b k) 30 = true) ∧ (type = 1 ∨ type = 3)
     let i := x.next % x.moor.count
     let m : JFrame := ⟨2, BitVec.ofNat 4 i, 0xD, x.moor.payloads.getD i 0⟩
     let f := JFrame.noF ⟨BitVec.ofNat 4 type, BitVec.ofNat 4 idx.val, BitVec.ofNat 16 s.dev.tide.num,
       BitVec.ofNat 80 (nfield (b 0) 0 30 + 2 ^ 30 * nfield (b 1) 0 30 + 2 ^ 60 * nfield (b 2) 0 20)⟩
     runs → s.dev.tide.num % e.period = e.phase → x.tx[idx.val]? = some e → s.dev.tide.tick = e.tick + 4 →
      (∀ y ∈ Map.get (fun _ => []) s.dev.tide.xing (17664 + p.val), y.stamp ≠ stamp) →
      (∀ t, x.moorAt = some t → s.dev.lineTaken t (s.dev.tide.count - 4) = true →
        Becomes (.transmitSlot p idx) s (s0.setPort p.val { x with skipCnt := satAdd 16 x.skipCnt 1 })) ∧
      ((∀ t, x.moorAt = some t → s.dev.lineTaken t (s.dev.tide.count - 4) = false) →
        (good → Becomes (.transmitSlot p idx) s (s0.setPort p.val { x with lastSlot := some f, leaving := x.leaving ++ [(stamp, f)] })) ∧
        (nbit (b 0) 30 = false → x.skipMoor = false →
          Becomes (.transmitSlot p idx) s (s0.setPort p.val { x with skipCnt := satAdd 16 x.skipCnt 1 })) ∧
        (nbit (b 0) 30 = true → ¬ good → x.skipMoor = false →
          Becomes (.transmitSlot p idx) s ((s0.setPort p.val { x with txFormatCnt := satAdd 16 x.txFormatCnt 1 }).event blk 4)) ∧
        (nbit (b 0) 30 = false → x.skipMoor = true → x.moor.count ≠ 0 → Becomes (.transmitSlot p idx) s (s0.setPort p.val { x with
          skipCnt := satAdd 16 x.skipCnt 1, leaving := x.leaving ++ [(stamp, m)], lastSlot := some m, next := i + 1, reason := 0xD })))) ∧
    (x.txSrc = .generator → x.moor.anchorHold = false → x.moor.count ≠ 0 → Completes (.mooringFrame p) s (fun d =>
      let i := x.next % x.moor.count
      let reason := s.dev.moorReason p.val
      d.port p.val = { x with
        sent := JFrame.symbols ⟨2, BitVec.ofNat 4 i, BitVec.ofNat 16 reason, x.moor.payloads.getD i 0⟩, next := i + 1, reason,
        moorAt := some s.dev.tide.count } ∧ d.regs = s.dev.regs ∧ d.mem = s.dev.mem)) ∧
    (∀ f, x.txSrc = .generator → x.moor.anchorHold = true → s.dev.mode = .anchored → s.dev.ergRuns (p.val / 8) = true → x.lastSlot = some f →
      Completes (.mooringFrame p) s (fun d =>
        d.port p.val = { x with sent := f.symbols, moorAt := some s.dev.tide.count } ∧ d.mem = s.dev.mem)) ∧
    (∀ stamp f, x.leaving.find? (fun y => y.1 == stamp) = some f → s.dev.burstLeaves p.val stamp =
      s.dev.setPort p.val { x with leaving := x.leaving.filter (fun y => y.1 != stamp), sent := f.2.symbols }) ∧
    (∀ f : JFrame, f.symbols.length = 16 ∧ (f.symbols.drop 14).map (·.octet) = [f.crc.extractLsb' 8 8, f.crc.extractLsb' 0 8])

/-! ### The host port, lighters, Ethernet, station time, the CSP port (chapter 11) -/

/-- R233, R250, R367 to R369, R371, R372, R388, R390, R412, R413, R440: requests of the host, messages of vectors, the link's loss and training; transfers at the CSP
pins. -/
def Obligations.HostAndCspPorts : Prop :=
  (∀ s : State, OutputsShow s.dev → s.dev.mode ≠ .quarantine →
    (s.dev.hostLinkUp →
      let k := s.dev.pcie.next
      let taken (t : Tlp) : Dev := { s.dev.setTlp k (some t) with
        pcie := { (s.dev.setTlp k (some t)).pcie with next := (k + 1) % 65536, waiting := s.dev.pcie.waiting ++ [k] } }
      let fits (bar : Fin 3) (off : BitVec 40) (len : Nat) : Prop :=
        s.dev.halted B.PCIE = true → s.dev.hostParked + (hostPieces bar.val (barBase bar.val + off.toNat) len).length ≤ heldRoom
      (∀ (bar : Fin 3) (off : BitVec 40) (len : Fin 4097), len.val ≠ 0 → off.toNat + len.val ≤ s.dev.barSize bar.val →
        (fits bar off len.val → Becomes (.hostReadTlp bar off len) s
          ((taken { isRead := true, bar := bar.val, addr := barBase bar.val + off.toNat, len := len.val, data := [] }).hostPump 256)) ∧
        (s.dev.halted B.PCIE → s.dev.pcie.waiting = [] → Completes (.hostReadTlp bar off len) s (fun d =>
          d.pcie.waiting = [k] ∧ d.net = s.dev.net ∧ d.regs = s.dev.regs ∧ d.mem = s.dev.mem)) ∧
        (¬ fits bar off len.val → Completes (.hostReadTlp bar off len) s (fun d =>
          d.pcie.waiting = s.dev.pcie.waiting ∧ d.fld B.PCIE F.PCIE_ERR_STATUS = Status.busy.code ∧ d.net = s.dev.net ∧ d.mem = s.dev.mem))) ∧
      (∀ (bar : Fin 3) (off : BitVec 40) (data : List Byte), data ≠ [] → data.length ≤ pciePayload →
        off.toNat + data.length ≤ s.dev.barSize bar.val → fits bar off data.length → Becomes (.hostWriteTlp bar off data) s
          ((taken { isRead := false, bar := bar.val, addr := barBase bar.val + off.toNat, len := data.length, data }).hostPump 256))) ∧
    (∀ v : Fin 256, s.dev.pcie.owed.contains v.val → s.dev.gated B.PCIE = false → s.dev.hostLinkUp →
      let word (k : Nat) : Word := Map.get msixReset s.dev.pcie.table (4 * v.val + k)
      (nbit (word 3).toNat 0 = true → Completes (.msixMessage v) s (fun d =>
        v.val ∈ d.pcie.pba ∧ d.pcie.sent = s.dev.pcie.sent ∧ d.mem = s.dev.mem)) ∧
      (nbit (word 3).toNat 0 = false → Completes (.msixMessage v) s (fun d =>
        d.pcie.sent = some ((word 0).toNat + 2 ^ 32 * (word 1).toNat, word 2) ∧ d.mem = s.dev.mem))) ∧
    Completes .pcieLinkDown s (fun d => d.hostLinkUp = false ∧ d.pcie.tlps = [] ∧ d.pcie.tags = [] ∧ d.pcie.waiting = [] ∧
      d.flag B.PCIE { off := O.EVT_STATUS, lo := 1, w := 1 } = true ∧ d.mem = s.dev.mem) ∧
    (∀ (gen : Fin 3) (width : Fin 4) (bar4 : Fin 6), Completes (.pcieLinkUp gen width bar4) s (fun d =>
      d.fld B.PCIE F.PCIE_LINK_SPEED = 4 + gen.val ∧ d.fld B.PCIE F.PCIE_LINK_WIDTH = [1, 4, 8, 16].getD width.val 1 ∧
      d.flag B.PCIE F.PCIE_LINK_FLIT = (gen == 2) ∧ d.fld B.PCIE F.PCIE_LINK_BAR4_SIZE = bar4.val ∧ d.mem = s.dev.mem))) ∧
  (∀ s : State, OutputsShow s.dev → s.dev.cspOn →
    (∀ words st s1, s.dev.streamData .csp none (wordBytes words) true = some (st, s1) →
      Becomes (.cspStream words) s { s1 with reply := some ⟨st, 0⟩ }) ∧
    (∀ (idx : BitVec 22) (data : Word), s.dev.freeTag .csp = none → Becomes (.cspRegRead idx) s s.dev ∧ Becomes (.cspRegWrite idx data) s s.dev) ∧
    (∀ (idx : BitVec 22) (data : Word) (t : Nat), s.dev.freeTag .csp = some t →
      let a := regWindow + 4 * idx.toNat
      Becomes (.cspRegRead idx) s (s.dev.request { src := .csp, tag := t, op := 1, addr := a, len := 4, data := [], dst := s.dev.destNode a }) ∧
      Becomes (.cspRegWrite idx data) s
        (s.dev.request { src := .csp, tag := t, op := 2, addr := a, len := 4, data := leBytes 4 data.toNat, dst := s.dev.destNode a })) ∧
    Completes .cspStatus s (fun d => d.reply = some ⟨.ok, s.dev.cspStat⟩ ∧ d.regs = s.dev.regs ∧ d.mem = s.dev.mem) ∧
    (∀ (c : Word) (ws : List Word), c.toNat / 2 ^ 28 ≠ 1 → Completes (.cspErr (c :: ws)) s (fun d =>
      d.fld B.CSP F.CSP_STAT_ERR_CNT = satAdd 16 (s.dev.fld B.CSP F.CSP_STAT_ERR_CNT) 1 ∧ d.cfg = s.dev.cfg ∧ d.mem = s.dev.mem)))

/-- R372 to R377, R381: the commands of a lighter channel in its states IDLE, RUNNING, ERROR and STOPPED; it fetches a descriptor, and host memory answers
its pieces, or leaves it to its timeout while the link is down. -/
def Obligations.Lighters : Prop :=
  (∀ (s : State) (src : RegSrc) (n : Fin 16) (data : Word),
    let st := s.dev.lgtState n.val
    let en (d : Dev) : Bool := d.flag B.LGT (F.LGT_CFG_EN n.val)
    let last (d : Dev) : Nat := d.fld B.LGT F.BLK_STATUS_LAST_STATUS
    (s.dev.writes src B.LGT (O.LGT_PROD n.val) data → data.toNat % 4096 < s.dev.lgtRing n.val → Completes (.lgtProd src n data) s (fun d =>
        d.lgtProd n.val = data.toNat % 4096 ∧ d.mem = s.dev.mem ∧ d.lgtState n.val =
          if st = 0 ∧ en s.dev ∧ s.dev.lgtMode n.val ≠ 1 ∧ data.toNat % 4096 ≠ s.dev.lgtCons n.val then 1 else st)) ∧
    (s.dev.writes src B.LGT (O.LGT_CMD n.val) (withField data 0 2 1) →
      (st = 0 ∨ st = 3 ∨ (st = 1 ∧ (s.dev.lgt n.val).phase = .idle) → Completes (.lgtStop src n data) s (fun d =>
        d.lgtState n.val = 3 ∧ d.lgtCons n.val = s.dev.lgtCons n.val ∧ last d = Status.ok.code ∧ d.mem = s.dev.mem)) ∧
      (st = 1 → (s.dev.lgt n.val).phase ≠ .idle → Completes (.lgtStop src n data) s (fun d =>
        d.lgtState n.val = 1 ∧ d.lgt n.val = { s.dev.lgt n.val with stopping := true } ∧ last d = Status.ok.code ∧ d.mem = s.dev.mem)) ∧
      (st = 2 → Completes (.lgtStop src n data) s (fun d => d.lgtState n.val = 3 ∧
        d.lgtCons n.val = (s.dev.lgtCons n.val + 1) % s.dev.lgtRing n.val ∧ last d = Status.ok.code ∧ d.mem = s.dev.mem))) ∧
    (s.dev.writes src B.LGT (O.LGT_CMD n.val) (withField data 0 2 2) →
      (st = 2 → Becomes (.lgtClear src n data) s ((((s.dev.lgtStep n.val).setLgtState n.val 0).lgtKick n.val).finish B.LGT .ok).okReply) ∧
      (st = 3 → Becomes (.lgtClear src n data) s (((s.dev.setLgtState n.val 0).lgtKick n.val).finish B.LGT .ok).okReply) ∧
      (st = 0 ∨ st = 1 → Becomes (.lgtClear src n data) s (s.dev.finish B.LGT .state).okReply)) ∧
    (s.dev.writes src B.LGT (O.LGT_CFG n.val) data →
      (st = 1 ∨ st = 2 → Becomes (.lgtCfg src n data) s (s.dev.refuse B.LGT).okReply) ∧
      (st = 0 → Becomes (.lgtCfg src n data) s ((s.dev.storeReg B.LGT (O.LGT_CFG n.val) data).lgtKick n.val).okReply) ∧
      (st = 3 → nbit data.toNat 12 = false → Completes (.lgtCfg src n data) s (fun d =>
        d.lgtState n.val = 3 ∧ en d = false ∧ d.mem = s.dev.mem)))) ∧
  (∀ (s : State) (n : Fin 16) (host : List Byte),
    let l := s.dev.lgt n.val
    s.dev.mode ≠ .quarantine → s.dev.halted B.LGT = false → s.dev.gated B.LGT = false → s.dev.lgtState n.val = 1 →
    (s.dev.lgtMode n.val = 0 → l.phase = .idle → s.dev.lgtProd n.val ≠ s.dev.lgtCons n.val →
      (s.dev.flag B.LGT (F.LGT_CFG_RING_HOST n.val) = true →
        (host.length = 32 → s.dev.hostLinkUp → Becomes (.lighterDescriptor n host) s (s.dev.lgtDescriptor n.val host)) ∧
        (s.dev.hostLinkUp = false → Becomes (.lighterDescriptor n host) s
          (s.dev.setLgt n.val { l with phase := .fetch, hostWait := some s.dev.clk.time }))) ∧
      (s.dev.flag B.LGT (F.LGT_CFG_RING_HOST n.val) = false →
        Becomes (.lighterDescriptor n host) s (s.dev.lgtOne n.val .fetch 1 (s.dev.lgtEntry n.val) 32 []))) ∧
    (∀ (off : Nat) (a : HostAnswer) (p : LgtPiece), l.hostWait = none → s.dev.hostAnswers a p.since →
      l.pieces.find? (fun p => p.off == off && ((p.stage == .reading && l.srcHost) || (p.stage == .writing && l.dstHost && a == .timeout))) = some p →
      Becomes (.lighterPieceDone n off a) s (s.dev.pieceAnswer n.val p a.status
        (match a with | .data b => (b ++ List.replicate (p.len - b.length) 0).take p.len | _ => []))) ∧
    (∀ (off since : Nat), l.hostWait = some since → s.dev.hostLate since →
      Becomes (.lighterPieceDone n off .timeout) s ((s.dev.setLgt n.val { l with hostWait := none }).lgtError n.val .timeout)) ∧
    (s.dev.lgtMode n.val = 2 → l.phase = .idle → s.dev.lgtProd n.val ≠ s.dev.lgtCons n.val → s.dev.gated B.ETH = false →
      s.dev.flag B.ETH (F.ETH_CFG_EN (s.dev.fld B.LGT (F.LGT_CFG_PORT n.val))) = true →
      Becomes (.ethTxSlot n) s (s.dev.lgtOne n.val .txHead 1 (s.dev.lgtEntry n.val) 32 [])))

/-- R378, R380, R382: Ethernet frames received, and taken to the ring; a change of a port's link. -/
def Obligations.EthernetPorts : Prop :=
  ∀ (s : State) (p : Fin 4) (f : List Byte), OutputsShow s.dev → s.dev.mode ≠ .quarantine →
    let q := Map.get (fun _ => []) s.dev.eth.rx p.val
    (s.dev.flag B.ETH (F.ETH_CFG_EN p.val) = true → s.dev.gated B.ETH = false →
      (Becomes (.ethFrameReceive p f false) s (s.dev.count B.ETH (F.ETH_CNT_BAD_CNT p.val))) ∧
      (60 ≤ f.length → f.length ≤ 9212 → s.dev.ethTakes p.val f = true →
        (65536 < (q.map (fun x => x.data.length)).sum + f.length → Becomes (.ethFrameReceive p f true) s
          ((s.dev.count B.ETH (F.ETH_CNT_FULL_CNT p.val)).event B.ETH (4 + p.val))) ∧
        ((q.map (fun x => x.data.length)).sum + f.length ≤ 65536 →
          Completes (.ethFrameReceive p f true) s (fun d => d.regs = s.dev.regs ∧ d.mem = s.dev.mem ∧
            Map.get (fun _ => []) d.eth.rx p.val =
              q ++ [{ data := f, ptp := (ptpAt f).isSome, ns := s.dev.ns, frac := s.dev.eth.time % 2 ^ 32 }])))) ∧
    (∀ (n : Fin 16) (e : EthFrame) (rest : List EthFrame), s.dev.fld B.LGT (F.LGT_CFG_PORT n.val) = p.val → s.dev.lgtState n.val < 2 →
      s.dev.flag B.LGT (F.LGT_CFG_EN n.val) = true → s.dev.lgtMode n.val = 1 → (s.dev.lgt n.val).phase = .idle → s.dev.halted B.LGT = false →
      s.dev.gated B.LGT = false → q = e :: rest → (s.dev.lgtCons n.val + 1) % s.dev.lgtRing n.val = s.dev.lgtProd n.val →
      Becomes (.ethRxDeliver n) s ((({ s.dev with eth := { s.dev.eth with
        rx := Map.set (fun _ => []) s.dev.eth.rx p.val rest } }).count B.ETH (F.ETH_CNT_FULL_CNT p.val)).event B.ETH (4 + p.val))) ∧
    (∀ (n : Fin 16) (e : EthFrame) (rest : List EthFrame), s.dev.fld B.LGT (F.LGT_CFG_PORT n.val) = p.val → s.dev.lgtState n.val < 2 →
      s.dev.flag B.LGT (F.LGT_CFG_EN n.val) = true → s.dev.lgtMode n.val = 1 → (s.dev.lgt n.val).phase = .idle → s.dev.halted B.LGT = false →
      s.dev.gated B.LGT = false → q = e :: rest → (s.dev.lgtCons n.val + 1) % s.dev.lgtRing n.val ≠ s.dev.lgtProd n.val →
      32 + e.data.length ≤ 2 ^ s.dev.fld B.LGT (F.LGT_CFG_SLOT_LOG2 n.val) →
      let s1 : Dev := { s.dev with eth := { s.dev.eth with rx := Map.set (fun _ => []) s.dev.eth.rx p.val rest } }
      Becomes (.ethRxDeliver n) s (((s1.setLgtState n.val 1).setLgt n.val { s.dev.lgt n.val with
        phase := .rxBody, src := 0, dst := s.dev.lgtEntry n.val + 32, len := e.data.length, srcHost := true, dstHost := false, next := 0,
        pieces := [], bad := none, tag := none, head := e.data,
        slot := slotHeader e.data.length (1 + 2 * e.ptp.toNat) e.ns e.frac }).lgtPump n.val)) ∧
    (∀ up : Bool, Becomes (.linkChg p up) s (s.dev.ethLinkChg p.val up))

/-- R383 to R386, R390: station time: its step, the latches of its reads, the pulses. -/
def Obligations.StationTime : Prop :=
  ∀ (s : State) (src : RegSrc) (data : Word) (peek : Bool), src.peeks peek = false →
    let v := s.dev.reg64 B.ETH O.ST_STEP_LO O.ST_STEP_HI
    let last (d : Dev) : Nat := d.fld B.ETH F.BLK_STATUS_LAST_STATUS
    (let w := withField data 8 1 1
     s.dev.writes src B.ETH O.ST_CTRL w →
      (s.dev.mode = .underway ∨ s.dev.tide.armed.isSome → Completes (.stStep src data) s (fun d =>
        d.eth.time = s.dev.eth.time ∧ last d = Status.state.code ∧ d.mem = s.dev.mem)) ∧
      (s.dev.mode ≠ .underway → s.dev.tide.armed = none → s.dev.tide.started = false →
        (s.dev.flag B.ETH F.ST_STAT_VALID = false → Completes (.stStep src data) s (fun d =>
          d.ns = v ∧ d.flag B.ETH F.ST_STAT_VALID = true ∧ last d = Status.ok.code ∧ d.mem = s.dev.mem)) ∧
        (s.dev.flag B.ETH F.ST_STAT_VALID = true → Completes (.stStep src data) s (fun d =>
          (d.eth.time : Int) = ((s.dev.eth.time : Int) + (BitVec.ofNat 64 v).toInt * 2 ^ 32) % 2 ^ 96 ∧
          last d = Status.ok.code ∧ d.mem = s.dev.mem)))) ∧
    (s.dev.reads src B.ETH O.ST_NOW_LO → Becomes (.stNowLoRead src peek) s
      (((s.dev.setReg B.ETH O.ST_NOW_HI (BitVec.ofNat 32 (s.dev.ns / 2 ^ 32))).setReg B.ETH O.ST_NOW_FRAC
        (BitVec.ofNat 32 s.dev.eth.time)).okReply (BitVec.ofNat 32 s.dev.ns))) ∧
    (s.dev.reads src B.ETH O.ST_PPS_CAP_LO → Becomes (.stPpsCapLoRead src peek) s
      ((s.dev.setReg B.ETH O.ST_PPS_CAP_HI (BitVec.ofNat 32 (s.dev.eth.ppsCap / 2 ^ 32))).okReply (BitVec.ofNat 32 s.dev.eth.ppsCap))) ∧
    (s.dev.flag B.ETH F.ST_PPS_CFG_IN_EN = true → s.dev.stSrc ≠ 2 → Becomes .ppsIn s
      ({ s.dev with eth := { s.dev.eth with ppsCap := s.dev.ns } }.event B.ETH 8)) ∧
    (∀ past : Nat, s.dev.flag B.ETH F.ST_PPS_CFG_IN_EN = true → s.dev.stSrc = 2 → s.dev.eth.time % (1000000000 * 2 ^ 32) = past →
      2 * past < 1000000000 * 2 ^ 32 → Becomes .ppsIn s
        (({ s.dev with eth := { s.dev.eth with ppsCap := s.dev.ns } }.event B.ETH 8).servo (-(past : Int)) 500000000)) ∧
    Completes .ppsOut s (fun d => d.eth.ppsOut = (s.dev.mode != .aground && s.dev.flag B.ETH F.ST_PPS_CFG_OUT_EN &&
      decide (s.dev.ns % 1000000000 < s.dev.fld B.ETH F.ST_PPS_CFG_WIDTH * 1000000)) ∧ d.eth.time = s.dev.eth.time ∧ d.mem = s.dev.mem)

/-! ### Images, planes and the shoal map (chapters 01, 04, 12) -/

/-- R397, R412 to R414, R416, R421: bytes of the image stream, the commands of CFG_CMD in the states of the pipeline (IDLE 0, LOADING 1, CHECKING 2,
STAGED 3, COMMITTED 4, PROGRAMMING 5), and the end of a signature's verification. -/
def Obligations.ImagePipeline : Prop :=
  (∀ (s : State) (src : RegSrc) (data : Word),
    let pipe := s.dev.pipe
    let idle (d : Dev) : Prop := d.pipe = 0 ∧ d.cfg.commit = none ∧ d.cfg.buf = [] ∧ d.fld B.CFG F.BLK_STATUS_LAST_STATUS = Status.ok.code
    let turned (c : Instr) : Prop := Becomes c s (s.dev.finish B.CFG .state).okReply
    (∀ (aperture : Option (BitVec 12)) (bytes : List Byte) (last : Bool) (st : Status) (d : Dev), s.dev.halted B.CFG = false →
      s.dev.streamData src.src (aperture.map BitVec.toNat) bytes last = some (st, d) →
      Becomes (.streamData src aperture bytes last) s { d with reply := some ⟨st, 0⟩ }) ∧
    (s.dev.writes src B.CFG O.CFG_CMD (withField data 0 3 1) →
      (pipe = 0 → Becomes (.cfgAbort src data) s (s.dev.finish B.CFG .ok).okReply) ∧
      (pipe = 1 → Completes (.cfgAbort src data) s (fun d => idle d ∧ d.fld B.CFG F.CFG_RESULT_STATUS = Status.state.code ∧
        d.flag B.CFG F.CFG_RESULT_VALID = true ∧ d.mem = s.dev.mem)) ∧
      (pipe = 5 → Completes (.cfgAbort src data) s (fun d => idle d ∧ d.mem = s.dev.mem)) ∧
      (pipe = 2 ∨ pipe = 3 ∨ pipe = 4 → turned (.cfgAbort src data))) ∧
    (s.dev.writes src B.CFG O.CFG_CMD (withField data 0 3 2) →
      (pipe = 3 → ∀ st d, s.dev.commitImage = (st, d) → Becomes (.cfgActivate src data) s (d.finish B.CFG st).okReply) ∧
      (pipe ≠ 3 → turned (.cfgActivate src data))) ∧
    (s.dev.writes src B.CFG O.CFG_CMD (withField data 0 3 3) →
      (pipe = 3 → Completes (.withdraw src data) s (fun d => idle d ∧ d.fld B.CFG F.CFG_RESULT_STATUS = Status.state.code ∧ d.mem = s.dev.mem)) ∧
      (pipe ≠ 3 → turned (.withdraw src data))) ∧
    (let w := withField data 0 3 4
     let slot := nfield w.toNat 3 2
     s.dev.writes src B.CFG O.CFG_CMD w → slot = 1 ∨ slot = 2 →
      (pipe = 0 → s.dev.mode = .moored ∨ s.dev.mode = .underway → Completes (.program src data) s (fun d =>
        d.pipe = 5 ∧ d.cfg.slot = slot ∧ d.cfg.written = [] ∧ d.ergs = s.dev.ergs ∧ d.mem = s.dev.mem ∧
        d.fld B.CFG F.BLK_STATUS_LAST_STATUS = Status.ok.code)) ∧
      (pipe ≠ 0 ∨ (s.dev.mode ≠ .moored ∧ s.dev.mode ≠ .underway) → turned (.program src data)))) ∧
  (∀ (s : State) (g : List Byte), s.dev.cfg.sigWait = some g → s.dev.booting = false → s.dev.mode ≠ .quarantine →
    (s.dev.sigGood g = false → Becomes .signatureVerified s
      ({ s.dev with cfg := { s.dev.cfg with sigWait := none, expect := .digest } }.imageFails .auth 3 0)) ∧
    (∀ h, s.dev.sigGood g = true → s.dev.programming = false → s.dev.freeHandle = some h → s.dev.cfg.coming.recordCount ≠ 0 → s.dev.cfg.buf = [] →
      Completes .signatureVerified s (fun d => d.cfg.coming = { s.dev.cfg.coming with handle := h } ∧ d.cfg.expect = .digest ∧
        d.cfg.sigWait = none ∧ d.mem = s.dev.mem)))

/-- R33, R150, R151, R155, R158, R162, R164, R165, R170: the plane commands of an erg, the largest count of switches. -/
def Obligations.PlaneCommands : Prop :=
  ∀ (s : State) (src : RegSrc) (e : Fin 32) (data : Word) (peek : Bool),
    let blk := B.ERG e.val
    let ok (d : Dev) : Prop := d.fld blk F.BLK_STATUS_LAST_STATUS = Status.ok.code ∧ d.mem = s.dev.mem
    let turned (c : Instr) : Prop := Becomes c s (s.dev.finish blk .state).okReply
    let named (w : Word) : Prop := nfield w.toNat 4 3 = 7
    let st := (s.dev.slot e.val 7).st
    (s.dev.writes src blk O.ERG_PLANE_CMD (withField data 0 4 1) → s.dev.slackNext e.val = true → turned (.fence src e data)) ∧
    (s.dev.writes src blk O.ERG_PLANE_CMD (withField data 0 4 1) → s.dev.slackNext e.val = false →
      ((s.dev.erg e.val).mode = .running → s.dev.pendOf e.val = .none → s.dev.mode = .underway → Completes (.fence src e data) s (fun d =>
        d.erg e.val = { s.dev.erg e.val with pend := .fence s.dev.commitTurn } ∧ ok d)) ∧
      ((s.dev.erg e.val).mode = .fenced → s.dev.pendOf e.val = .none → s.dev.planeMode = true → Completes (.fence src e data) s (fun d =>
        d.erg e.val = s.dev.erg e.val ∧ ok d)) ∧
      ((s.dev.erg e.val).mode = .unscheduled → turned (.fence src e data))) ∧
    (let w := withField data 0 4 2
     let p := nfield w.toNat 4 3
     s.dev.writes src blk O.ERG_PLANE_CMD w → s.dev.planeMode = true →
      ((s.dev.slot e.val p).st = .free → Becomes (.release src e data) s (s.dev.finish blk .ok).okReply) ∧
      ((s.dev.slot e.val p).st = .loading ∨ (s.dev.slot e.val p).st = .staged →
        Becomes (.release src e data) s (s.dev.imageReleased.finish blk .ok).okReply) ∧
      ((s.dev.slot e.val p).st ≠ .free → (s.dev.slot e.val p).st ≠ .loading → (s.dev.slot e.val p).st ≠ .staged → turned (.release src e data))) ∧
    (let w := withField data 0 4 3
     s.dev.writes src blk O.ERG_PLANE_CMD w →
      (named w → s.dev.planeMode = true → st = .free → Completes (.lend src e data) s (fun d => (d.slot e.val 7).st = .lent ∧ ok d)) ∧
      (named w → s.dev.planeMode = true → st = .lent → Completes (.lend src e data) s (fun d => d.erg e.val = s.dev.erg e.val ∧ ok d)) ∧
      (named w → s.dev.planeMode = true → st ≠ .free → st ≠ .lent → turned (.lend src e data)) ∧
      (¬ named w → Becomes (.lend src e data) s (s.dev.finish blk .range).okReply)) ∧
    (let w := withField data 0 4 4
     s.dev.writes src blk O.ERG_PLANE_CMD w →
      (named w → s.dev.planeMode = true → st = .lent → (s.dev.inDock e.val).isSome → Completes (.recall src e data) s (fun d =>
        (d.slot e.val 7).st = .recalling ∧ ok d)) ∧
      (named w → s.dev.planeMode = true → st = .lent → s.dev.inDock e.val = none → Completes (.recall src e data) s (fun d =>
        d.slot e.val 7 = {} ∧ ok d)) ∧
      (named w → s.dev.planeMode = true → st ≠ .lent → st ≠ .recalling → turned (.recall src e data)) ∧
      (¬ named w → Becomes (.recall src e data) s (s.dev.finish blk .range).okReply)) ∧
    (src.peeks peek = false → s.dev.reads src B.TIDE O.PSW_MAX → Completes (.pswMaxRead src peek) s (fun d =>
      d.reply = some ⟨.ok, s.dev.showReg src.src B.TIDE O.PSW_MAX false⟩ ∧ d.fld B.TIDE F.PSW_MAX_MAX = 0 ∧
      d.fld B.TIDE F.PSW_MAX_OVER_CNT = s.dev.fld B.TIDE F.PSW_MAX_OVER_CNT ∧ d.mem = s.dev.mem))

/-- R36 to R39, R46, R193: bundles shown, the shoal map read, added to and persisted. -/
def Obligations.ShoalMap : Prop :=
  ∀ (s : State) (src : RegSrc) (data : Word),
    let last (d : Dev) : Nat := d.fld B.BIST F.BLK_STATUS_LAST_STATUS
    (s.dev.writes src B.BIST O.STK_BUNDLE_SEL data →
      let id := data.toNat % 2 ^ 26
      (bundleExists id = true → Becomes (.stkBundleSel src data) s ((s.dev.setReg B.BIST O.STK_BUNDLE_SEL (BitVec.ofNat 32 id)).okReply)) ∧
      (bundleExists id = false → Completes (.stkBundleSel src data) s (fun d => d.reg B.BIST O.STK_BUNDLE_SEL = BitVec.ofNat 32 id ∧
        last d = Status.range.code ∧ d.mem = s.dev.mem))) ∧
    (let w := withField data 0 2 1
     let k := nfield w.toNat 16 13
     s.dev.writes src B.BIST O.STK_SHOAL_CMD w →
      (∀ x, s.dev.stack.shoal[k]? = some x → Completes (.shoalRead src data) s (fun d => d.reg B.BIST O.STK_SHOAL_ENTRY_LO = x.lo ∧
        d.reg B.BIST O.STK_SHOAL_ENTRY_HI = x.hi ∧ last d = Status.ok.code ∧ d.stack = s.dev.stack ∧ d.mem = s.dev.mem)) ∧
      (s.dev.stack.shoal[k]? = none → Completes (.shoalRead src data) s (fun d => last d = Status.range.code ∧ d.stack = s.dev.stack ∧
        d.reg B.BIST O.STK_SHOAL_ENTRY_LO = s.dev.reg B.BIST O.STK_SHOAL_ENTRY_LO ∧ d.mem = s.dev.mem))) ∧
    (let lo := (s.dev.reg B.BIST O.STK_SHOAL_ENTRY_LO).toNat
     let hi := (s.dev.reg B.BIST O.STK_SHOAL_ENTRY_HI).toNat
     let new : ShoalEntry := ⟨BitVec.ofNat 32 lo, BitVec.ofNat 32 (4 + 16 * (s.dev.ns / 2 ^ 32))⟩
     s.dev.writes src B.BIST O.STK_SHOAL_CMD (withField data 0 2 2) → [1, 2, 3, 4, 5, 7].contains (lo % 16) → hi % 16 = 4 → lo < 2 ^ 30 →
      (s.dev.stack.shoal.any (fun x => x.lo.toNat % 2 ^ 30 == lo) = false → s.dev.stack.shoal.length < 4096 →
        Completes (.shoalAdd src data) s (fun d => d.stack.shoal = s.dev.stack.shoal ++ [new] ∧ last d = Status.ok.code ∧ d.mem = s.dev.mem)) ∧
      (s.dev.stack.shoal.any (fun x => x.lo.toNat % 2 ^ 30 == lo) = false → 4096 ≤ s.dev.stack.shoal.length →
        Completes (.shoalAdd src data) s (fun d => d.stack = s.dev.stack ∧ last d = Status.range.code ∧ d.mem = s.dev.mem)) ∧
      (s.dev.stack.shoal.any (fun x => x.lo.toNat % 2 ^ 30 == lo) = true → s.dev.stack.shoal.length < 4096 → Completes (.shoalAdd src data) s (fun d =>
        d.stack = s.dev.stack ∧ last d = Status.ok.code ∧ d.mem = s.dev.mem))) ∧
    (s.dev.mode ≠ .quarantine → s.dev.stack.dirty = true → s.dev.nvRo 386 = false → s.dev.nvRo 387 = false → s.dev.hold.remapDirty = false →
      Completes .shoalPersist s (fun d => d.stack.dirty = false ∧ d.stack.shoal = s.dev.stack.shoal ∧ d.stack.lost = s.dev.stack.lost ∧
        d.stack.updates = (if s.dev.stack.both then 1 else satAdd 32 s.dev.stack.updates 1) ∧ d.mem = s.dev.mem ∧
        d.stack.persisted = min s.dev.stack.shoal.length 4096))

/-! ### Sessions, life cycle, tamper response (chapter 13) -/

/-- R434 to R440, R442, R443: the commands of SEC_CMD that concern sessions and the identity key, from interface `i`. -/
def Obligations.SessionCommands : Prop :=
  ∀ (s : State) (src : RegSrc) (i : Nat) (data : Word), src.src.iface = some i →
    let x := s.dev.iface i
    let runs (op : Nat) : Prop := s.dev.writes src B.SEC O.SEC_CMD (withField data 0 4 op)
    let ends (d : Dev) (st : Status) : Prop := d.fld B.SEC F.BLK_STATUS_LAST_STATUS = st.code ∧ d.mem = s.dev.mem ∧ d.ext = s.dev.ext
    (runs 1 → s.dev.rngRuns = true → Completes (.nonce src data) s (fun d => d.iface i = { x with nonce := Config.drbg s.dev.sec.draws, fresh := true } ∧
      d.sec.draws = s.dev.sec.draws + 1 ∧ ends d .ok)) ∧
    (runs 1 → s.dev.rngRuns = false → Becomes (.nonce src data) s (s.dev.finish B.SEC .busy).okReply) ∧
    (let vendor := nbit (withField data 0 4 2).toNat 7
     let legal := if vendor then s.dev.life = .test ∨ s.dev.life = .returned else s.dev.life = .provisioned ∨ s.dev.life = .sealed
     let good := (x.bytes 3309 3).all (· == 0) && Config.mldsaVerify (s.dev.tokenKey vendor) (s.dev.tokenMessage i vendor) (x.bytes 0 3309)
     runs 2 → x.len = 3312 →
      (¬ legal ∨ x.fresh = false ∨ x.locked = true → Becomes (.openToken src data) s (s.dev.finish B.SEC .state).okReply) ∧
      (legal → x.fresh = true → x.locked = false →
        (good = true → Completes (.openToken src data) s (fun d =>
          d.iface i = { x with sess := if vendor then 3 else 2, failConsec := 0, fresh := false } ∧ ends d .ok)) ∧
        (good = false → Completes (.openToken src data) s (fun d => d.iface i = { x with
          sess := 0, fresh := false, failConsec := min (x.failConsec + 1) 8, authFail := satAdd 16 x.authFail 1,
          locked := decide (8 ≤ x.failConsec + 1) } ∧ ends d .auth)))) ∧
    (let good := s.dev.sec.owner.any (fun o => o.passwordHash == shakeNum (x.bytes 0 32))
     runs 3 → x.len = 32 → s.dev.life = .provisioned → s.dev.sec.owner.any (·.passwordEn) → x.locked = false →
      (good = true → Completes (.openPassword src data) s (fun d => d.iface i = { x with sess := 1, failConsec := 0, mbox := [] } ∧ ends d .ok)) ∧
      (good = false → Completes (.openPassword src data) s (fun d => d.iface i = { x with
        sess := 0, mbox := [], failConsec := min (x.failConsec + 1) 8, authFail := satAdd 16 x.authFail 1,
        locked := decide (8 ≤ x.failConsec + 1) } ∧ ends d .auth))) ∧
    (runs 4 → Completes (.close src data) s (fun d => d.iface i = { x with sess := 0 } ∧ ends d .ok)) ∧
    (runs 5 → x.len = 32 → s.dev.sec.keysUp = true → s.dev.rngRuns = true → Completes (.attest src data) s (fun d =>
      let m := s.dev.report (x.bytes 0 32)
      d.iface i = x.fill (m ++ (List.range 3309).map (Config.mldsaSign s.dev.life.code m s.dev.sec.draws) ++ [0, 0, 0]) ∧ ends d .ok)) ∧
    (runs 5 → x.len ≠ 32 → Becomes (.attest src data) s (s.dev.finish B.SEC .format).okReply) ∧
    (runs 6 → s.dev.life ≠ .test → s.dev.sec.keysUp = true → Completes (.getIdkey src data) s (fun d =>
      d.iface i = x.fill ((List.range 1952).map (Config.identityKey s.dev.life.code) ++
        (List.range 3309).map (Config.identityCert s.dev.life.code) ++ [0, 0, 0]) ∧ ends d .ok)) ∧
    (runs 6 → s.dev.life = .test → Becomes (.getIdkey src data) s (s.dev.finish B.SEC .state).okReply)

/-- R429 to R431, R438, R440, R447, R448: life cycle, password, dry dock, boot configuration, the mailbox. -/
def Obligations.LifeCycleCommands : Prop :=
  ∀ (s : State) (src : RegSrc) (i : Nat) (data : Word) (peek : Bool), src.src.iface = some i →
    let x := s.dev.iface i
    let last (d : Dev) (st : Status) : Prop := d.fld B.SEC F.BLK_STATUS_LAST_STATUS = st.code
    (let w := withField data 0 4 7
     let target := nfield w.toNat 4 3
     s.dev.writes src B.SEC O.SEC_CMD w →
      (∀ o, s.dev.mode = .moored → s.dev.life = .blank → target = Life.provisioned.code → ownerOf (x.bytes 0 x.len) = some o →
        s.dev.ownerCopy.isSome → Becomes (.lcAdvance src data) s ((s.dev.lcRun .provisioned (some o)).mboxZero i).okReply) ∧
      (s.dev.mode = .moored → s.dev.life = .provisioned → target = Life.sealed.code → x.sess = 2 →
        Becomes (.lcAdvance src data) s ((s.dev.lcRun .sealed none).mboxZero i).okReply) ∧
      (s.dev.life = .provisioned → target = Life.sealed.code → x.sess ≠ 2 → Completes (.lcAdvance src data) s (fun d =>
        d.life = .provisioned ∧ d.iface i = { x with mbox := [] } ∧ last d .denied ∧ d.mem = s.dev.mem))) ∧
    (∀ o c, s.dev.writes src B.SEC O.SEC_CMD (withField data 0 4 8) → s.dev.life = .provisioned → x.sess = 2 → s.dev.sec.owner = some o →
      s.dev.ownerCopy = some c →
      (x.len = 32 → Completes (.setPassword src data) s (fun d => d.sec.owner = some { o with passwordHash := shakeNum (x.bytes 0 32) } ∧
        d.iface i = { x with mbox := [] } ∧ last d .ok ∧ d.mem = s.dev.mem)) ∧
      (x.len = 0 → Completes (.setPassword src data) s (fun d => d.sec.owner = some { o with passwordEn := false, passwordHash := 0 } ∧
        d.iface i = { x with mbox := [] } ∧ last d .ok ∧ d.mem = s.dev.mem))) ∧
    (s.dev.writes src B.SEC O.SEC_CMD (withField data 0 4 9) →
      (s.dev.mayDo (some i) .drydock = false → Becomes (.drydock src data) s (s.dev.finish B.SEC .denied).okReply) ∧
      (s.dev.mayDo (some i) .drydock = true → s.dev.mode = .moored ∨ s.dev.mode = .underway → Completes (.drydock src data) s (fun d =>
        d.mode = .dryDock ∧ (∀ j < 3, (d.iface j).sess = 0) ∧ d.mce.keys = [] ∧ d.ergs = [] ∧ d.tide.activated = false ∧
        d.flag B.SEC F.SEC_LC_SCAN_OK = true ∧ last d .ok)) ∧
      (s.dev.mayDo (some i) .drydock = true → s.dev.mode ≠ .moored → s.dev.mode ≠ .underway →
        Becomes (.drydock src data) s (s.dev.finish B.SEC .state).okReply)) ∧
    (s.dev.writes src B.SEC O.SEC_CMD (withField data 0 4 10) → x.len = 4 → ofLeBytes (x.bytes 0 4) < 2 → s.dev.mayDo (some i) .bootcfg = true →
      s.dev.nvRo 396 = false → Becomes (.bootcfg src data) s
        ((s.dev.nvWrite 396 (leBytes 4 (ofLeBytes (x.bytes 0 4)))).finish B.SEC .ok).okReply) ∧
    (∀ w, s.dev.writes src B.SEC O.SEC_MBOX_DATA w → x.ptr < 8192 → Completes (.secMboxData src (some w) peek) s (fun d =>
      (d.iface i).ptr = x.ptr + 4 ∧ ofLeBytes ((d.iface i).bytes x.ptr 4) = w.toNat ∧ d.mem = s.dev.mem ∧
      ∀ k, k < x.ptr ∨ x.ptr + 4 ≤ k → (d.iface i).bytes k 1 = x.bytes k 1)) ∧
    (s.dev.reads src B.SEC O.SEC_MBOX_DATA → x.ptr < 8192 → src.peeks peek = false → Completes (.secMboxData src none peek) s (fun d =>
      d.reply = some ⟨.ok, BitVec.ofNat 32 (ofLeBytes (x.bytes x.ptr 4))⟩ ∧ d.iface i = { x with ptr := x.ptr + 4 } ∧ d.mem = s.dev.mem)) ∧
    (s.dev.reads src B.SEC O.SEC_MBOX_DATA → 8192 ≤ x.ptr → src.peeks peek = false → Completes (.secMboxData src none peek) s (fun d =>
      d.reply = some ⟨.ok, 0⟩ ∧ last d .range ∧ d.mem = s.dev.mem))

/-- R434, R444 to R446, R538: the sources of tamper, and the random number generator's health. A source that is armed puts the device in
Quarantine: keys are erased, sessions closed. -/
def Obligations.TamperSources : Prop :=
  ∀ s : State, s.dev.clk.phase ≠ .selfRefresh →
    let modes := s.dev.mode ≠ .beacon ∧ s.dev.mode ≠ .reset ∧ s.dev.mode ≠ .quarantine
    let answer (c : Instr) (src cause : Nat) : Prop := Completes c s (fun d => d.mode = .quarantine ∧ d.mce.keys = [] ∧ d.sec.keysUp = false ∧
      (∀ i < 3, (d.iface i).sess = 0) ∧ d.fld B.SEC F.SEC_TAMPER_STAT_LAST_SRC = src ∧ d.flag B.SEC F.SEC_LC_TAMPER_SEEN = true ∧
      d.fld B.LH F.LH_QCAUSE_CAUSE = 2 ^ cause ∧ d.tide.started = false)
    (∀ k : Fin 4, modes → s.dev.tamperArmed k.val = true → answer (.tamperInput k) (k.val + 1) 7) ∧
    (∀ r : Fin 5, modes → s.dev.tamperArmed 4 = true → answer (.voltageMonitor r) 5 8) ∧
    (∀ c : Fin 4, modes → s.dev.tamperArmed 5 = true → answer (.clockGlitch c) 6 9) ∧
    (s.dev.mode = .beacon → s.dev.clk.island = true → Completes .tamperBeacon s (fun d => d.mode = .beacon ∧
      d.flag B.SEC F.SEC_LC_TAMPER_SEEN = true ∧ d.sec.tamperedBeacon = true ∧ d.mce = s.dev.mce ∧ d.mem = s.dev.mem)) ∧
    (modes → Becomes .rngFail s
      (((s.dev.setFlag B.SEC F.SEC_RNG_STAT_RUN false).count B.SEC F.SEC_RNG_STAT_FAIL_CNT).classU B.SEC 4 .ok 0)) ∧
    (modes → Completes .rngRestart s (fun d => d.rngRuns = true ∧ d.sec = s.dev.sec ∧ d.mem = s.dev.mem))

/-! ### Clocks, resets, Boot, the watchdog (chapter 14) -/

/-- R328, R372, R378, R451, R453 to R458, R538: the registers of the clocks, and the loss of a PLL's, the reference's or a transceiver's lock. -/
def Obligations.Clocks : Prop :=
  (∀ (s : State) (src : RegSrc) (data : Word),
    (s.dev.writes src B.CLK O.CLK_CMD (withField data 0 1 1) →
      (s.dev.mode ≠ .boot → s.dev.mode ≠ .moored → Becomes (.clkApply src data) s (s.dev.finish B.CLK .state).okReply) ∧
      (s.dev.mode = .moored → s.dev.clk.applying = [] → (∀ d < 4, s.dev.clkDiffers d = false) →
        Becomes (.clkApply src data) s (s.dev.finish B.CLK .ok).okReply) ∧
      (s.dev.mode = .moored → s.dev.clk.applying = [] → s.dev.clkDiffers 1 = true → (∀ d < 4, d ≠ 1 → s.dev.clkDiffers d = false) →
        Completes (.clkApply src data) s (fun d => d.clk = { s.dev.clk with applying := [1] } ∧ d.flag B.CLK F.CLK_STAT_BUSY = true ∧
          d.fld B.CLK F.CLK_HCLK_CFG_ACTIVE = s.dev.fld B.CLK F.CLK_HCLK_CFG_MULT ∧ d.flag B.CLK ⟨O.CLK_STAT, 3, 1⟩ = false ∧ d.mem = s.dev.mem)) ∧
      (s.dev.mode = .moored → s.dev.clkDiffers 3 = true → (∃ k < 8, s.dev.fld (B.DMC k) F.DMC_STATE_STATE ≠ 0) →
        Becomes (.clkApply src data) s (s.dev.finish B.CLK .state).okReply)) ∧
    (s.dev.clk.applying ≠ [] → s.dev.mode ≠ .quarantine → Completes .applyDone s (fun d => d.clk = { s.dev.clk with applying := [] } ∧ d.flag B.CLK F.CLK_STAT_BUSY = false ∧
      (∀ k ∈ s.dev.clk.applying, k < 4 → d.flag B.CLK ⟨O.CLK_STAT, 2 + k, 1⟩ = true) ∧
      (∀ k < 8, d.fld (B.HOLD k) F.HOLD_CFG_PACE = s.dev.paceOf) ∧
      d.fld B.CLK F.BLK_STATUS_LAST_STATUS = Status.ok.code ∧ d.mem = s.dev.mem)) ∧
    (let w := withField data 8 1 1
     let code := (s.dev.storeReg B.LH O.LH_OSC_CFG w).fld B.LH F.LH_OSC_CFG_CODE
     s.dev.writes src B.LH O.LH_OSC_CFG w →
      (s.dev.mode ≠ .moored → Becomes (.oscCommit src data) s ((s.dev.storeReg B.LH O.LH_OSC_CFG w).finish B.LH .state).okReply) ∧
      (s.dev.mode = .moored → s.dev.nvRo 513 = false → Completes (.oscCommit src data) s (fun d => d.clk.oscNv = code ∧
        d.fld B.LH F.LH_OSC_CFG_ACTIVE = code ∧ d.fld B.LH F.BLK_STATUS_LAST_STATUS = Status.ok.code ∧ d.mem = s.dev.mem))) ∧
    (∀ k : Fin 3, s.dev.writes src B.CLK (O.CLK_EN0 + 4 * k.val) data →
      Becomes (.clkEn src k data) s (((s.dev.storeReg B.CLK (O.CLK_EN0 + 4 * k.val) data).clkEn k.val).okReply)) ∧
    (s.dev.writes src B.CLK O.CLKMON_CFG data →
      let source := if nfield data.toNat 0 4 < 9 then nfield data.toNat 0 4 else s.dev.fld B.CLK F.CLKMON_CFG_SRC
      let fast := 250000 * (nfield data.toNat 4 12 + 1) < s.dev.monKhz source
      (fast → Becomes (.clkmonCfg src data) s (s.dev.refuse B.CLK).okReply) ∧
      (¬ fast → Becomes (.clkmonCfg src data) s (s.dev.storeReg B.CLK O.CLKMON_CFG data).okReply))) ∧
  (∀ s : State,
    (∀ pll : Option (Fin 4), s.dev.clk.mainPower = true → s.dev.mode ≠ .reset → s.dev.mode ≠ .beacon → s.dev.mode ≠ .quarantine →
      s.dev.clk.phase ≠ .selfRefresh → (∀ k, pll = some k → ¬ k.val ∈ s.dev.clk.applying) → Completes (.pllLockLost pll) s (fun d =>
        d.mode = .quarantine ∧ d.fld B.LH F.LH_QCAUSE_CAUSE = 2 ^ 4 ∧ d.mce.keys = [] ∧ d.sec.keysUp = false ∧
        ∀ k, pll = some k → d.flag B.CLK ⟨O.CLK_STAT, 2 + k.val, 1⟩ = false)) ∧
    (∀ n : Fin 16, s.dev.linkState n.val ≠ 0 → Becomes (.serdesLockLost (.causeway n)) s (s.dev.linkFall n.val false)) ∧
    Becomes (.serdesLockLost .pcie) s s.dev.pcieLinkDown ∧
    (∀ p : Fin 4, Completes (.serdesLockLost (.eth p)) s (fun d =>
      d.flag B.ETH (F.ETH_CFG_LINK_UP p.val) = false ∧ d.mode = s.dev.mode ∧ d.mem = s.dev.mem)))

/-- R449, R450, R459 to R461, R466, R472: main power comes and goes, resets begin, are entered and released. -/
def Obligations.Resets : Prop :=
  ∀ s : State,
    (∀ refclk : Bool, s.dev.mode = .beacon → s.dev.cfg.slot = 0 → s.dev.hold.banks = [] → s.dev.clk.island = true → s.dev.clk.mainPower = false → Completes (.powerOn refclk) s (fun d =>
      d.mode = .reset ∧ d.clk.mainPower = true ∧ d.clk.phase = .oscWait ∧ d.clk.refXtal = !refclk ∧ d.fld B.LH F.LH_RST_CAUSE_LAST = 1 ∧
      d.fld B.LH F.LH_MODE_PREV = Mode.beacon.code ∧ d.nv = s.dev.nv ∧ d.mem = s.dev.mem)) ∧
    (s.dev.clk.phase = .oscWait → OutputsShow s.dev → Completes .oscWaitDone s (fun d => d.clk = { s.dev.clk with phase := .held } ∧ d.regs = s.dev.regs ∧ d.mem = s.dev.mem)) ∧
    (s.dev.clk.mainPower = true → s.dev.mode ≠ .beacon → Completes (.mainPowerLoss true) s (fun d =>
      d.mode = .beacon ∧ d.clk.mainPower = false ∧ d.clk.phase = .off ∧ d.clk.island = s.dev.clk.island ∧ d.mem = [] ∧ d.fab = {} ∧ d.mce.keys = [])) ∧
    (s.dev.resetting = false → s.dev.mode ≠ .beacon → let d := (s.dev.resetLatch 2).retireAll.selfRefresh
      Becomes .resetPin s { d with clk := { d.clk with phase := .selfRefresh } }) ∧
    (s.dev.resetting = false → s.dev.mode ≠ .beacon → s.dev.writesDone → Completes .resetPin s (fun d =>
      d.clk.phase = .selfRefresh ∧ d.mode = s.dev.mode ∧ d.fld B.LH F.LH_RST_CAUSE_LAST = 2 ∧ d.fld B.LH F.LH_RST_CAUSE_ALL = 2 ∧
      d.fld B.LH F.LH_RST_CNT_TOTAL = satAdd 16 (s.dev.fld B.LH F.LH_RST_CNT_TOTAL) 1 ∧ d.mem = s.dev.mem)) ∧
    (s.dev.clk.phase = .held → nbit (s.dev.fld B.LH F.LH_RST_CAUSE_ALL) 1 = false → Completes .resetPin s (fun d =>
      d.clk = s.dev.clk ∧ nbit (d.fld B.LH F.LH_RST_CAUSE_ALL) 1 = true ∧ d.mode = s.dev.mode ∧ d.mem = s.dev.mem)) ∧
    (∀ src : RegSrc, s.dev.writes src B.LH O.LH_RST_CMD 0xA55A0F0F → s.dev.resetting = false → s.dev.resetAllowed 5 = true → s.dev.writesDone →
      Completes (.hostReset src) s (fun d => d.clk.phase = .selfRefresh ∧ d.fld B.LH F.LH_RST_CAUSE_LAST = 5 ∧ d.mode = s.dev.mode ∧
        d.reply = some ⟨.ok, 0⟩ ∧ d.mem = s.dev.mem)) ∧
    (s.dev.clk.phase = .selfRefresh → s.dev.mode ≠ .reset → s.dev.cfg.slot = 0 → Completes .resetEntry s (fun d =>
      d.mode = .reset ∧ d.clk.phase = .held ∧ d.fld B.LH F.LH_MODE_PREV = s.dev.mode.code ∧ d.net = {} ∧ d.cfg = {} ∧ d.mce.keys = [] ∧
      d.sec.keysUp = false ∧ d.tide = {} ∧ d.hold.bond = s.dev.hold.bond ∧ d.nv = s.dev.nv)) ∧
    (∀ (x y : Fin 8) (csp : Fin 4), s.dev.clk.phase = .held → s.dev.mode = .reset → Completes (.resetRelease x y csp) s (fun d =>
      d.mode = .boot ∧ d.clk.phase = .plls ∧ d.clk.cspMode = csp.val ∧ d.fld B.HN F.HN_ID_DEVX = x.val ∧ d.fld B.HN F.HN_ID_DEVY = y.val ∧
      d.mem = s.dev.mem))

/-- R26, R420, R432, R433, R463, R464: the steps of Boot, each at its phase. -/
def Obligations.BootSteps : Prop :=
  ∀ s : State, s.dev.mode = .boot →
    (s.dev.clk.phase = .plls → Completes .bootPllLock s (fun d => d.mode = .boot ∧ d.clk.phase = .moor ∧ d.clk.jettyLock = true ∧
      d.fld B.CLK F.CLK_STAT_LOCK = 0x3F ∧ d.sec.keysUp = true ∧ d.rngRuns = true ∧ d.flag B.CFG F.CFG_BOOT_STAT_POLICY = s.dev.failPolicy ∧
      d.mem = s.dev.mem)) ∧
    (∀ (lanes : List (BitVec 26 × Fin 68)) (dunes : List (Fin 8192)), s.dev.clk.phase = .bundleTest →
      (∀ x ∈ lanes, bundleExists x.1.toNat = true) →
      let s1 := s.dev.shoalBoot.remapBoot
      let s2 := s1.each lanes (fun (d : Dev) x => d.markLane x.1.toNat x.2.val 1)
      let s3 := s2.each dunes (fun (d : Dev) g => d.shoalAdd 1 (bundleId 3 (g.val / 256) (g.val % 256) 0x7FF) 1)
      Becomes (.bundleTestDone lanes dunes) s { s3 with clk := { s3.clk with phase := .temperature } }) ∧
    (∀ readings, s.dev.clk.phase = .temperature → Completes (.bootTemperatureCheck readings) s (fun d =>
      let swept := s.dev.thermalSweep readings
      (swept.mode ≠ .boot → d.mode = swept.mode) ∧
      (swept.mode = .boot → (∃ n < 136, (swept.sensor n).acting < -640) → d.mode = .coldHold ∧ d.fld B.LH F.LH_MODE_PREV = Mode.boot.code) ∧
      (swept.mode = .boot → (∀ n < 136, -640 ≤ (swept.sensor n).acting) → d.mode = .boot ∧ d.clk.phase = .image))) ∧
    (s.dev.clk.phase = .moor ∨ s.dev.clk.phase = .image → Becomes .residentImageRead s s.dev.residentImageRead) ∧
    (∀ fails : List MarchFail, s.dev.clk.phase = .apply → Becomes (.bootApply fails) s
      ((s.dev.bootHold fails).bootGo (s.dev.bootHold fails).cfg.coming.regs))

/-- R467, R468: the watchdog: its count is loaded, fed, enabled; it warns and expires. -/
def Obligations.Watchdog : Prop :=
  ∀ (s : State) (src : RegSrc) (data : Word),
    let count (d : Dev) : Nat := d.fld B.WDG F.WDG_COUNT_COUNT
    let load := s.dev.fld B.WDG F.WDG_LOAD_LOAD
    (s.dev.writes src B.WDG O.WDG_FEED data → s.dev.flag B.WDG F.WDG_CFG_EN = true →
      (∀ t, s.dev.clk.feedAt = some t → s.dev.clk.time ≤ t + 500 → data = 0x5AA5 → Completes (.wdgFeed src data) s (fun d =>
        count d = load ∧ d.clk.feedAt = none ∧ d.fld B.WDG F.WDG_BAD_FEED_BAD_FEED_CNT = s.dev.fld B.WDG F.WDG_BAD_FEED_BAD_FEED_CNT ∧
        d.mem = s.dev.mem)) ∧
      (s.dev.clk.feedAt = none → data = 0xA55A → Completes (.wdgFeed src data) s (fun d =>
        d.clk.feedAt = some s.dev.clk.time ∧ count d = count s.dev ∧ d.mem = s.dev.mem)) ∧
      (s.dev.clk.feedAt = none → data ≠ 0xA55A → s.dev.flag B.WDG F.WDG_CFG_STRICT = false → Completes (.wdgFeed src data) s (fun d =>
        count d = count s.dev ∧ d.mem = s.dev.mem ∧
        d.fld B.WDG F.WDG_BAD_FEED_BAD_FEED_CNT = satAdd 16 (s.dev.fld B.WDG F.WDG_BAD_FEED_BAD_FEED_CNT) 1)) ∧
      (s.dev.clk.feedAt = none → data ≠ 0xA55A → s.dev.flag B.WDG F.WDG_CFG_STRICT = true → s.dev.resetting = false →
        s.dev.resetAllowed 4 = true → s.dev.writesDone → Completes (.wdgFeed src data) s (fun d =>
          d.clk.phase = .selfRefresh ∧ d.fld B.LH F.LH_RST_CAUSE_LAST = 4 ∧ count d = 0))) ∧
    (s.dev.writes src B.WDG O.WDG_CFG (withField data 0 1 1) → s.dev.locked B.WDG = false → Completes (.wdgEn src data) s (fun d =>
      d.flag B.WDG F.WDG_CFG_EN = true ∧ d.mem = s.dev.mem)) ∧
    (s.dev.writes src B.WDG O.WDG_LOAD data → s.dev.locked B.WDG = false → s.dev.fieldBad B.WDG O.WDG_LOAD data.toNat 0 = false →
      Completes (.wdgLoad src data) s (fun d => d.fld B.WDG F.WDG_LOAD_LOAD = nfield data.toNat 0 F.WDG_LOAD_LOAD.w ∧
        count d = nfield data.toNat 0 F.WDG_LOAD_LOAD.w ∧ d.mem = s.dev.mem)) ∧
    (let n := s.dev.fld B.WDG F.WDG_WARN_WARN
     s.dev.wdgCounts = true → n ≠ 0 → n ≤ count s.dev → Becomes .warn s ((s.dev.setFld B.WDG F.WDG_COUNT_COUNT n).event B.WDG 0)) ∧
    (s.dev.wdgCounts = true → s.dev.resetting = false → s.dev.writesDone → Completes .watchdog s (fun d =>
      count d = 0 ∧ d.clk.phase = .selfRefresh ∧ d.fld B.LH F.LH_RST_CAUSE_LAST = 4 ∧ d.mode = s.dev.mode ∧
      d.fld B.LH F.LH_RST_CNT_WDG = satAdd F.LH_RST_CNT_WDG.w (s.dev.fld B.LH F.LH_RST_CNT_WDG) 1))

/-! ### Power, Slack, temperatures, wear, the island (chapter 15) -/

/-- R475 to R480: the commands of PWR_SLEEP_CMD, and what they lead to: an erg is down, an erg is up, the device has woken. In Underway an accepted
SLEEP_ERGS waits for its turn; in Moored it acts at once. -/
def Obligations.SlackOfErgs : Prop :=
  (∀ (s : State) (src : RegSrc) (data : Word),
    let masked (e : Nat) : Bool := nbit (s.dev.reg B.PWR O.PWR_ERG_MASK).toNat e
    let last (d : Dev) (st : Status) : Prop := d.fld B.PWR F.BLK_STATUS_LAST_STATUS = st.code ∧ d.mem = s.dev.mem
    let turned (c : Instr) : Prop := Becomes c s (s.dev.finish B.PWR .state).okReply
    (s.dev.writes src B.PWR O.PWR_SLEEP_CMD (withField data 0 3 1) →
      ((∃ e < 32, masked e = true ∧ (s.dev.erg e).mode = .running ∧ maySleep (s.dev.useMap e) = false) → turned (.sleepErgs src data)) ∧
      ((∃ e < 32, masked e = true ∧ s.dev.pendOf e ≠ .none) → turned (.sleepErgs src data)) ∧
      (s.dev.mode = .underway → (∀ e < 32, masked e = true → s.dev.pendOf e = .none ∧ (s.dev.erg e).slack = .awake ∧
        ((s.dev.erg e).mode = .running → maySleep (s.dev.useMap e) = true)) → Completes (.sleepErgs src data) s (fun d => last d .ok ∧
          (∀ e < 32, masked e = true → d.erg e = { s.dev.erg e with slack := .dueIn s.dev.commitTurn }) ∧
          (∀ e < 32, masked e = false → d.erg e = s.dev.erg e)))) ∧
    (s.dev.writes src B.PWR O.PWR_SLEEP_CMD (withField data 0 3 2) → s.dev.mode = .underway → Completes (.wakeErgs src data) s (fun d => last d .ok ∧
      (∀ e < 32, masked e = true → (s.dev.erg e).slack = .down → d.erg e = { s.dev.erg e with wakeAsked := true }) ∧
      (∀ e < 32, masked e = false → d.erg e = s.dev.erg e))) ∧
    (s.dev.writes src B.PWR O.PWR_SLEEP_CMD (withField data 0 3 3) →
      (s.dev.flag B.TIDE F.TIDE_CTRL_MASTER = true → turned (.sleepDevice src data)) ∧
      (s.dev.pipe ≠ 0 → turned (.sleepDevice src data)) ∧
      (s.dev.flag B.TIDE F.TIDE_CTRL_MASTER = false → s.dev.flag B.TIDE F.TIDE_CTRL_FOLLOW = false → s.dev.pipe = 0 →
        (∀ k < 8, (s.dev.fld (B.DMC k) F.DMC_STATE_STATE = 0 ∨ s.dev.fld (B.DMC k) F.DMC_STATE_STATE = 2) ∧ (s.dev.dmc k).window = .none) →
        (s.dev.mode = .moored → Completes (.sleepDevice src data) s (fun d => d.mode = .slack ∧ d.clk.slackFrom = .moored ∧ last d .ok ∧
          ∀ e < 32, (d.erg e).slack.runs = false)) ∧
        (s.dev.mode = .underway → (∀ e < 32, (s.dev.erg e).mode = .running → maySleep (s.dev.useMap e) = true) →
          Completes (.sleepDevice src data) s (fun d => d.pwr = { s.dev.pwr with sleepAt := some s.dev.commitTurn } ∧ d.mode = .underway ∧ last d .ok)))) ∧
    (s.dev.writes src B.PWR O.PWR_SLEEP_CMD (withField data 0 3 4) →
      (s.dev.mode = .slack → Becomes (.wakeDevice src data) s (s.dev.wakeStart.finish B.PWR .ok).okReply) ∧
      (s.dev.mode ≠ .slack → turned (.wakeDevice src data)))) ∧
  (∀ (s : State) (e : Fin 32),
    ((s.dev.erg e.val).slack = .entering → (s.dev.erg e.val).wakeAsked = false → s.dev.mode ≠ .quarantine → Completes (.ergDown e) s (fun d =>
      d.erg e.val = { s.dev.erg e.val with slack := .down } ∧ nbit (d.reg B.PWR O.EVT_STATUS).toNat 2 = true ∧ d.mode = s.dev.mode ∧
      d.mem = s.dev.mem)) ∧
    ((s.dev.erg e.val).slack = .waking → s.dev.mode = .moored ∨ (s.dev.mode = .underway ∧ s.dev.tide.tick = 0) →
      Becomes (.ergUp e) s ((s.dev.ergResume e.val).event B.PWR 3)) ∧
    (s.dev.mode = .slack → s.dev.pwr.waking = true → s.dev.clk.slackFrom = .moored → Completes .devWake s (fun d =>
      d.mode = .moored ∧ d.pwr.waking = false ∧ d.flag B.LH F.LH_MODE_EMULATED = false ∧ nbit (d.reg B.PWR O.EVT_STATUS).toNat 4 = true ∧
      ∀ k < 32, (d.erg k).slack = .awake)))

/-- R473, R474, R483 to R495: what is sensed, the limits of temperatures, RESUME, the wear bins, the island's supply. -/
def Obligations.SensorsAndIsland : Prop :=
  ∀ (s : State) (src : RegSrc) (data : Word) (peek : Bool),
    (∀ (ergs : List ErgEst) (rails : List Nat), s.dev.clk.mainPower = true → s.dev.mode ≠ .reset → Completes (.powerEstimate ergs rails) s (fun d =>
      (∀ k < 32, Map.get (fun _ => {}) d.pwr.ergs k = ergs.getD k {}) ∧ (∀ k < 8, Map.get (fun _ => 0) d.pwr.rails k = rails.getD k 0) ∧
      (∀ k < 8, Map.get (fun _ => 0) d.pwr.railMax k = max (Map.get (fun _ => 0) s.dev.pwr.railMax k) (rails.getD k 0)) ∧ d.mem = s.dev.mem)) ∧
    (src.peeks peek = false → s.dev.reads src B.PWR O.PWR_RAIL_I → Completes (.pwrRailIRead src peek) s (fun d =>
      d.reply = some ⟨.ok, s.dev.showReg src.src B.PWR O.PWR_RAIL_I false⟩ ∧ d.pwr = s.dev.railRead.pwr ∧ d.mem = s.dev.mem)) ∧
    (∀ readings, s.dev.clk.mainPower = true → s.dev.mode ≠ .reset → Becomes (.thermalSweep readings) s (s.dev.thermalSweep readings)) ∧
    (∀ n : Fin 4, s.dev.writes src B.THM (O.THM_LIM n.val) data → s.dev.locked B.THM = false →
      let f (lo : Nat) : Int := (BitVec.ofNat 8 (nfield data.toNat lo 8)).toInt
      ((∀ lo, lo = 0 ∨ lo = 8 ∨ lo = 16 ∨ lo = 24 → -50 ≤ f lo ∧ f lo ≤ 120) → f 24 < f 16 → f 16 < f 0 → f 0 < f 8 →
        Completes (.thmLimWrite src n data) s (fun d => d.reg B.THM (O.THM_LIM n.val) = data ∧ d.mem = s.dev.mem)) ∧
      (f 8 ≤ f 0 → Completes (.thmLimWrite src n data) s (fun d => d.reg B.THM (O.THM_LIM n.val) = s.dev.reg B.THM (O.THM_LIM n.val) ∧
        d.fld B.THM F.BLK_STATUS_REFUSE_CNT = satAdd F.BLK_STATUS_REFUSE_CNT.w (s.dev.fld B.THM F.BLK_STATUS_REFUSE_CNT) 1 ∧ d.mem = s.dev.mem))) ∧
    (s.dev.writes src B.THM O.THM_SEL data → data.toNat < 136 → Completes (.thmSel src data) s (fun d =>
      d.fld B.THM F.THM_SEL_SENSOR = data.toNat ∧ d.fld B.THM F.BLK_STATUS_LAST_STATUS = s.dev.fld B.THM F.BLK_STATUS_LAST_STATUS ∧
      d.mem = s.dev.mem)) ∧
    (s.dev.writes src B.THM O.THM_CMD (withField data 0 1 1) →
      (s.dev.mode = .standDown → s.dev.flag B.THM F.THM_STAT_COOL = true → Completes (.thmResume src data) s (fun d =>
        d.mode = .moored ∧ d.flag B.THM F.THM_STAT_CRIT = false ∧ d.fld B.THM F.BLK_STATUS_LAST_STATUS = Status.ok.code)) ∧
      (s.dev.mode ≠ .standDown ∨ s.dev.flag B.THM F.THM_STAT_COOL = false → Becomes (.thmResume src data) s (s.dev.finish B.THM .state).okReply)) ∧
    (let bins := (List.range 4).map (fun n => s.dev.reg B.LH (O.LH_WEAR_BIN n))
     s.dev.mode ≠ .beacon → bins ≠ s.dev.wear.nvBins → s.dev.wear.stored = false → s.dev.nvRo 514 = false → Completes .wearPersist s (fun d =>
      d.wear.nvBins = bins ∧ d.wear.nvAt = s.dev.clk.time ∧ d.wear.stored = true ∧ d.mem = s.dev.mem)) ∧
    (s.dev.clk.island = false → Completes .islandPowerUp s (fun d => d.clk.island = true ∧ d.log.ring = s.dev.log.nvRing ∧
      d.fld B.LH F.LH_OSC_CFG_ACTIVE = s.dev.clk.oscNv % 2 ^ F.LH_OSC_CFG_ACTIVE.w ∧
      (∀ n < 4, d.reg B.LH (O.LH_WEAR_BIN n) = s.dev.wear.nvBins.getD n 0) ∧ d.mem = s.dev.mem)) ∧
    (s.dev.mode = .beacon → s.dev.clk.island = true → Completes .islandSupplyLoss s (fun d => d.clk.island = false ∧ d.mode = .beacon ∧
      d.log.ring = [] ∧ d.log.nvRing = s.dev.log.nvRing ∧ d.wear.nvBins = s.dev.wear.nvBins ∧ d.life = s.dev.life ∧ d.mem = s.dev.mem))

/-! ### The Daminaosh wire, run control (chapter 16) -/

/-- R459, R496, R498, R499, R502, R504: pulses and errors of the wire, requests that it does not take, the end of an attachment. -/
def Obligations.WireLine : Prop :=
  ∀ s : State, s.dev.clk.island = true →
    Completes .wireBreak s (fun d => d.wire = { s.dev.wire with waitBreak := false } ∧ d.replyBytes = [] ∧ d.mem = s.dev.mem) ∧
    (s.dev.mode ≠ .beacon → Completes .wireErr s (fun d => d.wire = { s.dev.wire with waitBreak := true } ∧ d.replyBytes = [] ∧
      d.fld B.DBG F.DBG_WIRE_CNT_FRAME_CNT = satAdd F.DBG_WIRE_CNT_FRAME_CNT.w (s.dev.fld B.DBG F.DBG_WIRE_CNT_FRAME_CNT) 1 ∧ d.mem = s.dev.mem)) ∧
    (s.dev.mode ≠ .beacon → Completes (.wireRequestMalformed .crc) s (fun d => wireSays s.dev d .format 0 false [] ∧
      d.fld B.DBG F.DBG_WIRE_CNT_CRC_CNT = satAdd F.DBG_WIRE_CNT_CRC_CNT.w (s.dev.fld B.DBG F.DBG_WIRE_CNT_CRC_CNT) 1 ∧
      d.wire.lastRequest = s.dev.wire.lastRequest ∧ d.mem = s.dev.mem)) ∧
    (∀ t : Fin 4, Completes (.wireRequestMalformed (.format t)) s (fun d => wireSays s.dev d .format t.val false [] ∧
      d.wire = { s.dev.wire with lastRequest := s.dev.clk.time, waitBreak := false } ∧ d.mem = s.dev.mem)) ∧
    (s.dev.mode ≠ .beacon → s.dev.resetting = false → s.dev.writesDone → Completes .wireReset s (fun d => d.clk.phase = .selfRefresh ∧
      d.fld B.LH F.LH_RST_CAUSE_LAST = 3 ∧ d.attached = false)) ∧
    (s.dev.wire.lastRequest + 500000000 ≤ s.dev.clk.time → s.dev.mode ≠ .slack → Completes .attachTimeout s (fun d =>
      d.attached = false ∧ d.mode = s.dev.mode)) ∧
    (s.dev.clk.time < s.dev.wire.lastRequest + 500000000 → Becomes .attachTimeout s s.dev)

/-- R499 to R505, R440: requests at the wire, and their replies. -/
def Obligations.WireRequests : Prop :=
  ∀ (s : State) (t : Fin 4), s.dev.clk.island = true →
    let h : Dev := { s.dev with wire := { s.dev.wire with lastRequest := s.dev.clk.time, waitBreak := false } }
    let told (d : Dev) (st : Status) (pending : Bool) (data : List Byte) : Prop := wireSays s.dev d st t.val pending data
    Completes (.wireId t) s (fun d => told d .ok false (leBytes 1 0xA2 ++ leBytes 2 0x8192 ++ leBytes 1 (s.dev.fld B.SEC F.SEC_LC_STATE) ++
      leBytes 1 (s.dev.fld B.LH F.LH_MODE_MODE) ++ leBytes 1 s.dev.attached.toNat)) ∧
    (s.dev.mode ≠ .beacon → s.dev.attached = false → Completes (.attach t) s (fun d => told d .ok false [] ∧ d.attached = true ∧ d.wire.ops = [] ∧
      d.mem = s.dev.mem)) ∧
    (s.dev.mode = .beacon → Completes (.attach t) s (fun d => told d .state false [] ∧ d.attached = s.dev.attached ∧ d.mem = s.dev.mem)) ∧
    (s.dev.mode ≠ .slack → Completes (.detach t) s (fun d => told d .ok false [] ∧ d.attached = false ∧
      (s.dev.attached = true → d.wire.ops = [] ∧ (d.iface 2).sess = 0))) ∧
    (∀ off : BitVec 16, islandHas off.toNat = true → Completes (.ird t off) s (fun d => told d .ok false (leBytes 4 (h.islandRead off.toNat).1.toNat))) ∧
    (∀ off : BitVec 16, islandHas off.toNat = false → Completes (.ird t off) s (fun d => told d .range false [0, 0, 0, 0] ∧ d.mem = s.dev.mem)) ∧
    (∀ (off : BitVec 16) (w : Word), islandHas off.toNat = false → Completes (.iwr t off w) s (fun d => told d .range false [] ∧ d.mem = s.dev.mem)) ∧
    (∀ (off : BitVec 16) (w : Word), islandHas off.toNat = true →
      (s.dev.mode ≠ .beacon → off.toNat / 16384 = 0 → Becomes (.iwr t off w) s ((h.writeReg .wire B.LH (off.toNat % 16384) w).wireReply .ok t.val false [])) ∧
      (s.dev.mode ≠ .beacon → off.toNat / 16384 = 1 → s.dev.mayDo (some 2) .debug = true →
        Becomes (.iwr t off w) s ((h.writeReg .wire B.DBG (off.toNat % 16384) w).wireReply .ok t.val false [])) ∧
      (off.toNat / 16384 = 1 → s.dev.mayDo (some 2) .debug = false → Completes (.iwr t off w) s (fun d => told d .denied false [] ∧ d.mem = s.dev.mem)) ∧
      (off.toNat / 16384 ≠ 1 → s.dev.mode = .beacon → Completes (.iwr t off w) s (fun d => told d .state false [] ∧ d.mem = s.dev.mem))) ∧
    (∀ (a : BitVec 48) (peek : Bool) (w : Word), a.toNat % 4 ≠ 0 ∨ addrBad a.toNat 4 = true →
      Completes (.rd t a peek) s (fun d => told d .range false [] ∧ d.net = s.dev.net ∧ d.mem = s.dev.mem) ∧
      Completes (.wr t a w) s (fun d => told d .range false [] ∧ d.net = s.dev.net ∧ d.mem = s.dev.mem)) ∧
    (∀ (a : BitVec 48) (peek : Bool) (w : Word), s.dev.wireCarries a.toNat = true → (s.dev.wireOp t.val).pending = false → a.toNat % 4 = 0 →
      addrBad a.toNat 4 = false →
      let q (op : Nat) (data : List Byte) (peek : Bool) : Req :=
        { src := .wire, tag := t.val, op, addr := a.toNat, len := 4, data, dst := s.dev.destNode a.toNat, peek }
      let sent (op : Nat) : Dev := h.setWireOp t.val { used := true, pending := true, isRead := op == 1 }
      Becomes (.rd t a peek) s (((sent 1).request (q 1 [] peek)).wireReply .ok t.val true []) ∧
      Becomes (.wr t a w) s (((sent 2).request (q 2 (leBytes 4 w.toNat) false)).wireReply .ok t.val true [])) ∧
    (s.dev.mode ≠ .beacon → (s.dev.wireOp t.val).used = true →
      ((s.dev.wireOp t.val).pending = true → Completes (.poll t) s (fun d => told d .ok true [0, 0, 0, 0] ∧ d.wire.ops = s.dev.wire.ops ∧ d.mem = s.dev.mem)) ∧
      ((s.dev.wireOp t.val).pending = false → (s.dev.wireOp t.val).isRead = true → Completes (.poll t) s (fun d =>
        told d (s.dev.wireOp t.val).status false (leBytes 4 (s.dev.wireOp t.val).data.toNat) ∧ d.wire.ops = s.dev.wire.ops ∧ d.mem = s.dev.mem)))

/-- R507, R509, R511 to R513, R518: halting, stepping, resuming. -/
def Obligations.RunControl : Prop :=
  ∀ (s : State) (src : RegSrc) (data : Word) (peek : Bool), OutputsShow s.dev →
    let last (d : Dev) (st : Status) : Prop := d.fld B.DBG F.BLK_STATUS_LAST_STATUS = st.code ∧ d.mem = s.dev.mem
    let turned (c : Instr) : Prop := Becomes c s (s.dev.finish B.DBG .state).okReply
    let g0 := (s.dev.eth.time + resumeGrid * 2 ^ 32 - 1) / (resumeGrid * 2 ^ 32) * resumeGrid
    (let w := withField data 0 2 1
     s.dev.writes src B.DBG O.DBG_CTRL w →
      (s.dev.mode = .underway → nbit w.toNat 2 = false → s.dev.run.haltAt = none → Completes (.dbgHalt src data) s (fun d =>
        d.run.haltAt = some (s.dev.tide.num + 1, false, 1) ∧ d.mode = .underway ∧ d.tide = s.dev.tide ∧ last d .ok)) ∧
      (s.dev.mode = .anchored → s.dev.run.resumeAt = none → Completes (.dbgHalt src data) s (fun d => d.mode = .anchored ∧ d.run = s.dev.run ∧ last d .ok)) ∧
      (s.dev.mode = .moored → turned (.dbgHalt src data))) ∧
    (let w := withField data 0 2 2
     s.dev.writes src B.DBG O.DBG_CTRL w →
      (s.dev.mode = .anchored → s.dev.run.resumeAt = none → nbit w.toNat 2 = false → Completes (.dbgResume src data) s (fun d =>
        d.run = { s.dev.run with resumeAt := some (g0 + resumeGrid), resumeShown := g0 + resumeGrid } ∧
        d.flag B.DBG F.DBG_STAT_RESUMING = true ∧ d.mode = .anchored ∧ last d .ok)) ∧
      (s.dev.mode ≠ .anchored → turned (.dbgResume src data))) ∧
    (let w := withField data 0 2 3
     let n := s.dev.fld B.DBG F.DBG_STEP_COUNT
     s.dev.writes src B.DBG O.DBG_CTRL w →
      (s.dev.mode = .anchored → s.dev.run.resumeAt = none → n = 0 → Completes (.dbgStep src data) s (fun d => d.run = s.dev.run ∧ last d .ok)) ∧
      (s.dev.mode = .anchored → s.dev.run.resumeAt = none → n ≠ 0 → nbit w.toNat 2 = false → Completes (.dbgStep src data) s (fun d =>
        d.run = { s.dev.run with resumeAt := some (g0 + resumeGrid), resumeShown := g0 + resumeGrid, stepping := true, stepLockstep := false } ∧
        d.fld B.DBG F.DBG_STAT_STEP_LEFT = n % 2 ^ F.DBG_STAT_STEP_LEFT.w ∧ last d .ok)) ∧
      (s.dev.mode ≠ .anchored → turned (.dbgStep src data))) ∧
    (∀ g, s.dev.run.resumeAt = some g → s.dev.mode = .anchored → g ≤ s.dev.ns → s.dev.run.flagAt = none → s.dev.run.haltLockstep = true →
      Becomes .resumed s ((({ s.dev with run := { s.dev.run with resumeAt := none } }.setFlag B.DBG F.DBG_STAT_RESUMING false).setFlag B.DBG
        F.DBG_STAT_HALTED false).tidesGoOn.event B.DBG 1)) ∧
    (∀ g, s.dev.run.resumeAt = some g → s.dev.mode = .anchored → g ≤ s.dev.ns → s.dev.run.flagAt = none → s.dev.run.haltLockstep = false →
      Becomes .resumed s (((({ s.dev with run := { s.dev.run with resumeAt := none } }.setFlag B.DBG F.DBG_STAT_RESUMING false).setFlag B.DBG
        F.DBG_STAT_HALTED false).tidesGoOn.event B.DBG 1).breach 6 0 0)) ∧
    (src.peeks peek = false → s.dev.reads src B.DBG O.DBG_HALT_TIDE_LO → Becomes (.dbgHaltTideLoRead src peek) s
      ((s.dev.setReg B.DBG O.DBG_HALT_TIDE_HI (BitVec.ofNat 32 (s.dev.run.haltTide / 2 ^ 32))).okReply (BitVec.ofNat 32 s.dev.run.haltTide))) ∧
    (src.peeks peek = false → s.dev.reads src B.DBG O.DBG_RESUME_AT_LO → Becomes (.dbgResumeAtLoRead src peek) s
      ((s.dev.setReg B.DBG O.DBG_RESUME_AT_HI (BitVec.ofNat 32 (s.dev.run.resumeShown / 2 ^ 32))).okReply (BitVec.ofNat 32 s.dev.run.resumeShown)))

/-! ### Self-test, scrubbing, the fault log (chapter 17) -/

/-- R521 to R528: slots of dry dock, the patterns of FABRIC slices, runs in Dry dock. -/
def Obligations.TestRuns : Prop :=
  ∀ (s : State) (src : RegSrc) (e : Fin 32) (finds : List TestFind) (data : Word),
    let x (d : Dev) (kind : Nat) : LapSt := d.lap e.val kind
    (∀ d : DockSlot, s.dev.slotEnded e.val = some d → s.dev.mode = .underway →
      let stamp := s.dev.tide.num * 65536 + d.tick + 1
      let s1 : Dev := { s.dev with bist := { s.dev.bist with served := Map.set (fun _ => 0) s.dev.bist.served e.val stamp } }
      Map.get (fun _ => 0) s.dev.bist.served e.val ≠ stamp →
      (s.dev.sliceRuns e.val d.kind = true → Becomes (.drydockSlot e finds) s (s1.testSlice e.val d.kind finds true)) ∧
      (s.dev.sliceRuns e.val d.kind = false → Completes (.drydockSlot e finds) s (fun t =>
        x t d.kind = { x s.dev d.kind with skips := satAdd 16 (x s.dev d.kind).skips 1 } ∧ t.mem = s.dev.mem ∧ t.stack = s.dev.stack))) ∧
    (s.dev.mode ≠ .quarantine → (s.dev.slot e.val 7).st = .lent → s.dev.gated B.BIST = false → s.dev.halted B.BIST = false → s.dev.inDock e.val = none →
      Completes (.fabricPatternWrite e) s (fun d => (e.val, (x s.dev 0).slice) ∈ d.bist.patterns ∧ d.ergs = s.dev.ergs ∧ d.mem = s.dev.mem)) ∧
    (let w := withField data 0 2 1
     let first := nfield w.toNat 2 5
     let last := nfield w.toNat 7 5
     s.dev.writes src B.BIST O.BIST_DD_CMD w →
      (last < first → Becomes (.ddRun src data) s (s.dev.finish B.BIST .range).okReply) ∧
      (first ≤ last → s.dev.mode ≠ .dryDock → Becomes (.ddRun src data) s (s.dev.finish B.BIST .state).okReply) ∧
      (first ≤ last → s.dev.mode = .dryDock → s.dev.bist.ddRun = none → s.dev.bist.march = none → Completes (.ddRun src data) s (fun d =>
        d.bist = { s.dev.bist with ddRun := some (first, last), ddAborting := false } ∧ d.mem = s.dev.mem)) ∧
      (first ≤ last → s.dev.mode = .dryDock → s.dev.bist.march.isSome → Becomes (.ddRun src data) s (s.dev.finish B.BIST .busy).okReply)) ∧
    (s.dev.writes src B.BIST O.BIST_DD_CMD (withField data 0 2 2) → s.dev.bist.ddRun.isSome → Completes (.ddAbort src data) s (fun d =>
      d.bist = { s.dev.bist with ddAborting := true } ∧ d.mem = s.dev.mem)) ∧
    (∀ (fs : List (Fin 32 × TestFind)) (slices first last : Nat), s.dev.bist.ddRun = some (first, last) → s.dev.gated B.BIST = false →
      s.dev.halted B.BIST = false → s.dev.mode ≠ .quarantine → s.dev.bist.ddAborting = true → slices = 0 → Completes (.ddRunDone fs slices) s (fun d =>
        d.bist = { s.dev.bist with ddRun := none, ddAborting := false } ∧ d.fld B.BIST F.BLK_STATUS_LAST_STATUS = Status.ok.code ∧
        d.mem = s.dev.mem))

/-- R525, R529, R537, R540: the reads of the result queue and of the fault log, and the scan register: what comes out of a scan chain is a free value,
and without EN nothing moves. R530 to R533, R538: an erg's plane-store scrubber: votes of its copies, the word it reads, its laps, its stall. -/
def Obligations.TestReadsAndScrubbers : Prop :=
  (∀ (s : State) (src : RegSrc) (peek : Bool) (data : Word), src.peeks peek = false →
    (∀ r rest, s.dev.bist.results = r :: rest → s.dev.reads src B.BIST O.BIST_RES_LO → Completes (.bistResLoRead src peek) s (fun d =>
      d.reply = some ⟨.ok, r.lo⟩ ∧ d.reg B.BIST O.BIST_RES_HI = r.hi ∧ d.bist = { s.dev.bist with results := rest } ∧ d.mem = s.dev.mem)) ∧
    (s.dev.bist.results = [] → s.dev.reads src B.BIST O.BIST_RES_LO → Completes (.bistResLoRead src peek) s (fun d =>
      d.reply = some ⟨.ok, 0⟩ ∧ d.fld B.BIST F.BLK_STATUS_LAST_STATUS = Status.range.code ∧ d.bist = s.dev.bist ∧ d.mem = s.dev.mem)) ∧
    (s.dev.writes src B.BIST O.BIST_SCAN_DATA data →
      (s.dev.flag B.BIST F.BIST_SCAN_CTRL_EN = true → Completes (.bistScanData src data) s (fun d =>
        d.bist = { s.dev.bist with scanOut := s.dev.freeWord.1.setWidth 32 } ∧ d.free = s.dev.free + 1 ∧ d.mem = s.dev.mem)) ∧
      (s.dev.flag B.BIST F.BIST_SCAN_CTRL_EN = false → Becomes (.bistScanData src data) s s.dev.okReply)) ∧
    (s.dev.reads src B.LH O.LH_FLOG_PORT → s.dev.log.unread ≠ 0 →
      let v : Word := (Map.get (fun _ => 0) s.dev.log.ring s.dev.log.rd).extractLsb' (32 * s.dev.log.word) 32
      (s.dev.log.word < 7 → Completes (.lhFlogPortRead src peek) s (fun d => d.reply = some ⟨.ok, v⟩ ∧
        d.log = { s.dev.log with word := s.dev.log.word + 1 } ∧ d.mem = s.dev.mem)) ∧
      (s.dev.log.word = 7 → Completes (.lhFlogPortRead src peek) s (fun d => d.reply = some ⟨.ok, v⟩ ∧
        d.log = { s.dev.log with word := 0, rd := (s.dev.log.rd + 1) % 512, unread := s.dev.log.unread - 1 } ∧
        d.fld B.LH F.LH_FLOG_STAT_UNREAD = (s.dev.log.unread - 1) % 2 ^ F.LH_FLOG_STAT_UNREAD.w ∧ d.mem = s.dev.mem))) ∧
    (s.dev.reads src B.LH O.LH_FLOG_PORT → s.dev.log.unread = 0 → Completes (.lhFlogPortRead src peek) s (fun d =>
      d.reply = some ⟨.ok, 0⟩ ∧ d.fld B.LH F.BLK_STATUS_LAST_STATUS = Status.range.code ∧ d.log = s.dev.log ∧ d.mem = s.dev.mem))) ∧
  (∀ (s : State) (e : Fin 32) (bad : Nat), s.dev.psRuns = true → s.dev.mode ≠ .quarantine →
    let x := s.dev.ps e.val
    (x.stopped = false →
      (2 ≤ bad → Completes (.planeScrubRead e bad) s (fun d => (d.ps e.val).stopped = true ∧ d.fab = s.dev.fab ∧ d.mem = s.dev.mem)) ∧
      (bad = 0 → (∀ q rest, x.queue = q :: rest →
        Becomes (.planeScrubRead e bad) s ((s.dev.setPs e.val { x with queue := rest }).psRead e.val q))) ∧
      (bad = 0 → x.queue = [] → s.dev.psNext e.val x.place = none → Becomes (.planeScrubRead e bad) s (s.dev.psLap e.val)) ∧
      (bad = 1 → x.queue = [] → s.dev.psNext e.val x.place = none → Completes (.planeScrubRead e bad) s (fun d =>
        d.fld B.SCRB F.SCRB_PS_CNT_VOTE_FIX = satAdd F.SCRB_PS_CNT_VOTE_FIX.w (s.dev.fld B.SCRB F.SCRB_PS_CNT_VOTE_FIX) 1 ∧ d.mem = s.dev.mem))) ∧
    (s.dev.psBeat e.val + 8000000 ≤ s.dev.psClock → s.dev.clk.phase ≠ .selfRefresh → Completes (.scrubStall e) s (fun d =>
      d.mode = .quarantine ∧ d.fld B.LH F.LH_QCAUSE_CAUSE = 2 ^ 6 ∧ d.mce.keys = [] ∧ d.sec.keysUp = false)) ∧
    (s.dev.psClock < s.dev.psBeat e.val + 8000000 → Becomes (.scrubStall e) s s.dev))

/-! ### The register port, for every command (chapters 00, 13, 14) -/

/-- R3, R5, R216: a write of a whole register that the device carries out does what the block's register port does; at a reserved offset nothing.
A narrower or unaligned access is answered RANGE and has no effect. -/
def Obligations.RegisterWrites : Prop :=
  ∀ (s : State) (src : RegSrc) (addr : BitVec 22) (data : Word) (byte : BitVec 24) (size : Fin 9),
    let blk := 4 * addr.toNat / blockBytes
    let off := 4 * addr.toNat % blockBytes
    (s.dev.writes src blk off data →
      Becomes (.registerWrite src addr data) s (s.dev.writeReg src.src blk off data).okReply ∧
      (regFind blk off = none → blk ≠ B.PCIE → Becomes (.registerWrite src addr data) s s.dev.okReply)) ∧
    (s.dev.mode ≠ .beacon → s.dev.mode ≠ .reset → Becomes (.narrowAccess src byte size) s { s.dev with reply := some ⟨.range, 0⟩ }) ∧
    (s.dev.mode = .beacon ∨ s.dev.mode = .reset → Becomes (.narrowAccess src byte size) s { s.dev with reply := none })

/-- R435, R440, R456, R460, R463, R465, R529, R557: no command that is a register access, whoever sends it and whatever else it would do, gets past the mode,
the block's clock gate and the rights of its sender: it is met with silence, zeros, DENIED or, after that, STATE, and the device stays as it was. -/
def Obligations.AccessGates : Prop :=
  ∀ (c : Instr) (s : State) (src : RegSrc) (blk off : Nat) (w : Option Word), c.access = some (src, blk, off, w) → off < blockBytes →
    let gate := s.dev.gateOf src.src blk off w.isSome
    (gate = .silent → Becomes c s { s.dev with reply := none }) ∧
    (gate = .zero → Becomes c s { s.dev with reply := some ⟨.ok, 0⟩ }) ∧
    (∀ v, w = some v → s.dev.writeDenied src.src blk off v = true → gate = .open_ ∨ gate = .refused →
      Becomes c s { s.dev with reply := some ⟨.denied, 0⟩ }) ∧
    (w = none → s.dev.readDenied src.src blk off = true → gate = .open_ ∨ gate = .refused →
      Becomes c s { s.dev with reply := some ⟨.denied, 0⟩ }) ∧
    (gate = .refused → (∀ v, w = some v → s.dev.writeDenied src.src blk off v = false) → (w = none → s.dev.readDenied src.src blk off = false) →
      Becomes c s { s.dev with reply := some ⟨.state, 0⟩ })

/-- R4: what a write stores in a field, by its access code, in every register of every block: RW stores, RO and WO keep, W1C clears, W1S sets, RWL
stores until the block's LOCK is set. The clause on FREEZE_MODE and BLK_OPT is the model's (fieldOpen: R8, R9, R514). -/
def Obligations.AccessCodes : Prop :=
  ∀ (d : Dev) (blk off : Nat) (w : Word) (r : RegDef) (f : FieldDef), regFind blk off = some r → f ∈ r.fields → off ≠ O.BLK_STATUS →
    let at_ : Fld := ⟨off, f.lo, f.w⟩
    let old := d.fld blk at_
    let v := nfield w.toNat f.lo f.w
    let new := (d.storeReg blk off w).fld blk at_
    let takes := fieldOpen blk off f.lo = true ∧ d.fieldBad blk off w.toNat f.lo = false
    (f.acc = .rw → takes → new = v) ∧
    (f.acc = .rwl → d.locked blk = false → takes → new = v) ∧
    (f.acc = .rwl → d.locked blk = true → new = old) ∧
    (f.acc = .ro ∨ f.acc = .wo → new = old) ∧
    (f.acc = .w1c → new = old - Nat.land old v) ∧
    (f.acc = .w1s → new = Nat.lor old v)

/-- R6: a write that would place a reserved encoding into an RW or RWL field leaves that field unchanged. The write still applies to the other fields
it carries, and it increments the block's REFUSE_CNT. Said of every register that only stores what is written to it. -/
def Obligations.ReservedEncodings : Prop :=
  ∀ (s : State) (src : RegSrc) (addr : BitVec 22) (data : Word) (r : RegDef) (f : FieldDef),
    let blk := 4 * addr.toNat / blockBytes
    let off := 4 * addr.toNat % blockBytes
    s.dev.writes src blk off data → regFind blk off = some r → s.dev.writeReg src.src blk off data = s.dev.storeReg blk off data →
    f ∈ r.fields → f.acc = .rw ∨ (f.acc = .rwl ∧ s.dev.locked blk = false) → fieldOpen blk off f.lo = true →
    s.dev.fieldBad blk off data.toNat f.lo = true → off ≠ O.BLK_STATUS → off ≠ O.EVT_STATUS →
    Completes (.registerWrite src addr data) s (fun d =>
      d.fld blk ⟨off, f.lo, f.w⟩ = s.dev.fld blk ⟨off, f.lo, f.w⟩ ∧
      (∀ g ∈ r.fields, g.acc = .rw → fieldOpen blk off g.lo = true → s.dev.fieldBad blk off data.toNat g.lo = false →
        d.fld blk ⟨off, g.lo, g.w⟩ = nfield data.toNat g.lo g.w) ∧
      d.fld blk F.BLK_STATUS_REFUSE_CNT = satAdd F.BLK_STATUS_REFUSE_CNT.w (s.dev.fld blk F.BLK_STATUS_REFUSE_CNT) 1 ∧ d.mem = s.dev.mem)

/-- R10: a bit forced through EVT_FORCE sets EVT_STATUS, and it raises the interrupt request if the event is enabled. It causes none of the event's
other actions: no mode change, no log entry, no Quarantine and no counter change. -/
def Obligations.ForcedEvents : Prop :=
  ∀ (s : State) (src : RegSrc) (blk : BitVec 8) (data : Word), OutputsShow s.dev → s.dev.writes src blk.toNat O.EVT_FORCE data →
    (blkKind blk.toNat).isSome → Completes (.evtForce src blk data) s (fun d =>
      d.reg blk.toNat O.EVT_STATUS = s.dev.reg blk.toNat O.EVT_STATUS ||| data ∧
      (data &&& s.dev.reg blk.toNat O.EVT_ENABLE ≠ 0 → s.dev.flag blk.toNat F.BLK_CTRL_IRQ_EN = true → blk.toNat ∈ d.pins.irq) ∧
      (∀ b o, b ≠ blk.toNat ∨ o ≠ O.EVT_STATUS → o < blockBytes → d.reg b o = s.dev.reg b o) ∧
      d.mode = s.dev.mode ∧ d.log = s.dev.log ∧ d.mce = s.dev.mce ∧ d.sec = s.dev.sec ∧ d.run = s.dev.run ∧ d.tide = s.dev.tide ∧
      d.stack = s.dev.stack ∧ d.ergs = s.dev.ergs ∧ d.hold = s.dev.hold ∧ d.ext = s.dev.ext ∧ d.mem = s.dev.mem)

/-- R421: CFG_CMD PROGRAM with SLOT A or B makes the next stream a resident image bound for that slot. It is accepted in Moored and Underway only, and
STATE is returned in other modes. The running configuration is not touched. -/
def Obligations.ProgramSlot : Prop :=
  ∀ (s : State) (src : RegSrc) (data : Word), OutputsShow s.dev →
    let w := withField data 0 3 4
    let slot := nfield w.toNat 3 2
    let untouched (d : Dev) : Prop := d.fab = s.dev.fab ∧ d.ergs = s.dev.ergs ∧ d.tide = s.dev.tide ∧ (∀ p, d.port p = s.dev.port p) ∧
      d.cfg.live = s.dev.cfg.live ∧ d.mem = s.dev.mem
    s.dev.writes src B.CFG O.CFG_CMD w → slot = 1 ∨ slot = 2 → s.dev.pipe = 0 →
    (s.dev.mode = .moored ∨ s.dev.mode = .underway → Completes (.program src data) s (fun d => d.programming = true ∧ d.cfg.slot = slot ∧ d.pipe = 5 ∧
      d.fld B.CFG F.BLK_STATUS_LAST_STATUS = Status.ok.code ∧ untouched d)) ∧
    (s.dev.mode ≠ .moored → s.dev.mode ≠ .underway → Completes (.program src data) s (fun d => d.cfg = s.dev.cfg ∧ d.pipe = 0 ∧
      d.fld B.CFG F.BLK_STATUS_LAST_STATUS = Status.state.code ∧ untouched d))

/-- R505, R506: a peek read of the wire returns what an ordinary read would return and changes nothing. -/
def Obligations.PeekReads : Prop :=
  (∀ (c : Instr) (s : State) (blk off : Nat), c.access = some (.wire, blk, off, none) →
    c = .tideNumLoRead .wire true ∨ c = .turnTimeLoRead .wire true ∨ c = .tideSkewRead .wire true ∨ c = .pswMaxRead .wire true ∨
      c = .holdXferMaxRead .wire true ∨ c = .hnSchMaxwaitRead .wire true ∨ c = .pwrRailIRead .wire true ∨ c = .stNowLoRead .wire true ∨
      c = .stPpsCapLoRead .wire true ∨ c = .dbgHaltTideLoRead .wire true ∨ c = .dbgResumeAtLoRead .wire true ∨ c = .bistResLoRead .wire true ∨
      c = .lhFlogPortRead .wire true →
    s.dev.reads .wire blk off → Becomes c s (s.dev.okReply (s.dev.showReg .wire blk off true)) ∧
      s.dev.showReg .wire blk off true = s.dev.showReg .wire blk off false) ∧
  (∀ s : State, s.dev.reads .wire B.SEC O.SEC_MBOX_DATA →
    Becomes (.secMboxData .wire none true) s (s.dev.okReply (s.dev.mboxRead 2 true).1) ∧
      (s.dev.mboxRead 2 true).1 = (s.dev.mboxRead 2 false).1)

/-! ### The machine as a whole -/

/-- A step takes the command at the front of the queue and is exec of it with the queue's rest; every command answers a next state and leaves the
queue alone: no command ends in a fault or a refusal. -/
def Obligations.StepRunsFront : Prop :=
  ∀ (c : Instr) (rest : List Instr) (d : Dev), step ⟨d, c :: rest⟩ = exec c ⟨d, rest⟩ ∧ ∃ d', exec c ⟨d, rest⟩ = .next ⟨d', rest⟩

/-- A step on an empty queue is one cycle of the 500 MHz time clock (the model's choice, log entry 2): without main power nothing passes; else the time
clock advances by one, and from one multiple of 500 cycles to the next the watchdog's count stands (R467). -/
def Obligations.IdleStep : Prop :=
  ∀ d : Dev, step ⟨d, []⟩ = .next ⟨d.timeCycle.settle, []⟩ ∧
    (d.clk.mainPower = false → step ⟨d, []⟩ = .next ⟨d.settle, []⟩) ∧
    (d.clk.mainPower = true → (d.clk.time + 1) % 500 ≠ 0 → d.timeCycle.clk.time = d.clk.time + 1 ∧
      d.timeCycle.fld B.WDG F.WDG_COUNT_COUNT = d.fld B.WDG F.WDG_COUNT_COUNT ∧ d.timeCycle.mem = d.mem ∧ d.timeCycle.mode = d.mode)

/-- R8, R362, R371, R458, R546: after every step, whatever the command, the interrupt requests, the asserted vectors, CFG_ERR_N, CLKMON and the source of
every jetty line are those that the registers, the mode and the ergs give. -/
def Obligations.StepKeepsOutputs : Prop :=
  ∀ s s' : State, OutputsShow s.dev → step s = .next s' → OutputsShow s'.dev

/-- R7, R466, R498: the machine right after its island has started: Beacon, nothing waits, no interrupt; the outputs show it, and every field of every
register holds the reset value of its table. (Registers without a reset value in the spec, what memory reads as, and the life-cycle state are the
model's choices: log entries 3 to 5.) -/
def Obligations.ResetState : Prop :=
  State.reset.pending = [] ∧ State.reset.dev.mode = .beacon ∧ State.reset.dev.clk.mainPower = false ∧ OutputsShow State.reset.dev ∧
    State.reset.dev.mem = [] ∧
    ∀ (blk off : Nat) (r : RegDef) (f : FieldDef), regFind blk off = some r → f ∈ r.fields → off ≠ O.BLK_ID → off ≠ O.BLK_FREEZE → off < blockBytes →
      State.reset.dev.fld blk ⟨off, f.lo, f.w⟩ = f.reset

/-- R122, R220: the header beat of a berth message and the header flit of a network packet lose no bit: what is encoded decodes to itself, and a flit
without reserved bits is the encoding of what it decodes to. -/
def Obligations.HeaderRoundTrips : Prop :=
  (∀ h : BHdr, h.op < 16 → h.tag < 8 → h.status < 16 → h.decl < 2 ^ 13 → h.addr < 2 ^ 48 → h.dev < 64 → h.len < 2 ^ 17 → h.context < 2 ^ 32 →
    BHdr.dec h.enc = h) ∧
  (∀ b : BitVec 256, bhdrClean b = true → (BHdr.dec b).enc = b) ∧
  (∀ h : Hdr, h.op < 16 → h.status < 16 → h.tag < 512 → h.pkt < 128 → h.qg < 16 → h.dst < 2 ^ 22 → h.src < 2 ^ 22 → h.addr < 2 ^ 48 →
    h.len < 2 ^ 17 → h.plen < 2 ^ 10 → h.stamp < 2 ^ 32 → h.rtag < 2 ^ 16 → h.decl < 2 ^ 13 → h.lease < 2 ^ 16 → Hdr.dec h.enc = h) ∧
  (∀ b : BitVec 256, hdrClean b = true → (Hdr.dec b).enc = b)

/-- R171 to R175, R199: the bytes of memory: a store changes exactly the bytes it stores to; the words of the hold lie in memory at their addresses, least
significant byte first; a wipe leaves the bytes of its ergs zero and every other byte as it was. -/
def Obligations.MemoryStores : Prop :=
  (∀ (m : List Host.Cell) (k : Nat) (bs : List Byte) (a : Nat),
    memByte (memStore m k bs) a = if k ≤ a ∧ a < k + bs.length then bs.getD (a - k) 0 else memByte m a) ∧
  (∀ (d : Dev) (wi : Nat) (x : Spare) (a : Nat), a < holdBase + 8 * wi ∨ holdBase + 8 * wi + 8 ≤ a →
    memByte (d.putArrayWord wi x).mem a = memByte d.mem a) ∧
  (∀ (d : Dev) (wi : Nat) (x : Spare), ofLeBytes (memBytes (d.putArrayWord wi x).mem (holdBase + 8 * wi) 8) = x.data.toNat) ∧
  (∀ (d : Dev) (es : List Nat) (a : Nat), memByte (d.wipeErgs es).mem a =
    if holdBase ≤ a ∧ (a - holdBase) / 0x2000000 ∈ es then 0 else memByte d.mem a)
end

