-- ==== Sys2Proof/Laws/Bits.lean ====
section
/-! SUPPORT. Laws/Bits.lean: reading a field after one has been put. -/

namespace Sys2Proof.Machine

theorem nfield_lt (n lo w : Nat) : nfield n lo w < 2 ^ w := Nat.mod_lt _ (by positivity)

theorem nfield_testBit (n lo w i : Nat) : (nfield n lo w).testBit i = (decide (i < w) && n.testBit (lo + i)) := by
  simp [nfield, Nat.testBit_mod_two_pow, Nat.testBit_shiftRight]

/-- A word falls apart at a field. -/
theorem split_field (n lo w : Nat) :
    n = n % 2 ^ lo + nfield n lo w * 2 ^ lo + n / 2 ^ (lo + w) * 2 ^ (lo + w) := by
  have h1 := Nat.mod_add_div n (2 ^ lo)
  have h2 := Nat.mod_add_div (n / 2 ^ lo) (2 ^ w)
  have h3 : n / 2 ^ lo / 2 ^ w = n / 2 ^ (lo + w) := by rw [Nat.div_div_eq_div_mul, ← pow_add]
  rw [nfield, Nat.shiftRight_eq_div_pow]
  rw [h3] at h2
  calc n = n % 2 ^ lo + 2 ^ lo * (n / 2 ^ lo) := h1.symm
    _ = n % 2 ^ lo + 2 ^ lo * (n / 2 ^ lo % 2 ^ w + 2 ^ w * (n / 2 ^ (lo + w))) := by rw [h2]
    _ = _ := by rw [pow_add]; ring

theorem putField_eq (n lo w v : Nat) :
    putField n lo w v = n % 2 ^ lo + v % 2 ^ w * 2 ^ lo + n / 2 ^ (lo + w) * 2 ^ (lo + w) := by
  have h := split_field n lo w
  unfold putField
  omega

theorem putField_testBit (n lo w v i : Nat) :
    (putField n lo w v).testBit i = if lo ≤ i ∧ i < lo + w then v.testBit (i - lo) else n.testBit i := by
  rw [putField_eq]
  have e : n % 2 ^ lo + v % 2 ^ w * 2 ^ lo + n / 2 ^ (lo + w) * 2 ^ (lo + w)
      = 2 ^ lo * (2 ^ w * (n / 2 ^ (lo + w)) + v % 2 ^ w) + n % 2 ^ lo := by rw [pow_add]; ring
  rw [e, Nat.testBit_two_pow_mul_add _ (Nat.mod_lt _ (by positivity)),
    Nat.testBit_two_pow_mul_add _ (Nat.mod_lt _ (by positivity))]
  by_cases h1 : i < lo
  · have : ¬ (lo ≤ i ∧ i < lo + w) := by omega
    simp [h1, this, Nat.testBit_mod_two_pow]
  · by_cases h2 : i - lo < w
    · have : lo ≤ i ∧ i < lo + w := by omega
      simp [h1, h2, this, Nat.testBit_mod_two_pow]
    · have : ¬ (lo ≤ i ∧ i < lo + w) := by omega
      simp [h1, h2, this, Nat.testBit_div_two_pow]
      congr 1; omega

theorem nfield_putField (n lo w v : Nat) : nfield (putField n lo w v) lo w = v % 2 ^ w := by
  apply Nat.eq_of_testBit_eq; intro i
  rw [nfield_testBit, putField_testBit, Nat.testBit_mod_two_pow]
  by_cases h : i < w <;> simp [h]

/-- A field apart from the one that was put. -/
theorem nfield_putField_ne (n lo w v lo' w' : Nat) (h : lo' + w' ≤ lo ∨ lo + w ≤ lo') :
    nfield (putField n lo w v) lo' w' = nfield n lo' w' := by
  apply Nat.eq_of_testBit_eq; intro i
  rw [nfield_testBit, nfield_testBit, putField_testBit]
  by_cases hi : i < w'
  · have : ¬ (lo ≤ lo' + i ∧ lo' + i < lo + w) := by omega
    simp [this]
  · simp [hi]

theorem putField_lt (n lo w v m : Nat) (hn : n < 2 ^ m) (h : lo + w ≤ m) : putField n lo w v < 2 ^ m := by
  apply Nat.lt_pow_two_of_testBit; intro i hi
  rw [putField_testBit]
  have : ¬ (lo ≤ i ∧ i < lo + w) := by omega
  simp [this, Nat.testBit_lt_two_pow (lt_of_lt_of_le hn (Nat.pow_le_pow_right (by norm_num) hi))]

theorem nbit_testBit (n i : Nat) : nbit n i = n.testBit i := by
  simp [nbit, Nat.testBit, Nat.and_comm, Nat.and_one_is_mod]

end Sys2Proof.Machine
end

