-- ==== Sys2Proof/Laws/Map.lean ====
section
/-! SUPPORT. Laws/Map.lean: a read after a write, and that every operation keeps the canonical form of a table. -/

namespace Sys2Proof.Machine

variable {α : Type} [DecidableEq α] (d : Nat → α)

omit [DecidableEq α] in
@[simp] theorem Map.get_nil (k : Nat) : Map.get d [] k = d k := rfl

omit [DecidableEq α] in
theorem Map.get_insert (m : Map α) (k : Nat) (v : α) (j : Nat) :
    Map.get d (Map.insert m k v) j = if j = k then v else Map.get d m j := by
  induction m with
  | nil =>
    by_cases h : j = k
    · simp [Map.insert, Map.get, h]
    · simp [Map.insert, Map.get, h, Ne.symm h]
  | cons e m ih =>
    obtain ⟨k', v'⟩ := e
    by_cases h : j = k
    · subst h
      simp only [Map.insert]
      split
      · simp [Map.get]
      · split
        · simp [Map.get]
        · rename_i h2; simp [Map.get, h2, ih]
    · simp only [Map.insert]
      split
      · simp [Map.get, h, Ne.symm h]
      · split
        · rename_i h2; subst h2; simp [Map.get, h, Ne.symm h]
        · simp [Map.get, ih, h]

omit [DecidableEq α] in
/-- A key that is not listed holds the default. -/
theorem Map.get_of_not_mem (m : Map α) (k : Nat) (h : k ∉ m.map (·.1)) : Map.get d m k = d k := by
  induction m with
  | nil => rfl
  | cons e m ih =>
    obtain ⟨a, b⟩ := e
    simp only [List.map_cons, List.mem_cons, not_or] at h
    simp [Map.get, Ne.symm h.1]
    exact ih h.2

/-- The rising part of the canonical form. -/
def Map.rising (m : Map α) : Prop := (m.map (·.1)).Pairwise (· < ·)

theorem Map.wf_iff (m : Map α) :
    Map.wf d m = true ↔ Map.rising m ∧ ∀ e ∈ m, e.2 ≠ d e.1 := by
  simp [Map.wf, Map.rising]

omit [DecidableEq α] in
theorem Map.rising_cons (k : Nat) (v : α) (m : Map α) :
    Map.rising ((k, v) :: m) ↔ (∀ e ∈ m, k < e.1) ∧ Map.rising m := by
  simp only [Map.rising, List.map_cons, List.pairwise_cons, List.mem_map]
  constructor
  · rintro ⟨h, h'⟩
    exact ⟨fun e he => h e.1 ⟨e, he, rfl⟩, h'⟩
  · rintro ⟨h, h'⟩
    refine ⟨?_, h'⟩
    rintro a ⟨e, he, rfl⟩
    exact h e he

omit [DecidableEq α] in
theorem Map.mem_erase (m : Map α) (k : Nat) (e : Nat × α) (h : e ∈ Map.erase m k) : e ∈ m := List.mem_of_mem_filter h

omit [DecidableEq α] in
theorem Map.mem_insert (m : Map α) (k : Nat) (v : α) (e : Nat × α) (h : e ∈ Map.insert m k v) :
    e = (k, v) ∨ e ∈ m := by
  induction m with
  | nil => simpa [Map.insert] using h
  | cons f m ih =>
    obtain ⟨k', v'⟩ := f
    simp only [Map.insert] at h
    split at h
    · simpa using h
    · split at h
      · rcases List.mem_cons.1 h with h | h
        · exact .inl h
        · exact .inr (List.mem_cons_of_mem _ h)
      · rcases List.mem_cons.1 h with h | h
        · exact .inr (by simp [h])
        · rcases ih h with h | h
          · exact .inl h
          · exact .inr (List.mem_cons_of_mem _ h)

omit [DecidableEq α] in
theorem Map.rising_erase (m : Map α) (k : Nat) (h : Map.rising m) : Map.rising (Map.erase m k) :=
  List.Pairwise.sublist (List.Sublist.map _ List.filter_sublist) h

omit [DecidableEq α] in
theorem Map.rising_insert (m : Map α) (k : Nat) (v : α) (h : Map.rising m) : Map.rising (Map.insert m k v) := by
  induction m with
  | nil => simp [Map.insert, Map.rising]
  | cons f m ih =>
    obtain ⟨k', v'⟩ := f
    obtain ⟨h1, h2⟩ := (Map.rising_cons k' v' m).1 h
    simp only [Map.insert]
    split
    · rename_i hk
      refine (Map.rising_cons _ _ _).2 ⟨?_, h⟩
      intro e he
      rcases List.mem_cons.1 he with he | he
      · simpa [he] using hk
      · exact Nat.lt_trans hk (h1 e he)
    · split
      · rename_i hk
        subst hk
        exact (Map.rising_cons _ _ _).2 ⟨h1, h2⟩
      · refine (Map.rising_cons _ _ _).2 ⟨?_, ih h2⟩
        intro e he
        rcases Map.mem_insert m k v e he with he | he
        · subst he; simp only; omega
        · exact h1 e he

omit [DecidableEq α] in
theorem Map.get_erase (m : Map α) (k j : Nat) :
    Map.get d (Map.erase m k) j = if j = k then d k else Map.get d m j := by
  unfold Map.erase
  induction m with
  | nil => by_cases hj : j = k <;> simp [hj]
  | cons f m ih =>
    obtain ⟨k', v'⟩ := f
    by_cases hk : k' = k
    · subst hk
      by_cases hj : j = k'
      · subst hj; simpa using ih
      · simpa [Map.get, Ne.symm hj, hj] using ih
    · by_cases hj : j = k
      · subst hj; simpa [Map.get, hk] using ih
      · simp only [hj, if_false] at ih
        simp [List.filter_cons, hk, Map.get, ih, hj]

/-- A read after a write: the written key holds the value, every other key what it held. -/
theorem Map.get_set (m : Map α) (k : Nat) (v : α) (j : Nat) :
    Map.get d (Map.set d m k v) j = if j = k then v else Map.get d m j := by
  unfold Map.set
  split
  · rename_i hv
    rw [Map.get_erase d m k j, hv]
  · exact Map.get_insert d m k v j

omit [DecidableEq α] in
theorem Map.get_insert_ne (m : Map α) (k : Nat) (v : α) (j : Nat) (hj : j ≠ k) :
    Map.get d (Map.insert m k v) j = Map.get d m j := by rw [Map.get_insert, if_neg hj]

omit [DecidableEq α] in
theorem Map.get_erase_ne (m : Map α) (k j : Nat) (hj : j ≠ k) :
    Map.get d (Map.erase m k) j = Map.get d m j := by rw [Map.get_erase, if_neg hj]

/-- Another key than the written one holds what it held. -/
theorem Map.get_set_ne (m : Map α) (k : Nat) (v : α) (j : Nat) (hj : j ≠ k) :
    Map.get d (Map.set d m k v) j = Map.get d m j := by rw [Map.get_set, if_neg hj]

/-- A write keeps the canonical form. -/
theorem Map.wf_set (m : Map α) (k : Nat) (v : α) (h : Map.wf d m = true) :
    Map.wf d (Map.set d m k v) = true := by
  obtain ⟨h1, h2⟩ := (Map.wf_iff d m).1 h
  unfold Map.set
  split
  · exact (Map.wf_iff d _).2 ⟨Map.rising_erase m k h1, fun e he => h2 e (Map.mem_erase m k e he)⟩
  · rename_i hv
    refine (Map.wf_iff d _).2 ⟨Map.rising_insert m k v h1, fun e he => ?_⟩
    rcases Map.mem_insert m k v e he with he | he
    · subst he; exact hv
    · exact h2 e he

theorem Map.wf_modify (m : Map α) (k : Nat) (f : α → α) (h : Map.wf d m = true) :
    Map.wf d (Map.modify d m k f) = true := Map.wf_set d m k _ h

theorem Map.wf_clear (m : Map α) (p : Nat → Bool) (h : Map.wf d m = true) :
    Map.wf d (Map.clear p m) = true := by
  obtain ⟨h1, h2⟩ := (Map.wf_iff d m).1 h
  refine (Map.wf_iff d _).2 ⟨?_, fun e he => h2 e (List.mem_of_mem_filter he)⟩
  have hs : (List.map (·.1) (Map.clear p m)).Sublist (List.map (·.1) m) :=
    List.Sublist.map _ List.filter_sublist
  exact List.Pairwise.sublist hs h1

theorem Map.wf_nil : Map.wf d [] = true := by simp [Map.wf]

end Sys2Proof.Machine
end

