-- ==== Sys2Proof/Laws/State.lean ====
section
/-! SUPPORT. Laws/State.lean: what each named update of the device leaves as it was, field by field, and that an update of a table leaves the
registers. -/

namespace Sys2Proof.Machine

variable (s : Dev)

@[simp] theorem Dev.setReg_mem (b o : Nat) (w : Word) : (s.setReg b o w).mem = s.mem := rfl
@[simp] theorem Dev.setReg_reply (b o : Nat) (w : Word) : (s.setReg b o w).reply = s.reply := rfl
@[simp] theorem Dev.setReg_replyBytes (b o : Nat) (w : Word) : (s.setReg b o w).replyBytes = s.replyBytes := rfl
@[simp] theorem Dev.setReg_free (b o : Nat) (w : Word) : (s.setReg b o w).free = s.free := rfl
@[simp] theorem Dev.setReg_flipArmed (b o : Nat) (w : Word) : (s.setReg b o w).flipArmed = s.flipArmed := rfl
@[simp] theorem Dev.setReg_part (b o : Nat) (w : Word) : (s.setReg b o w).part = s.part := rfl
@[simp] theorem Dev.setReg_pins (b o : Nat) (w : Word) : (s.setReg b o w).pins = s.pins := rfl
@[simp] theorem Dev.setReg_stack (b o : Nat) (w : Word) : (s.setReg b o w).stack = s.stack := rfl
@[simp] theorem Dev.setReg_tide (b o : Nat) (w : Word) : (s.setReg b o w).tide = s.tide := rfl
@[simp] theorem Dev.setReg_run (b o : Nat) (w : Word) : (s.setReg b o w).run = s.run := rfl
@[simp] theorem Dev.setReg_wire (b o : Nat) (w : Word) : (s.setReg b o w).wire = s.wire := rfl
@[simp] theorem Dev.setReg_clk (b o : Nat) (w : Word) : (s.setReg b o w).clk = s.clk := rfl
@[simp] theorem Dev.setReg_sec (b o : Nat) (w : Word) : (s.setReg b o w).sec = s.sec := rfl
@[simp] theorem Dev.setReg_log (b o : Nat) (w : Word) : (s.setReg b o w).log = s.log := rfl
@[simp] theorem Dev.setReg_bist (b o : Nat) (w : Word) : (s.setReg b o w).bist = s.bist := rfl
@[simp] theorem Dev.setReg_fab (b o : Nat) (w : Word) : (s.setReg b o w).fab = s.fab := rfl
@[simp] theorem Dev.setReg_berths (b o : Nat) (w : Word) : (s.setReg b o w).berths = s.berths := rfl
@[simp] theorem Dev.setReg_ergs (b o : Nat) (w : Word) : (s.setReg b o w).ergs = s.ergs := rfl
@[simp] theorem Dev.setReg_cfg (b o : Nat) (w : Word) : (s.setReg b o w).cfg = s.cfg := rfl
@[simp] theorem Dev.setReg_nv (b o : Nat) (w : Word) : (s.setReg b o w).nv = s.nv := rfl
@[simp] theorem Dev.setReg_hold (b o : Nat) (w : Word) : (s.setReg b o w).hold = s.hold := rfl
@[simp] theorem Dev.setReg_net (b o : Nat) (w : Word) : (s.setReg b o w).net = s.net := rfl
@[simp] theorem Dev.setReg_ext (b o : Nat) (w : Word) : (s.setReg b o w).ext = s.ext := rfl
@[simp] theorem Dev.setReg_mce (b o : Nat) (w : Word) : (s.setReg b o w).mce = s.mce := rfl
@[simp] theorem Dev.setReg_links (b o : Nat) (w : Word) : (s.setReg b o w).links = s.links := rfl
@[simp] theorem Dev.setReg_ports (b o : Nat) (w : Word) : (s.setReg b o w).ports = s.ports := rfl
@[simp] theorem Dev.setReg_pcie (b o : Nat) (w : Word) : (s.setReg b o w).pcie = s.pcie := rfl
@[simp] theorem Dev.setReg_lgts (b o : Nat) (w : Word) : (s.setReg b o w).lgts = s.lgts := rfl
@[simp] theorem Dev.setReg_eth (b o : Nat) (w : Word) : (s.setReg b o w).eth = s.eth := rfl
@[simp] theorem Dev.setReg_pwr (b o : Nat) (w : Word) : (s.setReg b o w).pwr = s.pwr := rfl
@[simp] theorem Dev.setReg_thm (b o : Nat) (w : Word) : (s.setReg b o w).thm = s.thm := rfl
@[simp] theorem Dev.setReg_wear (b o : Nat) (w : Word) : (s.setReg b o w).wear = s.wear := rfl
@[simp] theorem Dev.setReg_psw (b o : Nat) (w : Word) : (s.setReg b o w).psw = s.psw := rfl

@[simp] theorem Dev.setFld_mem (b : Nat) (f : Fld) (v : Nat) : (s.setFld b f v).mem = s.mem := rfl
@[simp] theorem Dev.setFld_reply (b : Nat) (f : Fld) (v : Nat) : (s.setFld b f v).reply = s.reply := rfl
@[simp] theorem Dev.setFld_replyBytes (b : Nat) (f : Fld) (v : Nat) : (s.setFld b f v).replyBytes = s.replyBytes := rfl
@[simp] theorem Dev.setFld_free (b : Nat) (f : Fld) (v : Nat) : (s.setFld b f v).free = s.free := rfl
@[simp] theorem Dev.setFld_flipArmed (b : Nat) (f : Fld) (v : Nat) : (s.setFld b f v).flipArmed = s.flipArmed := rfl
@[simp] theorem Dev.setFld_part (b : Nat) (f : Fld) (v : Nat) : (s.setFld b f v).part = s.part := rfl
@[simp] theorem Dev.setFld_pins (b : Nat) (f : Fld) (v : Nat) : (s.setFld b f v).pins = s.pins := rfl
@[simp] theorem Dev.setFld_stack (b : Nat) (f : Fld) (v : Nat) : (s.setFld b f v).stack = s.stack := rfl
@[simp] theorem Dev.setFld_tide (b : Nat) (f : Fld) (v : Nat) : (s.setFld b f v).tide = s.tide := rfl
@[simp] theorem Dev.setFld_run (b : Nat) (f : Fld) (v : Nat) : (s.setFld b f v).run = s.run := rfl
@[simp] theorem Dev.setFld_wire (b : Nat) (f : Fld) (v : Nat) : (s.setFld b f v).wire = s.wire := rfl
@[simp] theorem Dev.setFld_clk (b : Nat) (f : Fld) (v : Nat) : (s.setFld b f v).clk = s.clk := rfl
@[simp] theorem Dev.setFld_sec (b : Nat) (f : Fld) (v : Nat) : (s.setFld b f v).sec = s.sec := rfl
@[simp] theorem Dev.setFld_log (b : Nat) (f : Fld) (v : Nat) : (s.setFld b f v).log = s.log := rfl
@[simp] theorem Dev.setFld_bist (b : Nat) (f : Fld) (v : Nat) : (s.setFld b f v).bist = s.bist := rfl
@[simp] theorem Dev.setFld_fab (b : Nat) (f : Fld) (v : Nat) : (s.setFld b f v).fab = s.fab := rfl
@[simp] theorem Dev.setFld_berths (b : Nat) (f : Fld) (v : Nat) : (s.setFld b f v).berths = s.berths := rfl
@[simp] theorem Dev.setFld_ergs (b : Nat) (f : Fld) (v : Nat) : (s.setFld b f v).ergs = s.ergs := rfl
@[simp] theorem Dev.setFld_cfg (b : Nat) (f : Fld) (v : Nat) : (s.setFld b f v).cfg = s.cfg := rfl
@[simp] theorem Dev.setFld_nv (b : Nat) (f : Fld) (v : Nat) : (s.setFld b f v).nv = s.nv := rfl
@[simp] theorem Dev.setFld_hold (b : Nat) (f : Fld) (v : Nat) : (s.setFld b f v).hold = s.hold := rfl
@[simp] theorem Dev.setFld_net (b : Nat) (f : Fld) (v : Nat) : (s.setFld b f v).net = s.net := rfl
@[simp] theorem Dev.setFld_ext (b : Nat) (f : Fld) (v : Nat) : (s.setFld b f v).ext = s.ext := rfl
@[simp] theorem Dev.setFld_mce (b : Nat) (f : Fld) (v : Nat) : (s.setFld b f v).mce = s.mce := rfl
@[simp] theorem Dev.setFld_links (b : Nat) (f : Fld) (v : Nat) : (s.setFld b f v).links = s.links := rfl
@[simp] theorem Dev.setFld_ports (b : Nat) (f : Fld) (v : Nat) : (s.setFld b f v).ports = s.ports := rfl
@[simp] theorem Dev.setFld_pcie (b : Nat) (f : Fld) (v : Nat) : (s.setFld b f v).pcie = s.pcie := rfl
@[simp] theorem Dev.setFld_lgts (b : Nat) (f : Fld) (v : Nat) : (s.setFld b f v).lgts = s.lgts := rfl
@[simp] theorem Dev.setFld_eth (b : Nat) (f : Fld) (v : Nat) : (s.setFld b f v).eth = s.eth := rfl
@[simp] theorem Dev.setFld_pwr (b : Nat) (f : Fld) (v : Nat) : (s.setFld b f v).pwr = s.pwr := rfl
@[simp] theorem Dev.setFld_thm (b : Nat) (f : Fld) (v : Nat) : (s.setFld b f v).thm = s.thm := rfl
@[simp] theorem Dev.setFld_wear (b : Nat) (f : Fld) (v : Nat) : (s.setFld b f v).wear = s.wear := rfl
@[simp] theorem Dev.setFld_psw (b : Nat) (f : Fld) (v : Nat) : (s.setFld b f v).psw = s.psw := rfl

@[simp] theorem Dev.setErg_regs (k : Nat) (x : ErgSt) : (s.setErg k x).regs = s.regs := rfl
@[simp] theorem Dev.setErg_mem (k : Nat) (x : ErgSt) : (s.setErg k x).mem = s.mem := rfl
@[simp] theorem Dev.setErg_reply (k : Nat) (x : ErgSt) : (s.setErg k x).reply = s.reply := rfl
@[simp] theorem Dev.setErg_replyBytes (k : Nat) (x : ErgSt) : (s.setErg k x).replyBytes = s.replyBytes := rfl
@[simp] theorem Dev.setErg_free (k : Nat) (x : ErgSt) : (s.setErg k x).free = s.free := rfl
@[simp] theorem Dev.setErg_flipArmed (k : Nat) (x : ErgSt) : (s.setErg k x).flipArmed = s.flipArmed := rfl
@[simp] theorem Dev.setErg_part (k : Nat) (x : ErgSt) : (s.setErg k x).part = s.part := rfl
@[simp] theorem Dev.setErg_pins (k : Nat) (x : ErgSt) : (s.setErg k x).pins = s.pins := rfl
@[simp] theorem Dev.setErg_stack (k : Nat) (x : ErgSt) : (s.setErg k x).stack = s.stack := rfl
@[simp] theorem Dev.setErg_tide (k : Nat) (x : ErgSt) : (s.setErg k x).tide = s.tide := rfl
@[simp] theorem Dev.setErg_run (k : Nat) (x : ErgSt) : (s.setErg k x).run = s.run := rfl
@[simp] theorem Dev.setErg_wire (k : Nat) (x : ErgSt) : (s.setErg k x).wire = s.wire := rfl
@[simp] theorem Dev.setErg_clk (k : Nat) (x : ErgSt) : (s.setErg k x).clk = s.clk := rfl
@[simp] theorem Dev.setErg_sec (k : Nat) (x : ErgSt) : (s.setErg k x).sec = s.sec := rfl
@[simp] theorem Dev.setErg_log (k : Nat) (x : ErgSt) : (s.setErg k x).log = s.log := rfl
@[simp] theorem Dev.setErg_bist (k : Nat) (x : ErgSt) : (s.setErg k x).bist = s.bist := rfl
@[simp] theorem Dev.setErg_fab (k : Nat) (x : ErgSt) : (s.setErg k x).fab = s.fab := rfl
@[simp] theorem Dev.setErg_berths (k : Nat) (x : ErgSt) : (s.setErg k x).berths = s.berths := rfl
@[simp] theorem Dev.setErg_cfg (k : Nat) (x : ErgSt) : (s.setErg k x).cfg = s.cfg := rfl
@[simp] theorem Dev.setErg_nv (k : Nat) (x : ErgSt) : (s.setErg k x).nv = s.nv := rfl
@[simp] theorem Dev.setErg_hold (k : Nat) (x : ErgSt) : (s.setErg k x).hold = s.hold := rfl
@[simp] theorem Dev.setErg_net (k : Nat) (x : ErgSt) : (s.setErg k x).net = s.net := rfl
@[simp] theorem Dev.setErg_ext (k : Nat) (x : ErgSt) : (s.setErg k x).ext = s.ext := rfl
@[simp] theorem Dev.setErg_mce (k : Nat) (x : ErgSt) : (s.setErg k x).mce = s.mce := rfl
@[simp] theorem Dev.setErg_links (k : Nat) (x : ErgSt) : (s.setErg k x).links = s.links := rfl
@[simp] theorem Dev.setErg_ports (k : Nat) (x : ErgSt) : (s.setErg k x).ports = s.ports := rfl
@[simp] theorem Dev.setErg_pcie (k : Nat) (x : ErgSt) : (s.setErg k x).pcie = s.pcie := rfl
@[simp] theorem Dev.setErg_lgts (k : Nat) (x : ErgSt) : (s.setErg k x).lgts = s.lgts := rfl
@[simp] theorem Dev.setErg_eth (k : Nat) (x : ErgSt) : (s.setErg k x).eth = s.eth := rfl
@[simp] theorem Dev.setErg_pwr (k : Nat) (x : ErgSt) : (s.setErg k x).pwr = s.pwr := rfl
@[simp] theorem Dev.setErg_thm (k : Nat) (x : ErgSt) : (s.setErg k x).thm = s.thm := rfl
@[simp] theorem Dev.setErg_wear (k : Nat) (x : ErgSt) : (s.setErg k x).wear = s.wear := rfl
@[simp] theorem Dev.setErg_psw (k : Nat) (x : ErgSt) : (s.setErg k x).psw = s.psw := rfl
@[simp] theorem Dev.setErg_reg (k : Nat) (x : ErgSt) (blk off : Nat) : (s.setErg k x).reg blk off = s.reg blk off := rfl
@[simp] theorem Dev.setErg_fld (k : Nat) (x : ErgSt) (blk : Nat) (g : Fld) : (s.setErg k x).fld blk g = s.fld blk g := rfl
@[simp] theorem Dev.setErg_flag (k : Nat) (x : ErgSt) (blk : Nat) (g : Fld) : (s.setErg k x).flag blk g = s.flag blk g := rfl

@[simp] theorem Dev.setBerth_regs (k : Nat) (x : BerthSt) : (s.setBerth k x).regs = s.regs := rfl
@[simp] theorem Dev.setBerth_mem (k : Nat) (x : BerthSt) : (s.setBerth k x).mem = s.mem := rfl
@[simp] theorem Dev.setBerth_reply (k : Nat) (x : BerthSt) : (s.setBerth k x).reply = s.reply := rfl
@[simp] theorem Dev.setBerth_replyBytes (k : Nat) (x : BerthSt) : (s.setBerth k x).replyBytes = s.replyBytes := rfl
@[simp] theorem Dev.setBerth_free (k : Nat) (x : BerthSt) : (s.setBerth k x).free = s.free := rfl
@[simp] theorem Dev.setBerth_flipArmed (k : Nat) (x : BerthSt) : (s.setBerth k x).flipArmed = s.flipArmed := rfl
@[simp] theorem Dev.setBerth_part (k : Nat) (x : BerthSt) : (s.setBerth k x).part = s.part := rfl
@[simp] theorem Dev.setBerth_pins (k : Nat) (x : BerthSt) : (s.setBerth k x).pins = s.pins := rfl
@[simp] theorem Dev.setBerth_stack (k : Nat) (x : BerthSt) : (s.setBerth k x).stack = s.stack := rfl
@[simp] theorem Dev.setBerth_tide (k : Nat) (x : BerthSt) : (s.setBerth k x).tide = s.tide := rfl
@[simp] theorem Dev.setBerth_run (k : Nat) (x : BerthSt) : (s.setBerth k x).run = s.run := rfl
@[simp] theorem Dev.setBerth_wire (k : Nat) (x : BerthSt) : (s.setBerth k x).wire = s.wire := rfl
@[simp] theorem Dev.setBerth_clk (k : Nat) (x : BerthSt) : (s.setBerth k x).clk = s.clk := rfl
@[simp] theorem Dev.setBerth_sec (k : Nat) (x : BerthSt) : (s.setBerth k x).sec = s.sec := rfl
@[simp] theorem Dev.setBerth_log (k : Nat) (x : BerthSt) : (s.setBerth k x).log = s.log := rfl
@[simp] theorem Dev.setBerth_bist (k : Nat) (x : BerthSt) : (s.setBerth k x).bist = s.bist := rfl
@[simp] theorem Dev.setBerth_fab (k : Nat) (x : BerthSt) : (s.setBerth k x).fab = s.fab := rfl
@[simp] theorem Dev.setBerth_ergs (k : Nat) (x : BerthSt) : (s.setBerth k x).ergs = s.ergs := rfl
@[simp] theorem Dev.setBerth_cfg (k : Nat) (x : BerthSt) : (s.setBerth k x).cfg = s.cfg := rfl
@[simp] theorem Dev.setBerth_nv (k : Nat) (x : BerthSt) : (s.setBerth k x).nv = s.nv := rfl
@[simp] theorem Dev.setBerth_hold (k : Nat) (x : BerthSt) : (s.setBerth k x).hold = s.hold := rfl
@[simp] theorem Dev.setBerth_net (k : Nat) (x : BerthSt) : (s.setBerth k x).net = s.net := rfl
@[simp] theorem Dev.setBerth_ext (k : Nat) (x : BerthSt) : (s.setBerth k x).ext = s.ext := rfl
@[simp] theorem Dev.setBerth_mce (k : Nat) (x : BerthSt) : (s.setBerth k x).mce = s.mce := rfl
@[simp] theorem Dev.setBerth_links (k : Nat) (x : BerthSt) : (s.setBerth k x).links = s.links := rfl
@[simp] theorem Dev.setBerth_ports (k : Nat) (x : BerthSt) : (s.setBerth k x).ports = s.ports := rfl
@[simp] theorem Dev.setBerth_pcie (k : Nat) (x : BerthSt) : (s.setBerth k x).pcie = s.pcie := rfl
@[simp] theorem Dev.setBerth_lgts (k : Nat) (x : BerthSt) : (s.setBerth k x).lgts = s.lgts := rfl
@[simp] theorem Dev.setBerth_eth (k : Nat) (x : BerthSt) : (s.setBerth k x).eth = s.eth := rfl
@[simp] theorem Dev.setBerth_pwr (k : Nat) (x : BerthSt) : (s.setBerth k x).pwr = s.pwr := rfl
@[simp] theorem Dev.setBerth_thm (k : Nat) (x : BerthSt) : (s.setBerth k x).thm = s.thm := rfl
@[simp] theorem Dev.setBerth_wear (k : Nat) (x : BerthSt) : (s.setBerth k x).wear = s.wear := rfl
@[simp] theorem Dev.setBerth_psw (k : Nat) (x : BerthSt) : (s.setBerth k x).psw = s.psw := rfl
@[simp] theorem Dev.setBerth_reg (k : Nat) (x : BerthSt) (blk off : Nat) : (s.setBerth k x).reg blk off = s.reg blk off := rfl
@[simp] theorem Dev.setBerth_fld (k : Nat) (x : BerthSt) (blk : Nat) (g : Fld) : (s.setBerth k x).fld blk g = s.fld blk g := rfl
@[simp] theorem Dev.setBerth_flag (k : Nat) (x : BerthSt) (blk : Nat) (g : Fld) : (s.setBerth k x).flag blk g = s.flag blk g := rfl

@[simp] theorem Dev.setBank_regs (k : Nat) (x : BankSt) : (s.setBank k x).regs = s.regs := rfl
@[simp] theorem Dev.setBank_mem (k : Nat) (x : BankSt) : (s.setBank k x).mem = s.mem := rfl
@[simp] theorem Dev.setBank_reply (k : Nat) (x : BankSt) : (s.setBank k x).reply = s.reply := rfl
@[simp] theorem Dev.setBank_replyBytes (k : Nat) (x : BankSt) : (s.setBank k x).replyBytes = s.replyBytes := rfl
@[simp] theorem Dev.setBank_free (k : Nat) (x : BankSt) : (s.setBank k x).free = s.free := rfl
@[simp] theorem Dev.setBank_flipArmed (k : Nat) (x : BankSt) : (s.setBank k x).flipArmed = s.flipArmed := rfl
@[simp] theorem Dev.setBank_part (k : Nat) (x : BankSt) : (s.setBank k x).part = s.part := rfl
@[simp] theorem Dev.setBank_pins (k : Nat) (x : BankSt) : (s.setBank k x).pins = s.pins := rfl
@[simp] theorem Dev.setBank_stack (k : Nat) (x : BankSt) : (s.setBank k x).stack = s.stack := rfl
@[simp] theorem Dev.setBank_tide (k : Nat) (x : BankSt) : (s.setBank k x).tide = s.tide := rfl
@[simp] theorem Dev.setBank_run (k : Nat) (x : BankSt) : (s.setBank k x).run = s.run := rfl
@[simp] theorem Dev.setBank_wire (k : Nat) (x : BankSt) : (s.setBank k x).wire = s.wire := rfl
@[simp] theorem Dev.setBank_clk (k : Nat) (x : BankSt) : (s.setBank k x).clk = s.clk := rfl
@[simp] theorem Dev.setBank_sec (k : Nat) (x : BankSt) : (s.setBank k x).sec = s.sec := rfl
@[simp] theorem Dev.setBank_log (k : Nat) (x : BankSt) : (s.setBank k x).log = s.log := rfl
@[simp] theorem Dev.setBank_bist (k : Nat) (x : BankSt) : (s.setBank k x).bist = s.bist := rfl
@[simp] theorem Dev.setBank_fab (k : Nat) (x : BankSt) : (s.setBank k x).fab = s.fab := rfl
@[simp] theorem Dev.setBank_berths (k : Nat) (x : BankSt) : (s.setBank k x).berths = s.berths := rfl
@[simp] theorem Dev.setBank_ergs (k : Nat) (x : BankSt) : (s.setBank k x).ergs = s.ergs := rfl
@[simp] theorem Dev.setBank_cfg (k : Nat) (x : BankSt) : (s.setBank k x).cfg = s.cfg := rfl
@[simp] theorem Dev.setBank_nv (k : Nat) (x : BankSt) : (s.setBank k x).nv = s.nv := rfl
@[simp] theorem Dev.setBank_net (k : Nat) (x : BankSt) : (s.setBank k x).net = s.net := rfl
@[simp] theorem Dev.setBank_ext (k : Nat) (x : BankSt) : (s.setBank k x).ext = s.ext := rfl
@[simp] theorem Dev.setBank_mce (k : Nat) (x : BankSt) : (s.setBank k x).mce = s.mce := rfl
@[simp] theorem Dev.setBank_links (k : Nat) (x : BankSt) : (s.setBank k x).links = s.links := rfl
@[simp] theorem Dev.setBank_ports (k : Nat) (x : BankSt) : (s.setBank k x).ports = s.ports := rfl
@[simp] theorem Dev.setBank_pcie (k : Nat) (x : BankSt) : (s.setBank k x).pcie = s.pcie := rfl
@[simp] theorem Dev.setBank_lgts (k : Nat) (x : BankSt) : (s.setBank k x).lgts = s.lgts := rfl
@[simp] theorem Dev.setBank_eth (k : Nat) (x : BankSt) : (s.setBank k x).eth = s.eth := rfl
@[simp] theorem Dev.setBank_pwr (k : Nat) (x : BankSt) : (s.setBank k x).pwr = s.pwr := rfl
@[simp] theorem Dev.setBank_thm (k : Nat) (x : BankSt) : (s.setBank k x).thm = s.thm := rfl
@[simp] theorem Dev.setBank_wear (k : Nat) (x : BankSt) : (s.setBank k x).wear = s.wear := rfl
@[simp] theorem Dev.setBank_psw (k : Nat) (x : BankSt) : (s.setBank k x).psw = s.psw := rfl
@[simp] theorem Dev.setBank_reg (k : Nat) (x : BankSt) (blk off : Nat) : (s.setBank k x).reg blk off = s.reg blk off := rfl
@[simp] theorem Dev.setBank_fld (k : Nat) (x : BankSt) (blk : Nat) (g : Fld) : (s.setBank k x).fld blk g = s.fld blk g := rfl
@[simp] theorem Dev.setBank_flag (k : Nat) (x : BankSt) (blk : Nat) (g : Fld) : (s.setBank k x).flag blk g = s.flag blk g := rfl

@[simp] theorem Dev.setDmc_regs (k : Nat) (x : DmcSt) : (s.setDmc k x).regs = s.regs := rfl
@[simp] theorem Dev.setDmc_mem (k : Nat) (x : DmcSt) : (s.setDmc k x).mem = s.mem := rfl
@[simp] theorem Dev.setDmc_reply (k : Nat) (x : DmcSt) : (s.setDmc k x).reply = s.reply := rfl
@[simp] theorem Dev.setDmc_replyBytes (k : Nat) (x : DmcSt) : (s.setDmc k x).replyBytes = s.replyBytes := rfl
@[simp] theorem Dev.setDmc_free (k : Nat) (x : DmcSt) : (s.setDmc k x).free = s.free := rfl
@[simp] theorem Dev.setDmc_flipArmed (k : Nat) (x : DmcSt) : (s.setDmc k x).flipArmed = s.flipArmed := rfl
@[simp] theorem Dev.setDmc_part (k : Nat) (x : DmcSt) : (s.setDmc k x).part = s.part := rfl
@[simp] theorem Dev.setDmc_pins (k : Nat) (x : DmcSt) : (s.setDmc k x).pins = s.pins := rfl
@[simp] theorem Dev.setDmc_stack (k : Nat) (x : DmcSt) : (s.setDmc k x).stack = s.stack := rfl
@[simp] theorem Dev.setDmc_tide (k : Nat) (x : DmcSt) : (s.setDmc k x).tide = s.tide := rfl
@[simp] theorem Dev.setDmc_run (k : Nat) (x : DmcSt) : (s.setDmc k x).run = s.run := rfl
@[simp] theorem Dev.setDmc_wire (k : Nat) (x : DmcSt) : (s.setDmc k x).wire = s.wire := rfl
@[simp] theorem Dev.setDmc_clk (k : Nat) (x : DmcSt) : (s.setDmc k x).clk = s.clk := rfl
@[simp] theorem Dev.setDmc_sec (k : Nat) (x : DmcSt) : (s.setDmc k x).sec = s.sec := rfl
@[simp] theorem Dev.setDmc_log (k : Nat) (x : DmcSt) : (s.setDmc k x).log = s.log := rfl
@[simp] theorem Dev.setDmc_bist (k : Nat) (x : DmcSt) : (s.setDmc k x).bist = s.bist := rfl
@[simp] theorem Dev.setDmc_fab (k : Nat) (x : DmcSt) : (s.setDmc k x).fab = s.fab := rfl
@[simp] theorem Dev.setDmc_berths (k : Nat) (x : DmcSt) : (s.setDmc k x).berths = s.berths := rfl
@[simp] theorem Dev.setDmc_ergs (k : Nat) (x : DmcSt) : (s.setDmc k x).ergs = s.ergs := rfl
@[simp] theorem Dev.setDmc_cfg (k : Nat) (x : DmcSt) : (s.setDmc k x).cfg = s.cfg := rfl
@[simp] theorem Dev.setDmc_nv (k : Nat) (x : DmcSt) : (s.setDmc k x).nv = s.nv := rfl
@[simp] theorem Dev.setDmc_hold (k : Nat) (x : DmcSt) : (s.setDmc k x).hold = s.hold := rfl
@[simp] theorem Dev.setDmc_net (k : Nat) (x : DmcSt) : (s.setDmc k x).net = s.net := rfl
@[simp] theorem Dev.setDmc_mce (k : Nat) (x : DmcSt) : (s.setDmc k x).mce = s.mce := rfl
@[simp] theorem Dev.setDmc_links (k : Nat) (x : DmcSt) : (s.setDmc k x).links = s.links := rfl
@[simp] theorem Dev.setDmc_ports (k : Nat) (x : DmcSt) : (s.setDmc k x).ports = s.ports := rfl
@[simp] theorem Dev.setDmc_pcie (k : Nat) (x : DmcSt) : (s.setDmc k x).pcie = s.pcie := rfl
@[simp] theorem Dev.setDmc_lgts (k : Nat) (x : DmcSt) : (s.setDmc k x).lgts = s.lgts := rfl
@[simp] theorem Dev.setDmc_eth (k : Nat) (x : DmcSt) : (s.setDmc k x).eth = s.eth := rfl
@[simp] theorem Dev.setDmc_pwr (k : Nat) (x : DmcSt) : (s.setDmc k x).pwr = s.pwr := rfl
@[simp] theorem Dev.setDmc_thm (k : Nat) (x : DmcSt) : (s.setDmc k x).thm = s.thm := rfl
@[simp] theorem Dev.setDmc_wear (k : Nat) (x : DmcSt) : (s.setDmc k x).wear = s.wear := rfl
@[simp] theorem Dev.setDmc_psw (k : Nat) (x : DmcSt) : (s.setDmc k x).psw = s.psw := rfl
@[simp] theorem Dev.setDmc_reg (k : Nat) (x : DmcSt) (blk off : Nat) : (s.setDmc k x).reg blk off = s.reg blk off := rfl
@[simp] theorem Dev.setDmc_fld (k : Nat) (x : DmcSt) (blk : Nat) (g : Fld) : (s.setDmc k x).fld blk g = s.fld blk g := rfl
@[simp] theorem Dev.setDmc_flag (k : Nat) (x : DmcSt) (blk : Nat) (g : Fld) : (s.setDmc k x).flag blk g = s.flag blk g := rfl

@[simp] theorem Dev.setLink_regs (k : Nat) (x : LinkSt) : (s.setLink k x).regs = s.regs := rfl
@[simp] theorem Dev.setLink_mem (k : Nat) (x : LinkSt) : (s.setLink k x).mem = s.mem := rfl
@[simp] theorem Dev.setLink_reply (k : Nat) (x : LinkSt) : (s.setLink k x).reply = s.reply := rfl
@[simp] theorem Dev.setLink_replyBytes (k : Nat) (x : LinkSt) : (s.setLink k x).replyBytes = s.replyBytes := rfl
@[simp] theorem Dev.setLink_free (k : Nat) (x : LinkSt) : (s.setLink k x).free = s.free := rfl
@[simp] theorem Dev.setLink_flipArmed (k : Nat) (x : LinkSt) : (s.setLink k x).flipArmed = s.flipArmed := rfl
@[simp] theorem Dev.setLink_part (k : Nat) (x : LinkSt) : (s.setLink k x).part = s.part := rfl
@[simp] theorem Dev.setLink_pins (k : Nat) (x : LinkSt) : (s.setLink k x).pins = s.pins := rfl
@[simp] theorem Dev.setLink_stack (k : Nat) (x : LinkSt) : (s.setLink k x).stack = s.stack := rfl
@[simp] theorem Dev.setLink_tide (k : Nat) (x : LinkSt) : (s.setLink k x).tide = s.tide := rfl
@[simp] theorem Dev.setLink_run (k : Nat) (x : LinkSt) : (s.setLink k x).run = s.run := rfl
@[simp] theorem Dev.setLink_wire (k : Nat) (x : LinkSt) : (s.setLink k x).wire = s.wire := rfl
@[simp] theorem Dev.setLink_clk (k : Nat) (x : LinkSt) : (s.setLink k x).clk = s.clk := rfl
@[simp] theorem Dev.setLink_sec (k : Nat) (x : LinkSt) : (s.setLink k x).sec = s.sec := rfl
@[simp] theorem Dev.setLink_log (k : Nat) (x : LinkSt) : (s.setLink k x).log = s.log := rfl
@[simp] theorem Dev.setLink_bist (k : Nat) (x : LinkSt) : (s.setLink k x).bist = s.bist := rfl
@[simp] theorem Dev.setLink_fab (k : Nat) (x : LinkSt) : (s.setLink k x).fab = s.fab := rfl
@[simp] theorem Dev.setLink_berths (k : Nat) (x : LinkSt) : (s.setLink k x).berths = s.berths := rfl
@[simp] theorem Dev.setLink_ergs (k : Nat) (x : LinkSt) : (s.setLink k x).ergs = s.ergs := rfl
@[simp] theorem Dev.setLink_cfg (k : Nat) (x : LinkSt) : (s.setLink k x).cfg = s.cfg := rfl
@[simp] theorem Dev.setLink_nv (k : Nat) (x : LinkSt) : (s.setLink k x).nv = s.nv := rfl
@[simp] theorem Dev.setLink_hold (k : Nat) (x : LinkSt) : (s.setLink k x).hold = s.hold := rfl
@[simp] theorem Dev.setLink_net (k : Nat) (x : LinkSt) : (s.setLink k x).net = s.net := rfl
@[simp] theorem Dev.setLink_ext (k : Nat) (x : LinkSt) : (s.setLink k x).ext = s.ext := rfl
@[simp] theorem Dev.setLink_mce (k : Nat) (x : LinkSt) : (s.setLink k x).mce = s.mce := rfl
@[simp] theorem Dev.setLink_ports (k : Nat) (x : LinkSt) : (s.setLink k x).ports = s.ports := rfl
@[simp] theorem Dev.setLink_pcie (k : Nat) (x : LinkSt) : (s.setLink k x).pcie = s.pcie := rfl
@[simp] theorem Dev.setLink_lgts (k : Nat) (x : LinkSt) : (s.setLink k x).lgts = s.lgts := rfl
@[simp] theorem Dev.setLink_eth (k : Nat) (x : LinkSt) : (s.setLink k x).eth = s.eth := rfl
@[simp] theorem Dev.setLink_pwr (k : Nat) (x : LinkSt) : (s.setLink k x).pwr = s.pwr := rfl
@[simp] theorem Dev.setLink_thm (k : Nat) (x : LinkSt) : (s.setLink k x).thm = s.thm := rfl
@[simp] theorem Dev.setLink_wear (k : Nat) (x : LinkSt) : (s.setLink k x).wear = s.wear := rfl
@[simp] theorem Dev.setLink_psw (k : Nat) (x : LinkSt) : (s.setLink k x).psw = s.psw := rfl
@[simp] theorem Dev.setLink_reg (k : Nat) (x : LinkSt) (blk off : Nat) : (s.setLink k x).reg blk off = s.reg blk off := rfl
@[simp] theorem Dev.setLink_fld (k : Nat) (x : LinkSt) (blk : Nat) (g : Fld) : (s.setLink k x).fld blk g = s.fld blk g := rfl
@[simp] theorem Dev.setLink_flag (k : Nat) (x : LinkSt) (blk : Nat) (g : Fld) : (s.setLink k x).flag blk g = s.flag blk g := rfl

@[simp] theorem Dev.setPort_regs (k : Nat) (x : PortSt) : (s.setPort k x).regs = s.regs := rfl
@[simp] theorem Dev.setPort_mem (k : Nat) (x : PortSt) : (s.setPort k x).mem = s.mem := rfl
@[simp] theorem Dev.setPort_reply (k : Nat) (x : PortSt) : (s.setPort k x).reply = s.reply := rfl
@[simp] theorem Dev.setPort_replyBytes (k : Nat) (x : PortSt) : (s.setPort k x).replyBytes = s.replyBytes := rfl
@[simp] theorem Dev.setPort_free (k : Nat) (x : PortSt) : (s.setPort k x).free = s.free := rfl
@[simp] theorem Dev.setPort_flipArmed (k : Nat) (x : PortSt) : (s.setPort k x).flipArmed = s.flipArmed := rfl
@[simp] theorem Dev.setPort_part (k : Nat) (x : PortSt) : (s.setPort k x).part = s.part := rfl
@[simp] theorem Dev.setPort_pins (k : Nat) (x : PortSt) : (s.setPort k x).pins = s.pins := rfl
@[simp] theorem Dev.setPort_stack (k : Nat) (x : PortSt) : (s.setPort k x).stack = s.stack := rfl
@[simp] theorem Dev.setPort_tide (k : Nat) (x : PortSt) : (s.setPort k x).tide = s.tide := rfl
@[simp] theorem Dev.setPort_run (k : Nat) (x : PortSt) : (s.setPort k x).run = s.run := rfl
@[simp] theorem Dev.setPort_wire (k : Nat) (x : PortSt) : (s.setPort k x).wire = s.wire := rfl
@[simp] theorem Dev.setPort_clk (k : Nat) (x : PortSt) : (s.setPort k x).clk = s.clk := rfl
@[simp] theorem Dev.setPort_sec (k : Nat) (x : PortSt) : (s.setPort k x).sec = s.sec := rfl
@[simp] theorem Dev.setPort_log (k : Nat) (x : PortSt) : (s.setPort k x).log = s.log := rfl
@[simp] theorem Dev.setPort_bist (k : Nat) (x : PortSt) : (s.setPort k x).bist = s.bist := rfl
@[simp] theorem Dev.setPort_fab (k : Nat) (x : PortSt) : (s.setPort k x).fab = s.fab := rfl
@[simp] theorem Dev.setPort_berths (k : Nat) (x : PortSt) : (s.setPort k x).berths = s.berths := rfl
@[simp] theorem Dev.setPort_ergs (k : Nat) (x : PortSt) : (s.setPort k x).ergs = s.ergs := rfl
@[simp] theorem Dev.setPort_cfg (k : Nat) (x : PortSt) : (s.setPort k x).cfg = s.cfg := rfl
@[simp] theorem Dev.setPort_nv (k : Nat) (x : PortSt) : (s.setPort k x).nv = s.nv := rfl
@[simp] theorem Dev.setPort_hold (k : Nat) (x : PortSt) : (s.setPort k x).hold = s.hold := rfl
@[simp] theorem Dev.setPort_net (k : Nat) (x : PortSt) : (s.setPort k x).net = s.net := rfl
@[simp] theorem Dev.setPort_ext (k : Nat) (x : PortSt) : (s.setPort k x).ext = s.ext := rfl
@[simp] theorem Dev.setPort_mce (k : Nat) (x : PortSt) : (s.setPort k x).mce = s.mce := rfl
@[simp] theorem Dev.setPort_links (k : Nat) (x : PortSt) : (s.setPort k x).links = s.links := rfl
@[simp] theorem Dev.setPort_pcie (k : Nat) (x : PortSt) : (s.setPort k x).pcie = s.pcie := rfl
@[simp] theorem Dev.setPort_lgts (k : Nat) (x : PortSt) : (s.setPort k x).lgts = s.lgts := rfl
@[simp] theorem Dev.setPort_eth (k : Nat) (x : PortSt) : (s.setPort k x).eth = s.eth := rfl
@[simp] theorem Dev.setPort_pwr (k : Nat) (x : PortSt) : (s.setPort k x).pwr = s.pwr := rfl
@[simp] theorem Dev.setPort_thm (k : Nat) (x : PortSt) : (s.setPort k x).thm = s.thm := rfl
@[simp] theorem Dev.setPort_wear (k : Nat) (x : PortSt) : (s.setPort k x).wear = s.wear := rfl
@[simp] theorem Dev.setPort_psw (k : Nat) (x : PortSt) : (s.setPort k x).psw = s.psw := rfl
@[simp] theorem Dev.setPort_reg (k : Nat) (x : PortSt) (blk off : Nat) : (s.setPort k x).reg blk off = s.reg blk off := rfl
@[simp] theorem Dev.setPort_fld (k : Nat) (x : PortSt) (blk : Nat) (g : Fld) : (s.setPort k x).fld blk g = s.fld blk g := rfl
@[simp] theorem Dev.setPort_flag (k : Nat) (x : PortSt) (blk : Nat) (g : Fld) : (s.setPort k x).flag blk g = s.flag blk g := rfl

@[simp] theorem Dev.setLgt_regs (k : Nat) (x : LgtSt) : (s.setLgt k x).regs = s.regs := rfl
@[simp] theorem Dev.setLgt_mem (k : Nat) (x : LgtSt) : (s.setLgt k x).mem = s.mem := rfl
@[simp] theorem Dev.setLgt_reply (k : Nat) (x : LgtSt) : (s.setLgt k x).reply = s.reply := rfl
@[simp] theorem Dev.setLgt_replyBytes (k : Nat) (x : LgtSt) : (s.setLgt k x).replyBytes = s.replyBytes := rfl
@[simp] theorem Dev.setLgt_free (k : Nat) (x : LgtSt) : (s.setLgt k x).free = s.free := rfl
@[simp] theorem Dev.setLgt_flipArmed (k : Nat) (x : LgtSt) : (s.setLgt k x).flipArmed = s.flipArmed := rfl
@[simp] theorem Dev.setLgt_part (k : Nat) (x : LgtSt) : (s.setLgt k x).part = s.part := rfl
@[simp] theorem Dev.setLgt_pins (k : Nat) (x : LgtSt) : (s.setLgt k x).pins = s.pins := rfl
@[simp] theorem Dev.setLgt_stack (k : Nat) (x : LgtSt) : (s.setLgt k x).stack = s.stack := rfl
@[simp] theorem Dev.setLgt_tide (k : Nat) (x : LgtSt) : (s.setLgt k x).tide = s.tide := rfl
@[simp] theorem Dev.setLgt_run (k : Nat) (x : LgtSt) : (s.setLgt k x).run = s.run := rfl
@[simp] theorem Dev.setLgt_wire (k : Nat) (x : LgtSt) : (s.setLgt k x).wire = s.wire := rfl
@[simp] theorem Dev.setLgt_clk (k : Nat) (x : LgtSt) : (s.setLgt k x).clk = s.clk := rfl
@[simp] theorem Dev.setLgt_sec (k : Nat) (x : LgtSt) : (s.setLgt k x).sec = s.sec := rfl
@[simp] theorem Dev.setLgt_log (k : Nat) (x : LgtSt) : (s.setLgt k x).log = s.log := rfl
@[simp] theorem Dev.setLgt_bist (k : Nat) (x : LgtSt) : (s.setLgt k x).bist = s.bist := rfl
@[simp] theorem Dev.setLgt_fab (k : Nat) (x : LgtSt) : (s.setLgt k x).fab = s.fab := rfl
@[simp] theorem Dev.setLgt_berths (k : Nat) (x : LgtSt) : (s.setLgt k x).berths = s.berths := rfl
@[simp] theorem Dev.setLgt_ergs (k : Nat) (x : LgtSt) : (s.setLgt k x).ergs = s.ergs := rfl
@[simp] theorem Dev.setLgt_cfg (k : Nat) (x : LgtSt) : (s.setLgt k x).cfg = s.cfg := rfl
@[simp] theorem Dev.setLgt_nv (k : Nat) (x : LgtSt) : (s.setLgt k x).nv = s.nv := rfl
@[simp] theorem Dev.setLgt_hold (k : Nat) (x : LgtSt) : (s.setLgt k x).hold = s.hold := rfl
@[simp] theorem Dev.setLgt_net (k : Nat) (x : LgtSt) : (s.setLgt k x).net = s.net := rfl
@[simp] theorem Dev.setLgt_ext (k : Nat) (x : LgtSt) : (s.setLgt k x).ext = s.ext := rfl
@[simp] theorem Dev.setLgt_mce (k : Nat) (x : LgtSt) : (s.setLgt k x).mce = s.mce := rfl
@[simp] theorem Dev.setLgt_links (k : Nat) (x : LgtSt) : (s.setLgt k x).links = s.links := rfl
@[simp] theorem Dev.setLgt_ports (k : Nat) (x : LgtSt) : (s.setLgt k x).ports = s.ports := rfl
@[simp] theorem Dev.setLgt_pcie (k : Nat) (x : LgtSt) : (s.setLgt k x).pcie = s.pcie := rfl
@[simp] theorem Dev.setLgt_eth (k : Nat) (x : LgtSt) : (s.setLgt k x).eth = s.eth := rfl
@[simp] theorem Dev.setLgt_pwr (k : Nat) (x : LgtSt) : (s.setLgt k x).pwr = s.pwr := rfl
@[simp] theorem Dev.setLgt_thm (k : Nat) (x : LgtSt) : (s.setLgt k x).thm = s.thm := rfl
@[simp] theorem Dev.setLgt_wear (k : Nat) (x : LgtSt) : (s.setLgt k x).wear = s.wear := rfl
@[simp] theorem Dev.setLgt_psw (k : Nat) (x : LgtSt) : (s.setLgt k x).psw = s.psw := rfl
@[simp] theorem Dev.setLgt_reg (k : Nat) (x : LgtSt) (blk off : Nat) : (s.setLgt k x).reg blk off = s.reg blk off := rfl
@[simp] theorem Dev.setLgt_fld (k : Nat) (x : LgtSt) (blk : Nat) (g : Fld) : (s.setLgt k x).fld blk g = s.fld blk g := rfl
@[simp] theorem Dev.setLgt_flag (k : Nat) (x : LgtSt) (blk : Nat) (g : Fld) : (s.setLgt k x).flag blk g = s.flag blk g := rfl

@[simp] theorem Dev.setIface_regs (k : Nat) (x : IfaceSt) : (s.setIface k x).regs = s.regs := rfl
@[simp] theorem Dev.setIface_mem (k : Nat) (x : IfaceSt) : (s.setIface k x).mem = s.mem := rfl
@[simp] theorem Dev.setIface_reply (k : Nat) (x : IfaceSt) : (s.setIface k x).reply = s.reply := rfl
@[simp] theorem Dev.setIface_replyBytes (k : Nat) (x : IfaceSt) : (s.setIface k x).replyBytes = s.replyBytes := rfl
@[simp] theorem Dev.setIface_free (k : Nat) (x : IfaceSt) : (s.setIface k x).free = s.free := rfl
@[simp] theorem Dev.setIface_flipArmed (k : Nat) (x : IfaceSt) : (s.setIface k x).flipArmed = s.flipArmed := rfl
@[simp] theorem Dev.setIface_part (k : Nat) (x : IfaceSt) : (s.setIface k x).part = s.part := rfl
@[simp] theorem Dev.setIface_pins (k : Nat) (x : IfaceSt) : (s.setIface k x).pins = s.pins := rfl
@[simp] theorem Dev.setIface_stack (k : Nat) (x : IfaceSt) : (s.setIface k x).stack = s.stack := rfl
@[simp] theorem Dev.setIface_tide (k : Nat) (x : IfaceSt) : (s.setIface k x).tide = s.tide := rfl
@[simp] theorem Dev.setIface_run (k : Nat) (x : IfaceSt) : (s.setIface k x).run = s.run := rfl
@[simp] theorem Dev.setIface_wire (k : Nat) (x : IfaceSt) : (s.setIface k x).wire = s.wire := rfl
@[simp] theorem Dev.setIface_clk (k : Nat) (x : IfaceSt) : (s.setIface k x).clk = s.clk := rfl
@[simp] theorem Dev.setIface_log (k : Nat) (x : IfaceSt) : (s.setIface k x).log = s.log := rfl
@[simp] theorem Dev.setIface_bist (k : Nat) (x : IfaceSt) : (s.setIface k x).bist = s.bist := rfl
@[simp] theorem Dev.setIface_fab (k : Nat) (x : IfaceSt) : (s.setIface k x).fab = s.fab := rfl
@[simp] theorem Dev.setIface_berths (k : Nat) (x : IfaceSt) : (s.setIface k x).berths = s.berths := rfl
@[simp] theorem Dev.setIface_ergs (k : Nat) (x : IfaceSt) : (s.setIface k x).ergs = s.ergs := rfl
@[simp] theorem Dev.setIface_cfg (k : Nat) (x : IfaceSt) : (s.setIface k x).cfg = s.cfg := rfl
@[simp] theorem Dev.setIface_nv (k : Nat) (x : IfaceSt) : (s.setIface k x).nv = s.nv := rfl
@[simp] theorem Dev.setIface_hold (k : Nat) (x : IfaceSt) : (s.setIface k x).hold = s.hold := rfl
@[simp] theorem Dev.setIface_net (k : Nat) (x : IfaceSt) : (s.setIface k x).net = s.net := rfl
@[simp] theorem Dev.setIface_ext (k : Nat) (x : IfaceSt) : (s.setIface k x).ext = s.ext := rfl
@[simp] theorem Dev.setIface_mce (k : Nat) (x : IfaceSt) : (s.setIface k x).mce = s.mce := rfl
@[simp] theorem Dev.setIface_links (k : Nat) (x : IfaceSt) : (s.setIface k x).links = s.links := rfl
@[simp] theorem Dev.setIface_ports (k : Nat) (x : IfaceSt) : (s.setIface k x).ports = s.ports := rfl
@[simp] theorem Dev.setIface_pcie (k : Nat) (x : IfaceSt) : (s.setIface k x).pcie = s.pcie := rfl
@[simp] theorem Dev.setIface_lgts (k : Nat) (x : IfaceSt) : (s.setIface k x).lgts = s.lgts := rfl
@[simp] theorem Dev.setIface_eth (k : Nat) (x : IfaceSt) : (s.setIface k x).eth = s.eth := rfl
@[simp] theorem Dev.setIface_pwr (k : Nat) (x : IfaceSt) : (s.setIface k x).pwr = s.pwr := rfl
@[simp] theorem Dev.setIface_thm (k : Nat) (x : IfaceSt) : (s.setIface k x).thm = s.thm := rfl
@[simp] theorem Dev.setIface_wear (k : Nat) (x : IfaceSt) : (s.setIface k x).wear = s.wear := rfl
@[simp] theorem Dev.setIface_psw (k : Nat) (x : IfaceSt) : (s.setIface k x).psw = s.psw := rfl
@[simp] theorem Dev.setIface_reg (k : Nat) (x : IfaceSt) (blk off : Nat) : (s.setIface k x).reg blk off = s.reg blk off := rfl
@[simp] theorem Dev.setIface_fld (k : Nat) (x : IfaceSt) (blk : Nat) (g : Fld) : (s.setIface k x).fld blk g = s.fld blk g := rfl
@[simp] theorem Dev.setIface_flag (k : Nat) (x : IfaceSt) (blk : Nat) (g : Fld) : (s.setIface k x).flag blk g = s.flag blk g := rfl

@[simp] theorem Dev.setArb_regs (k : Nat) (x : ArbSt) : (s.setArb k x).regs = s.regs := rfl
@[simp] theorem Dev.setArb_mem (k : Nat) (x : ArbSt) : (s.setArb k x).mem = s.mem := rfl
@[simp] theorem Dev.setArb_reply (k : Nat) (x : ArbSt) : (s.setArb k x).reply = s.reply := rfl
@[simp] theorem Dev.setArb_replyBytes (k : Nat) (x : ArbSt) : (s.setArb k x).replyBytes = s.replyBytes := rfl
@[simp] theorem Dev.setArb_free (k : Nat) (x : ArbSt) : (s.setArb k x).free = s.free := rfl
@[simp] theorem Dev.setArb_flipArmed (k : Nat) (x : ArbSt) : (s.setArb k x).flipArmed = s.flipArmed := rfl
@[simp] theorem Dev.setArb_part (k : Nat) (x : ArbSt) : (s.setArb k x).part = s.part := rfl
@[simp] theorem Dev.setArb_pins (k : Nat) (x : ArbSt) : (s.setArb k x).pins = s.pins := rfl
@[simp] theorem Dev.setArb_stack (k : Nat) (x : ArbSt) : (s.setArb k x).stack = s.stack := rfl
@[simp] theorem Dev.setArb_tide (k : Nat) (x : ArbSt) : (s.setArb k x).tide = s.tide := rfl
@[simp] theorem Dev.setArb_run (k : Nat) (x : ArbSt) : (s.setArb k x).run = s.run := rfl
@[simp] theorem Dev.setArb_wire (k : Nat) (x : ArbSt) : (s.setArb k x).wire = s.wire := rfl
@[simp] theorem Dev.setArb_clk (k : Nat) (x : ArbSt) : (s.setArb k x).clk = s.clk := rfl
@[simp] theorem Dev.setArb_sec (k : Nat) (x : ArbSt) : (s.setArb k x).sec = s.sec := rfl
@[simp] theorem Dev.setArb_log (k : Nat) (x : ArbSt) : (s.setArb k x).log = s.log := rfl
@[simp] theorem Dev.setArb_bist (k : Nat) (x : ArbSt) : (s.setArb k x).bist = s.bist := rfl
@[simp] theorem Dev.setArb_fab (k : Nat) (x : ArbSt) : (s.setArb k x).fab = s.fab := rfl
@[simp] theorem Dev.setArb_berths (k : Nat) (x : ArbSt) : (s.setArb k x).berths = s.berths := rfl
@[simp] theorem Dev.setArb_ergs (k : Nat) (x : ArbSt) : (s.setArb k x).ergs = s.ergs := rfl
@[simp] theorem Dev.setArb_cfg (k : Nat) (x : ArbSt) : (s.setArb k x).cfg = s.cfg := rfl
@[simp] theorem Dev.setArb_nv (k : Nat) (x : ArbSt) : (s.setArb k x).nv = s.nv := rfl
@[simp] theorem Dev.setArb_hold (k : Nat) (x : ArbSt) : (s.setArb k x).hold = s.hold := rfl
@[simp] theorem Dev.setArb_ext (k : Nat) (x : ArbSt) : (s.setArb k x).ext = s.ext := rfl
@[simp] theorem Dev.setArb_mce (k : Nat) (x : ArbSt) : (s.setArb k x).mce = s.mce := rfl
@[simp] theorem Dev.setArb_links (k : Nat) (x : ArbSt) : (s.setArb k x).links = s.links := rfl
@[simp] theorem Dev.setArb_ports (k : Nat) (x : ArbSt) : (s.setArb k x).ports = s.ports := rfl
@[simp] theorem Dev.setArb_pcie (k : Nat) (x : ArbSt) : (s.setArb k x).pcie = s.pcie := rfl
@[simp] theorem Dev.setArb_lgts (k : Nat) (x : ArbSt) : (s.setArb k x).lgts = s.lgts := rfl
@[simp] theorem Dev.setArb_eth (k : Nat) (x : ArbSt) : (s.setArb k x).eth = s.eth := rfl
@[simp] theorem Dev.setArb_pwr (k : Nat) (x : ArbSt) : (s.setArb k x).pwr = s.pwr := rfl
@[simp] theorem Dev.setArb_thm (k : Nat) (x : ArbSt) : (s.setArb k x).thm = s.thm := rfl
@[simp] theorem Dev.setArb_wear (k : Nat) (x : ArbSt) : (s.setArb k x).wear = s.wear := rfl
@[simp] theorem Dev.setArb_psw (k : Nat) (x : ArbSt) : (s.setArb k x).psw = s.psw := rfl
@[simp] theorem Dev.setArb_reg (k : Nat) (x : ArbSt) (blk off : Nat) : (s.setArb k x).reg blk off = s.reg blk off := rfl
@[simp] theorem Dev.setArb_fld (k : Nat) (x : ArbSt) (blk : Nat) (g : Fld) : (s.setArb k x).fld blk g = s.fld blk g := rfl
@[simp] theorem Dev.setArb_flag (k : Nat) (x : ArbSt) (blk : Nat) (g : Fld) : (s.setArb k x).flag blk g = s.flag blk g := rfl

@[simp] theorem Dev.setKey_regs (k : Nat) (x : KeySt) : (s.setKey k x).regs = s.regs := rfl
@[simp] theorem Dev.setKey_mem (k : Nat) (x : KeySt) : (s.setKey k x).mem = s.mem := rfl
@[simp] theorem Dev.setKey_reply (k : Nat) (x : KeySt) : (s.setKey k x).reply = s.reply := rfl
@[simp] theorem Dev.setKey_replyBytes (k : Nat) (x : KeySt) : (s.setKey k x).replyBytes = s.replyBytes := rfl
@[simp] theorem Dev.setKey_free (k : Nat) (x : KeySt) : (s.setKey k x).free = s.free := rfl
@[simp] theorem Dev.setKey_flipArmed (k : Nat) (x : KeySt) : (s.setKey k x).flipArmed = s.flipArmed := rfl
@[simp] theorem Dev.setKey_part (k : Nat) (x : KeySt) : (s.setKey k x).part = s.part := rfl
@[simp] theorem Dev.setKey_pins (k : Nat) (x : KeySt) : (s.setKey k x).pins = s.pins := rfl
@[simp] theorem Dev.setKey_stack (k : Nat) (x : KeySt) : (s.setKey k x).stack = s.stack := rfl
@[simp] theorem Dev.setKey_tide (k : Nat) (x : KeySt) : (s.setKey k x).tide = s.tide := rfl
@[simp] theorem Dev.setKey_run (k : Nat) (x : KeySt) : (s.setKey k x).run = s.run := rfl
@[simp] theorem Dev.setKey_wire (k : Nat) (x : KeySt) : (s.setKey k x).wire = s.wire := rfl
@[simp] theorem Dev.setKey_clk (k : Nat) (x : KeySt) : (s.setKey k x).clk = s.clk := rfl
@[simp] theorem Dev.setKey_sec (k : Nat) (x : KeySt) : (s.setKey k x).sec = s.sec := rfl
@[simp] theorem Dev.setKey_log (k : Nat) (x : KeySt) : (s.setKey k x).log = s.log := rfl
@[simp] theorem Dev.setKey_bist (k : Nat) (x : KeySt) : (s.setKey k x).bist = s.bist := rfl
@[simp] theorem Dev.setKey_fab (k : Nat) (x : KeySt) : (s.setKey k x).fab = s.fab := rfl
@[simp] theorem Dev.setKey_berths (k : Nat) (x : KeySt) : (s.setKey k x).berths = s.berths := rfl
@[simp] theorem Dev.setKey_ergs (k : Nat) (x : KeySt) : (s.setKey k x).ergs = s.ergs := rfl
@[simp] theorem Dev.setKey_cfg (k : Nat) (x : KeySt) : (s.setKey k x).cfg = s.cfg := rfl
@[simp] theorem Dev.setKey_nv (k : Nat) (x : KeySt) : (s.setKey k x).nv = s.nv := rfl
@[simp] theorem Dev.setKey_hold (k : Nat) (x : KeySt) : (s.setKey k x).hold = s.hold := rfl
@[simp] theorem Dev.setKey_net (k : Nat) (x : KeySt) : (s.setKey k x).net = s.net := rfl
@[simp] theorem Dev.setKey_ext (k : Nat) (x : KeySt) : (s.setKey k x).ext = s.ext := rfl
@[simp] theorem Dev.setKey_links (k : Nat) (x : KeySt) : (s.setKey k x).links = s.links := rfl
@[simp] theorem Dev.setKey_ports (k : Nat) (x : KeySt) : (s.setKey k x).ports = s.ports := rfl
@[simp] theorem Dev.setKey_pcie (k : Nat) (x : KeySt) : (s.setKey k x).pcie = s.pcie := rfl
@[simp] theorem Dev.setKey_lgts (k : Nat) (x : KeySt) : (s.setKey k x).lgts = s.lgts := rfl
@[simp] theorem Dev.setKey_eth (k : Nat) (x : KeySt) : (s.setKey k x).eth = s.eth := rfl
@[simp] theorem Dev.setKey_pwr (k : Nat) (x : KeySt) : (s.setKey k x).pwr = s.pwr := rfl
@[simp] theorem Dev.setKey_thm (k : Nat) (x : KeySt) : (s.setKey k x).thm = s.thm := rfl
@[simp] theorem Dev.setKey_wear (k : Nat) (x : KeySt) : (s.setKey k x).wear = s.wear := rfl
@[simp] theorem Dev.setKey_psw (k : Nat) (x : KeySt) : (s.setKey k x).psw = s.psw := rfl
@[simp] theorem Dev.setKey_reg (k : Nat) (x : KeySt) (blk off : Nat) : (s.setKey k x).reg blk off = s.reg blk off := rfl
@[simp] theorem Dev.setKey_fld (k : Nat) (x : KeySt) (blk : Nat) (g : Fld) : (s.setKey k x).fld blk g = s.fld blk g := rfl
@[simp] theorem Dev.setKey_flag (k : Nat) (x : KeySt) (blk : Nat) (g : Fld) : (s.setKey k x).flag blk g = s.flag blk g := rfl

@[simp] theorem Dev.setRange_regs (k : Nat) (x : RangeSt) : (s.setRange k x).regs = s.regs := rfl
@[simp] theorem Dev.setRange_mem (k : Nat) (x : RangeSt) : (s.setRange k x).mem = s.mem := rfl
@[simp] theorem Dev.setRange_reply (k : Nat) (x : RangeSt) : (s.setRange k x).reply = s.reply := rfl
@[simp] theorem Dev.setRange_replyBytes (k : Nat) (x : RangeSt) : (s.setRange k x).replyBytes = s.replyBytes := rfl
@[simp] theorem Dev.setRange_free (k : Nat) (x : RangeSt) : (s.setRange k x).free = s.free := rfl
@[simp] theorem Dev.setRange_flipArmed (k : Nat) (x : RangeSt) : (s.setRange k x).flipArmed = s.flipArmed := rfl
@[simp] theorem Dev.setRange_part (k : Nat) (x : RangeSt) : (s.setRange k x).part = s.part := rfl
@[simp] theorem Dev.setRange_pins (k : Nat) (x : RangeSt) : (s.setRange k x).pins = s.pins := rfl
@[simp] theorem Dev.setRange_stack (k : Nat) (x : RangeSt) : (s.setRange k x).stack = s.stack := rfl
@[simp] theorem Dev.setRange_tide (k : Nat) (x : RangeSt) : (s.setRange k x).tide = s.tide := rfl
@[simp] theorem Dev.setRange_run (k : Nat) (x : RangeSt) : (s.setRange k x).run = s.run := rfl
@[simp] theorem Dev.setRange_wire (k : Nat) (x : RangeSt) : (s.setRange k x).wire = s.wire := rfl
@[simp] theorem Dev.setRange_clk (k : Nat) (x : RangeSt) : (s.setRange k x).clk = s.clk := rfl
@[simp] theorem Dev.setRange_sec (k : Nat) (x : RangeSt) : (s.setRange k x).sec = s.sec := rfl
@[simp] theorem Dev.setRange_log (k : Nat) (x : RangeSt) : (s.setRange k x).log = s.log := rfl
@[simp] theorem Dev.setRange_bist (k : Nat) (x : RangeSt) : (s.setRange k x).bist = s.bist := rfl
@[simp] theorem Dev.setRange_fab (k : Nat) (x : RangeSt) : (s.setRange k x).fab = s.fab := rfl
@[simp] theorem Dev.setRange_berths (k : Nat) (x : RangeSt) : (s.setRange k x).berths = s.berths := rfl
@[simp] theorem Dev.setRange_ergs (k : Nat) (x : RangeSt) : (s.setRange k x).ergs = s.ergs := rfl
@[simp] theorem Dev.setRange_cfg (k : Nat) (x : RangeSt) : (s.setRange k x).cfg = s.cfg := rfl
@[simp] theorem Dev.setRange_nv (k : Nat) (x : RangeSt) : (s.setRange k x).nv = s.nv := rfl
@[simp] theorem Dev.setRange_hold (k : Nat) (x : RangeSt) : (s.setRange k x).hold = s.hold := rfl
@[simp] theorem Dev.setRange_net (k : Nat) (x : RangeSt) : (s.setRange k x).net = s.net := rfl
@[simp] theorem Dev.setRange_ext (k : Nat) (x : RangeSt) : (s.setRange k x).ext = s.ext := rfl
@[simp] theorem Dev.setRange_links (k : Nat) (x : RangeSt) : (s.setRange k x).links = s.links := rfl
@[simp] theorem Dev.setRange_ports (k : Nat) (x : RangeSt) : (s.setRange k x).ports = s.ports := rfl
@[simp] theorem Dev.setRange_pcie (k : Nat) (x : RangeSt) : (s.setRange k x).pcie = s.pcie := rfl
@[simp] theorem Dev.setRange_lgts (k : Nat) (x : RangeSt) : (s.setRange k x).lgts = s.lgts := rfl
@[simp] theorem Dev.setRange_eth (k : Nat) (x : RangeSt) : (s.setRange k x).eth = s.eth := rfl
@[simp] theorem Dev.setRange_pwr (k : Nat) (x : RangeSt) : (s.setRange k x).pwr = s.pwr := rfl
@[simp] theorem Dev.setRange_thm (k : Nat) (x : RangeSt) : (s.setRange k x).thm = s.thm := rfl
@[simp] theorem Dev.setRange_wear (k : Nat) (x : RangeSt) : (s.setRange k x).wear = s.wear := rfl
@[simp] theorem Dev.setRange_psw (k : Nat) (x : RangeSt) : (s.setRange k x).psw = s.psw := rfl
@[simp] theorem Dev.setRange_reg (k : Nat) (x : RangeSt) (blk off : Nat) : (s.setRange k x).reg blk off = s.reg blk off := rfl
@[simp] theorem Dev.setRange_fld (k : Nat) (x : RangeSt) (blk : Nat) (g : Fld) : (s.setRange k x).fld blk g = s.fld blk g := rfl
@[simp] theorem Dev.setRange_flag (k : Nat) (x : RangeSt) (blk : Nat) (g : Fld) : (s.setRange k x).flag blk g = s.flag blk g := rfl

@[simp] theorem Dev.setBundle_regs (k : Nat) (x : BundleSt) : (s.setBundle k x).regs = s.regs := rfl
@[simp] theorem Dev.setBundle_mem (k : Nat) (x : BundleSt) : (s.setBundle k x).mem = s.mem := rfl
@[simp] theorem Dev.setBundle_reply (k : Nat) (x : BundleSt) : (s.setBundle k x).reply = s.reply := rfl
@[simp] theorem Dev.setBundle_replyBytes (k : Nat) (x : BundleSt) : (s.setBundle k x).replyBytes = s.replyBytes := rfl
@[simp] theorem Dev.setBundle_free (k : Nat) (x : BundleSt) : (s.setBundle k x).free = s.free := rfl
@[simp] theorem Dev.setBundle_flipArmed (k : Nat) (x : BundleSt) : (s.setBundle k x).flipArmed = s.flipArmed := rfl
@[simp] theorem Dev.setBundle_part (k : Nat) (x : BundleSt) : (s.setBundle k x).part = s.part := rfl
@[simp] theorem Dev.setBundle_pins (k : Nat) (x : BundleSt) : (s.setBundle k x).pins = s.pins := rfl
@[simp] theorem Dev.setBundle_tide (k : Nat) (x : BundleSt) : (s.setBundle k x).tide = s.tide := rfl
@[simp] theorem Dev.setBundle_run (k : Nat) (x : BundleSt) : (s.setBundle k x).run = s.run := rfl
@[simp] theorem Dev.setBundle_wire (k : Nat) (x : BundleSt) : (s.setBundle k x).wire = s.wire := rfl
@[simp] theorem Dev.setBundle_clk (k : Nat) (x : BundleSt) : (s.setBundle k x).clk = s.clk := rfl
@[simp] theorem Dev.setBundle_sec (k : Nat) (x : BundleSt) : (s.setBundle k x).sec = s.sec := rfl
@[simp] theorem Dev.setBundle_log (k : Nat) (x : BundleSt) : (s.setBundle k x).log = s.log := rfl
@[simp] theorem Dev.setBundle_bist (k : Nat) (x : BundleSt) : (s.setBundle k x).bist = s.bist := rfl
@[simp] theorem Dev.setBundle_fab (k : Nat) (x : BundleSt) : (s.setBundle k x).fab = s.fab := rfl
@[simp] theorem Dev.setBundle_berths (k : Nat) (x : BundleSt) : (s.setBundle k x).berths = s.berths := rfl
@[simp] theorem Dev.setBundle_ergs (k : Nat) (x : BundleSt) : (s.setBundle k x).ergs = s.ergs := rfl
@[simp] theorem Dev.setBundle_cfg (k : Nat) (x : BundleSt) : (s.setBundle k x).cfg = s.cfg := rfl
@[simp] theorem Dev.setBundle_nv (k : Nat) (x : BundleSt) : (s.setBundle k x).nv = s.nv := rfl
@[simp] theorem Dev.setBundle_hold (k : Nat) (x : BundleSt) : (s.setBundle k x).hold = s.hold := rfl
@[simp] theorem Dev.setBundle_net (k : Nat) (x : BundleSt) : (s.setBundle k x).net = s.net := rfl
@[simp] theorem Dev.setBundle_ext (k : Nat) (x : BundleSt) : (s.setBundle k x).ext = s.ext := rfl
@[simp] theorem Dev.setBundle_mce (k : Nat) (x : BundleSt) : (s.setBundle k x).mce = s.mce := rfl
@[simp] theorem Dev.setBundle_links (k : Nat) (x : BundleSt) : (s.setBundle k x).links = s.links := rfl
@[simp] theorem Dev.setBundle_ports (k : Nat) (x : BundleSt) : (s.setBundle k x).ports = s.ports := rfl
@[simp] theorem Dev.setBundle_pcie (k : Nat) (x : BundleSt) : (s.setBundle k x).pcie = s.pcie := rfl
@[simp] theorem Dev.setBundle_lgts (k : Nat) (x : BundleSt) : (s.setBundle k x).lgts = s.lgts := rfl
@[simp] theorem Dev.setBundle_eth (k : Nat) (x : BundleSt) : (s.setBundle k x).eth = s.eth := rfl
@[simp] theorem Dev.setBundle_pwr (k : Nat) (x : BundleSt) : (s.setBundle k x).pwr = s.pwr := rfl
@[simp] theorem Dev.setBundle_thm (k : Nat) (x : BundleSt) : (s.setBundle k x).thm = s.thm := rfl
@[simp] theorem Dev.setBundle_wear (k : Nat) (x : BundleSt) : (s.setBundle k x).wear = s.wear := rfl
@[simp] theorem Dev.setBundle_psw (k : Nat) (x : BundleSt) : (s.setBundle k x).psw = s.psw := rfl
@[simp] theorem Dev.setBundle_reg (k : Nat) (x : BundleSt) (blk off : Nat) : (s.setBundle k x).reg blk off = s.reg blk off := rfl
@[simp] theorem Dev.setBundle_fld (k : Nat) (x : BundleSt) (blk : Nat) (g : Fld) : (s.setBundle k x).fld blk g = s.fld blk g := rfl
@[simp] theorem Dev.setBundle_flag (k : Nat) (x : BundleSt) (blk : Nat) (g : Fld) : (s.setBundle k x).flag blk g = s.flag blk g := rfl

end Sys2Proof.Machine
end

