-- ==== Sys2Proof/Laws/Registers.lean ====
section
/-! SUPPORT. Laws/Registers.lean: reading a register, a field, a flag after one has been stored, and that every store keeps the register
table in its canonical form. -/

namespace Sys2Proof.Machine

variable (s : Dev)

/-- Two places of the register window, each an offset within its block, are one only if block and offset agree. -/
theorem window_inj {b b' o o' : Nat} (ho : o < blockBytes) (ho' : o' < blockBytes)
    (h : blockBytes * b + o = blockBytes * b' + o') : b = b' ∧ o = o' := by
  unfold blockBytes at *; omega

/-- A register just stored reads as stored. -/
theorem Dev.reg_setReg (b o : Nat) (w : Word) : (s.setReg b o w).reg b o = w := by
  simp [Dev.reg, Dev.setReg, Map.get_set]

/-- Another register than the one stored. -/
theorem Dev.reg_setReg_ne (b o b' o' : Nat) (w : Word) (hne : blockBytes * b' + o' ≠ blockBytes * b + o) :
    (s.setReg b o w).reg b' o' = s.reg b' o' := by
  simp [Dev.reg, Dev.setReg, Map.get_set_ne _ _ _ _ _ hne]

theorem Dev.wf_setReg (b o : Nat) (w : Word) (h : Map.wf regReset s.regs = true) :
    Map.wf regReset (s.setReg b o w).regs = true := Map.wf_set _ _ _ _ h

theorem Dev.wf_setFld (b : Nat) (f : Fld) (v : Nat) (h : Map.wf regReset s.regs = true) :
    Map.wf regReset (s.setFld b f v).regs = true := Dev.wf_setReg _ _ _ _ h

/-- A field just stored reads as stored, cut to its width. -/
theorem Dev.fld_setFld (b : Nat) (f : Fld) (v : Nat) (hf : f.lo + f.w ≤ 32) :
    (s.setFld b f v).fld b f = v % 2 ^ f.w := by
  have hlt := putField_lt (s.reg b f.off).toNat f.lo f.w v 32 (s.reg b f.off).isLt hf
  rw [Dev.fld, Dev.setFld, Dev.reg_setReg, BitVec.toNat_ofNat, Nat.mod_eq_of_lt hlt, nfield_putField]

/-- Another field of the same register. -/
theorem Dev.fld_setFld_field (b : Nat) (f g : Fld) (v : Nat) (hf : f.lo + f.w ≤ 32)
    (ho : g.off = f.off) (hd : g.lo + g.w ≤ f.lo ∨ f.lo + f.w ≤ g.lo) :
    (s.setFld b f v).fld b g = s.fld b g := by
  have hlt := putField_lt (s.reg b f.off).toNat f.lo f.w v 32 (s.reg b f.off).isLt hf
  rw [Dev.fld, Dev.setFld, ho, Dev.reg_setReg, BitVec.toNat_ofNat, Nat.mod_eq_of_lt hlt, nfield_putField_ne _ _ _ _ _ _ hd,
    Dev.fld, ho]

/-- A field of another register. -/
theorem Dev.fld_setFld_ne (b b' : Nat) (f g : Fld) (v : Nat) (hne : blockBytes * b' + g.off ≠ blockBytes * b + f.off) :
    (s.setFld b f v).fld b' g = s.fld b' g := by
  rw [Dev.fld, Dev.setFld, Dev.reg_setReg_ne _ _ _ _ _ _ hne, Dev.fld]

theorem Dev.reg_setFld_ne (b b' : Nat) (f : Fld) (o v : Nat) (hne : blockBytes * b' + o ≠ blockBytes * b + f.off) :
    (s.setFld b f v).reg b' o = s.reg b' o := Dev.reg_setReg_ne _ _ _ _ _ _ hne

theorem Dev.fld_lt (b : Nat) (f : Fld) : s.fld b f < 2 ^ f.w := nfield_lt _ _ _

/-- The header registers stand in every block (R8). -/
theorem regFind_header (blk off : Nat) (hb : (blkKind blk).isSome) (d : RegDef)
    (hd : headerRegs.find? (fun d => d.covers off) = some d) : regFind blk off = some d := by
  obtain ⟨k, hk⟩ := Option.isSome_iff_exists.1 hb
  have h1 : headerRegs.find? (fun x => x.covers off && (!x.first || blk == k.base)) = headerRegs.find? (fun x => x.covers off) := by
    simp [headerRegs, List.find?]
  unfold regFind
  rw [hk]
  simp only [List.append_assoc, List.find?_append, h1, hd, Option.or]

theorem nfield_withField (w : Word) (lo n v : Nat) (h : lo + n ≤ 32) : nfield (withField w lo n v).toNat lo n = v % 2 ^ n := by
  have hlt := putField_lt w.toNat lo n v 32 w.isLt h
  show nfield (BitVec.ofNat 32 (putField w.toNat lo n v)).toNat lo n = _
  rw [BitVec.toNat_ofNat, Nat.mod_eq_of_lt hlt, nfield_putField]

theorem nfield_withField_ne (w : Word) (lo n v lo' n' : Nat) (h : lo + n ≤ 32) (hd : lo' + n' ≤ lo ∨ lo + n ≤ lo') :
    nfield (withField w lo n v).toNat lo' n' = nfield w.toNat lo' n' := by
  have hlt := putField_lt w.toNat lo n v 32 w.isLt h
  show nfield (BitVec.ofNat 32 (putField w.toNat lo n v)).toNat lo' n' = _
  rw [BitVec.toNat_ofNat, Nat.mod_eq_of_lt hlt, nfield_putField_ne _ _ _ _ _ _ hd]

theorem nbit_withField_ne (w : Word) (lo n v i : Nat) (h : lo + n ≤ 32) (hd : i < lo ∨ lo + n ≤ i) :
    nbit (withField w lo n v).toNat i = nbit w.toNat i := by
  have := nfield_withField_ne w lo n v i 1 h (by omega)
  simp only [nfield, pow_one] at this
  simp [nbit, this]

theorem nbit_withField (w : Word) (lo v : Nat) (h : lo + 1 ≤ 32) : nbit (withField w lo 1 v).toNat lo = (v % 2 == 1) := by
  have := nfield_withField w lo 1 v h
  simp only [nfield, pow_one] at this
  simp [nbit, this]

end Sys2Proof.Machine
end

