-- ==== Sys2Proof/Laws/Access.lean ====
section
/-! SUPPORT. Laws/Access.lean: what an access to the register window comes to, once it is known what the mode, the gates and the rights
make of it; and what a guarded event comes to where nothing stands in its way. -/

namespace Sys2Proof.Machine

variable (s : Dev)

theorem window_blk (b o : Nat) (h : o < blockBytes) : (blockBytes * b + o) / blockBytes = b := by unfold blockBytes at *; omega
theorem window_off (b o : Nat) (h : o < blockBytes) : (blockBytes * b + o) % blockBytes = o := by unfold blockBytes at *; omega

/-- A register command that is carried out: the register's write, and the answer OK. -/
theorem Dev.command_open (r : RegSrc) (b o : Nat) (w : Word) (ho : o < blockBytes) (hg : s.gateOf r.src b o true = .open_)
    (hd : s.writeDenied r.src b o w = false) :
    s.command r b o w = { s.writeReg r.src b o w with reply := some ⟨.ok, 0⟩ } := by
  simp [Dev.command, Dev.accessWrite, Dev.busWrite, window_blk _ _ ho, window_off _ _ ho, hg, hd]

/-- A register command without the right to it: DENIED, and no effect. -/
theorem Dev.command_denied (r : RegSrc) (b o : Nat) (w : Word) (ho : o < blockBytes) (hg : s.gateOf r.src b o true = .open_)
    (hd : s.writeDenied r.src b o w = true) : s.command r b o w = { s with reply := some ⟨.denied, 0⟩ } := by
  simp [Dev.command, Dev.accessWrite, Dev.busWrite, window_blk _ _ ho, window_off _ _ ho, hg, hd]

/-- A register command in a mode that refuses it: DENIED where the sender has not the right to it either, else STATE, and no effect. -/
theorem Dev.command_refused (r : RegSrc) (b o : Nat) (w : Word) (ho : o < blockBytes) (hg : s.gateOf r.src b o true = .refused) :
    s.command r b o w = { s with reply := some ⟨if s.writeDenied r.src b o w then .denied else .state, 0⟩ } := by
  cases hd : s.writeDenied r.src b o w <;>
    simp [Dev.command, Dev.accessWrite, Dev.busWrite, window_blk _ _ ho, window_off _ _ ho, hg, hd]

/-- A register command in a mode in which nothing answers. -/
theorem Dev.command_silent (r : RegSrc) (b o : Nat) (w : Word) (ho : o < blockBytes) (hg : s.gateOf r.src b o true = .silent) :
    s.command r b o w = { s with reply := none } := by
  simp [Dev.command, Dev.accessWrite, Dev.busWrite, window_blk _ _ ho, window_off _ _ ho, hg]

/-- A register read that is carried out. -/
theorem Dev.readCommand_open (r : RegSrc) (peek : Bool) (b o : Nat) (ho : o < blockBytes) (hg : s.gateOf r.src b o false = .open_)
    (hd : s.readDenied r.src b o = false) :
    s.readCommand r peek b o = { (s.readReg r.src b o (r.peeks peek)).2 with
      reply := some ⟨.ok, (s.readReg r.src b o (r.peeks peek)).1⟩ } := by
  simp [Dev.readCommand, Dev.accessRead, Dev.busRead, window_blk _ _ ho, window_off _ _ ho, hg, hd]

/-! What keeps an event from happening does not stand in its way. -/

/-- Outside Quarantine a function runs. -/
theorem Dev.live_open (f : Dev → Dev) (h : s.mode ≠ .quarantine) : s.live f = f s := if_neg h

/-- A clock that no APPLY relocks runs. -/
theorem Dev.clocked_open (d : Nat) (f : Dev → Dev) (hc : ¬ d ∈ s.clk.applying) (h : s.mode ≠ .quarantine) : s.clocked d f = f s := by
  rw [Dev.clocked, if_neg (by simpa using hc), s.live_open f h]

/-- A row command of a sink outside dry-dock slots. -/
theorem Dev.hlSink_open (e : Nat) (f : Dev → Dev) (hd : s.inDock e = none) (hc : ¬ 0 ∈ s.clk.applying) (h : s.mode ≠ .quarantine) :
    s.hlSink e f = f s := by simp [Dev.hlSink, hd, s.clocked_open 0 f hc h]

/-- A word port whose row is under no test. -/
theorem Dev.wordPort_open (b : Nat) (f : Dev → Dev) (ht : s.rowUnderTest b = false) (hc : ¬ 1 ∈ s.clk.applying) (h : s.mode ≠ .quarantine) :
    s.wordPort b f = f s := by simp [Dev.wordPort, ht, s.clocked_open 1 f hc h]

/-- A block that nothing stops. -/
theorem Dev.unlessStopped_open (b : Nat) (f : Dev → Dev) (hg : s.gated b = false) (hh : s.halted b = false) (h : s.mode ≠ .quarantine) :
    s.unlessStopped b f = f s := by simp [Dev.unlessStopped, hg, hh, s.live_open f h]

end Sys2Proof.Machine
end

