-- ==== Sys2Proof/Laws/Exec.lean ====
section
/-! SUPPORT. Laws/Exec.lean: each command is a change of the device followed by the settling of the outputs: which change, command by
command; and that every command is one. -/

namespace Sys2Proof.Machine

theorem exec_registerWrite (src : RegSrc) (addr : BitVec 22) (data : Word) (m : State) :
    exec (.registerWrite src addr data) m = run (fun s => s.accessWrite src.src (regOffset addr) data) m := rfl
theorem exec_narrowAccess (src : RegSrc) (addr : BitVec 24) (size : Fin 9) (m : State) :
    exec (.narrowAccess src addr size) m = run (fun s => s.narrowAccess) m := rfl
theorem exec_lock (src : RegSrc) (blk : BitVec 8) (data : Word) (m : State) :
    exec (.lock src blk data) m = run (fun s => s.command src blk.toNat O.BLK_CTRL (withField data 31 1 1)) m := rfl
theorem exec_refuseClr (src : RegSrc) (blk : BitVec 8) (data : Word) (m : State) :
    exec (.refuseClr src blk data) m = run (fun s => s.command src blk.toNat O.BLK_CTRL (withField data 1 1 1)) m := rfl
theorem exec_evtForce (src : RegSrc) (blk : BitVec 8) (data : Word) (m : State) :
    exec (.evtForce src blk data) m = run (fun s => s.command src blk.toNat O.EVT_FORCE data) m := rfl
theorem exec_eccFlipArm (src : RegSrc) (blk : BitVec 8) (data : Word) (m : State) :
    exec (.eccFlipArm src blk data) m = run (fun s => s.command src blk.toNat O.ECC_FLIP_LO data) m := rfl
theorem exec_bucketLeak (blk : BitVec 8) (m : State) :
    exec (.bucketLeak blk) m = run (fun s => s.bucketLeak blk.toNat) m := rfl
theorem exec_fabricTick (m : State) :
    exec (.fabricTick) m = run (fun s => s.clocked 0 Dev.fabricTick) m := rfl
theorem exec_sentinelFail (bundle : BitVec 26) (m : State) :
    exec (.sentinelFail bundle) m = run (fun s => s.live (fun s => s.sentinelFail bundle.toNat)) m := rfl
theorem exec_tideTurn (m : State) :
    exec (.tideTurn) m = run (fun s => s.clocked 0 Dev.tideTurn) m := rfl
theorem exec_tideCtrlStart (src : RegSrc) (data : Word) (m : State) :
    exec (.tideCtrlStart src data) m = run (fun s => s.command src B.TIDE O.TIDE_CTRL (withField data 0 2 1)) m := rfl
theorem exec_tideCtrlStop (src : RegSrc) (data : Word) (m : State) :
    exec (.tideCtrlStop src data) m = run (fun s => s.command src B.TIDE O.TIDE_CTRL (withField data 0 2 2)) m := rfl
theorem exec_breachClr (src : RegSrc) (data : Word) (m : State) :
    exec (.breachClr src data) m = run (fun s => s.command src B.TIDE O.TIDE_CTRL (withField data 2 1 1)) m := rfl
theorem exec_tideStart (m : State) :
    exec (.tideStart) m = run (fun s => s.clocked 0 Dev.tideStart) m := rfl
theorem exec_xingRelease (queue : Fin 34320) (arrival : Nat) (m : State) :
    exec (.xingRelease queue arrival) m = run (fun s => s.live (fun s => s.xingRelease queue.val arrival)) m := rfl
theorem exec_schedIssueTick (decl : BitVec 13) (m : State) :
    exec (.schedIssueTick decl) m = run (fun s => s.live (fun s => s.schedIssueTick decl.toNat)) m := rfl
theorem exec_schedComplete (decl : BitVec 13) (issueTide : Nat) (status : Status) (data : List Byte) (m : State) :
    exec (.schedComplete decl issueTide status data) m = run (fun s => s.live (fun s => s.schedComplete decl.toNat issueTide status data)) m := rfl
theorem exec_tideNumLoRead (src : RegSrc) (peek : Bool) (m : State) :
    exec (.tideNumLoRead src peek) m = run (fun s => s.readCommand src peek B.TIDE O.TIDE_NUM_LO) m := rfl
theorem exec_turnTimeLoRead (src : RegSrc) (peek : Bool) (m : State) :
    exec (.turnTimeLoRead src peek) m = run (fun s => s.readCommand src peek B.TIDE O.TURN_TIME_LO) m := rfl
theorem exec_tideSkewRead (src : RegSrc) (peek : Bool) (m : State) :
    exec (.tideSkewRead src peek) m = run (fun s => s.readCommand src peek B.TIDE O.TIDE_SKEW) m := rfl
theorem exec_admBoundSel (src : RegSrc) (data : Word) (m : State) :
    exec (.admBoundSel src data) m = run (fun s => s.command src B.ADM O.ADM_BOUND_SEL data) m := rfl
theorem exec_admission (m : State) :
    exec (.admission) m = run (fun s => s.live (fun s => s.admission)) m := rfl
theorem exec_berthRead (b : Fin 512) (msg : BMsg) (m : State) :
    exec (.berthRead b msg) m = run (fun s => s.live (fun s => s.berthRead b.val msg)) m := rfl
theorem exec_berthWrite (b : Fin 512) (msg : BMsg) (m : State) :
    exec (.berthWrite b msg) m = run (fun s => s.live (fun s => s.berthWrite b.val msg)) m := rfl
theorem exec_berthSched (b : Fin 512) (msg : BMsg) (m : State) :
    exec (.berthSched b msg) m = run (fun s => s.live (fun s => s.berthSched b.val msg)) m := rfl
theorem exec_berthResponse (b : Fin 512) (msg : BMsg) (m : State) :
    exec (.berthResponse b msg) m = run (fun s => s.live (fun s => s.berthResponse b.val msg)) m := rfl
theorem exec_berthAcquire (b : Fin 512) (msg : BMsg) (m : State) :
    exec (.berthAcquire b msg) m = run (fun s => s.live (fun s => s.berthAcquire b.val msg)) m := rfl
theorem exec_berthRelinquish (b : Fin 512) (msg : BMsg) (m : State) :
    exec (.berthRelinquish b msg) m = run (fun s => s.live (fun s => s.berthRelinquish b.val msg)) m := rfl
theorem exec_releaseRead (b : Fin 512) (beat : BitVec 11) (m : State) :
    exec (.releaseRead b beat) m = run (fun s => s.live (fun s => s.releaseRead b.val beat.toNat)) m := rfl
theorem exec_releaseReadReturn (b : Fin 512) (m : State) :
    exec (.releaseReadReturn b) m = run (fun s => s.live (fun s => s.releaseReadReturn b.val)) m := rfl
theorem exec_servedRequestPresent (b : Fin 512) (m : State) :
    exec (.servedRequestPresent b) m = run (fun s => s.live (fun s => s.servedPresent b.val)) m := rfl
theorem exec_lateDeliveryPresent (b : Fin 512) (m : State) :
    exec (.lateDeliveryPresent b) m = run (fun s => s.live (fun s => s.latePresent b.val)) m := rfl
theorem exec_notePresent (b : Fin 512) (m : State) :
    exec (.notePresent b) m = run (fun s => s.live (fun s => s.notePresent b.val)) m := rfl
theorem exec_ergNotePost (src : RegSrc) (e : Fin 32) (data : Word) (m : State) :
    exec (.ergNotePost src e data) m = run (fun s => s.command src (B.ERG e.val) O.ERG_NOTE_POST (withField data 4 1 1)) m := rfl
theorem exec_hoist (e : Fin 32) (dune : Fin 256) (reg : Fin 2) (row : Fin 512) (m : State) :
    exec (.hoist e dune reg row) m = run (fun s => s.hlSink e.val (fun s => s.rowCommand false e.val dune.val reg.val row.val)) m := rfl
theorem exec_lower (e : Fin 32) (dune : Fin 256) (reg : Fin 2) (row : Fin 512) (m : State) :
    exec (.lower e dune reg row) m = run (fun s => s.hlSink e.val (fun s => s.rowCommand true e.val dune.val reg.val row.val)) m := rfl
theorem exec_rowCycle (bank : Fin 8192) (m : State) :
    exec (.rowCycle bank) m = run (fun s => s.clocked 1 (fun s => s.rowCycle bank.val)) m := rfl
theorem exec_hoistLand (bank : Fin 8192) (m : State) :
    exec (.hoistLand bank) m = run (fun s => s.clocked 0 (fun s => s.hoistLand bank.val)) m := rfl
theorem exec_wordPortRead (bank : Fin 8192) (m : State) :
    exec (.wordPortRead bank) m = run (fun s => s.wordPort bank.val (fun s => s.wordPortRead bank.val)) m := rfl
theorem exec_wordPortWrite (bank : Fin 8192) (m : State) :
    exec (.wordPortWrite bank) m = run (fun s => s.wordPort bank.val (fun s => s.wordPortWrite bank.val)) m := rfl
theorem exec_partialWrite (bank : Fin 8192) (m : State) :
    exec (.partialWrite bank) m = run (fun s => s.wordPort bank.val (fun s => s.partialWrite bank.val)) m := rfl
theorem exec_remapRead (src : RegSrc) (k : Fin 8) (data : Word) (m : State) :
    exec (.remapRead src k data) m = run (fun s => s.command src (B.HOLD k.val) O.HOLD_REMAP_CMD (withField data 0 2 1)) m := rfl
theorem exec_remapAdd (src : RegSrc) (k : Fin 8) (data : Word) (m : State) :
    exec (.remapAdd src k data) m = run (fun s => s.command src (B.HOLD k.val) O.HOLD_REMAP_CMD (withField data 0 2 2)) m := rfl
theorem exec_remapMigration (k : Fin 8) (m : State) :
    exec (.remapMigration k) m = run (fun s => s.clocked 1 (fun s => s.remapMigration k.val)) m := rfl
theorem exec_remapAddTimeout (k : Fin 8) (m : State) :
    exec (.remapAddTimeout k) m = run (fun s => s.live (fun s => s.remapAddTimeout k.val)) m := rfl
theorem exec_bankRetentionEntry (e : Fin 32) (m : State) :
    exec (.bankRetentionEntry e) m = run (fun s => s.live (fun s => s.bankRetention e.val)) m := rfl
theorem exec_bankWake (bank : Fin 8192) (m : State) :
    exec (.bankWake bank) m = run (fun s => s.live (fun s => s.bankWake bank.val)) m := rfl
theorem exec_bondSet (src : RegSrc) (data : Word) (m : State) :
    exec (.bondSet src data) m = run (fun s => s.command src (B.HOLD 0) O.HOLD_BOND_CMD (withField data 0 2 1)) m := rfl
theorem exec_bondWipe (src : RegSrc) (data : Word) (m : State) :
    exec (.bondWipe src data) m = run (fun s => s.command src (B.HOLD 0) O.HOLD_BOND_CMD (withField data 0 2 2)) m := rfl
theorem exec_bondWiped (m : State) :
    exec (.bondWiped) m = run (fun s => s.clocked 1 Dev.bondWiped) m := rfl
theorem exec_marchDestructive (src : RegSrc) (data : Word) (m : State) :
    exec (.marchDestructive src data) m = run (fun s => s.command src B.BIST O.MARCH_CMD (withField data 0 2 1)) m := rfl
theorem exec_marchPreserving (src : RegSrc) (data : Word) (m : State) :
    exec (.marchPreserving src data) m = run (fun s => s.command src B.BIST O.MARCH_CMD (withField data 0 2 2)) m := rfl
theorem exec_marchAbort (src : RegSrc) (data : Word) (m : State) :
    exec (.marchAbort src data) m = run (fun s => s.command src B.BIST O.MARCH_CMD (withField data 0 2 3)) m := rfl
theorem exec_marchDone (fails : List MarchFail) (touched : Nat) (m : State) :
    exec (.marchDone fails touched) m = run (fun s => s.unlessStopped B.BIST (fun s => s.marchDone fails touched)) m := rfl
theorem exec_scrbStart (src : RegSrc) (data : Word) (m : State) :
    exec (.scrbStart src data) m = run (fun s => s.command src B.SCRB O.SCRB_CMD (withField data 0 2 1)) m := rfl
theorem exec_scrbAbort (src : RegSrc) (data : Word) (m : State) :
    exec (.scrbAbort src data) m = run (fun s => s.command src B.SCRB O.SCRB_CMD (withField data 0 2 2)) m := rfl
theorem exec_scrubRow (place : ScrubPlace) (m : State) :
    exec (.scrubRow place) m = run (fun s => s.scrubTurn place.idle place.quadrant.val) m := rfl
theorem exec_scrubDone (m : State) :
    exec (.scrubDone) m = run (fun s => s.live (fun s => s.scrubDone)) m := rfl
theorem exec_scrubLap (us : Nat) (m : State) :
    exec (.scrubLap us) m = run (fun s => s.live (fun s => s.scrubLap us)) m := rfl
theorem exec_holdXferMaxRead (src : RegSrc) (peek : Bool) (m : State) :
    exec (.holdXferMaxRead src peek) m = run (fun s => s.readCommand src peek (B.HOLD 0) O.HOLD_XFER_MAX) m := rfl
theorem exec_routerHop (router : Fin 72) (output : Fin 6) (errs : List (Fin 4 × BitVec 72)) (m : State) :
    exec (.routerHop router output errs) m = run (fun s => s.clocked 2 (fun s => s.routerHop router.val output.val (errs.map (fun x => (x.1.val, x.2))))) m := rfl
theorem exec_netRead (msg : Msg) (m : State) :
    exec (.netRead msg) m = run (fun s => s.netRead msg) m := rfl
theorem exec_netWrite (msg : Msg) (m : State) :
    exec (.netWrite msg) m = run (fun s => s.netWrite msg) m := rfl
theorem exec_netResponse (msg : Msg) (m : State) :
    exec (.netResponse msg) m = run (fun s => s.netResponse msg) m := rfl
theorem exec_netAcquire (msg : Msg) (m : State) :
    exec (.netAcquire msg) m = run (fun s => s.netAcquire msg) m := rfl
theorem exec_netRelinquish (msg : Msg) (m : State) :
    exec (.netRelinquish msg) m = run (fun s => s.netRelinquish msg) m := rfl
theorem exec_netMread (msg : Msg) (m : State) :
    exec (.netMread msg) m = run (fun s => s.netMread msg) m := rfl
theorem exec_netMwrite (msg : Msg) (m : State) :
    exec (.netMwrite msg) m = run (fun s => s.netMwrite msg) m := rfl
theorem exec_initiatorTimeout (who : Src) (tag : BitVec 9) (m : State) :
    exec (.initiatorTimeout who tag) m = run (fun s => s.initiatorTimeout who tag.toNat) m := rfl
theorem exec_leaseExp (table : Fin 40) (line : Nat) (m : State) :
    exec (.leaseExp table line) m = run (fun s => s.live (fun s => s.leaseExp table.val line)) m := rfl
theorem exec_arbiterGrant (arb : Fin 8200) (m : State) :
    exec (.arbiterGrant arb) m = run (fun s => s.arbTurn arb.val) m := rfl
theorem exec_arbiterWindow (arb : Fin 8200) (m : State) :
    exec (.arbiterWindow arb) m = run (fun s => s.clocked 2 (fun s => s.arbiterWindow arb.val)) m := rfl
theorem exec_arbCut (arb : Fin 8200) (m : State) :
    exec (.arbCut arb) m = run (fun s => s.clocked 2 (fun s => s.arbCut arb.val)) m := rfl
theorem exec_hnSchMaxwaitRead (src : RegSrc) (peek : Bool) (m : State) :
    exec (.hnSchMaxwaitRead src peek) m = run (fun s => s.readCommand src peek B.HN O.HN_SCH_MAXWAIT) m := rfl
theorem exec_dmcStart (src : RegSrc) (k : Fin 8) (data : Word) (m : State) :
    exec (.dmcStart src k data) m = run (fun s => s.command src (B.DMC k.val) O.DMC_CMD (withField data 0 3 1)) m := rfl
theorem exec_dmcGo (src : RegSrc) (k : Fin 8) (data : Word) (m : State) :
    exec (.dmcGo src k data) m = run (fun s => s.command src (B.DMC k.val) O.DMC_CMD (withField data 0 3 2)) m := rfl
theorem exec_dmcMaint (src : RegSrc) (k : Fin 8) (data : Word) (m : State) :
    exec (.dmcMaint src k data) m = run (fun s => s.command src (B.DMC k.val) O.DMC_CMD (withField data 0 3 3)) m := rfl
theorem exec_dmcEnd (src : RegSrc) (k : Fin 8) (data : Word) (m : State) :
    exec (.dmcEnd src k data) m = run (fun s => s.command src (B.DMC k.val) O.DMC_CMD (withField data 0 3 4)) m := rfl
theorem exec_wrFifo (src : RegSrc) (k : Fin 8) (data : Word) (m : State) :
    exec (.wrFifo src k data) m = run (fun s => s.command src (B.DMC k.val) O.DMC_TRAIN_CMD (withField data 0 2 1)) m := rfl
theorem exec_rdFifo (src : RegSrc) (k : Fin 8) (data : Word) (m : State) :
    exec (.rdFifo src k data) m = run (fun s => s.command src (B.DMC k.val) O.DMC_TRAIN_CMD (withField data 0 2 2)) m := rfl
theorem exec_caLoop (src : RegSrc) (k : Fin 8) (data : Word) (m : State) :
    exec (.caLoop src k data) m = run (fun s => s.command src (B.DMC k.val) O.DMC_TRAIN_CMD (withField data 0 2 3)) m := rfl
theorem exec_trainDone (k : Fin 8) (errs : List (Fin 56 × BitVec 16)) (m : State) :
    exec (.trainDone k errs) m = run (fun s => s.clocked 3 (fun s => s.trainDone k.val (errs.map (fun x => (x.1.val, x.2.toNat))))) m := rfl
theorem exec_dmcMrw (src : RegSrc) (k : Fin 8) (data : Word) (m : State) :
    exec (.dmcMrw src k data) m = run (fun s => s.command src (B.DMC k.val) O.DMC_MRW (withField data 31 1 1)) m := rfl
theorem exec_mapApply (src : RegSrc) (data : Word) (m : State) :
    exec (.mapApply src data) m = run (fun s => s.command src (B.DMC 0) O.DMC_MAP_CMD (withField data 0 1 1)) m := rfl
theorem exec_dmcLaneSel (src : RegSrc) (k : Fin 8) (data : Word) (m : State) :
    exec (.dmcLaneSel src k data) m = run (fun s => s.command src (B.DMC k.val) O.DMC_LANE_SEL data) m := rfl
theorem exec_refresh (k : Fin 8) (ch : Fin 4) (m : State) :
    exec (.refresh k ch) m = run (fun s => s.clocked 3 (fun s => s.refresh k.val ch.val)) m := rfl
theorem exec_dmcAccess (k : Fin 8) (bank : Fin 64) (found : AccessFound) (m : State) :
    exec (.dmcAccess k bank found) m = run (fun s => s.clocked 3 (fun s => s.dmcAccess k.val bank.val found)) m := rfl
theorem exec_writeCrcReport (place : ReportPlace) (m : State) :
    exec (.writeCrcReport place) m = run (fun s => s.clocked 3 (fun s => s.writeCrcReport place.dmc.val place.line.val)) m := rfl
theorem exec_caErr (k : Fin 8) (recent : Nat) (m : State) :
    exec (.caErr k recent) m = run (fun s => s.clocked 3 (fun s => s.caErr k.val recent)) m := rfl
theorem exec_rangeEnable (src : RegSrc) (data : Word) (m : State) :
    exec (.rangeEnable src data) m = run (fun s => s.command src B.MCE O.MCE_RANGE_CMD (withField data 0 3 1)) m := rfl
theorem exec_rangeDisable (src : RegSrc) (data : Word) (m : State) :
    exec (.rangeDisable src data) m = run (fun s => s.command src B.MCE O.MCE_RANGE_CMD (withField data 0 3 2)) m := rfl
theorem exec_rekey (src : RegSrc) (data : Word) (m : State) :
    exec (.rekey src data) m = run (fun s => s.command src B.MCE O.MCE_RANGE_CMD (withField data 0 3 3)) m := rfl
theorem exec_rekeyAbort (src : RegSrc) (data : Word) (m : State) :
    exec (.rekeyAbort src data) m = run (fun s => s.command src B.MCE O.MCE_RANGE_CMD (withField data 0 3 4)) m := rfl
theorem exec_initDone (range : Fin 16) (m : State) :
    exec (.initDone range) m = run (fun s => s.clocked 3 (fun s => s.initDone range.val)) m := rfl
theorem exec_keyGen (src : RegSrc) (data : Word) (m : State) :
    exec (.keyGen src data) m = run (fun s => s.command src B.MCE O.MCE_KEY_CMD (withField data 0 3 1)) m := rfl
theorem exec_keyUnwrap (src : RegSrc) (data : Word) (m : State) :
    exec (.keyUnwrap src data) m = run (fun s => s.command src B.MCE O.MCE_KEY_CMD (withField data 0 3 2)) m := rfl
theorem exec_keyRetire (src : RegSrc) (data : Word) (m : State) :
    exec (.keyRetire src data) m = run (fun s => s.command src B.MCE O.MCE_KEY_CMD (withField data 0 3 3)) m := rfl
theorem exec_keyZeroise (src : RegSrc) (data : Word) (m : State) :
    exec (.keyZeroise src data) m = run (fun s => s.command src B.MCE O.MCE_KEY_CMD (withField data 0 3 4)) m := rfl
theorem exec_metaFetch (range : Fin 16) (page : Nat) (found : List MetaFound) (m : State) :
    exec (.metaFetch range page found) m = run (fun s => s.clocked 3 (fun s => s.metaFetch range.val page found)) m := rfl
theorem exec_pageReencrypt (engine : Fin 4) (m : State) :
    exec (.pageReencrypt engine) m = run (fun s => s.clocked 3 (fun s => s.pageReencrypt engine.val)) m := rfl
theorem exec_rekeyUnit (m : State) :
    exec (.rekeyUnit) m = run (fun s => s.clocked 3 Dev.rekeyUnit) m := rfl
theorem exec_walkDone (m : State) :
    exec (.walkDone) m = run (fun s => s.clocked 3 Dev.walkDone) m := rfl
theorem exec_linkEnable (src : RegSrc) (n : Fin 16) (data : Word) (m : State) :
    exec (.linkEnable src n data) m = run (fun s => s.command src (B.CW n.val) O.CW_CTRL data) m := rfl
theorem exec_retrain (src : RegSrc) (n : Fin 16) (data : Word) (m : State) :
    exec (.retrain src n data) m = run (fun s => s.command src (B.CW n.val) O.CW_CTRL (withField data 1 1 1)) m := rfl
theorem exec_keySwitch (src : RegSrc) (n : Fin 16) (data : Word) (m : State) :
    exec (.keySwitch src n data) m = run (fun s => s.command src (B.CW n.val) O.CW_CTRL (withField data 2 1 1)) m := rfl
theorem exec_ts1Row (n : Fin 16) (blocks : List DWord) (skew : Nat) (polarity : BitVec 8) (m : State) :
    exec (.ts1Row n blocks skew polarity) m = run (fun s => s.ts1Row n.val blocks skew polarity.toNat) m := rfl
theorem exec_ts2Row (n : Fin 16) (block : DWord) (m : State) :
    exec (.ts2Row n block) m = run (fun s => s.ts2Row n.val block) m := rfl
theorem exec_sofRow (n : Fin 16) (m : State) :
    exec (.sofRow n) m = run (fun s => s.sofRow n.val) m := rfl
theorem exec_trainFail (n : Fin 16) (m : State) :
    exec (.trainFail n) m = run (fun s => s.trainFail n.val) m := rfl
theorem exec_frameSend (n : Fin 16) (m : State) :
    exec (.frameSend n) m = run (fun s => s.frameSend n.val) m := rfl
theorem exec_frameReceive (n : Fin 16) (blocks : List DWord) (badHeaders : List (Nat × Nat)) (m : State) :
    exec (.frameReceive n blocks badHeaders) m = run (fun s => s.frameReceive n.val blocks badHeaders) m := rfl
theorem exec_relockTimeout (n : Fin 16) (m : State) :
    exec (.relockTimeout n) m = run (fun s => s.relockTimeout n.val) m := rfl
theorem exec_svcBreach (n : Fin 16) (payload : BitVec 56) (m : State) :
    exec (.svcBreach n payload) m = run (fun s => s.svcReceive n.val 1 payload.toNat) m := rfl
theorem exec_svcHalt (n : Fin 16) (payload : BitVec 56) (m : State) :
    exec (.svcHalt n payload) m = run (fun s => s.svcReceive n.val 2 payload.toNat) m := rfl
theorem exec_svcResume (n : Fin 16) (payload : BitVec 56) (m : State) :
    exec (.svcResume n payload) m = run (fun s => s.svcReceive n.val 3 payload.toNat) m := rfl
theorem exec_startA (n : Fin 16) (payload : BitVec 56) (m : State) :
    exec (.startA n payload) m = run (fun s => s.svcReceive n.val 4 payload.toNat) m := rfl
theorem exec_startB (n : Fin 16) (payload : BitVec 56) (m : State) :
    exec (.startB n payload) m = run (fun s => s.svcReceive n.val 5 payload.toNat) m := rfl
theorem exec_svcTurn (n : Fin 16) (payload : BitVec 56) (m : State) :
    exec (.svcTurn n payload) m = run (fun s => s.svcReceive n.val 6 payload.toNat) m := rfl
theorem exec_sync (n : Fin 16) (payload : BitVec 56) (m : State) :
    exec (.sync n payload) m = run (fun s => s.svcReceive n.val 7 payload.toNat) m := rfl
theorem exec_syncRx (n : Fin 16) (payload : BitVec 56) (m : State) :
    exec (.syncRx n payload) m = run (fun s => s.svcReceive n.val 8 payload.toNat) m := rfl
theorem exec_epoch (n : Fin 16) (payload : BitVec 56) (m : State) :
    exec (.epoch n payload) m = run (fun s => s.svcReceive n.val 9 payload.toNat) m := rfl
theorem exec_jettyFrameReceive (p : Fin 256) (got : JRecv) (m : State) :
    exec (.jettyFrameReceive p got) m = run (fun s => s.live (fun s => s.jettyReceive p.val got)) m := rfl
theorem exec_syncLost (p : Fin 256) (m : State) :
    exec (.syncLost p) m = run (fun s => s.live (fun s => s.syncLost p.val)) m := rfl
theorem exec_receiveSlot (p : Fin 256) (idx : Fin 16) (m : State) :
    exec (.receiveSlot p idx) m = run (fun s => s.clocked 0 (fun s => s.receiveSlot p.val idx.val)) m := rfl
theorem exec_transmitSlot (p : Fin 256) (idx : Fin 16) (m : State) :
    exec (.transmitSlot p idx) m = run (fun s => s.clocked 0 (fun s => s.transmitSlot p.val idx.val)) m := rfl
theorem exec_mooringFrame (p : Fin 256) (m : State) :
    exec (.mooringFrame p) m = run (fun s => s.mooringFrame p.val) m := rfl
theorem exec_jettyPllLockLost (m : State) :
    exec (.jettyPllLockLost) m = run (fun s => s.jettyLockLost) m := rfl
theorem exec_hostReadTlp (bar : Fin 3) (off : BitVec 40) (len : Fin 4097) (m : State) :
    exec (.hostReadTlp bar off len) m = run (fun s => s.live (fun s => s.hostTlp true bar.val off.toNat len.val [])) m := rfl
theorem exec_hostWriteTlp (bar : Fin 3) (off : BitVec 40) (data : List Byte) (m : State) :
    exec (.hostWriteTlp bar off data) m = run (fun s => s.live (fun s => s.hostTlp false bar.val off.toNat data.length data)) m := rfl
theorem exec_msixMessage (vector : Fin 256) (m : State) :
    exec (.msixMessage vector) m = run (fun s => s.live (fun s => s.msixMessage vector.val)) m := rfl
theorem exec_pcieLinkDown (m : State) :
    exec (.pcieLinkDown) m = run (fun s => s.pcieLinkDown) m := rfl
theorem exec_lgtProd (src : RegSrc) (n : Fin 16) (data : Word) (m : State) :
    exec (.lgtProd src n data) m = run (fun s => s.command src B.LGT (O.LGT_PROD n.val) data) m := rfl
theorem exec_lgtStop (src : RegSrc) (n : Fin 16) (data : Word) (m : State) :
    exec (.lgtStop src n data) m = run (fun s => s.command src B.LGT (O.LGT_CMD n.val) (withField data 0 2 1)) m := rfl
theorem exec_lgtClear (src : RegSrc) (n : Fin 16) (data : Word) (m : State) :
    exec (.lgtClear src n data) m = run (fun s => s.command src B.LGT (O.LGT_CMD n.val) (withField data 0 2 2)) m := rfl
theorem exec_lgtCfg (src : RegSrc) (n : Fin 16) (data : Word) (m : State) :
    exec (.lgtCfg src n data) m = run (fun s => s.command src B.LGT (O.LGT_CFG n.val) data) m := rfl
theorem exec_lighterDescriptor (n : Fin 16) (host : List Byte) (m : State) :
    exec (.lighterDescriptor n host) m = run (fun s => s.live (fun s => s.lighterDescriptor n.val host)) m := rfl
theorem exec_lighterPieceDone (n : Fin 16) (off : Nat) (answer : HostAnswer) (m : State) :
    exec (.lighterPieceDone n off answer) m = run (fun s => s.live (fun s => s.lighterPieceDone n.val off answer)) m := rfl
theorem exec_ethFrameReceive (port : Fin 4) (frame : List Byte) (fcsOk : Bool) (m : State) :
    exec (.ethFrameReceive port frame fcsOk) m = run (fun s => s.live (fun s => s.ethFrameReceive port.val frame fcsOk)) m := rfl
theorem exec_ethRxDeliver (n : Fin 16) (m : State) :
    exec (.ethRxDeliver n) m = run (fun s => s.live (fun s => s.ethRxDeliver n.val)) m := rfl
theorem exec_ethTxSlot (n : Fin 16) (m : State) :
    exec (.ethTxSlot n) m = run (fun s => s.live (fun s => s.ethTxSlot n.val)) m := rfl
theorem exec_stStep (src : RegSrc) (data : Word) (m : State) :
    exec (.stStep src data) m = run (fun s => s.command src B.ETH O.ST_CTRL (withField data 8 1 1)) m := rfl
theorem exec_stNowLoRead (src : RegSrc) (peek : Bool) (m : State) :
    exec (.stNowLoRead src peek) m = run (fun s => s.readCommand src peek B.ETH O.ST_NOW_LO) m := rfl
theorem exec_stPpsCapLoRead (src : RegSrc) (peek : Bool) (m : State) :
    exec (.stPpsCapLoRead src peek) m = run (fun s => s.readCommand src peek B.ETH O.ST_PPS_CAP_LO) m := rfl
theorem exec_ppsIn (m : State) :
    exec (.ppsIn) m = run (fun s => s.ppsIn) m := rfl
theorem exec_ppsOut (m : State) :
    exec (.ppsOut) m = run (fun s => s.ppsOut) m := rfl
theorem exec_cspStream (words : List Word) (m : State) :
    exec (.cspStream words) m = run (fun s => s.cspStream words) m := rfl
theorem exec_cspRegWrite (idx : BitVec 22) (data : Word) (m : State) :
    exec (.cspRegWrite idx data) m = run (fun s => s.cspRegWrite idx.toNat data) m := rfl
theorem exec_cspRegRead (idx : BitVec 22) (m : State) :
    exec (.cspRegRead idx) m = run (fun s => s.cspRegRead idx.toNat) m := rfl
theorem exec_cspStatus (m : State) :
    exec (.cspStatus) m = run (fun s => s.cspStatus) m := rfl
theorem exec_cspErr (words : List Word) (m : State) :
    exec (.cspErr words) m = run (fun s => s.cspErr words) m := rfl
theorem exec_streamData (src : RegSrc) (aperture : Option (BitVec 12)) (bytes : List Byte) (last : Bool) (m : State) :
    exec (.streamData src aperture bytes last) m = run (fun s => s.streamCommand src (aperture.map BitVec.toNat) bytes last) m := rfl
theorem exec_signatureVerified (m : State) :
    exec (.signatureVerified) m = run (fun s => s.live (fun s => s.signatureVerified)) m := rfl
theorem exec_cfgAbort (src : RegSrc) (data : Word) (m : State) :
    exec (.cfgAbort src data) m = run (fun s => s.command src B.CFG O.CFG_CMD (withField data 0 3 1)) m := rfl
theorem exec_cfgActivate (src : RegSrc) (data : Word) (m : State) :
    exec (.cfgActivate src data) m = run (fun s => s.command src B.CFG O.CFG_CMD (withField data 0 3 2)) m := rfl
theorem exec_withdraw (src : RegSrc) (data : Word) (m : State) :
    exec (.withdraw src data) m = run (fun s => s.command src B.CFG O.CFG_CMD (withField data 0 3 3)) m := rfl
theorem exec_program (src : RegSrc) (data : Word) (m : State) :
    exec (.program src data) m = run (fun s => s.command src B.CFG O.CFG_CMD (withField data 0 3 4)) m := rfl
theorem exec_shoalPersist (m : State) :
    exec (.shoalPersist) m = run (fun s => s.live (fun s => s.persistMaps)) m := rfl
theorem exec_stkBundleSel (src : RegSrc) (data : Word) (m : State) :
    exec (.stkBundleSel src data) m = run (fun s => s.command src B.BIST O.STK_BUNDLE_SEL data) m := rfl
theorem exec_shoalRead (src : RegSrc) (data : Word) (m : State) :
    exec (.shoalRead src data) m = run (fun s => s.command src B.BIST O.STK_SHOAL_CMD (withField data 0 2 1)) m := rfl
theorem exec_shoalAdd (src : RegSrc) (data : Word) (m : State) :
    exec (.shoalAdd src data) m = run (fun s => s.command src B.BIST O.STK_SHOAL_CMD (withField data 0 2 2)) m := rfl
theorem exec_fence (src : RegSrc) (e : Fin 32) (data : Word) (m : State) :
    exec (.fence src e data) m = run (fun s => s.command src (B.ERG e.val) O.ERG_PLANE_CMD (withField data 0 4 1)) m := rfl
theorem exec_release (src : RegSrc) (e : Fin 32) (data : Word) (m : State) :
    exec (.release src e data) m = run (fun s => s.command src (B.ERG e.val) O.ERG_PLANE_CMD (withField data 0 4 2)) m := rfl
theorem exec_lend (src : RegSrc) (e : Fin 32) (data : Word) (m : State) :
    exec (.lend src e data) m = run (fun s => s.command src (B.ERG e.val) O.ERG_PLANE_CMD (withField data 0 4 3)) m := rfl
theorem exec_recall (src : RegSrc) (e : Fin 32) (data : Word) (m : State) :
    exec (.recall src e data) m = run (fun s => s.command src (B.ERG e.val) O.ERG_PLANE_CMD (withField data 0 4 4)) m := rfl
theorem exec_pswMaxRead (src : RegSrc) (peek : Bool) (m : State) :
    exec (.pswMaxRead src peek) m = run (fun s => s.readCommand src peek B.TIDE O.PSW_MAX) m := rfl
theorem exec_nonce (src : RegSrc) (data : Word) (m : State) :
    exec (.nonce src data) m = run (fun s => s.command src B.SEC O.SEC_CMD (withField data 0 4 1)) m := rfl
theorem exec_openToken (src : RegSrc) (data : Word) (m : State) :
    exec (.openToken src data) m = run (fun s => s.command src B.SEC O.SEC_CMD (withField data 0 4 2)) m := rfl
theorem exec_openPassword (src : RegSrc) (data : Word) (m : State) :
    exec (.openPassword src data) m = run (fun s => s.command src B.SEC O.SEC_CMD (withField data 0 4 3)) m := rfl
theorem exec_close (src : RegSrc) (data : Word) (m : State) :
    exec (.close src data) m = run (fun s => s.command src B.SEC O.SEC_CMD (withField data 0 4 4)) m := rfl
theorem exec_attest (src : RegSrc) (data : Word) (m : State) :
    exec (.attest src data) m = run (fun s => s.command src B.SEC O.SEC_CMD (withField data 0 4 5)) m := rfl
theorem exec_getIdkey (src : RegSrc) (data : Word) (m : State) :
    exec (.getIdkey src data) m = run (fun s => s.command src B.SEC O.SEC_CMD (withField data 0 4 6)) m := rfl
theorem exec_lcAdvance (src : RegSrc) (data : Word) (m : State) :
    exec (.lcAdvance src data) m = run (fun s => s.command src B.SEC O.SEC_CMD (withField data 0 4 7)) m := rfl
theorem exec_setPassword (src : RegSrc) (data : Word) (m : State) :
    exec (.setPassword src data) m = run (fun s => s.command src B.SEC O.SEC_CMD (withField data 0 4 8)) m := rfl
theorem exec_drydock (src : RegSrc) (data : Word) (m : State) :
    exec (.drydock src data) m = run (fun s => s.command src B.SEC O.SEC_CMD (withField data 0 4 9)) m := rfl
theorem exec_bootcfg (src : RegSrc) (data : Word) (m : State) :
    exec (.bootcfg src data) m = run (fun s => s.command src B.SEC O.SEC_CMD (withField data 0 4 10)) m := rfl
theorem exec_secMboxData (src : RegSrc) (write : Option Word) (peek : Bool) (m : State) :
    exec (.secMboxData src write peek) m = run (fun s => s.mboxAccess src write peek) m := rfl
theorem exec_tamperInput (input : Fin 4) (m : State) :
    exec (.tamperInput input) m = run (fun s => s.tamperInput input.val) m := rfl
theorem exec_voltageMonitor (rail : Fin 5) (m : State) :
    exec (.voltageMonitor rail) m = run (fun s => s.voltageMonitor rail.val) m := rfl
theorem exec_clockGlitch (domain : Fin 4) (m : State) :
    exec (.clockGlitch domain) m = run (fun s => s.clockGlitch domain.val) m := rfl
theorem exec_tamperBeacon (m : State) :
    exec (.tamperBeacon) m = run (fun s => s.tamperBeacon) m := rfl
theorem exec_rngFail (m : State) :
    exec (.rngFail) m = run (fun s => s.live (fun s => s.rngFail)) m := rfl
theorem exec_rngRestart (m : State) :
    exec (.rngRestart) m = run (fun s => s.live (fun s => s.rngRestart)) m := rfl
theorem exec_clkApply (src : RegSrc) (data : Word) (m : State) :
    exec (.clkApply src data) m = run (fun s => s.command src B.CLK O.CLK_CMD (withField data 0 1 1)) m := rfl
theorem exec_applyDone (m : State) :
    exec (.applyDone) m = run (fun s => s.live (fun s => s.applyDone)) m := rfl
theorem exec_pllLockLost (pll : Option (Fin 4)) (m : State) :
    exec (.pllLockLost pll) m = run (fun s => s.pllLockLost (pll.map Fin.val)) m := rfl
theorem exec_serdesLockLost (port : SerdesPort) (m : State) :
    exec (.serdesLockLost port) m = run (fun s => s.serdesLockLost port) m := rfl
theorem exec_oscCommit (src : RegSrc) (data : Word) (m : State) :
    exec (.oscCommit src data) m = run (fun s => s.command src B.LH O.LH_OSC_CFG (withField data 8 1 1)) m := rfl
theorem exec_clkEn (src : RegSrc) (k : Fin 3) (data : Word) (m : State) :
    exec (.clkEn src k data) m = run (fun s => s.command src B.CLK (O.CLK_EN0 + 4 * k.val) data) m := rfl
theorem exec_clkmonCfg (src : RegSrc) (data : Word) (m : State) :
    exec (.clkmonCfg src data) m = run (fun s => s.command src B.CLK O.CLKMON_CFG data) m := rfl
theorem exec_powerOn (refclk : Bool) (m : State) :
    exec (.powerOn refclk) m = run (fun s => s.powerOn refclk) m := rfl
theorem exec_mainPowerLoss (islandSupplied : Bool) (m : State) :
    exec (.mainPowerLoss islandSupplied) m = run (fun s => s.mainPowerLoss islandSupplied) m := rfl
theorem exec_oscWaitDone (m : State) :
    exec (.oscWaitDone) m = run (fun s => s.oscWaitDone) m := rfl
theorem exec_resetPin (m : State) :
    exec (.resetPin) m = run (fun s => s.resetRequest 2) m := rfl
theorem exec_hostReset (src : RegSrc) (m : State) :
    exec (.hostReset src) m = run (fun s => s.command src B.LH O.LH_RST_CMD 0xA55A0F0F) m := rfl
theorem exec_resetEntry (m : State) :
    exec (.resetEntry) m = run (fun s => s.resetEntry) m := rfl
theorem exec_resetRelease (devX : Fin 8) (devY : Fin 8) (csp : Fin 4) (m : State) :
    exec (.resetRelease devX devY csp) m = run (fun s => s.resetRelease devX.val devY.val csp.val) m := rfl
theorem exec_bootPllLock (m : State) :
    exec (.bootPllLock) m = run (fun s => s.bootPllLock) m := rfl
theorem exec_bundleTestDone (lanes : List (BitVec 26 × Fin 68)) (dunes : List (Fin 8192)) (m : State) :
    exec (.bundleTestDone lanes dunes) m = run (fun s => s.bundleTestDone (lanes.map (fun x => (x.1.toNat, x.2.val))) (dunes.map Fin.val)) m := rfl
theorem exec_bootTemperatureCheck (readings : List (Option Int)) (m : State) :
    exec (.bootTemperatureCheck readings) m = run (fun s => s.bootTemperature readings) m := rfl
theorem exec_residentImageRead (m : State) :
    exec (.residentImageRead) m = run (fun s => s.residentImageRead) m := rfl
theorem exec_bootApply (fails : List MarchFail) (m : State) :
    exec (.bootApply fails) m = run (fun s => s.bootApply fails) m := rfl
theorem exec_wdgFeed (src : RegSrc) (data : Word) (m : State) :
    exec (.wdgFeed src data) m = run (fun s => s.command src B.WDG O.WDG_FEED data) m := rfl
theorem exec_wdgEn (src : RegSrc) (data : Word) (m : State) :
    exec (.wdgEn src data) m = run (fun s => s.command src B.WDG O.WDG_CFG (withField data 0 1 1)) m := rfl
theorem exec_wdgLoad (src : RegSrc) (data : Word) (m : State) :
    exec (.wdgLoad src data) m = run (fun s => s.command src B.WDG O.WDG_LOAD data) m := rfl
theorem exec_warn (m : State) :
    exec (.warn) m = run (fun s => s.wdgWarn) m := rfl
theorem exec_watchdog (m : State) :
    exec (.watchdog) m = run (fun s => s.watchdog) m := rfl
theorem exec_sleepErgs (src : RegSrc) (data : Word) (m : State) :
    exec (.sleepErgs src data) m = run (fun s => s.command src B.PWR O.PWR_SLEEP_CMD (withField data 0 3 1)) m := rfl
theorem exec_wakeErgs (src : RegSrc) (data : Word) (m : State) :
    exec (.wakeErgs src data) m = run (fun s => s.command src B.PWR O.PWR_SLEEP_CMD (withField data 0 3 2)) m := rfl
theorem exec_sleepDevice (src : RegSrc) (data : Word) (m : State) :
    exec (.sleepDevice src data) m = run (fun s => s.command src B.PWR O.PWR_SLEEP_CMD (withField data 0 3 3)) m := rfl
theorem exec_wakeDevice (src : RegSrc) (data : Word) (m : State) :
    exec (.wakeDevice src data) m = run (fun s => s.command src B.PWR O.PWR_SLEEP_CMD (withField data 0 3 4)) m := rfl
theorem exec_ergDown (e : Fin 32) (m : State) :
    exec (.ergDown e) m = run (fun s => s.live (fun s => s.ergDown e.val)) m := rfl
theorem exec_ergUp (e : Fin 32) (m : State) :
    exec (.ergUp e) m = run (fun s => s.live (fun s => s.ergUp e.val)) m := rfl
theorem exec_devWake (m : State) :
    exec (.devWake) m = run (fun s => s.live (fun s => s.devWake)) m := rfl
theorem exec_powerEstimate (ergs : List ErgEst) (rails : List Nat) (m : State) :
    exec (.powerEstimate ergs rails) m = run (fun s => s.powerEstimate ergs rails) m := rfl
theorem exec_pwrRailIRead (src : RegSrc) (peek : Bool) (m : State) :
    exec (.pwrRailIRead src peek) m = run (fun s => s.readCommand src peek B.PWR O.PWR_RAIL_I) m := rfl
theorem exec_thermalSweep (readings : List (Option Int)) (m : State) :
    exec (.thermalSweep readings) m = run (fun s => s.thermalSweep readings) m := rfl
theorem exec_wearPersist (m : State) :
    exec (.wearPersist) m = run (fun s => s.wearPersist) m := rfl
theorem exec_thmLimWrite (src : RegSrc) (n : Fin 4) (data : Word) (m : State) :
    exec (.thmLimWrite src n data) m = run (fun s => s.command src B.THM (O.THM_LIM n.val) data) m := rfl
theorem exec_thmSel (src : RegSrc) (data : Word) (m : State) :
    exec (.thmSel src data) m = run (fun s => s.command src B.THM O.THM_SEL data) m := rfl
theorem exec_thmResume (src : RegSrc) (data : Word) (m : State) :
    exec (.thmResume src data) m = run (fun s => s.command src B.THM O.THM_CMD (withField data 0 1 1)) m := rfl
theorem exec_wireReset (m : State) :
    exec (.wireReset) m = run (fun s => s.wireReset) m := rfl
theorem exec_wireBreak (m : State) :
    exec (.wireBreak) m = run (fun s => s.wireBreak) m := rfl
theorem exec_wireErr (m : State) :
    exec (.wireErr) m = run (fun s => s.wireErr) m := rfl
theorem exec_islandSupplyLoss (m : State) :
    exec (.islandSupplyLoss) m = run (fun s => s.islandLoss) m := rfl
theorem exec_wireId (tag : Fin 4) (m : State) :
    exec (.wireId tag) m = run (fun s => s.wireId tag.val) m := rfl
theorem exec_attach (tag : Fin 4) (m : State) :
    exec (.attach tag) m = run (fun s => s.wireAttach tag.val) m := rfl
theorem exec_detach (tag : Fin 4) (m : State) :
    exec (.detach tag) m = run (fun s => s.wireDetach tag.val) m := rfl
theorem exec_ird (tag : Fin 4) (off : BitVec 16) (m : State) :
    exec (.ird tag off) m = run (fun s => s.wireIrd tag.val off.toNat) m := rfl
theorem exec_iwr (tag : Fin 4) (off : BitVec 16) (data : Word) (m : State) :
    exec (.iwr tag off data) m = run (fun s => s.wireIwr tag.val off.toNat data) m := rfl
theorem exec_rd (tag : Fin 4) (addr : BitVec 48) (peek : Bool) (m : State) :
    exec (.rd tag addr peek) m = run (fun s => s.wireRd tag.val addr.toNat peek) m := rfl
theorem exec_wr (tag : Fin 4) (addr : BitVec 48) (data : Word) (m : State) :
    exec (.wr tag addr data) m = run (fun s => s.wireWr tag.val addr.toNat data) m := rfl
theorem exec_poll (tag : Fin 4) (m : State) :
    exec (.poll tag) m = run (fun s => s.wirePoll tag.val) m := rfl
theorem exec_wireRequestMalformed (bad : WireBad) (m : State) :
    exec (.wireRequestMalformed bad) m = run (fun s => s.wireMalformed bad) m := rfl
theorem exec_attachTimeout (m : State) :
    exec (.attachTimeout) m = run (fun s => s.attachTimeout) m := rfl
theorem exec_dbgHalt (src : RegSrc) (data : Word) (m : State) :
    exec (.dbgHalt src data) m = run (fun s => s.command src B.DBG O.DBG_CTRL (withField data 0 2 1)) m := rfl
theorem exec_dbgResume (src : RegSrc) (data : Word) (m : State) :
    exec (.dbgResume src data) m = run (fun s => s.command src B.DBG O.DBG_CTRL (withField data 0 2 2)) m := rfl
theorem exec_dbgStep (src : RegSrc) (data : Word) (m : State) :
    exec (.dbgStep src data) m = run (fun s => s.command src B.DBG O.DBG_CTRL (withField data 0 2 3)) m := rfl
theorem exec_resumed (m : State) :
    exec (.resumed) m = run (fun s => s.resumed) m := rfl
theorem exec_dbgHaltTideLoRead (src : RegSrc) (peek : Bool) (m : State) :
    exec (.dbgHaltTideLoRead src peek) m = run (fun s => s.readCommand src peek B.DBG O.DBG_HALT_TIDE_LO) m := rfl
theorem exec_dbgResumeAtLoRead (src : RegSrc) (peek : Bool) (m : State) :
    exec (.dbgResumeAtLoRead src peek) m = run (fun s => s.readCommand src peek B.DBG O.DBG_RESUME_AT_LO) m := rfl
theorem exec_drydockSlot (e : Fin 32) (finds : List TestFind) (m : State) :
    exec (.drydockSlot e finds) m = run (fun s => s.live (fun s => s.drydockSlot e.val finds)) m := rfl
theorem exec_fabricPatternWrite (e : Fin 32) (m : State) :
    exec (.fabricPatternWrite e) m = run (fun s => s.live (fun s => s.patternWrite e.val)) m := rfl
theorem exec_ddRun (src : RegSrc) (data : Word) (m : State) :
    exec (.ddRun src data) m = run (fun s => s.command src B.BIST O.BIST_DD_CMD (withField data 0 2 1)) m := rfl
theorem exec_ddAbort (src : RegSrc) (data : Word) (m : State) :
    exec (.ddAbort src data) m = run (fun s => s.command src B.BIST O.BIST_DD_CMD (withField data 0 2 2)) m := rfl
theorem exec_ddRunDone (finds : List (Fin 32 × TestFind)) (slices : Nat) (m : State) :
    exec (.ddRunDone finds slices) m = run (fun s => s.unlessStopped B.BIST (fun s => s.ddRunDone finds slices)) m := rfl
theorem exec_bistResLoRead (src : RegSrc) (peek : Bool) (m : State) :
    exec (.bistResLoRead src peek) m = run (fun s => s.readCommand src peek B.BIST O.BIST_RES_LO) m := rfl
theorem exec_bistScanData (src : RegSrc) (data : Word) (m : State) :
    exec (.bistScanData src data) m = run (fun s => s.command src B.BIST O.BIST_SCAN_DATA data) m := rfl
theorem exec_planeScrubRead (e : Fin 32) (bad : Nat) (m : State) :
    exec (.planeScrubRead e bad) m = run (fun s => s.live (fun s => s.planeScrub e.val bad)) m := rfl
theorem exec_scrubStall (e : Fin 32) (m : State) :
    exec (.scrubStall e) m = run (fun s => s.live (fun s => s.scrubStall e.val)) m := rfl
theorem exec_lhFlogPortRead (src : RegSrc) (peek : Bool) (m : State) :
    exec (.lhFlogPortRead src peek) m = run (fun s => s.readCommand src peek B.LH O.LH_FLOG_PORT) m := rfl
theorem exec_rxSync (p : Fin 256) (m : State) :
    exec (.rxSync p) m = run (fun s => s.live (fun s => s.rxSync p.val)) m := rfl
theorem exec_jettyPllLock (m : State) :
    exec (.jettyPllLock) m = run (fun s => s.jettyLocked) m := rfl
theorem exec_pcieLinkUp (gen : Fin 3) (width : Fin 4) (bar4 : Fin 6) (m : State) :
    exec (.pcieLinkUp gen width bar4) m = run (fun s => s.pcieLinkUp (4 + gen.val) (([1, 4, 8, 16] : List Nat).getD width.val 1) bar4.val) m := rfl
theorem exec_linkChg (port : Fin 4) (up : Bool) (m : State) :
    exec (.linkChg port up) m = run (fun s => s.live (fun s => s.ethLinkChg port.val up)) m := rfl
theorem exec_islandPowerUp (m : State) :
    exec (.islandPowerUp) m = run (fun s => s.islandUp) m := rfl

/-- Every command is a change of the device, after which the outputs settle. -/
theorem exec_is_run (c : Instr) (m : State) : ∃ f : Dev → Dev, exec c m = run f m :=
  match c with
  | .registerWrite src addr data => ⟨_, exec_registerWrite src addr data m⟩
  | .narrowAccess src addr size => ⟨_, exec_narrowAccess src addr size m⟩
  | .lock src blk data => ⟨_, exec_lock src blk data m⟩
  | .refuseClr src blk data => ⟨_, exec_refuseClr src blk data m⟩
  | .evtForce src blk data => ⟨_, exec_evtForce src blk data m⟩
  | .eccFlipArm src blk data => ⟨_, exec_eccFlipArm src blk data m⟩
  | .bucketLeak blk => ⟨_, exec_bucketLeak blk m⟩
  | .fabricTick => ⟨_, exec_fabricTick m⟩
  | .sentinelFail bundle => ⟨_, exec_sentinelFail bundle m⟩
  | .tideTurn => ⟨_, exec_tideTurn m⟩
  | .tideCtrlStart src data => ⟨_, exec_tideCtrlStart src data m⟩
  | .tideCtrlStop src data => ⟨_, exec_tideCtrlStop src data m⟩
  | .breachClr src data => ⟨_, exec_breachClr src data m⟩
  | .tideStart => ⟨_, exec_tideStart m⟩
  | .xingRelease queue arrival => ⟨_, exec_xingRelease queue arrival m⟩
  | .schedIssueTick decl => ⟨_, exec_schedIssueTick decl m⟩
  | .schedComplete decl issueTide status data => ⟨_, exec_schedComplete decl issueTide status data m⟩
  | .tideNumLoRead src peek => ⟨_, exec_tideNumLoRead src peek m⟩
  | .turnTimeLoRead src peek => ⟨_, exec_turnTimeLoRead src peek m⟩
  | .tideSkewRead src peek => ⟨_, exec_tideSkewRead src peek m⟩
  | .admBoundSel src data => ⟨_, exec_admBoundSel src data m⟩
  | .admission => ⟨_, exec_admission m⟩
  | .berthRead b msg => ⟨_, exec_berthRead b msg m⟩
  | .berthWrite b msg => ⟨_, exec_berthWrite b msg m⟩
  | .berthSched b msg => ⟨_, exec_berthSched b msg m⟩
  | .berthResponse b msg => ⟨_, exec_berthResponse b msg m⟩
  | .berthAcquire b msg => ⟨_, exec_berthAcquire b msg m⟩
  | .berthRelinquish b msg => ⟨_, exec_berthRelinquish b msg m⟩
  | .releaseRead b beat => ⟨_, exec_releaseRead b beat m⟩
  | .releaseReadReturn b => ⟨_, exec_releaseReadReturn b m⟩
  | .servedRequestPresent b => ⟨_, exec_servedRequestPresent b m⟩
  | .lateDeliveryPresent b => ⟨_, exec_lateDeliveryPresent b m⟩
  | .notePresent b => ⟨_, exec_notePresent b m⟩
  | .ergNotePost src e data => ⟨_, exec_ergNotePost src e data m⟩
  | .hoist e dune reg row => ⟨_, exec_hoist e dune reg row m⟩
  | .lower e dune reg row => ⟨_, exec_lower e dune reg row m⟩
  | .rowCycle bank => ⟨_, exec_rowCycle bank m⟩
  | .hoistLand bank => ⟨_, exec_hoistLand bank m⟩
  | .wordPortRead bank => ⟨_, exec_wordPortRead bank m⟩
  | .wordPortWrite bank => ⟨_, exec_wordPortWrite bank m⟩
  | .partialWrite bank => ⟨_, exec_partialWrite bank m⟩
  | .remapRead src k data => ⟨_, exec_remapRead src k data m⟩
  | .remapAdd src k data => ⟨_, exec_remapAdd src k data m⟩
  | .remapMigration k => ⟨_, exec_remapMigration k m⟩
  | .remapAddTimeout k => ⟨_, exec_remapAddTimeout k m⟩
  | .bankRetentionEntry e => ⟨_, exec_bankRetentionEntry e m⟩
  | .bankWake bank => ⟨_, exec_bankWake bank m⟩
  | .bondSet src data => ⟨_, exec_bondSet src data m⟩
  | .bondWipe src data => ⟨_, exec_bondWipe src data m⟩
  | .bondWiped => ⟨_, exec_bondWiped m⟩
  | .marchDestructive src data => ⟨_, exec_marchDestructive src data m⟩
  | .marchPreserving src data => ⟨_, exec_marchPreserving src data m⟩
  | .marchAbort src data => ⟨_, exec_marchAbort src data m⟩
  | .marchDone fails touched => ⟨_, exec_marchDone fails touched m⟩
  | .scrbStart src data => ⟨_, exec_scrbStart src data m⟩
  | .scrbAbort src data => ⟨_, exec_scrbAbort src data m⟩
  | .scrubRow place => ⟨_, exec_scrubRow place m⟩
  | .scrubDone => ⟨_, exec_scrubDone m⟩
  | .scrubLap us => ⟨_, exec_scrubLap us m⟩
  | .holdXferMaxRead src peek => ⟨_, exec_holdXferMaxRead src peek m⟩
  | .routerHop router output errs => ⟨_, exec_routerHop router output errs m⟩
  | .netRead msg => ⟨_, exec_netRead msg m⟩
  | .netWrite msg => ⟨_, exec_netWrite msg m⟩
  | .netResponse msg => ⟨_, exec_netResponse msg m⟩
  | .netAcquire msg => ⟨_, exec_netAcquire msg m⟩
  | .netRelinquish msg => ⟨_, exec_netRelinquish msg m⟩
  | .netMread msg => ⟨_, exec_netMread msg m⟩
  | .netMwrite msg => ⟨_, exec_netMwrite msg m⟩
  | .initiatorTimeout who tag => ⟨_, exec_initiatorTimeout who tag m⟩
  | .leaseExp table line => ⟨_, exec_leaseExp table line m⟩
  | .arbiterGrant arb => ⟨_, exec_arbiterGrant arb m⟩
  | .arbiterWindow arb => ⟨_, exec_arbiterWindow arb m⟩
  | .arbCut arb => ⟨_, exec_arbCut arb m⟩
  | .hnSchMaxwaitRead src peek => ⟨_, exec_hnSchMaxwaitRead src peek m⟩
  | .dmcStart src k data => ⟨_, exec_dmcStart src k data m⟩
  | .dmcGo src k data => ⟨_, exec_dmcGo src k data m⟩
  | .dmcMaint src k data => ⟨_, exec_dmcMaint src k data m⟩
  | .dmcEnd src k data => ⟨_, exec_dmcEnd src k data m⟩
  | .wrFifo src k data => ⟨_, exec_wrFifo src k data m⟩
  | .rdFifo src k data => ⟨_, exec_rdFifo src k data m⟩
  | .caLoop src k data => ⟨_, exec_caLoop src k data m⟩
  | .trainDone k errs => ⟨_, exec_trainDone k errs m⟩
  | .dmcMrw src k data => ⟨_, exec_dmcMrw src k data m⟩
  | .mapApply src data => ⟨_, exec_mapApply src data m⟩
  | .dmcLaneSel src k data => ⟨_, exec_dmcLaneSel src k data m⟩
  | .refresh k ch => ⟨_, exec_refresh k ch m⟩
  | .dmcAccess k bank found => ⟨_, exec_dmcAccess k bank found m⟩
  | .writeCrcReport place => ⟨_, exec_writeCrcReport place m⟩
  | .caErr k recent => ⟨_, exec_caErr k recent m⟩
  | .rangeEnable src data => ⟨_, exec_rangeEnable src data m⟩
  | .rangeDisable src data => ⟨_, exec_rangeDisable src data m⟩
  | .rekey src data => ⟨_, exec_rekey src data m⟩
  | .rekeyAbort src data => ⟨_, exec_rekeyAbort src data m⟩
  | .initDone range => ⟨_, exec_initDone range m⟩
  | .keyGen src data => ⟨_, exec_keyGen src data m⟩
  | .keyUnwrap src data => ⟨_, exec_keyUnwrap src data m⟩
  | .keyRetire src data => ⟨_, exec_keyRetire src data m⟩
  | .keyZeroise src data => ⟨_, exec_keyZeroise src data m⟩
  | .metaFetch range page found => ⟨_, exec_metaFetch range page found m⟩
  | .pageReencrypt engine => ⟨_, exec_pageReencrypt engine m⟩
  | .rekeyUnit => ⟨_, exec_rekeyUnit m⟩
  | .walkDone => ⟨_, exec_walkDone m⟩
  | .linkEnable src n data => ⟨_, exec_linkEnable src n data m⟩
  | .retrain src n data => ⟨_, exec_retrain src n data m⟩
  | .keySwitch src n data => ⟨_, exec_keySwitch src n data m⟩
  | .ts1Row n blocks skew polarity => ⟨_, exec_ts1Row n blocks skew polarity m⟩
  | .ts2Row n block => ⟨_, exec_ts2Row n block m⟩
  | .sofRow n => ⟨_, exec_sofRow n m⟩
  | .trainFail n => ⟨_, exec_trainFail n m⟩
  | .frameSend n => ⟨_, exec_frameSend n m⟩
  | .frameReceive n blocks badHeaders => ⟨_, exec_frameReceive n blocks badHeaders m⟩
  | .relockTimeout n => ⟨_, exec_relockTimeout n m⟩
  | .svcBreach n payload => ⟨_, exec_svcBreach n payload m⟩
  | .svcHalt n payload => ⟨_, exec_svcHalt n payload m⟩
  | .svcResume n payload => ⟨_, exec_svcResume n payload m⟩
  | .startA n payload => ⟨_, exec_startA n payload m⟩
  | .startB n payload => ⟨_, exec_startB n payload m⟩
  | .svcTurn n payload => ⟨_, exec_svcTurn n payload m⟩
  | .sync n payload => ⟨_, exec_sync n payload m⟩
  | .syncRx n payload => ⟨_, exec_syncRx n payload m⟩
  | .epoch n payload => ⟨_, exec_epoch n payload m⟩
  | .jettyFrameReceive p got => ⟨_, exec_jettyFrameReceive p got m⟩
  | .syncLost p => ⟨_, exec_syncLost p m⟩
  | .receiveSlot p idx => ⟨_, exec_receiveSlot p idx m⟩
  | .transmitSlot p idx => ⟨_, exec_transmitSlot p idx m⟩
  | .mooringFrame p => ⟨_, exec_mooringFrame p m⟩
  | .jettyPllLockLost => ⟨_, exec_jettyPllLockLost m⟩
  | .hostReadTlp bar off len => ⟨_, exec_hostReadTlp bar off len m⟩
  | .hostWriteTlp bar off data => ⟨_, exec_hostWriteTlp bar off data m⟩
  | .msixMessage vector => ⟨_, exec_msixMessage vector m⟩
  | .pcieLinkDown => ⟨_, exec_pcieLinkDown m⟩
  | .lgtProd src n data => ⟨_, exec_lgtProd src n data m⟩
  | .lgtStop src n data => ⟨_, exec_lgtStop src n data m⟩
  | .lgtClear src n data => ⟨_, exec_lgtClear src n data m⟩
  | .lgtCfg src n data => ⟨_, exec_lgtCfg src n data m⟩
  | .lighterDescriptor n host => ⟨_, exec_lighterDescriptor n host m⟩
  | .lighterPieceDone n off answer => ⟨_, exec_lighterPieceDone n off answer m⟩
  | .ethFrameReceive port frame fcsOk => ⟨_, exec_ethFrameReceive port frame fcsOk m⟩
  | .ethRxDeliver n => ⟨_, exec_ethRxDeliver n m⟩
  | .ethTxSlot n => ⟨_, exec_ethTxSlot n m⟩
  | .stStep src data => ⟨_, exec_stStep src data m⟩
  | .stNowLoRead src peek => ⟨_, exec_stNowLoRead src peek m⟩
  | .stPpsCapLoRead src peek => ⟨_, exec_stPpsCapLoRead src peek m⟩
  | .ppsIn => ⟨_, exec_ppsIn m⟩
  | .ppsOut => ⟨_, exec_ppsOut m⟩
  | .cspStream words => ⟨_, exec_cspStream words m⟩
  | .cspRegWrite idx data => ⟨_, exec_cspRegWrite idx data m⟩
  | .cspRegRead idx => ⟨_, exec_cspRegRead idx m⟩
  | .cspStatus => ⟨_, exec_cspStatus m⟩
  | .cspErr words => ⟨_, exec_cspErr words m⟩
  | .streamData src aperture bytes last => ⟨_, exec_streamData src aperture bytes last m⟩
  | .signatureVerified => ⟨_, exec_signatureVerified m⟩
  | .cfgAbort src data => ⟨_, exec_cfgAbort src data m⟩
  | .cfgActivate src data => ⟨_, exec_cfgActivate src data m⟩
  | .withdraw src data => ⟨_, exec_withdraw src data m⟩
  | .program src data => ⟨_, exec_program src data m⟩
  | .shoalPersist => ⟨_, exec_shoalPersist m⟩
  | .stkBundleSel src data => ⟨_, exec_stkBundleSel src data m⟩
  | .shoalRead src data => ⟨_, exec_shoalRead src data m⟩
  | .shoalAdd src data => ⟨_, exec_shoalAdd src data m⟩
  | .fence src e data => ⟨_, exec_fence src e data m⟩
  | .release src e data => ⟨_, exec_release src e data m⟩
  | .lend src e data => ⟨_, exec_lend src e data m⟩
  | .recall src e data => ⟨_, exec_recall src e data m⟩
  | .pswMaxRead src peek => ⟨_, exec_pswMaxRead src peek m⟩
  | .nonce src data => ⟨_, exec_nonce src data m⟩
  | .openToken src data => ⟨_, exec_openToken src data m⟩
  | .openPassword src data => ⟨_, exec_openPassword src data m⟩
  | .close src data => ⟨_, exec_close src data m⟩
  | .attest src data => ⟨_, exec_attest src data m⟩
  | .getIdkey src data => ⟨_, exec_getIdkey src data m⟩
  | .lcAdvance src data => ⟨_, exec_lcAdvance src data m⟩
  | .setPassword src data => ⟨_, exec_setPassword src data m⟩
  | .drydock src data => ⟨_, exec_drydock src data m⟩
  | .bootcfg src data => ⟨_, exec_bootcfg src data m⟩
  | .secMboxData src write peek => ⟨_, exec_secMboxData src write peek m⟩
  | .tamperInput input => ⟨_, exec_tamperInput input m⟩
  | .voltageMonitor rail => ⟨_, exec_voltageMonitor rail m⟩
  | .clockGlitch domain => ⟨_, exec_clockGlitch domain m⟩
  | .tamperBeacon => ⟨_, exec_tamperBeacon m⟩
  | .rngFail => ⟨_, exec_rngFail m⟩
  | .rngRestart => ⟨_, exec_rngRestart m⟩
  | .clkApply src data => ⟨_, exec_clkApply src data m⟩
  | .applyDone => ⟨_, exec_applyDone m⟩
  | .pllLockLost pll => ⟨_, exec_pllLockLost pll m⟩
  | .serdesLockLost port => ⟨_, exec_serdesLockLost port m⟩
  | .oscCommit src data => ⟨_, exec_oscCommit src data m⟩
  | .clkEn src k data => ⟨_, exec_clkEn src k data m⟩
  | .clkmonCfg src data => ⟨_, exec_clkmonCfg src data m⟩
  | .powerOn refclk => ⟨_, exec_powerOn refclk m⟩
  | .mainPowerLoss islandSupplied => ⟨_, exec_mainPowerLoss islandSupplied m⟩
  | .oscWaitDone => ⟨_, exec_oscWaitDone m⟩
  | .resetPin => ⟨_, exec_resetPin m⟩
  | .hostReset src => ⟨_, exec_hostReset src m⟩
  | .resetEntry => ⟨_, exec_resetEntry m⟩
  | .resetRelease devX devY csp => ⟨_, exec_resetRelease devX devY csp m⟩
  | .bootPllLock => ⟨_, exec_bootPllLock m⟩
  | .bundleTestDone lanes dunes => ⟨_, exec_bundleTestDone lanes dunes m⟩
  | .bootTemperatureCheck readings => ⟨_, exec_bootTemperatureCheck readings m⟩
  | .residentImageRead => ⟨_, exec_residentImageRead m⟩
  | .bootApply fails => ⟨_, exec_bootApply fails m⟩
  | .wdgFeed src data => ⟨_, exec_wdgFeed src data m⟩
  | .wdgEn src data => ⟨_, exec_wdgEn src data m⟩
  | .wdgLoad src data => ⟨_, exec_wdgLoad src data m⟩
  | .warn => ⟨_, exec_warn m⟩
  | .watchdog => ⟨_, exec_watchdog m⟩
  | .sleepErgs src data => ⟨_, exec_sleepErgs src data m⟩
  | .wakeErgs src data => ⟨_, exec_wakeErgs src data m⟩
  | .sleepDevice src data => ⟨_, exec_sleepDevice src data m⟩
  | .wakeDevice src data => ⟨_, exec_wakeDevice src data m⟩
  | .ergDown e => ⟨_, exec_ergDown e m⟩
  | .ergUp e => ⟨_, exec_ergUp e m⟩
  | .devWake => ⟨_, exec_devWake m⟩
  | .powerEstimate ergs rails => ⟨_, exec_powerEstimate ergs rails m⟩
  | .pwrRailIRead src peek => ⟨_, exec_pwrRailIRead src peek m⟩
  | .thermalSweep readings => ⟨_, exec_thermalSweep readings m⟩
  | .wearPersist => ⟨_, exec_wearPersist m⟩
  | .thmLimWrite src n data => ⟨_, exec_thmLimWrite src n data m⟩
  | .thmSel src data => ⟨_, exec_thmSel src data m⟩
  | .thmResume src data => ⟨_, exec_thmResume src data m⟩
  | .wireReset => ⟨_, exec_wireReset m⟩
  | .wireBreak => ⟨_, exec_wireBreak m⟩
  | .wireErr => ⟨_, exec_wireErr m⟩
  | .islandSupplyLoss => ⟨_, exec_islandSupplyLoss m⟩
  | .wireId tag => ⟨_, exec_wireId tag m⟩
  | .attach tag => ⟨_, exec_attach tag m⟩
  | .detach tag => ⟨_, exec_detach tag m⟩
  | .ird tag off => ⟨_, exec_ird tag off m⟩
  | .iwr tag off data => ⟨_, exec_iwr tag off data m⟩
  | .rd tag addr peek => ⟨_, exec_rd tag addr peek m⟩
  | .wr tag addr data => ⟨_, exec_wr tag addr data m⟩
  | .poll tag => ⟨_, exec_poll tag m⟩
  | .wireRequestMalformed bad => ⟨_, exec_wireRequestMalformed bad m⟩
  | .attachTimeout => ⟨_, exec_attachTimeout m⟩
  | .dbgHalt src data => ⟨_, exec_dbgHalt src data m⟩
  | .dbgResume src data => ⟨_, exec_dbgResume src data m⟩
  | .dbgStep src data => ⟨_, exec_dbgStep src data m⟩
  | .resumed => ⟨_, exec_resumed m⟩
  | .dbgHaltTideLoRead src peek => ⟨_, exec_dbgHaltTideLoRead src peek m⟩
  | .dbgResumeAtLoRead src peek => ⟨_, exec_dbgResumeAtLoRead src peek m⟩
  | .drydockSlot e finds => ⟨_, exec_drydockSlot e finds m⟩
  | .fabricPatternWrite e => ⟨_, exec_fabricPatternWrite e m⟩
  | .ddRun src data => ⟨_, exec_ddRun src data m⟩
  | .ddAbort src data => ⟨_, exec_ddAbort src data m⟩
  | .ddRunDone finds slices => ⟨_, exec_ddRunDone finds slices m⟩
  | .bistResLoRead src peek => ⟨_, exec_bistResLoRead src peek m⟩
  | .bistScanData src data => ⟨_, exec_bistScanData src data m⟩
  | .planeScrubRead e bad => ⟨_, exec_planeScrubRead e bad m⟩
  | .scrubStall e => ⟨_, exec_scrubStall e m⟩
  | .lhFlogPortRead src peek => ⟨_, exec_lhFlogPortRead src peek m⟩
  | .rxSync p => ⟨_, exec_rxSync p m⟩
  | .jettyPllLock => ⟨_, exec_jettyPllLock m⟩
  | .pcieLinkUp gen width bar4 => ⟨_, exec_pcieLinkUp gen width bar4 m⟩
  | .linkChg port up => ⟨_, exec_linkChg port up m⟩
  | .islandPowerUp => ⟨_, exec_islandPowerUp m⟩

end Sys2Proof.Machine
end

