-- ==== Sys2Proof/Laws/Memory.lean ====
section
/-! SUPPORT. Laws/Memory.lean: every operation on memory keeps its canonical form, and what a byte reads after it. -/

namespace Sys2Proof.Machine

/-- A read of one byte after a byte is stored. -/
theorem memByte_memPut (m : List Host.Cell) (k : Nat) (b : Byte) (a : Nat) :
    memByte (memPut m k b) a = if a = k then b else memByte m a := Map.get_set memDefault m k b a

theorem memPut_wf (m : List Host.Cell) (k : Nat) (b : Byte) (h : Memory.wf m = true) : Memory.wf (memPut m k b) = true :=
  Map.wf_set memDefault m k b h

theorem memStore_wf (m : List Host.Cell) (k : Nat) (bs : List Byte) (h : Memory.wf m = true) : Memory.wf (memStore m k bs) = true := by
  induction bs generalizing m k with
  | nil => exact h
  | cons b bs ih => exact ih _ _ (memPut_wf m k b h)

theorem memClear_wf (m : List Host.Cell) (p : Nat → Bool) (h : Memory.wf m = true) : Memory.wf (Map.clear p m) = true :=
  Map.wf_clear memDefault m p h

/-- Memory with nothing listed, as at reset and after a loss of main power. -/
theorem memNil_wf : Memory.wf [] = true := Map.wf_nil memDefault

/-- A byte below what is stored. -/
theorem memByte_memStore_below (m : List Host.Cell) (k : Nat) (bs : List Byte) (a : Nat) (h : a < k) :
    memByte (memStore m k bs) a = memByte m a := by
  induction bs generalizing m k with
  | nil => rfl
  | cons b bs ih => rw [memStore, ih _ _ (by omega), memByte_memPut, if_neg (by omega)]

/-! The five operations of the device that change memory: a word of the hold, a line of external memory, the wipe of ergs, the clearing of an
interval of external memory, a destructive march; memory after each is one of the forms above. -/

variable (d : Dev)

theorem Dev.putArrayWord_mem_wf (wi : Nat) (x : Spare) (h : Memory.wf d.mem = true) : Memory.wf (d.putArrayWord wi x).mem = true :=
  memStore_wf _ _ _ h

theorem Dev.storeLine_mem_wf (a : Nat) (b chk : List Byte) (h : Memory.wf d.mem = true) :
    Memory.wf (d.storeLine a b chk).mem = true := memStore_wf _ _ _ (memStore_wf _ _ _ h)

theorem Dev.wipeErgs_mem_wf (es : List Nat) (h : Memory.wf d.mem = true) : Memory.wf (d.wipeErgs es).mem = true := by
  simp only [Dev.wipeErgs]
  exact memClear_wf d.mem _ h

theorem Dev.clearExt_mem_wf (lo hi : Nat) (h : Memory.wf d.mem = true) : Memory.wf (d.clearExt lo hi).mem = true := by
  simp only [Dev.clearExt]
  exact memClear_wf d.mem _ h

theorem Dev.marchZero_mem_wf (e n : Nat) (h : Memory.wf d.mem = true) : Memory.wf (d.marchZero e n).mem = true := by
  simp only [Dev.marchZero]
  exact memClear_wf d.mem _ h

/-- Reset's memory is in canonical form. -/
theorem reset_mem_wf : Memory.wf State.reset.dev.mem = true := memNil_wf

end Sys2Proof.Machine
end

