-- ==== Sys2Proof/Laws/Settle.lean ====
section
/-! SUPPORT. Laws/Settle.lean: what an event and the settling of the outputs leave alone. An event changes EVT_STATUS of its block; through
the event breakpoint it may also leave a halt pending, with its flag on the causeway links. Settling changes the output pins, the vectors, the sources of
the jetty lines, and what the MOOR_ON events of ports change. -/

namespace Sys2Proof.Machine

/-- A causeway block (R217). -/
def isCw (b : Nat) : Prop := 0x18 ≤ b ∧ b < 0x28

/-- A jetty block (R217). -/
def isJp (b : Nat) : Prop := 0x28 ≤ b ∧ b < 0x30

/-- What an observation `p` of the device must overlook to be left alone by an event of a block of which `ev` holds. -/
structure Overlooks {β : Type} (p : Dev → β) (ev : Nat → Prop) : Prop where
  evt : ∀ s b w, ev b ∨ isCw b → p (s.setReg b O.EVT_STATUS w) = p s
  dbg : ∀ s w, p (s.setReg B.DBG O.DBG_STAT w) = p s
  run : ∀ s : Dev, ∀ h t, p { s with run := { s.run with haltAt := h, haltTide := t } } = p s
  flags : ∀ s : Dev, ∀ x, p { s with tide := { s.tide with flags := x } } = p s
  link : ∀ s n l, p (s.setLink n l) = p s

variable {β : Type} {p : Dev → β} {ev : Nat → Prop}

theorem foldl_keeps {α : Type} (f : Dev → α → Dev) (l : List α) (h : ∀ s, ∀ a ∈ l, p (f s a) = p s) (s : Dev) :
    p (l.foldl f s) = p s := by
  induction l generalizing s with
  | nil => rfl
  | cons a l ih =>
    rw [List.foldl_cons, ih (fun s b hb => h s b (List.mem_cons_of_mem _ hb)), h s a (List.mem_cons_self)]

theorem raiseBit_keeps (o : Overlooks p ev) (s : Dev) (b n : Nat) (hb : ev b ∨ isCw b) : p (s.raiseBit b n) = p s := by
  unfold Dev.raiseBit
  split
  · rfl
  · exact o.evt _ _ _ hb

theorem sendFlag_keeps (o : Overlooks p ev) (s : Dev) (code target coord : Nat) (from_ : Option Nat) :
    p (s.sendFlag code target coord from_) = p s := by
  unfold Dev.sendFlag
  refine (foldl_keeps (p := p) _ _ ?_ _).trans (o.flags _ _)
  · intro s n hn
    have hc : isCw (B.CW n) := by
      have := List.mem_range.1 (List.mem_filter.1 hn).1
      simp only [isCw, B.CW]; omega
    dsimp only
    split
    · rw [raiseBit_keeps o _ _ _ (Or.inr hc), o.link]
    · rw [o.link]

theorem haltAt_keeps (o : Overlooks p ev) (s : Dev) (t : Nat) (l : Bool) (c : Nat) : p (s.haltAt t l c) = p s := by
  unfold Dev.haltAt
  split
  · rfl
  · split
    · split
      · rfl
      · split
        · exact o.run _ _ _
        · exact o.run _ _ _
    · exact (o.run _ _ _).trans (o.dbg _ _)

theorem haltRequest_keeps (o : Overlooks p ev) (s : Dev) (l : Bool) (k : Nat) : p (s.haltRequest l k) = p s := by
  unfold Dev.haltRequest
  split
  · rfl
  · split
    · dsimp only
      rw [apply_ite p, sendFlag_keeps o, haltAt_keeps o, ite_self]
    · exact haltAt_keeps o _ _ _ _

/-- What an event leaves alone. -/
theorem event_keeps (o : Overlooks p ev) (s : Dev) (b n : Nat) (hb : ev b ∨ isCw b) : p (s.event b n) = p s := by
  unfold Dev.event
  dsimp only
  split
  · rw [haltRequest_keeps o, raiseBit_keeps o _ _ _ hb]
  · exact raiseBit_keeps o _ _ _ hb

/-- What settling must be overlooked by, besides. -/
structure OverlooksOut {β : Type} (p : Dev → β) : Prop where
  ev : Overlooks p isJp
  port : ∀ s : Dev, ∀ x, p { s with ports := x } = p s
  out : ∀ s : Dev, ∀ x a q, p { s with pins := x, pcie := { s.pcie with asserted := a, owed := q } } = p s

theorem settlePorts_keeps (o : OverlooksOut p) (s : Dev) : p s.settlePorts = p s := by
  unfold Dev.settlePorts
  dsimp only
  refine (foldl_keeps (p := p) _ _ ?_ _).trans (o.port s _)
  intro s' e _
  refine event_keeps o.ev _ _ _ (.inl ?_)
  simp only [isJp, B.JP]; omega

/-- What the settling of the outputs leaves alone. -/
theorem settle_keeps (o : OverlooksOut p) (s : Dev) : p s.settle = p s := by
  rw [← settlePorts_keeps o s]
  unfold Dev.settle Dev.settleOutputs
  dsimp only
  exact o.out _ _ _ _

/-- A register whose EVT_STATUS is not concerned: no event changes it. -/
theorem reg_overlooks (b o : Nat) (hb : o < blockBytes) (ho : o ≠ O.EVT_STATUS) (hd : b ≠ B.DBG ∨ o ≠ O.DBG_STAT) (ev : Nat → Prop) :
    Overlooks (fun s : Dev => s.reg b o) ev where
  evt s c w _ := Dev.reg_setReg_ne s _ _ _ _ _ (fun h => ho (window_inj hb (by decide) h).2)
  dbg s w := Dev.reg_setReg_ne s _ _ _ _ _ (fun h => by
    obtain ⟨h1, h2⟩ := window_inj hb (by decide) h
    exact hd.elim (· h1) (· h2))
  run _ _ _ := rfl
  flags _ _ := rfl
  link _ _ _ := rfl

/-- Settling changes no register but EVT_STATUS of the jetty and causeway blocks and DBG_STAT. -/
theorem settle_reg (s : Dev) (b o : Nat) (hb : o < blockBytes) (ho : o ≠ O.EVT_STATUS) (hd : b ≠ B.DBG ∨ o ≠ O.DBG_STAT) :
    s.settle.reg b o = s.reg b o :=
  settle_keeps (p := fun s : Dev => s.reg b o)
    ⟨reg_overlooks b o hb ho hd _, fun _ _ => rfl, fun _ _ _ _ => rfl⟩ s

/-- EVT_STATUS of a block that is neither a jetty's nor a causeway's. -/
theorem settle_evt (s : Dev) (b : Nat) (hj : ¬ isJp b) (hc : ¬ isCw b) : s.settle.reg b O.EVT_STATUS = s.reg b O.EVT_STATUS :=
  settle_keeps (p := fun s : Dev => s.reg b O.EVT_STATUS)
    ⟨⟨fun s c w h => Dev.reg_setReg_ne s _ _ _ _ _ (fun e => by
        obtain ⟨h1, _⟩ := window_inj (by decide) (by decide) e
        subst h1; exact h.elim hj hc),
      fun s w => Dev.reg_setReg_ne s _ _ _ _ _ (fun e => by
        obtain ⟨_, h2⟩ := window_inj (by decide) (by decide) e
        exact absurd h2 (by decide)),
      fun _ _ _ => rfl, fun _ _ => rfl, fun _ _ _ => rfl⟩, fun _ _ => rfl, fun _ _ _ _ => rfl⟩ s

/-- Settling changes no field of such a register. -/
theorem settle_fld (s : Dev) (b : Nat) (f : Fld) (hb : f.off < blockBytes) (ho : f.off ≠ O.EVT_STATUS)
    (hd : b ≠ B.DBG ∨ f.off ≠ O.DBG_STAT) : s.settle.fld b f = s.fld b f := by
  rw [Dev.fld, settle_reg s b f.off hb ho hd, Dev.fld]

@[simp] theorem settle_mode (s : Dev) : s.settle.mode = s.mode := by
  simp only [Dev.mode, Dev.fld]
  rw [settle_reg s B.LH F.LH_MODE_MODE.off (by decide) (by decide) (Or.inl (by decide))]

@[simp] theorem settle_mem (s : Dev) : s.settle.mem = s.mem :=
  settle_keeps (p := fun s : Dev => s.mem) ⟨⟨fun _ _ _ _ => rfl, fun _ _ => rfl, fun _ _ _ => rfl, fun _ _ => rfl, fun _ _ _ => rfl⟩,
    fun _ _ => rfl, fun _ _ _ _ => rfl⟩ s
@[simp] theorem settle_reply (s : Dev) : s.settle.reply = s.reply :=
  settle_keeps (p := fun s : Dev => s.reply) ⟨⟨fun _ _ _ _ => rfl, fun _ _ => rfl, fun _ _ _ => rfl, fun _ _ => rfl, fun _ _ _ => rfl⟩,
    fun _ _ => rfl, fun _ _ _ _ => rfl⟩ s
@[simp] theorem settle_replyBytes (s : Dev) : s.settle.replyBytes = s.replyBytes :=
  settle_keeps (p := fun s : Dev => s.replyBytes) ⟨⟨fun _ _ _ _ => rfl, fun _ _ => rfl, fun _ _ _ => rfl, fun _ _ => rfl, fun _ _ _ => rfl⟩,
    fun _ _ => rfl, fun _ _ _ _ => rfl⟩ s
@[simp] theorem settle_free (s : Dev) : s.settle.free = s.free :=
  settle_keeps (p := fun s : Dev => s.free) ⟨⟨fun _ _ _ _ => rfl, fun _ _ => rfl, fun _ _ _ => rfl, fun _ _ => rfl, fun _ _ _ => rfl⟩,
    fun _ _ => rfl, fun _ _ _ _ => rfl⟩ s
@[simp] theorem settle_flipArmed (s : Dev) : s.settle.flipArmed = s.flipArmed :=
  settle_keeps (p := fun s : Dev => s.flipArmed) ⟨⟨fun _ _ _ _ => rfl, fun _ _ => rfl, fun _ _ _ => rfl, fun _ _ => rfl, fun _ _ _ => rfl⟩,
    fun _ _ => rfl, fun _ _ _ _ => rfl⟩ s
@[simp] theorem settle_part (s : Dev) : s.settle.part = s.part :=
  settle_keeps (p := fun s : Dev => s.part) ⟨⟨fun _ _ _ _ => rfl, fun _ _ => rfl, fun _ _ _ => rfl, fun _ _ => rfl, fun _ _ _ => rfl⟩,
    fun _ _ => rfl, fun _ _ _ _ => rfl⟩ s
@[simp] theorem settle_stack (s : Dev) : s.settle.stack = s.stack :=
  settle_keeps (p := fun s : Dev => s.stack) ⟨⟨fun _ _ _ _ => rfl, fun _ _ => rfl, fun _ _ _ => rfl, fun _ _ => rfl, fun _ _ _ => rfl⟩,
    fun _ _ => rfl, fun _ _ _ _ => rfl⟩ s
@[simp] theorem settle_wire (s : Dev) : s.settle.wire = s.wire :=
  settle_keeps (p := fun s : Dev => s.wire) ⟨⟨fun _ _ _ _ => rfl, fun _ _ => rfl, fun _ _ _ => rfl, fun _ _ => rfl, fun _ _ _ => rfl⟩,
    fun _ _ => rfl, fun _ _ _ _ => rfl⟩ s
@[simp] theorem settle_clk (s : Dev) : s.settle.clk = s.clk :=
  settle_keeps (p := fun s : Dev => s.clk) ⟨⟨fun _ _ _ _ => rfl, fun _ _ => rfl, fun _ _ _ => rfl, fun _ _ => rfl, fun _ _ _ => rfl⟩,
    fun _ _ => rfl, fun _ _ _ _ => rfl⟩ s
@[simp] theorem settle_sec (s : Dev) : s.settle.sec = s.sec :=
  settle_keeps (p := fun s : Dev => s.sec) ⟨⟨fun _ _ _ _ => rfl, fun _ _ => rfl, fun _ _ _ => rfl, fun _ _ => rfl, fun _ _ _ => rfl⟩,
    fun _ _ => rfl, fun _ _ _ _ => rfl⟩ s
@[simp] theorem settle_log (s : Dev) : s.settle.log = s.log :=
  settle_keeps (p := fun s : Dev => s.log) ⟨⟨fun _ _ _ _ => rfl, fun _ _ => rfl, fun _ _ _ => rfl, fun _ _ => rfl, fun _ _ _ => rfl⟩,
    fun _ _ => rfl, fun _ _ _ _ => rfl⟩ s
@[simp] theorem settle_bist (s : Dev) : s.settle.bist = s.bist :=
  settle_keeps (p := fun s : Dev => s.bist) ⟨⟨fun _ _ _ _ => rfl, fun _ _ => rfl, fun _ _ _ => rfl, fun _ _ => rfl, fun _ _ _ => rfl⟩,
    fun _ _ => rfl, fun _ _ _ _ => rfl⟩ s
@[simp] theorem settle_fab (s : Dev) : s.settle.fab = s.fab :=
  settle_keeps (p := fun s : Dev => s.fab) ⟨⟨fun _ _ _ _ => rfl, fun _ _ => rfl, fun _ _ _ => rfl, fun _ _ => rfl, fun _ _ _ => rfl⟩,
    fun _ _ => rfl, fun _ _ _ _ => rfl⟩ s
@[simp] theorem settle_berths (s : Dev) : s.settle.berths = s.berths :=
  settle_keeps (p := fun s : Dev => s.berths) ⟨⟨fun _ _ _ _ => rfl, fun _ _ => rfl, fun _ _ _ => rfl, fun _ _ => rfl, fun _ _ _ => rfl⟩,
    fun _ _ => rfl, fun _ _ _ _ => rfl⟩ s
@[simp] theorem settle_ergs (s : Dev) : s.settle.ergs = s.ergs :=
  settle_keeps (p := fun s : Dev => s.ergs) ⟨⟨fun _ _ _ _ => rfl, fun _ _ => rfl, fun _ _ _ => rfl, fun _ _ => rfl, fun _ _ _ => rfl⟩,
    fun _ _ => rfl, fun _ _ _ _ => rfl⟩ s
@[simp] theorem settle_cfg (s : Dev) : s.settle.cfg = s.cfg :=
  settle_keeps (p := fun s : Dev => s.cfg) ⟨⟨fun _ _ _ _ => rfl, fun _ _ => rfl, fun _ _ _ => rfl, fun _ _ => rfl, fun _ _ _ => rfl⟩,
    fun _ _ => rfl, fun _ _ _ _ => rfl⟩ s
@[simp] theorem settle_nv (s : Dev) : s.settle.nv = s.nv :=
  settle_keeps (p := fun s : Dev => s.nv) ⟨⟨fun _ _ _ _ => rfl, fun _ _ => rfl, fun _ _ _ => rfl, fun _ _ => rfl, fun _ _ _ => rfl⟩,
    fun _ _ => rfl, fun _ _ _ _ => rfl⟩ s
@[simp] theorem settle_hold (s : Dev) : s.settle.hold = s.hold :=
  settle_keeps (p := fun s : Dev => s.hold) ⟨⟨fun _ _ _ _ => rfl, fun _ _ => rfl, fun _ _ _ => rfl, fun _ _ => rfl, fun _ _ _ => rfl⟩,
    fun _ _ => rfl, fun _ _ _ _ => rfl⟩ s
@[simp] theorem settle_net (s : Dev) : s.settle.net = s.net :=
  settle_keeps (p := fun s : Dev => s.net) ⟨⟨fun _ _ _ _ => rfl, fun _ _ => rfl, fun _ _ _ => rfl, fun _ _ => rfl, fun _ _ _ => rfl⟩,
    fun _ _ => rfl, fun _ _ _ _ => rfl⟩ s
@[simp] theorem settle_ext (s : Dev) : s.settle.ext = s.ext :=
  settle_keeps (p := fun s : Dev => s.ext) ⟨⟨fun _ _ _ _ => rfl, fun _ _ => rfl, fun _ _ _ => rfl, fun _ _ => rfl, fun _ _ _ => rfl⟩,
    fun _ _ => rfl, fun _ _ _ _ => rfl⟩ s
@[simp] theorem settle_mce (s : Dev) : s.settle.mce = s.mce :=
  settle_keeps (p := fun s : Dev => s.mce) ⟨⟨fun _ _ _ _ => rfl, fun _ _ => rfl, fun _ _ _ => rfl, fun _ _ => rfl, fun _ _ _ => rfl⟩,
    fun _ _ => rfl, fun _ _ _ _ => rfl⟩ s
@[simp] theorem settle_lgts (s : Dev) : s.settle.lgts = s.lgts :=
  settle_keeps (p := fun s : Dev => s.lgts) ⟨⟨fun _ _ _ _ => rfl, fun _ _ => rfl, fun _ _ _ => rfl, fun _ _ => rfl, fun _ _ _ => rfl⟩,
    fun _ _ => rfl, fun _ _ _ _ => rfl⟩ s
@[simp] theorem settle_eth (s : Dev) : s.settle.eth = s.eth :=
  settle_keeps (p := fun s : Dev => s.eth) ⟨⟨fun _ _ _ _ => rfl, fun _ _ => rfl, fun _ _ _ => rfl, fun _ _ => rfl, fun _ _ _ => rfl⟩,
    fun _ _ => rfl, fun _ _ _ _ => rfl⟩ s
@[simp] theorem settle_pwr (s : Dev) : s.settle.pwr = s.pwr :=
  settle_keeps (p := fun s : Dev => s.pwr) ⟨⟨fun _ _ _ _ => rfl, fun _ _ => rfl, fun _ _ _ => rfl, fun _ _ => rfl, fun _ _ _ => rfl⟩,
    fun _ _ => rfl, fun _ _ _ _ => rfl⟩ s
@[simp] theorem settle_thm (s : Dev) : s.settle.thm = s.thm :=
  settle_keeps (p := fun s : Dev => s.thm) ⟨⟨fun _ _ _ _ => rfl, fun _ _ => rfl, fun _ _ _ => rfl, fun _ _ => rfl, fun _ _ _ => rfl⟩,
    fun _ _ => rfl, fun _ _ _ _ => rfl⟩ s
@[simp] theorem settle_wear (s : Dev) : s.settle.wear = s.wear :=
  settle_keeps (p := fun s : Dev => s.wear) ⟨⟨fun _ _ _ _ => rfl, fun _ _ => rfl, fun _ _ _ => rfl, fun _ _ => rfl, fun _ _ _ => rfl⟩,
    fun _ _ => rfl, fun _ _ _ _ => rfl⟩ s
@[simp] theorem settle_psw (s : Dev) : s.settle.psw = s.psw :=
  settle_keeps (p := fun s : Dev => s.psw) ⟨⟨fun _ _ _ _ => rfl, fun _ _ => rfl, fun _ _ _ => rfl, fun _ _ => rfl, fun _ _ _ => rfl⟩,
    fun _ _ => rfl, fun _ _ _ _ => rfl⟩ s

/-- The ports after every listed one has taken its source. -/
theorem fold_ports (s : Dev) (ps : List Nat) (m : Map PortSt) (p : Nat) :
    Map.get (fun _ => {}) (ps.foldl (fun m p => Map.set (fun _ => {}) m p { s.port p with txSrc := s.portSource p }) m) p =
      if p ∈ ps then { s.port p with txSrc := s.portSource p } else Map.get (fun _ => {}) m p := by
  induction ps generalizing m with
  | nil => simp
  | cons a l ih =>
    rw [List.foldl_cons, ih, Map.get_set]
    by_cases h : p ∈ l
    · simp [h]
    · by_cases h2 : p = a
      · subst h2; simp
      · simp [h, h2]

/-- A port that nothing has configured is in electrical idle. -/
theorem portSource_default (s : Dev) (p : Nat) (h : s.port p = {}) : s.portSource p = .idle := by
  simp [Dev.portSource, h]

/-- Settling changes of a port its source, which becomes the one R362 gives it. -/
theorem settle_port (s : Dev) (p : Nat) : s.settle.port p = { s.port p with txSrc := s.portSource p } := by
  have e : s.settle.port p = s.settlePorts.port p := rfl
  rw [e]
  unfold Dev.settlePorts
  dsimp only
  have k := foldl_keeps (p := fun s : Dev => s.port p) (fun s p => s.event (B.JP (p / 32 % 8)) 5)
    (List.filter (fun p => (s.port p).txSrc == .slots && s.portSource p != .slots) (List.map (fun x => x.1) s.ports))
    (fun s' a _ => event_keeps (p := fun s : Dev => s.port p) (ev := isJp) ⟨fun _ _ _ _ => rfl, fun _ _ => rfl, fun _ _ _ => rfl, fun _ _ => rfl, fun _ _ _ => rfl⟩ s' (B.JP (a / 32 % 8)) 5
      (.inl (by dsimp only [isJp, B.JP]; constructor <;> omega)))
  refine (k _).trans ?_
  show Map.get _ _ p = _
  rw [fold_ports]
  split
  · rfl
  · rename_i h
    have hd : s.port p = {} := Map.get_of_not_mem _ _ _ h
    rw [portSource_default s p hd, hd]
    exact hd
/-- Settling leaves the source that a port should have. -/
theorem settle_portSource (s : Dev) (p : Nat) : s.settle.portSource p = s.portSource p := by
  unfold Dev.portSource Dev.ergRuns Dev.erg
  rw [settle_port, settle_clk, settle_mode, settle_ergs]
end Sys2Proof.Machine
end

