-- ==== Sys2Proof/Laws/Statuses.lean ====
section
/-! SUPPORT. Laws/Statuses.lean: what counting, ending a command with a status, and an event's bit do to the registers, each said once. -/

namespace Sys2Proof.Machine

variable (s : Dev)

theorem satAdd_lt (w a b : Nat) : satAdd w a b < 2 ^ w := by
  have : 0 < 2 ^ w := Nat.two_pow_pos w
  unfold satAdd
  omega

/-- A counter goes up by one and stops at its highest value (R17). -/
theorem Dev.fld_count (b : Nat) (f : Fld) (hf : f.lo + f.w ≤ 32) : (s.count b f).fld b f = satAdd f.w (s.fld b f) 1 := by
  rw [Dev.count, Dev.addFld, Dev.fld_setFld _ _ _ _ hf, Nat.mod_eq_of_lt (satAdd_lt _ _ _)]

/-- Counting changes no other register. -/
theorem Dev.reg_count_ne (b b' : Nat) (f : Fld) (o : Nat) (h : blockBytes * b' + o ≠ blockBytes * b + f.off) :
    (s.count b f).reg b' o = s.reg b' o := Dev.reg_setFld_ne _ _ _ _ _ _ h

/-- Counting changes no other field of the counter's register. -/
theorem Dev.fld_count_field (b : Nat) (f g : Fld) (hf : f.lo + f.w ≤ 32) (ho : g.off = f.off) (hd : g.lo + g.w ≤ f.lo ∨ f.lo + f.w ≤ g.lo) :
    (s.count b f).fld b g = s.fld b g := Dev.fld_setFld_field _ _ _ _ _ hf ho hd

/-- The status a command ended with stands in LAST_STATUS (R8). -/
theorem Dev.fld_finish (b : Nat) (st : Status) : (s.finish b st).fld b F.BLK_STATUS_LAST_STATUS = st.code := by
  have h : (s.done b st).fld b F.BLK_STATUS_LAST_STATUS = st.code := by
    rw [Dev.done, Dev.fld_setFld _ _ _ _ (by decide)]
    cases st <;> rfl
  unfold Dev.finish
  split
  · rw [Dev.refuse, Dev.fld_count_field _ b F.BLK_STATUS_REFUSE_CNT F.BLK_STATUS_LAST_STATUS (by decide) rfl (.inl (by decide)), h]
  · exact h

/-- STATE counts once in REFUSE_CNT, another status does not (R15). -/
theorem Dev.refuseCnt_finish (b : Nat) (st : Status) : (s.finish b st).fld b F.BLK_STATUS_REFUSE_CNT =
    if st = .state then satAdd F.BLK_STATUS_REFUSE_CNT.w (s.fld b F.BLK_STATUS_REFUSE_CNT) 1 else s.fld b F.BLK_STATUS_REFUSE_CNT := by
  have h : (s.done b st).fld b F.BLK_STATUS_REFUSE_CNT = s.fld b F.BLK_STATUS_REFUSE_CNT :=
    Dev.fld_setFld_field _ _ _ _ _ (by decide) rfl (.inr (by decide))
  unfold Dev.finish
  split
  · rw [Dev.refuse, Dev.fld_count _ _ _ (by decide), h]
  · exact h

/-- The end of a command changes no register but BLK_STATUS of its block. -/
theorem Dev.reg_finish_ne (b b' : Nat) (st : Status) (o : Nat) (h : blockBytes * b' + o ≠ blockBytes * b + O.BLK_STATUS) :
    (s.finish b st).reg b' o = s.reg b' o := by
  have h1 : (s.done b st).reg b' o = s.reg b' o := Dev.reg_setFld_ne _ _ _ _ _ _ h
  unfold Dev.finish
  split
  · rw [Dev.refuse, Dev.reg_count_ne _ _ _ _ _ h, h1]
  · exact h1

/-- An event's bit stands after it is raised, unless the block's clock is gated (R8, R456). -/
theorem Dev.nbit_raiseBit (b n : Nat) (hn : n < 32) (hg : s.gated b = false) :
    nbit ((s.raiseBit b n).reg b O.EVT_STATUS).toNat n = true := by
  have hlt : 2 ^ n < 2 ^ 32 := Nat.pow_lt_pow_right (by decide) hn
  rw [Dev.raiseBit, hg, if_neg (by decide), Dev.reg_setReg, nbit_testBit, BitVec.toNat_or, Nat.testBit_or, BitVec.toNat_ofNat,
    Nat.mod_eq_of_lt hlt, Nat.testBit_two_pow_self, Bool.or_true]

end Sys2Proof.Machine
end

