-- ==== Sys2Proof/Tests/Slice0.lean ====
section
/-! SUPPORT. Tests/Slice0.lean: the model's own tests. Ill-formed commands that WellFormed refuses; for each statement of
Certificates/Slice0/Obligations.lean with hypotheses, states and operands that meet them, clause by clause; values the spec states. -/

namespace Sys2Proof.Tests

open Sys2Proof Sys2Proof.Machine

/-! ### States to test on -/

/-- A booted device in a mode. -/
def dev (m : Mode) : Dev := ({ clk := { mainPower := true, phase := .done } } : Dev).setFld B.LH F.LH_MODE_MODE m.code

/-- Nothing waits. -/
def st (d : Dev) : State := ⟨d, []⟩

/-- A device in Underway whose erg 0 runs, at a tick of tide 5. -/
def sailing (tick : Nat) : Dev :=
  { dev .underway with ergs := [(0, { mode := .running })], tide := { num := 5, tick, count := 1000, activated := true, started := true } }

theorem shows (d : Dev) (h1 : d.pins.irq = d.irqBlocks) (h2 : d.pcie.asserted = d.vectorsOf d.irqBlocks)
    (h3 : d.pins.cfgErrLow = (d.mode == .aground)) (h4 : d.pins.clkmon = d.clkmonPin)
    (h5 : d.ports.all (fun e => (d.port e.1).txSrc == d.portSource e.1) = true) : OutputsShow d := by
  refine ⟨h1, h2, h3, h4, fun p => ?_⟩
  by_cases h : p ∈ d.ports.map (·.1)
  · obtain ⟨e, he, rfl⟩ := List.mem_map.1 h
    simpa using List.all_eq_true.1 h5 e he
  · have hd : d.port p = {} := Map.get_of_not_mem _ _ _ h
    rw [portSource_default d p hd, hd]

/-! ### Ill-formed commands -/

theorem test_peek_host : Instr.wellFormed (.pswMaxRead .host true) = false := by decide

/-! ### Witnesses: the header, tides, berths

Each theorem shows states and operands that meet the hypotheses of the clauses of the statement it is named after, clause by clause. -/

theorem shows_moored : OutputsShow (dev .moored) := shows _ (by decide) (by decide) (by decide) (by decide) (by decide)
theorem shows_sailing : OutputsShow (sailing 750) := shows _ (by decide) (by decide) (by decide) (by decide) (by decide)

theorem witness_BlockHeaderCommands : (blkKind (0x10 : BitVec 8).toNat).isSome = true ∧
    (dev .moored).writes .host 0x10 O.BLK_CTRL (withField 0 31 1 1) ∧ (dev .moored).writes .host 0x10 O.BLK_CTRL (withField 0 1 1 1) ∧
    (dev .moored).writes .host 0x10 O.EVT_FORCE 0xFFFFFFFF ∧ (dev .moored).writes .host 0x10 O.ECC_FLIP_LO 1 ∧ flips 0x10 = true ∧
    (dev .moored).clk.mainPower = true ∧ (dev .moored).fld 0x10 F.EVT_BUCKET_LEAK ≠ 15 := by
  unfold Dev.writes; decide

/-- A declaration of berth 0 into berth 1's release buffer, in every tide. -/
def decl0 : Decl := ⟨0, 0, 0, false, 0x002000100000, 64, 1, 0, 20, 2, 0⟩

/-- Moored, with tides that may start. -/
def ready (t : TideSt) : Dev := { dev .moored with tide := { t with activated := true } }

theorem witness_TideCommands : ¬ 0 ∈ (sailing 750).clk.applying ∧
    (dev .moored).mode.ticks = true ∧ (dev .moored).tide.xing = [] ∧ (dev .moored).hold.banks = [] ∧
    (sailing 749).mode = .underway ∧ (sailing 749).tide.tick < (sailing 749).tideLen ∧ (dev .moored).mode = .moored ∧
    (sailing 750).tide.tick = (sailing 750).tideLen ∧
    ((ready { started := true, armed := some 0 }).mode = .moored ∧ 0 ≤ (ready { started := true, armed := some 0 }).ns) ∧
    ((ready {}).writes .host B.TIDE O.TIDE_CTRL (withField 0 0 2 1) ∧ (ready {}).tide.activated = true ∧ (ready {}).tide.started = false ∧
      nbit (withField 0 0 2 1).toNat 2 = false ∧
      ((ready {}).storeReg B.TIDE O.TIDE_CTRL (withField 0 0 2 1)).flag B.TIDE F.TIDE_CTRL_MASTER = false ∧
      ((ready {}).storeReg B.TIDE O.TIDE_CTRL (withField 0 0 2 1)).flag B.TIDE F.TIDE_CTRL_FOLLOW = false) ∧
    ((ready { started := true }).writes .host B.TIDE O.TIDE_CTRL (withField 0 0 2 2) ∧ (ready { started := true }).tide.started = true) ∧
    ((sailing 1).writes .host B.TIDE O.TIDE_CTRL (withField 0 0 2 2) ∧ (sailing 1).tide.stopAt = none) := by
  unfold Dev.writes; decide

theorem witness_TideRegisters : RegSrc.peeks .host true = false ∧
    (dev .moored).writes .host B.TIDE O.TIDE_CTRL (withField 0 2 1 1) ∧ (withField 0 2 1 1).toNat % 4 = 0 ∧
    (dev .moored).reads .host B.TIDE O.TIDE_NUM_LO ∧ (dev .moored).reads .host B.TIDE O.TURN_TIME_LO ∧
    (dev .moored).reads .host B.TIDE O.TIDE_SKEW ∧
    (ready { decls := [decl0] }).writes .host B.ADM O.ADM_BOUND_SEL 0 ∧ (0 : Word).toNat % 8192 < (ready { decls := [decl0] }).tide.decls.length ∧
    (ready { decls := [decl0] }).writes .host B.ADM O.ADM_BOUND_SEL 1 ∧ (ready { decls := [decl0] }).tide.decls.length ≤ (1 : Word).toNat % 8192 := by
  unfold Dev.writes Dev.reads; decide

/-- Dune 5 of erg 0 is in use by the image in effect. -/
def inUse5 : Dev := { sailing 3 with cfg := { live := [{ ergMask := 1, useMaps := [(0, some 32)] }] } }

theorem witness_TideEvents :
    (bundleExists (2 + 128 * 5) = true ∧ ((dev .moored).bundle (2 + 128 * 5)).sentinel = true ∧ (dev .moored).inUse 0 5 = false ∧
      inUse5.inUse (bErg (2 + 128 * 5)) (bDune (2 + 128 * 5)) = true) ∧
    (let d := { sailing 3 with tide := { (sailing 3).tide with xing := [(0, [⟨1, 9, .rowCommand 0 0 0 true⟩])] } }
     d.mode ≠ .quarantine ∧ Map.get (fun _ => []) d.tide.xing (0 : Fin 34320).val = [⟨1, 9, .rowCommand 0 0 0 true⟩] ∧
      Map.get (fun _ => []) d.net.crossing (0 : Fin 34320).val = [] ∧ 9 ≤ d.tide.count) ∧
    (let d := { sailing 20 with tide := { (sailing 20).tide with decls := [decl0], gates := [(gateKey 0 5, .held 1 2 [7])] } }
     d.tide.decls[0]? = some decl0 ∧ d.mode = .underway ∧ d.tide.tick = decl0.issueTick ∧ decl0.issues d.tide.num = true ∧
      d.gate 0 d.tide.num = .held 1 2 [7] ∧ d.ergRuns 0 = true) ∧
    (let t : Transfer := { decl := 0, issueTide := 4, releaseTide := 6, berth := 1, kind := 0 }
     let d := { sailing 20 with tide := { (sailing 20).tide with decls := [decl0], transfers := [t] } }
     d.tide.transfers.find? (fun t => t.decl == 0 && t.issueTide == 4 && !t.remote) = some t ∧ t.kind ≠ 2 ∧ t.done = false) := by
  decide

/-- Checking an image without declarations: refused while the part lacks something, admitted when nothing is amiss. -/
def checking (i : Image) : Dev :=
  { ((dev .moored).setFld B.CFG F.CFG_PIPE_STATE 2).setFld B.CFG F.CFG_ACT_CTRL_AUTO 0 with cfg := { coming := i } }

/-- A berth of a running erg, with credits. -/
def berthUp (t : Nat) : Dev := { sailing t with
  berths := [(0, { outCredits := 200, rqCredits := 8 })], tide := { (sailing t).tide with decls := [decl0] } }

def bmsg (h : BHdr) (n : Nat := 0) : BMsg := { hdr := h.enc, beats := List.replicate n 0 }

theorem witness_BerthRequests :
    ((berthUp 3).berthTakesMsg 0 (bmsg { op := 1, tag := 7, addr := holdBase, len := 4096 }) 1 ∧
      ((berthUp 3).berthBegun 0 (bmsg { op := 1, tag := 7, addr := holdBase, len := 4096 })).berthDev
        { op := 1, tag := 7, addr := holdBase, len := 4096 } = some 0 ∧ addrBad holdBase 4096 = false) ∧
    ((berthUp 3).berthTakesMsg 0 (bmsg { op := 2, tag := 7, addr := holdBase, len := 33 } 2) 2 ∧
      (bmsg { op := 2, tag := 7, addr := holdBase, len := 33 } 2).beats.length = (33 + 31) / 32 ∧ addrBad holdBase 33 = false) ∧
    ((berthUp 12).berthTakesMsg 0 (bmsg { op := 3, tag := 1, decl := 0, len := 64 } 2) 3 ∧ (berthUp 12).tide.decls[0]? = some decl0 ∧
      decl0.srcBerth = 0 ∧ decl0.live = true ∧ (berthUp 12).tide.tick + 8 < (berthUp 12).tideLen ∧ decl0.issues (berthUp 12).tide.num = true ∧
      (berthUp 12).gate 0 (berthUp 12).tide.num = .idle ∧ (berthUp 12).tide.tick + 8 ≤ decl0.issueTick) ∧
    ((berthUp 3).berthTakesMsg 0 (bmsg { op := 5, tag := 1, addr := holdBase, context := 100 }) 5 ∧ addrBad holdBase 0 = false) ∧
    (berthUp 3).berthTakesMsg 0 (bmsg { op := 6, tag := 1, addr := holdBase }) 6 := by
  unfold Dev.berthTakesMsg Dev.berthPays; decide +kernel

theorem witness_BerthPresentation : (berthUp 3).mode ≠ .quarantine ∧
    (let d := { berthUp 3 with berths := [(0, { outCredits := 9, served := [⟨3, true, 32, 0⟩] })] }
     let m := bmsg { op := 4, len := 32, context := 3 } 1
     d.berthLive 0 = true ∧ d.berthPays 0 m ∧ bhdrClean m.hdr = true ∧ (BHdr.dec m.hdr).op = 4 ∧ (BHdr.dec m.hdr).status ≠ 15 ∧
      m.closed = true ∧ (d.berth 0).served.find? (fun q => q.context == (BHdr.dec m.hdr).context) = some ⟨3, true, 32, 0⟩ ∧
      (BHdr.dec m.hdr).len = 32 ∧ m.beats.length = 1) ∧
    ((berthUp 3).berthLive 0 = true ∧ ((berthUp 3).berth 0).rrLast = none) ∧
    (let d := { berthUp 3 with berths := [(0, { rr := [⟨0, 5, 0, false⟩] })] }
     (d.berth 0).rr = [⟨0, 5, 0, false⟩] ∧ 0 ≤ d.tide.exec ∧ d.iBusy 0 = false) ∧
    (let d := { berthUp 3 with berths := [(0, { rqCredits := 1, inq := [{ src := 1, beats := [5] }] })] }
     (d.berth 0).inq = [{ src := 1, beats := [5] }] ∧ d.presents 0 { src := 1, beats := [5] } ∧ (d.berth 0).rqCredits ≠ 0) ∧
    (let d := { berthUp 3 with berths := [(0, { inq := [{ src := 3, beats := [5] }] })] }
     (d.berth 0).inq = [{ src := 3, beats := [5] }] ∧ d.presents 0 { src := 3, beats := [5] }) ∧
    (let d := { berthUp 8 with berths := [(0, { notes := [⟨4, 4⟩] })] }
     (d.berth 0).notes = [⟨4, 4⟩] ∧ d.berthLive 0 = true ∧ 4 < d.tide.num ∧ 8 ≤ d.tide.tick ∧ (d.iWord 0).getLsbD 267 = false) ∧
    (RegSrc.peeks .host false = false ∧ (berthUp 3).writes .host (B.ERG 0) O.ERG_NOTE_POST (withField 0 4 1 1) ∧ (berthUp 3).takesNotes 0 = true ∧
      ((berthUp 3).berth 0).notes.length < 4) := by
  unfold Dev.writes Dev.berthPays Dev.presents; decide +kernel

theorem witness_TideEvents_admission :
    ((checking {}).pipe = 2 ∧ (checking {}).mode ≠ .quarantine ∧ (checking {}).admitImage (checking {}).cfg.coming = .inr [] ∧
      (checking {}).flag B.CFG F.CFG_ACT_CTRL_AUTO = false) ∧
    (checking { tideLen := some 749 }).pipe = 2 ∧
      (checking { tideLen := some 749 }).admitImage { tideLen := some 749 } = .inl { status := .format, reason := 3 } := by decide +kernel

/-! ### Witnesses: the hold and the network -/

/-- A port's grant at bank 0 of a request at the hold's first bytes. -/
def granted (op len : Nat) (data : List Byte) : ArbReq :=
  { input := 0, msg := { hdr := ({ op, tag := 1, addr := holdBase, len, plen := len, stamp := 0 } : Hdr).enc, data } }
def porting (q : ArbReq) : Dev := { dev .moored with net := { arbs := [(8, { grant := some q })] } }

theorem witness_HoldRowCommands :
    ((sailing 3).mode ≠ .quarantine ∧ ¬ 0 ∈ (sailing 3).clk.applying ∧ ¬ 1 ∈ (sailing 3).clk.applying ∧ (sailing 3).inDock 0 = none ∧ (sailing 3).mode = .underway ∧ (sailing 3).ergRuns 0 = true ∧
      ({ sailing 3 with hold := { banks := [(0, { lastCmd := some 992 })] } } : Dev).pace = 8 ∧
      (({ sailing 3 with hold := { banks := [(0, { lastCmd := some 992 })] } } : Dev).setBank 0 { lastCmd := some 1000 }).rowIgnored 0
        = false) ∧
    (∀ c : RowCmd, c = { lower := true, reg := 1, row := 511, stamp := 992 } ∨ c = { lower := false, reg := 0, row := 0, stamp := 992 } →
      let d := { sailing 3 with hold := { banks := [(0, { cmds := [c] })] } }
      (d.bank 0).cmds = [c] ∧ d.crossed 0 c.stamp = true ∧ c.stamp + 8 ≤ d.tide.count ∧ (d.setBank 0 { d.bank 0 with cmds := [] }).hoistLost 0 = false ∧ (d.setBank 0 { d.bank 0 with cmds := [] }).bankOut 0 = false ∧
      (d.setBank 0 { d.bank 0 with cmds := [] }).wiped 0 = false) ∧
    (let l : Landing := { due := 40, reg := 1, row := {}, stamp := 992 }
     let d : Dev := { sailing 3 with tide := { (sailing 3).tide with exec := 41 }, hold := { banks := [(8191, { landings := [l] })] } }
     (d.bank 8191).landings = [l] ∧ l.due < d.tide.exec ∧ d.crossed (8192 + 8191) l.stamp = true ∧ d.fab.wrote.contains (8191, 1) = false) := by
  refine ⟨by decide +kernel, ?_, by decide +kernel⟩
  rintro c (rfl | rfl) <;> decide +kernel

theorem witness_HoldWordPorts :
    (let q := granted 1 32 []
     (porting q).mode ≠ .quarantine ∧ ¬ 1 ∈ (porting q).clk.applying ∧ (porting q).rowUnderTest 0 = false ∧ ((porting q).arb 8).grant = some q ∧ (porting q).asleep 0 = false ∧
      (porting q).bankRefusal ((porting q).nodeSrc q.msg.h.src) 0 = none ∧ q.msg.h.op = 1) ∧
    (let q := granted 2 8 [1, 2, 3, 4, 5, 6, 7, 8]
     (porting q).bankRefusal ((porting q).nodeSrc q.msg.h.src) 0 = none ∧ q.msg.h.op = 2 ∧ reqWords q.msg.h.addr q.msg.h.len = 1 ∧
      q.served = 0 ∧ fullWord q = true ∧ ((porting q).arb 8).heldFor = 0 ∧ poisonedWord q = false ∧
      (porting q).flipArmed.contains (B.HOLD 0) = false) ∧
    (let q := granted 2 7 [1, 2, 3, 4, 5, 6, 7]
     let x := (porting q).holdWord 0 (reqWord q.msg.h.addr 0).1 (reqWord q.msg.h.addr 0).2
     q.msg.h.op = 2 ∧ fullWord q = false ∧ q.served < reqWords q.msg.h.addr q.msg.h.len ∧ x.value = some 0 ∧ x.correctable = false) ∧
    (let q := granted 2 7 [1, 2, 3, 4, 5, 6, 7]
     let d := { porting q with hold := { syn := [(0, 3)] } }
     (d.arb 8).grant = some q ∧ d.asleep 0 = false ∧ fullWord q = false ∧
      q.served = 0 ∧ q.bad = none ∧ (d.holdWord 0 (reqWord q.msg.h.addr 0).1 (reqWord q.msg.h.addr 0).2).value = none) := by decide +kernel

theorem witness_HoldRemap :
    ((dev .moored).writes .host (B.HOLD 0) O.HOLD_REMAP_CMD (withField 0 0 2 1) ∧
      ({ dev .moored with hold := { remap := [(0, some (511, 31))] } } : Dev).remapAt 0 0 = some (511, 31)) ∧
    ((dev .moored).writes .host (B.HOLD 7) O.HOLD_REMAP_CMD (withField 0x03FF0000 0 2 2) ∧ (dev .moored).spareOf 8191 0 0 = none ∧
      ((dev .moored).freeSpare 8191).isSome = true ∧ (dev .moored).asleep 8191 = false ∧ (dev .moored).marched 8191 = false ∧
      (dev .moored).wiped 8191 = false ∧ Map.get (fun _ => none) (dev .moored).hold.adds 7 = none) ∧
    (let d := { dev .moored with hold := { adds := [(0, some ⟨0, 5, 31⟩)] } }
     ¬ 1 ∈ d.clk.applying ∧ Map.get (fun _ => none) d.hold.adds 0 = some ⟨0, 5, 31⟩ ∧ d.spareOf 0 5 31 = none ∧ d.freeSpare 0 = some 0 ∧
      (d.holdWord 0 5 31).value = some 0) := by
  unfold Dev.writes; decide +kernel

theorem witness_HoldBond :
    (let d : Dev := { sailing 3 with ergs := [(31, { slack := .down })] }
     (d.erg 31).slack.runs = false ∧ (d.erg 31).slack ≠ .waking ∧ d.emulated = false ∧ d.mode ≠ .slack ∧
      ∀ i < 256, (d.bank (256 * 31 + i)).cmds = [] ∧ (d.arb (8 + (256 * 31 + i))).grant = none) ∧
    (let d := { dev .moored with hold := { banks := [(8191, { power := .waking })] } }
     (d.bank 8191).power = .waking ∧ Map.get (fun _ => []) d.net.wake (8191 / 256) = []) ∧
    (let w := withField 0x3F80 0 2 1
     (dev .moored).writes .host (B.HOLD 0) O.HOLD_BOND_CMD w ∧ nbit w.toNat 7 = true ∧ nbit w.toNat 13 = true ∧
      nfield w.toNat 2 5 ≠ nfield w.toNat 8 5 ∧ (dev .moored).hold.bond.ergs = [] ∧
      (∀ e < 32, ((dev .moored).erg e).mode ≠ .running ∧ ((dev .moored).erg e).slack.runs = true) ∧
      (dev .moored).hold.wipe = none) ∧
    (dev .moored).writes .host (B.HOLD 0) O.HOLD_BOND_CMD (withField 0 0 2 2) ∧
    (¬ 1 ∈ ({ dev .moored with hold := { wipe := some {} } } : Dev).clk.applying ∧
      ({ dev .moored with hold := { wipe := some {} } } : Dev).hold.wipe = some {}) := by
  unfold Dev.writes; decide +kernel

/-- A march over erg 31 alone. -/
def marchWord : Word := 0x1FF8

theorem witness_Marches :
    (∀ op ∈ [1, 2], (dev .moored).writes .host B.BIST O.MARCH_CMD (withField marchWord 0 2 op) ∧
      nfield (withField marchWord 0 2 op).toNat 3 5 = 31 ∧ nfield (withField marchWord 0 2 op).toNat 8 5 = 31 ∧
      ((dev .moored).erg 31).mode ≠ .running ∧ ((dev .moored).erg 31).slack.runs = true ∧ (∀ q < 8, ((dev .moored).slot 31 q).st = .free) ∧
      31 ∉ (dev .moored).hold.bond.ergs ∧ (dev .moored).bist.march = none ∧ (dev .moored).bist.ddRun = none) ∧
    (let m : March := ⟨false, true, 31, 31, false⟩
     let d := { dev .moored with bist := { march := some m } }
     d.writes .host B.BIST O.MARCH_CMD (withField 0 0 2 3) ∧ d.bist.march = some m ∧ d.gated B.BIST = false ∧ d.halted B.BIST = false) := by
  unfold Dev.writes; decide +kernel

def scrubbing (r : ScrubRun) : Dev := { dev .moored with hold := { scrub := some r } }

theorem witness_Scrubs : (dev .moored).mode ≠ .quarantine ∧
    (let d := (((dev .moored).setFld B.SCRB F.SCRB_START_ROW 0x3FFFFF).setFld B.SCRB F.SCRB_ROWS_COUNT 1)
     d.writes .host B.SCRB O.SCRB_CMD (withField 0 0 2 1) ∧ 0 < d.fld B.SCRB F.SCRB_ROWS_COUNT ∧
      d.fld B.SCRB F.SCRB_START_ROW + d.fld B.SCRB F.SCRB_ROWS_COUNT = 0x400000 ∧ d.hold.scrub = none) ∧
    ((dev .moored).writes .host B.SCRB O.SCRB_CMD (withField 0 0 2 1) ∧ (dev .moored).fld B.SCRB F.SCRB_ROWS_COUNT = 0 ∧
      (dev .moored).hold.scrub = none) ∧
    (scrubbing { first := 0, count := 1 }).writes .host B.SCRB O.SCRB_CMD (withField 0 0 2 2) ∧
    (let r : ScrubRun := { first := 0x3FFFFF, count := 1 }
     let d := scrubbing r
     ¬ 1 ∈ d.clk.applying ∧ d.hold.scrub = some r ∧ r.next (7 : Fin 8).val = some 0x3FFFFF ∧ d.inDock (0x3FFFFF / 131072) = none ∧
      d.gated B.SCRB = false ∧ d.halted B.SCRB = false ∧ d.scrubSkips (0x3FFFFF / 512) = false ∧ d.scrubFree (0x3FFFFF / 512) = true) ∧
    (let d := (scrubbing { first := 0, count := 1 }).setFld B.SCRB F.SCRB_IDLE_CTRL_EN 1
     d.flag B.SCRB F.SCRB_IDLE_CTRL_EN = true ∧ d.scrubIn 7 = false ∧ d.inDock (quadrantRows * 7 / 131072) = none ∧
      d.scrubSkips (quadrantRows * 7 / 512) = false ∧ d.scrubFree (quadrantRows * 7 / 512) = true) ∧
    (∀ r : ScrubRun, r = { first := 1, count := 1, visited := [(0, 1)] } ∨ r = { first := 1, count := 9, aborted := true } →
      (scrubbing r).hold.scrub = some r ∧ r.over_ = true) ∧
    (let d := { (dev .moored).setFld B.SCRB F.SCRB_IDLE_CTRL_EN 1 with
       hold := { idleRows := (List.range 8).map (fun q => (q, quadrantRows)) } }
     d.flag B.SCRB F.SCRB_IDLE_CTRL_EN = true ∧ ∀ q < 8, quadrantRows ≤ Map.get (fun _ => 0) d.hold.idleRows q) ∧
    (dev .moored).reads .host (B.HOLD 0) O.HOLD_XFER_MAX := by
  unfold Dev.writes Dev.reads
  refine ⟨by decide, by decide +kernel, by decide +kernel, by decide +kernel, by decide +kernel, by decide +kernel, ?_, by decide +kernel,
    by decide +kernel⟩
  rintro r (rfl | rfl) <;> decide +kernel

/-- A message of the host's node, delivered at its target. -/
def msg (h : Hdr) (data : List Byte := []) : Msg := { hdr := h.enc, data }
def reached (m : Msg) : Dev := { dev .moored with net := { delivered := [m] } }
def emptied (m : Msg) : Dev := { reached m with net := { (reached m).net with delivered := dropFirst m (reached m).net.delivered } }

theorem witness_NetworkMessages :
    (∀ op, op = 1 ∨ op = 2 ∨ op = 5 ∨ op = 6 →
      let m := msg { op, tag := 3, addr := holdBase, len := if op < 3 then 8 else 0, plen := if op = 2 then 1 else 0, lease := if op = 5 then 1 else 0 }
        (if op = 2 then [1, 2, 3, 4, 5, 6, 7, 8] else [])
      (reached m).net.delivered.contains m = true ∧ (reached m).mode ≠ .quarantine ∧ (emptied m).malformed m = false ∧ ((emptied m).serveRequest m).isSome = true) ∧
    (let m := msg { op := 1, addr := regWindow, len := 4 }
     addrBad m.h.addr m.h.len = false ∧ addrWin m.h.addr = some .regs ∧
      ((dev .moored).busRead ((dev .moored).nodeSrc m.h.src) m.h.peek (m.h.addr - regWindow)).1.isSome = true) ∧
    (let m := msg { op := 2, addr := regWindow, len := 4 } [1, 2, 3, 4]
     ((dev .moored).busWrite ((dev .moored).nodeSrc m.h.src) (m.h.addr - regWindow) 0x04030201).1.isSome = true) ∧
    (let m := msg { op := 1, addr := holdBase, len := 32 }
     addrWin m.h.addr = some .hold ∧ (dev .moored).gated (B.HOLD (holdBank m.h.addr / 1024)) = false ∧
      (dev .moored).bankSleeps (holdBank m.h.addr) = false ∧ (dev .moored).halted (B.HOLD 0) = false ∧
      (dev .moored).bankRefusal ((dev .moored).nodeSrc m.h.src) (holdBank m.h.addr) = none ∧
      m.h.len ≠ 0 ∧ (dev .moored).lockMeets m = false) := by
  refine ⟨?_, by decide +kernel, by decide +kernel, by decide +kernel⟩
  rintro op (rfl | rfl | rfl | rfl) <;> decide +kernel

theorem witness_NetworkMessages_more :
    (let m := msg { op := 4, tag := 3, dst := (dev .moored).srcNode .host, plen := 0 }
     let o : Out := { src := .host, tag := 3, stamp := 0, op := 2, addr := holdBase, len := 8, dst := 0, cls := 0, deadline := 9 }
     let d := { reached m with net := { (reached m).net with outs := [o] } }
     d.net.delivered.contains m = true ∧ d.malformed m = false ∧ m.h.op = 4 ∧ d.matching m.h = some o ∧ d.srcGated o.src = false ∧
      d.srcHalted o.src = false) ∧
    (∀ op ∈ [7, 8],
      let m := msg { op, addr := 0, len := 64, src := (dev .moored).node 0 0x10 }
      let d := { (reached m) with regs := ((dev .moored).setFld (B.DMC ((dev .moored).dmcOf 0)) F.DMC_STATE_STATE 2).regs }
      d.malformed m = false ∧ addrWin m.h.addr = some .ext ∧ d.beyondUsable (d.dmcOf m.h.addr) m.h.addr m.h.len = false ∧
        2 ≤ d.fld (B.DMC (d.dmcOf m.h.addr)) F.DMC_STATE_STATE ∧ d.gated (B.DMC (d.dmcOf m.h.addr)) = false ∧ m.h.op = op) ∧
    (let m := msg { op := 1, addr := holdBase + 0x2000000 * 31, len := 8 }
     let d := { dev .moored with hold := { wipe := some { ergA := 31, enA := true } } }
     addrWin m.h.addr = some .hold ∧ d.bankSleeps (holdBank m.h.addr) = false ∧ d.gated (B.HOLD (holdBank m.h.addr / 1024)) = false ∧
      d.halted (B.HOLD (holdBank m.h.addr / 1024)) = false ∧
      (d.bankRefusal (d.nodeSrc m.h.src) (holdBank m.h.addr)).isSome = true) ∧
    (let m := msg { op := 2, addr := holdBase, len := 0 }
     m.h.op ≤ 2 ∧ m.h.len = 0) ∧
    (let m := msg { op := 1, addr := holdBase, len := 8 }
     let d := { dev .moored with net := { locks := [(8, [⟨holdBase / 64, 1, 9⟩])] } }
     m.h.len ≠ 0 ∧ m.h.op ≠ 6 ∧ d.lockMeets m = true ∧ (d.lockWaiters (d.lockTable m.h.addr)).length < waitRoom) := by decide +kernel

theorem witness_NetworkTimers :
    (let m := msg { op := 1, dst := (dev .moored).node 24 0, addr := 0, len := 8 }
     let d0 := ({ dev .moored with net := { issued := [(0, [m])] } } : Dev).inject 0 64
     let d := d0.setRouter 0 { d0.router 0 with wheel := (List.range 6).map (fun o => (o, 8)) }
     ¬ 2 ∈ d.clk.applying ∧ d.mode ≠ .quarantine ∧
      wheelPick (Map.get (fun _ => 0) ((d.inject 0 64).router 0).wheel 4) ((d.inject 0 64).candidates 0 4) = none ∧
      ∃ o ∈ List.range 4, wheelPick (Map.get (fun _ => 0) ((d.inject 0 64).router 0).wheel o) ((d.inject 0 64).candidates 0 o) ≠ none) ∧
    (let o : Out := { src := .host, tag := 3, stamp := 0, op := 2, addr := holdBase, len := 8, dst := 0, cls := 0, deadline := 0 }
     let d := { dev .moored with net := { outs := [o] } }
     d.net.outs.find? (fun o => o.src.sameSlots .host && o.tag == 3 && timerOver o.deadline d.clk.time) = some o ∧
      d.srcHalted o.src = false) ∧
    (let o : Out := { src := .berth 5, tag := 3, stamp := 0, op := 2, addr := holdBase, len := 8, dst := 0, cls := 0, deadline := 0 }
     let d := { dev .moored with net := { outs := [o] } }
     d.net.outs.find? (fun o => o.src.sameSlots (.berth 5) && o.tag == 3 && timerOver o.deadline d.clk.time) = some o ∧
      d.srcHalted o.src = false) ∧
    (let l : Lock := ⟨7, 0, 0⟩
     let d := { dev .moored with net := { locks := [(39, [l])] } }
     (d.locks 39).find? (fun l => l.line == 7) = some l ∧ timerOver l.expires d.clk.time = true ∧ d.leaseStands l = false) := by decide +kernel

theorem witness_Arbiters :
    (let q := granted 1 8 []
     let d := { dev .moored with net := { arbs := [(8, { queue := [q] })] } }
     ¬ 2 ∈ d.clk.applying ∧ d.gated (arbBlock 8) = false ∧ d.halted (arbBlock 8) = false ∧ (d.arb 8).grant = none ∧
      d.arbMasked 8 (d.arbInput 8 q.msg.h.qg) = false ∧
      (d.arb 8).queue.find? (fun r => d.arbInput 8 r.msg.h.qg == d.arbInput 8 q.msg.h.qg) = some q ∧
      ∀ j < 16, d.arbInput 8 q.msg.h.qg < j → ∀ r ∈ (d.arb 8).queue, d.arbInput 8 r.msg.h.qg ≠ j) ∧
    (let q := granted 1 8 []
     let d := { (dev .moored).setFld (B.DMC 7) F.DMC_STATE_STATE 2 with net := { arbs := [(7, { queue := [q] })] } }
     d.fld (B.DMC 7) F.DMC_STATE_STATE = 2 ∧ d.dmcRoom 7 q.msg = true ∧ d.arbMasked 7 0 = false) ∧
    (let q := granted 1 8 []
     let d := { dev .moored with net := { arbs := [(8, { queue := [q], cut := List.range 16 })] } }
     (d.arb 8).grant = none ∧ ∀ i < 16, d.arbMasked 8 i = true) ∧
    (let d := { dev .moored with clk := { (dev .moored).clk with time := 10 ^ 6 } }
     ¬ 2 ∈ d.clk.applying ∧ d.mode ≠ .quarantine ∧ d.mode ≠ .underway ∧
      1000 * d.fld (arbBlock 8) F.ARB_CFG_WIN ≤ 2 * (d.clk.time - (d.arb 8).windowAt) * d.nclk) ∧
    (let d := { porting (granted 2 8 []) with clk := { (dev .moored).clk with time := 10 ^ 6 } }
     (d.arb 8).grant = some (granted 2 8 []) ∧ (granted 2 8 []).msg.h.op = 2 ∧ d.grantOld 8 = true) ∧
    (dev .moored).reads .host B.HN O.HN_SCH_MAXWAIT := by
  unfold Dev.reads; decide +kernel

theorem witness_Arbiters_serve :
    (let q := granted 1 8 []
     q.msg.h.op ≤ 2 ∧ (dev .moored).lockMeets q.msg = false) ∧
    (let q := granted 5 0 []
     q.msg.h.op = 5 ∧ (dev .moored).lockMeets q.msg = false ∧
      (∀ l ∈ (dev .moored).locks ((dev .moored).lockTable q.msg.h.addr), l.line ≠ q.msg.h.addr / 64) ∧
      ((dev .moored).locks ((dev .moored).lockTable q.msg.h.addr)).length < lockRoom ((dev .moored).lockTable q.msg.h.addr)) ∧
    (let q := granted 6 0 []
     let d (n : Nat) := { dev .moored with net := { locks := [(8, [⟨holdBase / 64, n, 9⟩])] } }
     q.msg.h.op = 6 ∧
      (∀ l ∈ (d 1).locks ((d 1).lockTable q.msg.h.addr), l.line = q.msg.h.addr / 64 → l.holder ≠ q.msg.h.src) ∧
      (⟨holdBase / 64, 0, 9⟩ : Lock) ∈ (d 0).locks ((d 0).lockTable q.msg.h.addr) ∧ q.msg.h.src = 0) := by decide +kernel

/-! ### Witnesses: external memory, ranges, keys -/

def dmcIn (n : Nat) : Dev := (dev .moored).setFld (B.DMC 7) F.DMC_STATE_STATE n

theorem witness_DmcCommands :
    ((dmcIn 0).writes .host (B.DMC 7) O.DMC_CMD (withField 0 0 3 1) ∧ (dmcIn 0).fld (B.DMC 7) F.DMC_STATE_STATE = 0) ∧
    ((dmcIn 1).writes .host (B.DMC 7) O.DMC_CMD (withField 0 0 3 2) ∧ (dmcIn 1).fld (B.DMC 7) F.DMC_STATE_STATE = 1) ∧
    ((dmcIn 2).writes .host (B.DMC 7) O.DMC_CMD (withField 0x100 0 3 3) ∧ (dmcIn 2).fld (B.DMC 7) F.DMC_STATE_STATE = 2) ∧
    (let d := ((sailing 1).setFld (B.DMC 7) F.DMC_STATE_STATE 2).setFld (B.DMC 7) F.DMC_MAINT_TIDE_TIDE 7
     d.writes .host (B.DMC 7) O.DMC_CMD (withField 0x100 0 3 3) ∧ nfield (withField 0x100 0 3 3).toNat 8 8 = 1 ∧
      (d.fld (B.DMC 7) F.DMC_MAINT_TIDE_TIDE + 2 ^ 32 - d.tide.num % 2 ^ 32) % 2 ^ 32 = 2 ∧ (d.dmc 7).window = .none ∧
      d.windowMeets d.tide.decls 7 7 1 = false) ∧
    ((dmcIn 3).writes .host (B.DMC 7) O.DMC_CMD (withField 0 0 3 4) ∧
      (({ dmcIn 3 with ext := { dmcs := [(7, { window := .running false true })] } } : Dev).dmc 7).window = .running false true ∧
      (({ dmcIn 3 with ext := { dmcs := [(7, { window := .running false false })] } } : Dev).dmc 7).window = .running false false) ∧
    ((dev .moored).writes .host (B.DMC 0) O.DMC_MAP_CMD (withField 0 0 1 1) ∧
      (∀ i < 9, maskLegal i (maskOf (dev .moored).ext.staged i) = true) ∧ ∀ j < 8, (dev .moored).fld (B.DMC j) F.DMC_STATE_STATE < 2) ∧
    ((dev .moored).writes .host (B.DMC 7) O.DMC_LANE_SEL 55 ∧ (55 : Word).toNat % 64 < 56) := by
  unfold Dev.writes; decide +kernel

theorem witness_DmcTraining : (dmcIn 1).trainRefusal 7 = none ∧
    (∀ op ∈ [1, 2, 3], (dmcIn 1).writes .host (B.DMC 7) O.DMC_TRAIN_CMD (withField 0xFFFF000C 0 2 op) ∧
      nfield (withField 0xFFFF000C 0 2 op).toNat 16 16 ≠ 0 ∧
      (dmcIn 1).writes .host (B.DMC 7) O.DMC_TRAIN_CMD (withField 0xC 0 2 op) ∧ nfield (withField 0xC 0 2 op).toNat 16 16 = 0) ∧
    (dmcIn 1).writes .host (B.DMC 7) O.DMC_MRW (withField 0x40ABC 31 1 1) := by
  unfold Dev.writes; decide +kernel

/-- A best-effort piece on the first line that a controller keeps. -/
def piece (write : Bool) : Piece :=
  { msg := msg { op := if write then 2 else 1, len := 64 }, addr := 0, len := 64, data := if write then List.replicate 64 1 else [], write }
def serving (p : Piece) (m : List Piece := []) : Dev :=
  { (dev .moored).setFld (B.DMC ((dev .moored).dmcOf 0)) F.DMC_STATE_STATE 2 with
    ext := { dmcs := [((dev .moored).dmcOf 0, { pieces := [p], meta_ := m, recent := [p] })] } }

def met : AccessFound := ⟨0, 0, .good⟩

theorem witness_DmcEvents :
    (let o : PatternOp := ⟨1, 3, 65535⟩
     (({ dev .moored with ext := { dmcs := [(7, { op := some o })] } } : Dev).dmc 7).op = some o) ∧
    ¬ 3 ∈ (dev .moored).clk.applying ∧ ((dev .moored).dmc 7).selfRefresh = false ∧
    (let d := { dmcIn 2 with clk := { (dmcIn 2).clk with time := 10 ^ 6 } }
     d.refreshes 7 = true ∧ d.refreshDue 7 3 = true) ∧
    (let k := (dev .moored).dmcOf 0
     (serving (piece true)).fld (B.DMC k) F.DMC_STATE_STATE = 2 ∧
      (((serving (piece true) [piece false]).dmcTake k).dmc k).meta_ = [piece false] ∧
      (((serving (piece true)).dmcTake k).dmc k).meta_ = [] ∧ ((serving (piece true)).dmcTake k).nextPiece k ((dev .moored).bankOf 0) = some (piece true) ∧
      (piece true).write = true ∧ (((serving (piece true)).dmcTake k).serveWrite k met.word (piece true)).2 = true ∧
      ((serving (piece false)).dmcTake k).nextPiece k ((dev .moored).bankOf 0) = some (piece false) ∧ (piece false).write = false ∧
      (((serving (piece false)).dmcTake k).serveRead k met
        ((dropFirst (piece false) (((serving (piece false)).dmcTake k).dmc k).pieces).filter (·.write)) (piece false)).2 = true) ∧
    (let d := dev .moored
     d.rangeAt (piece false).addr = none ∧ met.edc = 0 ∧ (∀ a ∈ linesOf (piece false).addr (piece false).len, ∃ p ∈ [piece true], p.holds a = true) ∧
      (d.readLines 0 [piece true] (linesOf (piece false).addr (piece false).len)).1.mode ≠ .quarantine ∧
      (d.readLines 0 [piece true] (linesOf (piece false).addr (piece false).len)).2.1 = none) ∧
    (let k := (dev .moored).dmcOf 0
     ((serving (piece true)).dmc k).recent.find? (·.write) = some (piece true) ∧
      ((serving (piece true)).dmc k).retried ≠ some ((piece true).lineAt 3) ∧
      (((serving (piece true)).setDmc k { (serving (piece true)).dmc k with retried := some 0 }).dmc k).retried = some ((piece true).lineAt 3) ∧
      (((serving (piece true)).dmc k).recent.take 1).getLast? = some (piece true)) := by decide +kernel

/-- Every controller ONLINE, a device in Moored, and range 0 and key 0 as given. -/
def online : Dev := (List.range 8).foldl (fun d k => d.setFld (B.DMC k) F.DMC_STATE_STATE 2) (dev .moored)
def img0 (mode : Nat) : RangeImg := { base := 1, size := 1, mode, slot := 0, metaBase := 9, dataKey := 1, macKey := 2 }
def ranged (mode : Nat) (rs : RangeState) (walking : Option Nat := none) : Dev :=
  { online with mce := { ranges := [(0, { st := rs, walking, img := some (img0 mode) })], keys := [(0, { st := .active }), (5, { st := .active })] } }

theorem witness_RangeCommands :
    (let d := ({ online with mce := { ranges := [(0, { cfg := 0x80001 }), (3, { st := .enabled, img := some (img0 1) })],
                                      keys := [(0, { st := .active })] } } : Dev)
     let d := (d.setFld B.MCE F.MCE_META_CFG_BASE 100).setFld B.MCE F.MCE_META_CFG_SLOTS 4
     let d := d.setRange 0 { cfg := 0x00080002 }
     d.writes .host B.MCE O.MCE_RANGE_CMD (withField 0 0 3 1) ∧ (d.range 0).sMode ≠ 3 ∧ (d.range 0).sMode = 2 ∧ d.otherImgs 0 ≠ [] ∧
      (∀ g ∈ d.otherImgs 0, meet (d.range 0).sBase (d.range 0).sSize g.base g.size = false ∧
        (g.mode = 2 → meet (d.range 0).sSlot (d.range 0).sSize g.slot g.size = false)) ∧
      meet ((d.range 0).sBase * unit64) ((d.range 0).sSize * unit64) (100 * unit64) (4 * slotBytes) = false ∧
      ((d.range 0).sBase + (d.range 0).sSize) * unit64 ≤ d.usableEnd ∧ (d.range 0).sSlot + (d.range 0).sSize ≤ 4 ∧
      (d.range 0).st = .disabled ∧ (d.key (d.range 0).sKey).st = .active ∧ d.allOnline ∧
      d.declReaches ((d.range 0).sBase * unit64) (((d.range 0).sBase + (d.range 0).sSize) * unit64) = false) ∧
    (let d := ranged 1 .enabled
     d.writes .host B.MCE O.MCE_RANGE_CMD (withField 0 0 3 2) ∧ (d.range 0).img = some (img0 1) ∧ (d.range 0).st = .enabled ∧
      (d.range 0).walking = none ∧ d.allOnline ∧ d.declReaches (img0 1).lo (img0 1).hi = false) ∧
    (let d := ranged 1 .enabled
     let w := withField 0x50 0 3 3
     d.writes .host B.MCE O.MCE_RANGE_CMD w ∧ (img0 1).mode ≠ 0 ∧ (∀ k ∈ (List.range 16).tail, (d.range k).st ≠ .enabled) ∧
      d.declReaches (img0 1).lo (img0 1).hi = false ∧ (d.range 0).keyId ≠ 5 ∧ (d.range 0).walking = none ∧
      nfield w.toNat 4 6 = 5 ∧ (d.key 5).st = .active ∧ (d.key (d.range 0).keyId).st = .active ∧ d.mce.walker = none) ∧
    (let d := { ranged 1 .enabled (some 5) with mce := { (ranged 1 .enabled (some 5)).mce with
       keys := [(0, { st := .draining }), (5, { st := .active })] } }
     d.writes .host B.MCE O.MCE_RANGE_CMD (withField 0x50 0 3 3) ∧ (d.range 0).walking = some 5 ∧ (d.key (d.range 0).keyId).st = .draining ∧
      (d.key 5).st = .active ∧ d.mce.walker = none) ∧
    (let w : Walker := { range := 0, newId := 5, unit := 32 }
     let d := { ranged 1 .enabled (some 5) with mce := { (ranged 1 .enabled (some 5)).mce with walker := some w } }
     d.writes .host B.MCE O.MCE_RANGE_CMD (withField 0 0 3 4) ∧ d.mce.walker = some w ∧ w.range = d.fld B.MCE F.MCE_RANGE_SEL_RANGE) := by
  unfold Dev.writes; decide +kernel

/-- The key-wrapping key stands. -/
def unwrapping : Dev := { dev .moored with sec := { keysUp := true, owner := some ⟨false, [], [], 0, 0⟩ } }

theorem witness_KeyCommands :
    (let w := withField 0x30 0 3 1
     let d := (dev .moored).setFlag B.SEC F.SEC_RNG_STAT_RUN true
     d.writes .host B.MCE O.MCE_KEY_CMD w ∧ nbit w.toNat 3 = false ∧ (d.key 3).st = .free ∧ d.flag B.SEC F.SEC_RNG_STAT_RUN = true) ∧
    (let w := withField 0x3F0 0 3 2
     unwrapping.writes .host B.MCE O.MCE_KEY_CMD w ∧ nbit w.toNat 3 = false ∧ nfield w.toNat 4 6 = 63 ∧ (unwrapping.key 63).st = .free ∧
      unwrapping.kwk = some 0) ∧
    (let w := withField 0 0 3 3
     (ranged 1 .disabled).writes .host B.MCE O.MCE_KEY_CMD w ∧ ((ranged 1 .disabled).key 0).st = .active) ∧
    (let d := { online with mce := { keys := [(0, { st := .retired, gen := 0xFFFE })] } }
     let w := withField 0 0 3 4
     d.writes .host B.MCE O.MCE_KEY_CMD w ∧ (d.key 0).st = .retired ∧ (d.key 0).gen ≠ 0xFFFF ∧ (∀ r < 16, (d.range r).under 0 = false)) := by
  unfold Dev.writes; decide +kernel

theorem witness_CipherEvents :
    (¬ 3 ∈ (ranged 0 .init).clk.applying ∧ ((ranged 0 .init).range 0).st = .init ∧ ((ranged 0 .init).range 0).img = some (img0 0)) ∧
    (((ranged 1 .init).range 0).st = .init ∧ ((ranged 1 .init).range 0).img = some (img0 1) ∧ ((ranged 1 .zeroising).range 0).st = .zeroising) ∧
    (let f : FetchRound := { engine := 0, range := 0, page := 16383, todo := [], wanted := [], lines := [(img0 2).metaAddr 0 16383] }
     let d := { ranged 2 .enabled with mce := { (ranged 2 .enabled).mce with rounds := [f] } }
     (d.range 0).img = some (img0 2) ∧
      d.mce.rounds.find? (fun f => f.range == (0 : Fin 16).val && f.page == 16383 && f.todo.isEmpty && f.wanted.isEmpty) = some f ∧
      d.mce.rootFlips = [] ∧ d.mode ≠ .quarantine ∧ f.lines.contains ((img0 2).metaAddr (0 : Fin 5).val 16383) = true) ∧
    (let x : Reenc := ⟨0, 7, none⟩
     let d := { ranged 2 .enabled with mce := { (ranged 2 .enabled).mce with reencs := [(3, some x)] } }
     Map.get (fun _ => none) d.mce.reencs 3 = some x ∧ (d.range x.range).img = some (img0 2) ∧ x.waits = none ∧ (img0 2).written = []) ∧
    (let w : Walker := { range := 0, newId := 5, unit := 31 }
     let d := { ranged 1 .enabled (some 5) with mce := { (ranged 1 .enabled (some 5)).mce with walker := some w } }
     d.mce.walker = some w ∧ (d.range w.range).img = some (img0 1) ∧ w.unit < (img0 1).size * 32 ∧ w.aborting = false ∧ (img0 1).written = []) ∧
    (let w : Walker := { range := 0, newId := 5, unit := 32 }
     let d := { ranged 1 .enabled (some 5) with mce := { (ranged 1 .enabled (some 5)).mce with walker := some w } }
     d.mce.walker = some w ∧ (d.range w.range).img = some (img0 1) ∧ (img0 1).size * 32 ≤ w.unit ∧ d.net.outs = []) := by decide +kernel

/-! ### Witnesses: Causeway links -/

/-- Link 4, to the device in the east, in a state. -/
def linked (state : Nat) (l : LinkSt := {}) (m : Mode := .moored) : Dev :=
  { (dev m).setFld (B.CW 4) F.CW_STATUS_STATE state with links := [(4, l)] }

theorem witness_LinkControl :
    OutputsShow (linked 0) ∧ OutputsShow (linked 1) ∧ OutputsShow (linked 2) ∧ OutputsShow (linked 3) ∧ OutputsShow (linked 1 { step := .sof }) ∧
    ((linked 0).writes .host (B.CW 4) O.CW_CTRL 1 ∧ (linked 0).writes .host (B.CW 4) O.CW_CTRL 0 ∧ (linked 0).linkState 4 = 0) ∧
    (let w := withField 1 1 1 1
     (linked 1).writes .host (B.CW 4) O.CW_CTRL w ∧ nbit w.toNat 0 = true ∧ nbit w.toNat 2 = false ∧ (linked 1).linkState 4 = 1 ∧
      (linked 2).writes .host (B.CW 4) O.CW_CTRL w ∧ (linked 2).linkState 4 = 2) ∧
    (let w := withField 1 2 1 1
     let d := ((linked 2).setFlag (B.CW 4) F.CW_KEY_CFG_TX_EN true).setKey 64 { st := .active }
     d.writes .host (B.CW 4) O.CW_CTRL w ∧ nbit w.toNat 0 = true ∧ nbit w.toNat 1 = false ∧ d.linkKeyActive (d.fld (B.CW 4) F.CW_KEY_NEXT_TX_NEXT) ∧
      d.flag (B.CW 4) F.CW_KEY_CFG_TX_EN ∧ d.linkState 4 = 2 ∧ OutputsShow d) ∧
    ((linked 1 { step := .sof }).linkState 4 = 1 ∧ ((linked 1 { step := .sof }).link 4).step = .sof ∧ (linked 3).linkState 4 = 3) := by
  have h : OutputsShow (((linked 2).setFlag (B.CW 4) F.CW_KEY_CFG_TX_EN true).setKey 64 { st := .active }) :=
    shows _ (by decide) (by decide) (by decide) (by decide) rfl
  unfold Dev.writes
  exact ⟨shows _ (by decide) (by decide) (by decide) (by decide) rfl, shows _ (by decide) (by decide) (by decide) (by decide) rfl,
    shows _ (by decide) (by decide) (by decide) (by decide) rfl, shows _ (by decide) (by decide) (by decide) (by decide) rfl,
    shows _ (by decide) (by decide) (by decide) (by decide) rfl, by decide, by decide, ⟨by decide, by decide, by decide, by decide, by decide, by decide, h⟩, by decide⟩

/-- The TS1 row of the device in the east, block by block: ID, block number, link 12, coordinate 1, VERSION 1, ACCEPT. -/
def ts1Row (k : Nat) : DWord := BitVec.ofNat 64 (0x4B + 2 ^ 8 * k + 2 ^ 11 * 12 + 2 ^ 15 * 1 + 2 ^ 24 + 2 ^ 32)
/-- A frame of zeros but for its CRC. -/
def zeroFrame (off : DWord := 0) : List DWord :=
  List.replicate 39 0 ++ [BitVec.ofNat 64 (frameCrc (List.replicate 39 0)) + off]

theorem frameCrc_append (l : List DWord) (x : DWord) (h : l.length = 39) : frameCrc (l ++ [x]) = frameCrc l := by
  unfold frameCrc
  rw [List.take_left' h, List.take_of_length_le (Nat.le_of_eq h)]

theorem zeroFrame_crc (off : DWord) : frameCrc (zeroFrame off) = frameCrc (List.replicate 39 0) :=
  frameCrc_append _ _ List.length_replicate

theorem witness_LinkReception :
    (let d := linked 1 { step := .ts1, ownAccept := true }
     OutputsShow d ∧ d.linkState 4 = 1 ∧ (d.link 4).step = .ts1 ∧ 128 ≤ 128 ∧ ((List.range 8).map ts1Row).length = 8 ∧
      (∀ k ∈ List.range 8, nfield (((List.range 8).map ts1Row).getD k 0).toNat 0 8 = 0x4B ∧
        nfield (((List.range 8).map ts1Row).getD k 0).toNat 8 3 = k ∧ nfield (((List.range 8).map ts1Row).getD k 0).toNat 11 4 = Nat.xor 4 8 ∧
        some (nfield (((List.range 8).map ts1Row).getD k 0).toNat 15 6) = d.linkPeer 4 ∧
        nfield (((List.range 8).map ts1Row).getD k 0).toNat 24 8 = 1 ∧ nbit (((List.range 8).map ts1Row).getD k 0).toNat 32 = true) ∧
      (d.link 4).ownAccept = true) ∧
    (let d := linked 1 { step := .ts2, ownAccept := true, rows2 := 14 }
     let b : DWord := BitVec.ofNat 64 (0x55 + 2 ^ 8 * 64 + 2 ^ 16 * 64 + 2 ^ 24 * 64 + 2 ^ 32 * 64 + 2 ^ 43)
     (d.link 4).step = .ts2 ∧ nfield b.toNat 0 8 = 0x55 ∧ nbit b.toNat 43 = true ∧ (d.link 4).ownAccept = true ∧ (d.link 4).rows2 + 1 < 16 ∧
      nbit b.toNat 40 = d.flag (B.CW 4) F.CW_KEY_CFG_RX_EN ∧ d.flag (B.CW 4) F.CW_KEY_CFG_RX_EN = false ∧
      d.flag (B.CW 4) F.CW_KEY_CFG_TX_EN = false) ∧
    (let k : KeptFrame := { seq := 9, blocks := [] }
     let d := linked 2 { replayAt := some 9, replay := [k] }
     OutputsShow d ∧ d.linkState 4 = 2 ∧ d.run.flagAt = none ∧ (d.link 4).replayAt = some 9 ∧
      (d.link 4).replay.find? (fun k => k.seq == 9) = some k ∧ ((linked 2).link 4).replayAt = none) ∧
    ((zeroFrame 1).getD 39 0 ≠ BitVec.ofNat 64 (frameCrc (zeroFrame 1)) ∧ ((linked 2).link 4).hdrBad = [] ∧ ((linked 2).link 4).failed = none) ∧
    ((zeroFrame 0).length = 40 ∧ (zeroFrame 0).getD 39 0 = BitVec.ofNat 64 (frameCrc (zeroFrame 0)) ∧
      ((zeroFrame 0).getD 1 0).toNat = ((linked 2).link 4).expect) := by
  refine ⟨⟨shows _ (by decide) (by decide) (by decide) (by decide) rfl, by decide⟩, by decide, ⟨shows _ (by decide) (by decide) (by decide) (by decide) rfl, by decide⟩, ⟨?_, by decide⟩, ?_, ?_, ?_⟩
  · rw [zeroFrame_crc]; simp [zeroFrame]
  · simp [zeroFrame]
  · rw [zeroFrame_crc]; simp [zeroFrame]
  · simp [zeroFrame]; decide

/-- Link 4 in UP, encrypting under key 64 in a state, its next frame under a number. -/
def encrypting (st : KeyState) (next : Nat) : Dev :=
  ((((linked 2 { nextSeq := next }).setFlag (B.CW 4) F.CW_STATUS_ENC_ON true).setFlag (B.CW 4) F.CW_KEY_CFG_TX_EN true).setFld (B.CW 4)
    F.CW_KEY_CFG_TX_ID 64).setKey 64 { st }

theorem witness_LinkReception_send :
    (let d := linked 1 { step := .frames }
     OutputsShow d ∧ d.run.flagAt = none ∧ d.linkState 4 = 1 ∧ (d.link 4).step = .frames ∧ (d.link 4).replayAt = none ∧
      d.flag (B.CW 4) F.CW_STATUS_ENC_ON = false) ∧
    (OutputsShow (encrypting .active (2 ^ 64 - 1)) ∧ OutputsShow (encrypting .free 9) ∧ OutputsShow (encrypting .active 9)) ∧
    ((encrypting .active (2 ^ 64 - 1)).linkState 4 = 2 ∧ (encrypting .active (2 ^ 64 - 1)).flag (B.CW 4) F.CW_STATUS_ENC_ON = true ∧
      2 ^ 64 - 1 ≤ ((encrypting .active (2 ^ 64 - 1)).link 4).nextSeq) ∧
    ((encrypting .free 9).flag (B.CW 4) F.CW_STATUS_ENC_ON = true ∧ ((encrypting .free 9).link 4).nextSeq < 2 ^ 64 - 1 ∧
      (encrypting .free 9).linkKeysActive 4 = false ∧ (encrypting .active 9).linkKeysActive 4 = true) := by
  refine ⟨⟨shows _ (by decide) (by decide) (by decide) (by decide) rfl, by decide⟩, ⟨?_, ?_, ?_⟩, by decide, by decide⟩ <;>
    exact shows _ (by decide) (by decide) (by decide) (by decide) rfl

theorem witness_ServiceMessages :
    (let d := { linked 2 {} .underway with tide := { num := 5, policyFixed := true } }
     OutputsShow d ∧ d.linkState 4 = 2 ∧ d.flagCopy 1 6 = false ∧ d.mode = .underway ∧ d.tide.policyFixed = true ∧
      d.tide.num < (d.sendFlag 1 6 0 (some 4)).flagTide 6 ∧ d.flagCopy 2 7 = false ∧
      d.tide.num < (d.sendFlag 2 7 0 (some 4)).flagTide 7) ∧
    ((linked 2 {} .anchored).flagCopy 3 7 = false ∧ (linked 2 {} .anchored).mode = .anchored ∧ (linked 2 {} .anchored).run.resumeAt = none ∧
      OutputsShow (linked 2 {} .anchored)) ∧
    (let a := 7 + 2 ^ 32 * 999
     let d := { (linked 2 { gotA := some a }).setFlag B.TIDE F.TIDE_CTRL_FOLLOW true with
                tide := { activated := true, startSeen := some (7 + 2 ^ 32 * 3, 999) } }
     let d := d.setFld B.TIDE F.TIDE_LEN_LEN 999
     OutputsShow d ∧ d.linkState 4 = 2 ∧ (d.link 4).gotA = some a ∧ d.flag B.TIDE F.TIDE_CTRL_FOLLOW ∧ d.mode = .moored ∧ d.tide.armed = none ∧
      d.tide.startSeen = some (a % 2 ^ 32 + 2 ^ 32 * ((3 : BitVec 56).toNat % 2 ^ 32), d.tideLen) ∧ a / 2 ^ 32 % 2 ^ 17 = d.tideLen ∧ d.tide.activated) ∧
    (let d := { linked 2 {} .underway with tide := { num := 5 } }
     OutputsShow d ∧ (6 * 2 ^ 36) / 2 ^ 36 % 2 ^ 20 = (d.tide.num + 1) % 2 ^ 20 ∧ (5 * 2 ^ 36) / 2 ^ 36 % 2 ^ 20 = d.tide.num % 2 ^ 20) ∧
    (let d := { linked 2 {} .underway with tide := { num := 6, turns := [(6, 77)] } }
     OutputsShow d ∧ (∀ t ∈ d.tide.turns, t.1 ≠ (7 * 2 ^ 36) / 2 ^ 36 % 2 ^ 20) ∧
      d.tide.turns.find? (fun t => t.1 == (6 * 2 ^ 36) / 2 ^ 36 % 2 ^ 20) = some (6, 77)) ∧
    (let d := ((linked 2).setFld B.ETH F.ST_CTRL_SRC 3).setFld B.ETH F.ST_CTRL_LINK 4
     OutputsShow d ∧ d.linkState 4 = 2 ∧ d.stSrc = 3 ∧ d.fld B.ETH F.ST_CTRL_LINK = 4 ∧ d.flag B.ETH F.ST_STAT_VALID = false) := by
  refine ⟨⟨shows _ (by decide) (by decide) (by decide) (by decide) rfl, by decide +kernel⟩,
    ⟨by decide, by decide, by decide, shows _ (by decide) (by decide) (by decide) (by decide) rfl⟩,
    ⟨shows _ (by decide) (by decide) (by decide) (by decide) rfl, by decide +kernel⟩,
    ⟨shows _ (by decide) (by decide) (by decide) (by decide) rfl, by decide⟩,
    ⟨shows _ (by decide) (by decide) (by decide) (by decide) rfl, by decide⟩,
    ⟨shows _ (by decide) (by decide) (by decide) (by decide) rfl, by decide⟩⟩

/-! ### Witnesses: jetty ports, the host port, lighters, Ethernet -/

/-- Port 9 of erg 1 enabled under a locked PLL. -/
def jetty (m : Mode) (x : PortSt) : Dev :=
  { dev m with clk := { (dev m).clk with jettyLock := true }, ergs := [(1, { mode := .running })], ports := [(9, x)],
               tide := { num := 5, tick := 20, count := 1000 } }
def slotE : SlotEntry := ⟨20, 2, 1⟩
def frame1 : JFrame := ⟨1, 0, 7, 5⟩

theorem witness_JettyReceivers :
    (let d := jetty .moored { moor := { en := true }, sync := true, txSrc := .idles, rx := [slotE] }
     OutputsShow d ∧ d.portOn 9 ∧ (d.port 9).sync = true ∧ (frame1.crc + 1 ≠ frame1.crc) ∧ d.ergRuns (9 / 8) ∧ (d.port 9).rx ≠ [] ∧
      frame1.type = 1 ∧ ({ frame1 with type := 3, payload := 15 } : JFrame).payload.toNat % 16 = 15) ∧
    (let d := jetty .moored { moor := { en := true }, sync := true, txSrc := .idles }
     OutputsShow d ∧ d.portOn 9 ∧ (d.port 9).rx = []) ∧
    (∃ f : JFrame, f.type ≠ 1 ∧ f.type ≠ 3) := by
  refine ⟨⟨shows _ (by decide) (by decide) (by decide) (by decide) (by decide +kernel), by decide +kernel⟩,
    ⟨shows _ (by decide) (by decide) (by decide) (by decide) rfl, by decide⟩, ⟨⟨2, 0, 0, 0⟩, by decide⟩⟩

/-- What the fabric drove on a port's pads in the last ticks: a burst of a type, with its valid bits or without. -/
def burst (v : Nat) : List (BitVec 32) := [BitVec.ofNat 32 (v * 2 ^ 30 + 5), 2 ^ 30, BitVec.ofNat 32 (2 ^ 30 + 2 ^ 20), 2 ^ 30]
def sendIdx (v : Nat) (x : PortSt) : Dev :=
  let d := jetty .underway { x with tx := [⟨16, 2, 1⟩], txSrc := .slots, moor := { x.moor with en := true } }
  { d with fab := { txHist := [(9, burst v)] } }

theorem witness_JettySlots :
    (∀ x ∈ [({ fresh := [(1, frame1), (2, frame1)] } : PortSt), { fresh := [] }],
      let d := jetty .underway { x with moor := { en := true }, sync := true, txSrc := .idles, rx := [slotE] }
      OutputsShow d ∧ ¬ 0 ∈ d.clk.applying ∧ d.mode = .underway ∧ d.ergRuns (9 / 8) = true ∧ d.tide.num % slotE.period = slotE.phase ∧
      (d.port 9).rx[0]? = some slotE ∧ d.tide.tick ≤ slotE.tick ∧ slotE.tick ≤ d.tide.tick + 16 ∧ d.gated (portBlock 9) = false ∧
      (d.port 9).rxDone ≤ d.tide.count) ∧
    (let d0 := jetty .underway { moor := { en := true }, txSrc := .idles, rx := [⟨3, 2, 0⟩] }
     let d := { d0 with tide := { d0.tide with tick := 740 } }
     3 < d.tide.tick ∧ (d.tide.num + 1) % 2 = 0 ∧ d.tideLen - d.tide.tick + 3 ≤ 16 ∧ (d.port 9).rxDone ≤ d.tide.count + 16) ∧
    (∀ e ∈ [(3, ({} : PortSt)), (1, {}), (0, {}), (0, { skipMoor := true, moor := { count := 3 } }), (0, { moorAt := some 1000 })],
      let d := sendIdx e.1 e.2
      OutputsShow d ∧ ¬ 0 ∈ d.clk.applying ∧ d.mode = .underway ∧ d.ergRuns (9 / 8) = true ∧ d.tide.num % 2 = 1 ∧
      (d.port 9).tx[0]? = some ⟨16, 2, 1⟩ ∧ d.tide.tick = 16 + 4 ∧ (d.port 9).moorAt = e.2.moorAt ∧ d.lineTaken 1000 (d.tide.count - 4) = true ∧
      Map.get (fun _ => []) d.tide.xing (17664 + (9 : Fin 256).val) = [] ∧
      nbit ((d.txBurst 9).getD 0 0) 31 = decide (1 < e.1) ∧ nbit ((d.txBurst 9).getD 0 0) 30 = decide (0 < e.1) ∧
      (∀ k ∈ [1, 2, 3], nbit ((d.txBurst 9).getD k 0) 30 = true) ∧ nfield ((d.txBurst 9).getD 2 0) 20 4 = 1) ∧
    (let d := jetty .moored { moor := { en := true, count := 3 }, txSrc := .generator }
     OutputsShow d ∧ (d.port 9).txSrc = .generator ∧ (d.port 9).moor.anchorHold = false ∧ (d.port 9).moor.count ≠ 0) ∧
    (let d := jetty .anchored { moor := { en := true, count := 3, anchorHold := true }, txSrc := .generator, lastSlot := some frame1 }
     OutputsShow d ∧ (d.port 9).txSrc = .generator ∧ d.mode = .anchored ∧ d.ergRuns (9 / 8) = true ∧ (d.port 9).lastSlot = some frame1) ∧
    ([(7, frame1)] : List (Nat × JFrame)).find? (fun y => y.1 == 7) = some (7, frame1) := by
  refine ⟨?_, by decide, ?_, ⟨shows _ (by decide) (by decide) (by decide) (by decide) rfl, by decide⟩,
    ⟨shows _ (by decide) (by decide) (by decide) (by decide) rfl, by decide⟩, by decide⟩
  · intro x hx
    fin_cases hx <;> exact ⟨shows _ (by decide) (by decide) (by decide) (by decide) rfl, by decide⟩
  · intro e he
    fin_cases he <;> exact ⟨shows _ (by decide) (by decide) (by decide) (by decide) rfl, by decide⟩

/-- The capture edge lies less than one symbol time before its tick, so a frame of tick 2 is in time for the slot of tick 1,000. -/
theorem witness_JettySlots_inTime (x : PortSt) : 2 + 16 + (jetty .underway x).edgePhase.1 ≤ 1000 := by
  have h : (jetty .underway x).edgePhase.1 < max 1 (((jetty .underway x).fld B.CLK F.CLK_TICK_CFG_ACTIVE + 11) / 12) :=
    Nat.mod_lt _ (Nat.lt_of_lt_of_le Nat.zero_lt_one (Nat.le_max_left _ _))
  have h1 : max 1 (((jetty .underway x).fld B.CLK F.CLK_TICK_CFG_ACTIVE + 11) / 12) ≤ 983 := by
    show max 1 (((dev .underway).fld B.CLK F.CLK_TICK_CFG_ACTIVE + 11) / 12) ≤ 983
    decide
  omega

def hostUp (m : Mode := .moored) : Dev := (dev m).setFld B.PCIE F.PCIE_LINK_SPEED 6

theorem witness_HostAndCspPorts :
    (OutputsShow hostUp ∧ hostUp.hostLinkUp ∧ (1 : Fin 4097).val ≠ 0 ∧ (0xFFFFFF : BitVec 40).toNat + 1 ≤ hostUp.barSize 0 ∧ ([0] : List Byte) ≠ [] ∧
      hostUp.pcie.waiting = []) ∧
    (let d := (hostUp .anchored).setFld B.PCIE F.BLK_FREEZE_FREEZE_MODE 1
     OutputsShow d ∧ d.hostLinkUp ∧ d.halted B.PCIE ∧ d.pcie.waiting = [] ∧
      d.hostParked + (hostPieces (1 : Fin 3).val (barBase 1) 4096).length ≤ heldRoom) ∧
    (let d := { (hostUp .anchored).setFld B.PCIE F.BLK_FREEZE_FREEZE_MODE 1 with
                pcie := { waiting := [0], tlps := [(0, some { isRead := true, bar := 1, addr := barBase 1, len := 4096, data := [] })] } }
     OutputsShow d ∧ d.hostLinkUp ∧ d.halted B.PCIE ∧ ¬ d.hostParked + (hostPieces (1 : Fin 3).val (barBase 1 + 511) 4096).length ≤ heldRoom) ∧
    (∀ m ∈ [(0 : Word), 1],
      let d := { hostUp with pcie := { owed := [255], table := [(1023, m)] } }
      OutputsShow d ∧ d.pcie.owed.contains 255 ∧ d.gated B.PCIE = false ∧ d.hostLinkUp ∧
        nbit (Map.get msixReset d.pcie.table (4 * 255 + 3)).toNat 0 = (m == 1)) ∧
    (let d := { dev .moored with clk := { (dev .moored).clk with cspMode := 1 } }
     OutputsShow d ∧ d.cspOn ∧ (d.streamData .csp none (wordBytes []) true).isSome = true ∧ d.freeTag .csp = some 0 ∧
      (0 : Word).toNat / 2 ^ 28 ≠ 1) ∧
    (let o (t : Nat) : Out := { src := .csp, tag := t, stamp := 0, op := 1, addr := regWindow, len := 4, dst := 0, cls := 0, deadline := 9 }
     let d := { dev .moored with clk := { (dev .moored).clk with cspMode := 1 }, net := { outs := (List.range 64).map o } }
     OutputsShow d ∧ d.cspOn ∧ d.freeTag .csp = none) := by
  refine ⟨⟨shows _ (by decide) (by decide) (by decide) (by decide) rfl, by decide⟩,
    ⟨shows _ (by decide) (by decide) (by decide) (by decide) rfl, by decide⟩, ⟨shows _ (by decide) (by decide) (by decide) (by decide) rfl, by decide⟩,
    ?_, ⟨shows _ (by decide) (by decide) (by decide) (by decide) rfl, by decide⟩, ⟨shows _ (by decide) (by decide) (by decide) (by decide) rfl, by decide⟩⟩
  intro m hm
  fin_cases hm <;> exact ⟨shows _ (by decide) (by decide) (by decide) (by decide) rfl, by decide⟩

/-- Channel 3 in a state and a mode, its ring of 16 entries. -/
def chan (state mode : Nat) (l : LgtSt := {}) : Dev :=
  let d := (((dev .moored).setFld B.LGT (F.LGT_STAT_STATE 3) state).setFld B.LGT (F.LGT_CFG_MODE 3) mode).setFld B.LGT (F.LGT_CFG_RING_LOG2 3) 4
  { (d.setFlag B.LGT (F.LGT_CFG_EN 3) true).setFld B.LGT (F.LGT_PROD_PROD 3) 1 with lgts := [(3, l)] }

theorem witness_Lighters :
    (∀ st ∈ [0, 1, 2, 3], (chan st 0).writes .host B.LGT (O.LGT_PROD 3) 15 ∧ (15 : Word).toNat % 4096 < (chan st 0).lgtRing 3 ∧
      (chan st 0).lgtState 3 = st ∧ (chan st 0).writes .host B.LGT (O.LGT_CMD 3) (withField 0 0 2 1) ∧
      (chan st 0).writes .host B.LGT (O.LGT_CMD 3) (withField 0 0 2 2) ∧ (chan st 0).writes .host B.LGT (O.LGT_CFG 3) 0 ∧
      ((chan st 0).lgt 3).phase = .idle ∧ nbit (0 : Word).toNat 12 = false) ∧
    (chan 1 0 { phase := .fetch }).writes .host B.LGT (O.LGT_CMD 3) (withField 0 0 2 1) ∧ ((chan 1 0 { phase := .fetch }).lgt 3).phase ≠ .idle ∧
    (∀ b ∈ [false, true], let d := (chan 1 0).setFlag B.LGT (F.LGT_CFG_RING_HOST 3) b
     d.mode ≠ .quarantine ∧ d.halted B.LGT = false ∧ d.gated B.LGT = false ∧ d.lgtState 3 = 1 ∧ d.lgtMode 3 = 0 ∧ (d.lgt 3).phase = .idle ∧ d.lgtProd 3 ≠ d.lgtCons 3 ∧
      d.flag B.LGT (F.LGT_CFG_RING_HOST 3) = b ∧ (List.replicate 32 (0 : Byte)).length = 32) ∧
    ((chan 1 0).hostLinkUp = false ∧ ((chan 1 0).setFld B.PCIE F.PCIE_LINK_SPEED 6).hostLinkUp) ∧
    (let p : LgtPiece := { off := 4096, len := 64 }
     let d := (chan 1 0 { phase := .move, srcHost := true, pieces := [p] }).setFld B.PCIE F.PCIE_LINK_SPEED 6
     let l := d.lgt 3
     l.hostWait = none ∧ d.hostAnswers .refused p.since ∧ l.pieces.find? (fun p => p.off == 4096 &&
       ((p.stage == .reading && l.srcHost) || (p.stage == .writing && l.dstHost && HostAnswer.refused == .timeout))) = some p) ∧
    (let d := { chan 1 0 { phase := .fetch, hostWait := some 0 } with clk := { (dev .moored).clk with time := 10 ^ 12 } }
     (d.lgt 3).hostWait = some 0 ∧ d.hostLate 0) ∧
    (let d := (chan 1 2).setFlag B.ETH (F.ETH_CFG_EN 0) true
     d.lgtMode 3 = 2 ∧ (d.lgt 3).phase = .idle ∧ d.lgtProd 3 ≠ d.lgtCons 3 ∧ d.gated B.ETH = false ∧ d.lgtState 3 = 1 ∧
      d.flag B.ETH (F.ETH_CFG_EN (d.fld B.LGT (F.LGT_CFG_PORT 3))) = true) := by
  unfold Dev.writes; decide +kernel

/-- Port 0 enabled and promiscuous, its queue as given, channel 3 taking its frames. -/
def ethBase (cons : Nat) : Dev :=
  ((((chan 0 1).setFlag B.ETH (F.ETH_CFG_EN 0) true).setFlag B.ETH (F.ETH_CFG_PROMISC 0) true).setFld B.LGT (F.LGT_CFG_SLOT_LOG2 3) 12).setFld
    B.LGT (F.LGT_STAT_CONS 3) cons
def ethUp (cons : Nat) (q : List EthFrame) : Dev := { ethBase cons with eth := { rx := [(0, q)] } }
def eframe (n : Nat) : EthFrame := ⟨List.replicate n 0, false, 0, 0⟩

theorem witness_EthernetPorts :
    OutputsShow (ethUp 1 [eframe 60]) ∧ OutputsShow (ethUp 0 [eframe 60]) ∧
    (let d := ethUp 1 [eframe 60]
     d.flag B.ETH (F.ETH_CFG_EN 0) = true ∧ d.gated B.ETH = false ∧ d.ethTakes 0 (eframe 60).data = true ∧
      ((Map.get (fun _ => []) d.eth.rx 0).map (fun x => x.data.length)).sum + (eframe 60).data.length ≤ 65536) ∧
    (let d := ethUp 1 (List.replicate 109 (eframe 600))
     OutputsShow d ∧ 65536 < ((Map.get (fun _ => []) d.eth.rx 0).map (fun x => x.data.length)).sum + (eframe 600).data.length ∧
      60 ≤ (eframe 600).data.length ∧ (eframe 600).data.length ≤ 9212 ∧ d.ethTakes 0 (eframe 600).data = true) ∧
    (∀ c ∈ [0, 1], let d := ethUp c [eframe 60]
     d.fld B.LGT (F.LGT_CFG_PORT 3) = 0 ∧ d.lgtState 3 < 2 ∧ d.flag B.LGT (F.LGT_CFG_EN 3) = true ∧ d.lgtMode 3 = 1 ∧ (d.lgt 3).phase = .idle ∧
      d.halted B.LGT = false ∧ d.gated B.LGT = false ∧ Map.get (fun _ => []) d.eth.rx 0 = [eframe 60] ∧
      ((d.lgtCons 3 + 1) % d.lgtRing 3 = d.lgtProd 3 ↔ c = 0) ∧
      32 + (eframe 60).data.length ≤ 2 ^ d.fld B.LGT (F.LGT_CFG_SLOT_LOG2 3)) := by
  exact ⟨shows _ (by decide +kernel) (by decide +kernel) (by decide +kernel) (by decide) rfl,
    shows _ (by decide +kernel) (by decide +kernel) (by decide +kernel) (by decide) rfl, by decide +kernel,
    ⟨shows _ (by decide +kernel) (by decide +kernel) (by decide +kernel) (by decide) rfl, by decide +kernel⟩, by decide +kernel⟩

theorem witness_StationTime :
    RegSrc.peeks .host true = false ∧
    (let w := withField 0 8 1 1
     (sailing 750).writes .host B.ETH O.ST_CTRL w ∧ (sailing 750).mode = .underway ∧
      (∀ v ∈ [false, true], let d := (dev .moored).setFlag B.ETH F.ST_STAT_VALID v
       d.writes .host B.ETH O.ST_CTRL w ∧ d.mode ≠ .underway ∧ d.tide.armed = none ∧ d.tide.started = false ∧ d.flag B.ETH F.ST_STAT_VALID = v)) ∧
    (dev .moored).reads .host B.ETH O.ST_NOW_LO ∧ (dev .moored).reads .host B.ETH O.ST_PPS_CAP_LO ∧
    (let d := (dev .moored).setFlag B.ETH F.ST_PPS_CFG_IN_EN true
     d.flag B.ETH F.ST_PPS_CFG_IN_EN = true ∧ d.stSrc ≠ 2) ∧
    (let d := { ((dev .moored).setFlag B.ETH F.ST_PPS_CFG_IN_EN true).setFld B.ETH F.ST_CTRL_SRC 2 with eth := { time := 5 * 2 ^ 32 } }
     d.flag B.ETH F.ST_PPS_CFG_IN_EN = true ∧ d.stSrc = 2 ∧ d.eth.time % (1000000000 * 2 ^ 32) = 5 * 2 ^ 32 ∧
      2 * (5 * 2 ^ 32) < 1000000000 * 2 ^ 32) := by
  unfold Dev.writes Dev.reads; decide +kernel

/-! ### Witnesses: images, planes, the shoal map, sessions, life cycle, tamper -/

def piping (n : Nat) (c : CfgSt := {}) : Dev := { (dev .moored).setFld B.CFG F.CFG_PIPE_STATE n with cfg := c }

theorem witness_ImagePipeline :
    ((dev .moored).halted B.CFG = false ∧ ((dev .moored).streamData .host none [1, 2, 3, 4] false).isSome = true) ∧
    (∀ n ∈ [0, 1, 2, 3, 4, 5], (piping n).pipe = n ∧ (piping n).writes .host B.CFG O.CFG_CMD (withField 0 0 3 1) ∧
      (piping n).writes .host B.CFG O.CFG_CMD (withField 0 0 3 2) ∧ (piping n).writes .host B.CFG O.CFG_CMD (withField 0 0 3 3) ∧
      (piping n).writes .host B.CFG O.CFG_CMD (withField 8 0 3 4) ∧ nfield (withField 8 0 3 4).toNat 3 2 = 1 ∧ (piping n).mode = .moored) ∧
    ((dev .slack).writes .host B.CFG O.CFG_CMD (withField 16 0 3 4) ∧ nfield (withField 16 0 3 4).toNat 3 2 = 2 ∧ (dev .slack).mode ≠ .moored ∧
      (dev .slack).mode ≠ .underway) ∧
    (let d := piping 1 { sigWait := some (List.replicate 3309 (0 : Byte) ++ [1, 0, 0]), coming := { recordCount := 5 } }
     d.cfg.sigWait = some (List.replicate 3309 (0 : Byte) ++ [1, 0, 0]) ∧ d.booting = false ∧ d.mode ≠ .quarantine ∧ d.programming = false ∧ d.freeHandle = some 1 ∧
        d.cfg.coming.recordCount ≠ 0 ∧ d.cfg.buf = []) ∧
    (∀ d : Dev, d.sigGood (List.replicate 3309 (0 : Byte) ++ [1, 0, 0]) = false) ∧
    (∀ (d : Dev) (g : List Byte), d.sigGood g = true ∨ d.sigGood g = false) := by
  refine ⟨by decide +kernel, by unfold Dev.writes; decide +kernel, by unfold Dev.writes; decide, ?_, ?_, fun d g => by cases d.sigGood g <;> simp⟩
  · exact ⟨rfl, by decide +kernel, by decide +kernel, by decide +kernel, by decide +kernel, by decide +kernel, rfl⟩
  · intro d
    unfold Dev.sigGood
    rw [List.drop_left' List.length_replicate]; rfl

/-- Erg 2 in a mode, its slot 7 in a state. -/
def slotted (m : Mode) (em : ErgMode) (st : SlotState) (docks : List DockSlot := []) : Dev :=
  { dev m with ergs := [(2, { mode := em, slots := [(7, { st }), (3, { st })] })], tide := { num := 5, tick := 20 }, bist := { slots := docks } }

theorem witness_PlaneCommands :
    (let d := { slotted .underway .running .free with ergs := [(2, { mode := .running, slack := .down })] }
     d.writes .host (B.ERG 2) O.ERG_PLANE_CMD (withField 0 0 4 1) ∧ d.slackNext 2 = true) ∧
    (let d := slotted .underway .running .free
     d.writes .host (B.ERG 2) O.ERG_PLANE_CMD (withField 0 0 4 1) ∧ d.slackNext 2 = false ∧ (d.erg 2).mode = .running ∧ d.pendOf 2 = .none ∧
      d.mode = .underway) ∧
    (∀ em ∈ [ErgMode.fenced, .unscheduled], let d := slotted .underway em .free
     d.writes .host (B.ERG 2) O.ERG_PLANE_CMD (withField 0 0 4 1) ∧ d.slackNext 2 = false ∧ (d.erg 2).mode = em ∧ d.pendOf 2 = .none ∧
      d.planeMode = true) ∧
    (∀ st ∈ [SlotState.free, .loading, .staged, .live, .lent, .recalling], let d := slotted .underway .running st
     d.writes .host (B.ERG 2) O.ERG_PLANE_CMD (withField 0x30 0 4 2) ∧ nfield (withField 0x30 0 4 2).toNat 4 3 = 3 ∧ (d.slot 2 3).st = st ∧
      d.writes .host (B.ERG 2) O.ERG_PLANE_CMD (withField 0x70 0 4 3) ∧ nfield (withField 0x70 0 4 3).toNat 4 3 = 7 ∧ (d.slot 2 7).st = st ∧
      d.writes .host (B.ERG 2) O.ERG_PLANE_CMD (withField 0x70 0 4 4) ∧ nfield (withField 0x70 0 4 4).toNat 4 3 = 7 ∧ d.planeMode = true ∧
      d.inDock 2 = none ∧
      d.writes .host (B.ERG 2) O.ERG_PLANE_CMD (withField 0 0 4 3) ∧ nfield (withField 0 0 4 3).toNat 4 3 ≠ 7 ∧
      d.writes .host (B.ERG 2) O.ERG_PLANE_CMD (withField 0 0 4 4) ∧ nfield (withField 0 0 4 4).toNat 4 3 ≠ 7) ∧
    ((slotted .underway .running .lent [⟨20, 100, 2, 0, 1, 0⟩]).inDock 2).isSome ∧
    RegSrc.peeks .host true = false ∧ (dev .moored).reads .host B.TIDE O.PSW_MAX := by
  unfold Dev.writes Dev.reads; decide +kernel

def shoaled (n : Nat) (lo : Word) : Dev :=
  { ((dev .moored).setReg B.BIST O.STK_SHOAL_ENTRY_LO lo).setReg B.BIST O.STK_SHOAL_ENTRY_HI 4 with
    stack := { shoal := List.replicate n ⟨1, 4⟩, dirty := true } }

theorem witness_ShoalMap :
    ((dev .moored).writes .host B.BIST O.STK_BUNDLE_SEL 0 ∧ bundleExists (0 % 2 ^ 26) = true ∧
      (dev .moored).writes .host B.BIST O.STK_BUNDLE_SEL 3 ∧ bundleExists (3 % 2 ^ 26) = false) ∧
    (let w := withField 0x10000 0 2 1
     (shoaled 2 5).writes .host B.BIST O.STK_SHOAL_CMD w ∧ nfield w.toNat 16 13 = 1 ∧ (shoaled 2 5).stack.shoal[1]? = some ⟨1, 4⟩ ∧
      (shoaled 1 5).stack.shoal[1]? = none) ∧
    (let w := withField 0 0 2 2
     (shoaled 2 5).writes .host B.BIST O.STK_SHOAL_CMD w ∧ [1, 2, 3, 4, 5, 7].contains (5 % 16) ∧
      (shoaled 2 5).reg B.BIST O.STK_SHOAL_ENTRY_LO = 5 ∧ (shoaled 2 5).reg B.BIST O.STK_SHOAL_ENTRY_HI = 4 ∧
      (shoaled 2 5).stack.shoal.any (fun x => x.lo.toNat % 2 ^ 30 == 5) = false ∧ (shoaled 2 5).stack.shoal.length < 4096 ∧
      (shoaled 2 1).stack.shoal.any (fun x => x.lo.toNat % 2 ^ 30 == 1) = true ∧ (shoaled 2 1).stack.shoal.length < 4096 ∧
      [1, 2, 3, 4, 5, 7].contains (1 % 16) ∧ (shoaled 2 1).reg B.BIST O.STK_SHOAL_ENTRY_LO = 1 ∧
      (shoaled 4096 5).stack.shoal.any (fun x => x.lo.toNat % 2 ^ 30 == 5) = false ∧ 4096 ≤ (shoaled 4096 5).stack.shoal.length) ∧
    ((shoaled 2 5).mode ≠ .quarantine ∧ (shoaled 2 5).stack.dirty = true ∧ (shoaled 2 5).nvRo 386 = false ∧ (shoaled 2 5).nvRo 387 = false ∧
      (shoaled 2 5).hold.remapDirty = false) := by
  unfold Dev.writes; decide +kernel

/-- The host's interface as given, at a life-cycle state. -/
def session (l : Life) (x : IfaceSt) (s : SecSt := {}) : Dev :=
  { ((dev .moored).setFld B.SEC F.SEC_LC_STATE l.code).setFlag B.SEC F.SEC_RNG_STAT_RUN true with sec := { s with ifaces := [(0, x)] } }
def ownerP (hash : BitVec 256) : Owner := ⟨true, [], [], hash, 0⟩

theorem witness_SessionCommands :
    RegSrc.src .host = .host ∧ Src.iface .host = some 0 ∧
    ((session .provisioned {}).writes .host B.SEC O.SEC_CMD (withField 0 0 4 1) ∧ (session .provisioned {}).rngRuns = true ∧
      (dev .moored).writes .host B.SEC O.SEC_CMD (withField 0 0 4 1) ∧ (dev .moored).rngRuns = false) ∧
    (let d := session .provisioned { len := 3312, fresh := true, mbox := [(3309, 1)] }
     d.writes .host B.SEC O.SEC_CMD (withField 0 0 4 2) ∧ nbit (withField 0 0 4 2).toNat 7 = false ∧ (d.iface 0).len = 3312 ∧
      d.life = .provisioned ∧ (d.iface 0).fresh = true ∧ (d.iface 0).locked = false ∧ ((d.iface 0).bytes 3309 3).all (· == 0) = false) ∧
    (let d := session .test { len := 3312 }
     nbit (withField 0x80 0 4 2).toNat 7 = true ∧ d.life = .test ∧ (d.iface 0).len = 3312 ∧ (d.iface 0).fresh = false) ∧
    (∀ k ∈ [(0 : BitVec 256), 1], let d := session .provisioned { len := 32 } { owner := some (ownerP (shakeNum (IfaceSt.bytes { len := 32 } 0 32) + k)) }
     d.writes .host B.SEC O.SEC_CMD (withField 0 0 4 3) ∧ (d.iface 0).len = 32 ∧ d.life = .provisioned ∧ d.sec.owner.any (·.passwordEn) ∧
      (d.iface 0).locked = false ∧
      (d.sec.owner.any (fun o => o.passwordHash == shakeNum ((d.iface 0).bytes 0 32)) = decide (k = 0))) ∧
    ((session .provisioned {}).writes .host B.SEC O.SEC_CMD (withField 0 0 4 4)) ∧
    (let d := session .provisioned { len := 32 } { keysUp := true }
     d.writes .host B.SEC O.SEC_CMD (withField 0 0 4 5) ∧ (d.iface 0).len = 32 ∧ d.sec.keysUp = true ∧ d.rngRuns = true ∧
      d.writes .host B.SEC O.SEC_CMD (withField 0 0 4 6) ∧ d.life ≠ .test ∧ ((session .test {}).iface 0).len ≠ 32 ∧
      (session .test {}).writes .host B.SEC O.SEC_CMD (withField 0 0 4 5) ∧
      (session .test {}).writes .host B.SEC O.SEC_CMD (withField 0 0 4 6) ∧ (session .test {}).life = .test) := by
  unfold Dev.writes
  refine ⟨rfl, rfl, by decide, by decide, by decide, fun k hk => ?_, by decide, by decide⟩
  have e : (some (ownerP (shakeNum (IfaceSt.bytes { len := 32 } 0 32) + k))).any
      (fun o => o.passwordHash == shakeNum (IfaceSt.bytes { len := 32 } 0 32)) = decide (k = 0) := by
    rw [Bool.eq_iff_iff]; simp [ownerP, add_eq_left]
  fin_cases hk <;> exact ⟨by decide, by decide, by decide, rfl, rfl, e⟩

theorem bytes_take (x : IfaceSt) (o n k : Nat) (h : k ≤ n) : (x.bytes o n).take k = x.bytes o k := by
  simp [IfaceSt.bytes, ← List.map_take, List.take_range, Nat.min_eq_left h]

theorem bytes_drop (x : IfaceSt) (o n k : Nat) : (x.bytes o n).drop k = x.bytes (o + k) (n - k) := by
  apply List.ext_getElem <;> simp [IfaceSt.bytes, Nat.add_assoc]

/-- A provisioning record of zeros but for its magic. -/
def record : IfaceSt := { len := 3976, mbox := [(0, 0x41), (1, 0x5A), (2, 0x4F), (3, 0x52)] }

theorem record_owner : ∃ o, ownerOf (record.bytes 0 record.len) = some o := by
  unfold ownerOf
  have h0 : ofLeBytes ((record.bytes 0 record.len).take 4) = 0x524F5A41 := by rw [bytes_take _ _ _ _ (by decide)]; decide
  have h1 : ofLeBytes (((record.bytes 0 record.len).drop 4).take 4) = 0 := by rw [bytes_drop, bytes_take _ _ _ _ (by decide)]; decide
  have h2 : (record.bytes 0 record.len).length = 3976 := by simp [IfaceSt.bytes, record]
  simp [h0, h1, h2]

theorem witness_LifeCycleCommands :
    (let d := session .blank record
     d.writes .host B.SEC O.SEC_CMD (withField (BitVec.ofNat 32 (16 * Life.provisioned.code)) 0 4 7) ∧
      nfield (withField (BitVec.ofNat 32 (16 * Life.provisioned.code)) 0 4 7).toNat 4 3 = Life.provisioned.code ∧ d.mode = .moored ∧
      d.life = .blank ∧ (∃ o, ownerOf ((d.iface 0).bytes 0 (d.iface 0).len) = some o) ∧ d.ownerCopy.isSome) ∧
    (let w := withField (BitVec.ofNat 32 (16 * Life.sealed.code)) 0 4 7
     ∀ n ∈ [0, 2], let d := session .provisioned { sess := n }
     d.writes .host B.SEC O.SEC_CMD w ∧ nfield w.toNat 4 3 = Life.sealed.code ∧ d.life = .provisioned ∧ d.mode = .moored ∧ (d.iface 0).sess = n) ∧
    (∀ n ∈ [0, 32], let d := session .provisioned { sess := 2, len := n } { owner := some (ownerP 1) }
     d.writes .host B.SEC O.SEC_CMD (withField 0 0 4 8) ∧ d.life = .provisioned ∧ (d.iface 0).sess = 2 ∧ d.sec.owner = some (ownerP 1) ∧
      d.ownerCopy.isSome ∧ (d.iface 0).len = n) ∧
    ((session .sealed {}).writes .host B.SEC O.SEC_CMD (withField 0 0 4 9) ∧ (session .sealed {}).mayDo (some 0) .drydock = false ∧
      (session .blank {}).mayDo (some 0) .drydock = true ∧ (session .blank {}).mode = .moored ∧
      (session .blank {}).writes .host B.SEC O.SEC_CMD (withField 0 0 4 9) ∧
      ((session .blank {}).setFld B.LH F.LH_MODE_MODE Mode.slack.code).mayDo (some 0) .drydock = true ∧
      ((session .blank {}).setFld B.LH F.LH_MODE_MODE Mode.slack.code).writes .host B.SEC O.SEC_CMD (withField 0 0 4 9) ∧
      ((session .blank {}).setFld B.LH F.LH_MODE_MODE Mode.slack.code).mode ≠ .moored) ∧
    (let d := session .provisioned { sess := 2, len := 4, mbox := [(0, 1)] }
     d.writes .host B.SEC O.SEC_CMD (withField 0 0 4 10) ∧ (d.iface 0).len = 4 ∧ ofLeBytes ((d.iface 0).bytes 0 4) < 2 ∧
      d.mayDo (some 0) .bootcfg = true ∧ d.nvRo 396 = false) ∧
    (∀ n ∈ [8188, 8192], let d := session .provisioned { ptr := n }
     d.writes .host B.SEC O.SEC_MBOX_DATA 5 ∧ d.reads .host B.SEC O.SEC_MBOX_DATA ∧ (d.iface 0).ptr = n ∧ RegSrc.peeks .host true = false) := by
  unfold Dev.writes Dev.reads
  exact ⟨⟨by decide, by decide, by decide, by decide, record_owner, by decide⟩, by decide +kernel, by decide +kernel, by decide +kernel,
    by decide +kernel, by decide +kernel⟩

theorem witness_TamperSources :
    (let d := ((dev .moored).setFld B.SEC F.SEC_LC_STATE Life.sealed.code)
     d.clk.phase ≠ .selfRefresh ∧ d.mode ≠ .beacon ∧ d.mode ≠ .reset ∧ d.mode ≠ .quarantine ∧ ∀ k ∈ [0, 1, 2, 3, 4, 5], d.tamperArmed k = true) ∧
    ((dev .beacon).mode = .beacon ∧ (dev .beacon).clk.island = true ∧ (dev .beacon).clk.phase ≠ .selfRefresh) := by decide

/-! ### Witnesses: clocks, resets, Boot, the watchdog -/

/-- Moored with the given clock domains asked for another multiplier. -/
def wanting (ds : List Nat) (m : Mode := .moored) : Dev :=
  ds.foldl (fun d k => d.setReg B.CLK (clkCfg k) (d.reg B.CLK (clkCfg k) + 1)) (dev m)

theorem witness_Clocks :
    ((wanting [] .underway).writes .host B.CLK O.CLK_CMD (withField 0 0 1 1) ∧ (wanting [] .underway).mode ≠ .boot ∧
      (wanting [] .underway).mode ≠ .moored) ∧
    ((wanting []).writes .host B.CLK O.CLK_CMD (withField 0 0 1 1) ∧ (wanting []).mode = .moored ∧ (wanting []).clk.applying = [] ∧
      ∀ d ∈ List.range 4, (wanting []).clkDiffers d = false) ∧
    ((wanting [1]).writes .host B.CLK O.CLK_CMD (withField 0 0 1 1) ∧ (wanting [1]).clk.applying = [] ∧ (wanting [1]).clkDiffers 1 = true ∧
      ∀ d ∈ [0, 2, 3], (wanting [1]).clkDiffers d = false) ∧
    (let d := (wanting [3]).setFld (B.DMC 7) F.DMC_STATE_STATE 1
     d.writes .host B.CLK O.CLK_CMD (withField 0 0 1 1) ∧ d.mode = .moored ∧ d.clkDiffers 3 = true ∧ d.fld (B.DMC 7) F.DMC_STATE_STATE ≠ 0) ∧
    ({ dev .moored with clk := { (dev .moored).clk with applying := [3] } } : Dev).clk.applying ≠ [] ∧
    ((dev .moored).writes .host B.LH O.LH_OSC_CFG (withField 0 8 1 1) ∧ (dev .underway).writes .host B.LH O.LH_OSC_CFG (withField 0 8 1 1) ∧
      (dev .moored).nvRo 513 = false ∧ ∀ k ∈ [0, 1, 2], (dev .moored).writes .host B.CLK (O.CLK_EN0 + 4 * k) 0) ∧
    ((dev .moored).writes .host B.CLK O.CLKMON_CFG 7 ∧ 250000 * (nfield 7 4 12 + 1) < (dev .moored).monKhz (nfield 7 0 4) ∧
      ¬ 250000 * (nfield 6 4 12 + 1) < (dev .moored).monKhz (nfield 0 0 4)) ∧
    ((dev .moored).clk.mainPower = true ∧ (dev .moored).clk.phase ≠ .selfRefresh ∧ ¬ 3 ∈ (dev .moored).clk.applying) ∧
    (linked 1).linkState 4 ≠ 0 := by
  unfold Dev.writes; decide +kernel

def unpowered : Dev := { State.reset.dev with clk := { State.reset.dev.clk with mainPower := false } }
def phased (m : Mode) (p : BootPhase) : Dev := { dev m with clk := { (dev m).clk with phase := p } }

theorem witness_Resets :
    (unpowered.mode = .beacon ∧ unpowered.cfg.slot = 0 ∧ unpowered.hold.banks = [] ∧ unpowered.clk.island = true ∧ unpowered.clk.mainPower = false) ∧
    ((phased .reset .oscWait).clk.phase = .oscWait ∧ OutputsShow (phased .reset .oscWait)) ∧
    ((dev .moored).clk.mainPower = true ∧ (dev .moored).mode ≠ .beacon ∧ (dev .moored).resetting = false ∧ (dev .moored).writesDone) ∧
    ((phased .reset .held).clk.phase = .held ∧ nbit ((phased .reset .held).fld B.LH F.LH_RST_CAUSE_ALL) 1 = false) ∧
    ((dev .moored).writes .host B.LH O.LH_RST_CMD 0xA55A0F0F ∧ (dev .moored).resetAllowed 5 = true) ∧
    ((phased .underway .selfRefresh).clk.phase = .selfRefresh ∧ (phased .underway .selfRefresh).mode ≠ .reset ∧
      (phased .underway .selfRefresh).cfg.slot = 0) ∧
    ((phased .reset .held).mode = .reset) := by
  unfold Dev.writes Dev.writesDone
  exact ⟨by decide +kernel, ⟨by decide, shows _ (by decide) (by decide) (by decide) (by decide) (by decide)⟩, by decide, by decide, by decide,
    by decide, by decide⟩

theorem witness_BootSteps :
    ((phased .boot .plls).mode = .boot ∧ (phased .boot .plls).clk.phase = .plls) ∧
    ((phased .boot .bundleTest).mode = .boot ∧ (phased .boot .bundleTest).clk.phase = .bundleTest ∧ bundleExists (2 : BitVec 26).toNat = true) ∧
    (let d := phased .boot .temperature
     d.mode = .boot ∧ d.clk.phase = .temperature) ∧
    ((phased .boot .moor).clk.phase = .moor ∧ (phased .boot .image).clk.phase = .image ∧ (phased .boot .apply).clk.phase = .apply) := by
  decide +kernel

def wdgOn (strict : Bool) (feed : Option Nat) : Dev :=
  let d := ((dev .moored).setFlag B.WDG F.WDG_CFG_EN true).setFlag B.WDG F.WDG_CFG_STRICT strict
  { (d.setFld B.WDG F.WDG_WARN_WARN 5).setFld B.WDG F.WDG_COUNT_COUNT 9 with clk := { d.clk with feedAt := feed, time := 600 } }

theorem witness_Watchdog :
    ((wdgOn false (some 100)).writes .host B.WDG O.WDG_FEED 0x5AA5 ∧ (wdgOn false (some 100)).flag B.WDG F.WDG_CFG_EN = true ∧
      (wdgOn false (some 100)).clk.feedAt = some 100 ∧ (wdgOn false (some 100)).clk.time ≤ 100 + 500) ∧
    (∀ b ∈ [false, true], (wdgOn b none).writes .host B.WDG O.WDG_FEED 0xA55A ∧ (wdgOn b none).writes .host B.WDG O.WDG_FEED 7 ∧
      (7 : Word) ≠ 0xA55A ∧ (wdgOn b none).flag B.WDG F.WDG_CFG_EN = true ∧ (wdgOn b none).flag B.WDG F.WDG_CFG_STRICT = b ∧
      (wdgOn b none).resetting = false ∧ (wdgOn b none).writesDone ∧ (wdgOn b none).resetAllowed 4 = true) ∧
    ((dev .moored).writes .host B.WDG O.WDG_CFG (withField 0 0 1 1) ∧ (dev .moored).locked B.WDG = false ∧
      (dev .moored).writes .host B.WDG O.WDG_LOAD 1 ∧ (dev .moored).fieldBad B.WDG O.WDG_LOAD 1 0 = false) ∧
    ((wdgOn false none).wdgCounts = true ∧ (wdgOn false none).fld B.WDG F.WDG_WARN_WARN ≠ 0 ∧
      (wdgOn false none).fld B.WDG F.WDG_WARN_WARN ≤ (wdgOn false none).fld B.WDG F.WDG_COUNT_COUNT) := by
  unfold Dev.writes Dev.writesDone; decide

/-! ### Witnesses: power, sensors, the wire, run control -/

/-- Ergs 1 and 2 in a state of Slack; the mask of PWR names erg 1. -/
def slacking (m : Mode) (x : SlackSt) (em : ErgMode := .unscheduled) (pend : ErgPend := .none) : Dev :=
  { (dev m).setReg B.PWR O.PWR_ERG_MASK 2 with
    ergs := [(1, { mode := em, pend, slack := x }), (2, { mode := .running })], cfg := { live := [{ ergMask := 2, useMaps := [] }] },
    tide := { num := 5, tick := 20 } }

theorem witness_SlackOfErgs :
    (let d := slacking .underway .awake .running
     d.writes .host B.PWR O.PWR_SLEEP_CMD (withField 0 0 3 1) ∧ nbit (d.reg B.PWR O.PWR_ERG_MASK).toNat 1 = true ∧ (d.erg 1).mode = .running ∧
      maySleep (d.useMap 1) = false) ∧
    (let d := slacking .underway .awake .running .activation
     d.writes .host B.PWR O.PWR_SLEEP_CMD (withField 0 0 3 1) ∧ nbit (d.reg B.PWR O.PWR_ERG_MASK).toNat 1 = true ∧ d.pendOf 1 ≠ .none) ∧
    (let d := slacking .underway .awake
     d.writes .host B.PWR O.PWR_SLEEP_CMD (withField 0 0 3 1) ∧ d.mode = .underway ∧
      ∀ e ∈ List.range 32, nbit (d.reg B.PWR O.PWR_ERG_MASK).toNat e = true →
        d.pendOf e = .none ∧ (d.erg e).slack = .awake ∧ (d.erg e).mode ≠ .running) ∧
    ((slacking .underway .down).writes .host B.PWR O.PWR_SLEEP_CMD (withField 0 0 3 2) ∧ (slacking .underway .down).mode = .underway ∧
      ((slacking .underway .down).erg 1).slack = .down) ∧
    ((dev .moored).writes .host B.PWR O.PWR_SLEEP_CMD (withField 0 0 3 3) ∧
      ((dev .moored).setFlag B.TIDE F.TIDE_CTRL_MASTER true).writes .host B.PWR O.PWR_SLEEP_CMD (withField 0 0 3 3) ∧
      ((dev .moored).setFlag B.TIDE F.TIDE_CTRL_MASTER true).flag B.TIDE F.TIDE_CTRL_MASTER = true ∧
      (piping 1).pipe ≠ 0 ∧ (piping 1).writes .host B.PWR O.PWR_SLEEP_CMD (withField 0 0 3 3)) ∧
    (∀ m ∈ [Mode.moored, .underway], let d := dev m
     d.writes .host B.PWR O.PWR_SLEEP_CMD (withField 0 0 3 3) ∧ d.flag B.TIDE F.TIDE_CTRL_MASTER = false ∧ d.flag B.TIDE F.TIDE_CTRL_FOLLOW = false ∧
      d.pipe = 0 ∧ (∀ k ∈ List.range 8, d.fld (B.DMC k) F.DMC_STATE_STATE = 0 ∧ (d.dmc k).window = .none) ∧ d.mode = m ∧
      ∀ e ∈ List.range 32, (d.erg e).mode ≠ .running) ∧
    (∀ m ∈ [Mode.slack, .moored], (dev m).writes .host B.PWR O.PWR_SLEEP_CMD (withField 0 0 3 4) ∧ (dev m).mode = m) ∧
    (((slacking .underway .entering).erg 1).slack = .entering ∧ ((slacking .underway .entering).erg 1).wakeAsked = false ∧
      ((slacking .moored .waking).erg 1).slack = .waking ∧ (slacking .moored .waking).mode = .moored) ∧
    (let d := { dev .slack with pwr := { waking := true } }
     d.mode = .slack ∧ d.pwr.waking = true ∧ d.clk.slackFrom = .moored) := by
  unfold Dev.writes; decide +kernel

theorem witness_SensorsAndIsland :
    ((dev .moored).clk.mainPower = true ∧ (dev .moored).mode ≠ .reset ∧ RegSrc.peeks .host true = false ∧ (dev .moored).reads .host B.PWR O.PWR_RAIL_I) ∧
    (let f (w : Word) (lo : Nat) : Int := (BitVec.ofNat 8 (nfield w.toNat lo 8)).toInt
     ∀ n ∈ [0, 1, 2, 3], (dev .moored).writes .host B.THM (O.THM_LIM n) 0xCECF7877 ∧ (dev .moored).writes .host B.THM (O.THM_LIM n) 0x00000505 ∧
      (dev .moored).locked B.THM = false ∧
      (let w : Word := 0xCECF7877
       (∀ lo ∈ [0, 8, 16, 24], -50 ≤ f w lo ∧ f w lo ≤ 120) ∧ f w 24 < f w 16 ∧ f w 16 < f w 0 ∧ f w 0 < f w 8 ∧ f w 24 = -50 ∧ f w 8 = 120) ∧
      f 0x00000505 8 ≤ f 0x00000505 0) ∧
    ((dev .moored).writes .host B.THM O.THM_SEL 135 ∧ (135 : Word).toNat < 136) ∧
    (let d := (dev .standDown).setFlag B.THM F.THM_STAT_COOL true
     d.writes .host B.THM O.THM_CMD (withField 0 0 1 1) ∧ d.mode = .standDown ∧ d.flag B.THM F.THM_STAT_COOL = true ∧
      (dev .standDown).writes .host B.THM O.THM_CMD (withField 0 0 1 1) ∧ (dev .standDown).flag B.THM F.THM_STAT_COOL = false) ∧
    (let d := (dev .moored).setReg B.LH (O.LH_WEAR_BIN 2) 7
     d.mode ≠ .beacon ∧ (List.range 4).map (fun n => d.reg B.LH (O.LH_WEAR_BIN n)) ≠ d.wear.nvBins ∧ d.wear.stored = false ∧ d.nvRo 514 = false) ∧
    (({ dev .beacon with clk := { (dev .beacon).clk with island := false } } : Dev).clk.island = false ∧ (dev .beacon).clk.island = true ∧
      (dev .beacon).mode = .beacon) := by
  unfold Dev.writes Dev.reads; decide +kernel

theorem witness_WireLine :
    ((dev .moored).clk.island = true ∧ (dev .moored).mode ≠ .beacon ∧ (dev .moored).mode ≠ .slack ∧ (dev .moored).resetting = false ∧ (dev .moored).writesDone) ∧
    (({ dev .moored with clk := { (dev .moored).clk with time := 500000000 } } : Dev).wire.lastRequest + 500000000 ≤ 500000000 ∧
      (dev .moored).clk.time < (dev .moored).wire.lastRequest + 500000000) := by
  unfold Dev.writesDone; decide

theorem witness_WireRequests :
    ((dev .moored).clk.island = true ∧ (dev .moored).attached = false ∧ (dev .beacon).mode = .beacon ∧ (dev .beacon).clk.island = true ∧
      islandHas (0 : BitVec 16).toNat = true ∧ islandHas (16384 : BitVec 16).toNat = true ∧ islandHas (1 : BitVec 16).toNat = false) ∧
    ((session .blank {}).mayDo (some 2) .debug = true ∧ (session .sealed {}).mayDo (some 2) .debug = false ∧
      (16384 : BitVec 16).toNat / 16384 = 1) ∧
    ((dev .moored).wireCarries holdBase = true ∧ ((dev .moored).wireOp 3).pending = false ∧ holdBase % 4 = 0 ∧ addrBad holdBase 4 = false ∧
      (1 : BitVec 48).toNat % 4 ≠ 0 ∧ (dev .beacon).mode = .beacon ∧ (0 : BitVec 16).toNat / 16384 ≠ 1) ∧
    (∀ b ∈ [false, true], let d := { dev .moored with wire := { ops := [(3, { used := true, pending := b, isRead := true })] } }
     d.mode ≠ .beacon ∧ (d.wireOp 3).used = true ∧ (d.wireOp 3).pending = b ∧ (d.wireOp 3).isRead = true) := by decide

def anchored (r : RunSt) : Dev := { dev .anchored with run := r }

theorem witness_RunControl :
    OutputsShow (dev .underway) ∧ OutputsShow (anchored {}) ∧ OutputsShow (dev .moored) ∧
    (let w := withField 0 0 2 1
     (dev .underway).writes .host B.DBG O.DBG_CTRL w ∧ (dev .underway).mode = .underway ∧ nbit w.toNat 2 = false ∧ (dev .underway).run.haltAt = none ∧
      (anchored {}).writes .host B.DBG O.DBG_CTRL w ∧ (anchored {}).mode = .anchored ∧ (anchored {}).run.resumeAt = none ∧
      (dev .moored).writes .host B.DBG O.DBG_CTRL w ∧ (dev .moored).mode = .moored) ∧
    (let w := withField 0 0 2 2
     (anchored {}).writes .host B.DBG O.DBG_CTRL w ∧ nbit w.toNat 2 = false ∧ (dev .moored).writes .host B.DBG O.DBG_CTRL w ∧
      (dev .moored).mode ≠ .anchored) ∧
    (let w := withField 0 0 2 3
     (∀ n ∈ [0, 5], ((anchored {}).setFld B.DBG F.DBG_STEP_COUNT n).writes .host B.DBG O.DBG_CTRL w ∧
      ((anchored {}).setFld B.DBG F.DBG_STEP_COUNT n).fld B.DBG F.DBG_STEP_COUNT = n ∧
      ((anchored {}).setFld B.DBG F.DBG_STEP_COUNT n).mode = .anchored) ∧
      OutputsShow ((anchored {}).setFld B.DBG F.DBG_STEP_COUNT 5)) ∧
    (∀ b ∈ [false, true], let d := anchored { resumeAt := some 0, haltLockstep := b }
     OutputsShow d ∧ d.run.resumeAt = some 0 ∧ d.mode = .anchored ∧ 0 ≤ d.ns ∧ d.run.flagAt = none ∧ d.run.haltLockstep = b) ∧
    (RegSrc.peeks .host true = false ∧ (dev .moored).reads .host B.DBG O.DBG_HALT_TIDE_LO ∧ (dev .moored).reads .host B.DBG O.DBG_RESUME_AT_LO) := by
  unfold Dev.writes Dev.reads
  refine ⟨shows _ (by decide) (by decide) (by decide) (by decide) (by decide), shows _ (by decide) (by decide) (by decide) (by decide) (by decide),
    shows_moored, by decide, by decide, ⟨by decide, shows _ (by decide) (by decide) (by decide) (by decide) (by decide)⟩, ?_, by decide⟩
  intro b hb
  fin_cases hb <;> exact ⟨shows _ (by decide) (by decide) (by decide) (by decide) (by decide), by decide⟩

/-! ### Witnesses: self-test, registers, the machine as a whole -/

/-- Erg 1 with a slot that has just ended, its slice of a kind, plane 7 lent. -/
def docked (kind : Nat) : Dev :=
  { slotted .underway .running .lent [⟨15, 5, 2, kind, 1, 0⟩] with tide := { num := 5, tick := 20 } }
def drying (r : Option (Nat × Nat)) (m : Option March) (ab : Bool := false) : Dev :=
  { dev .dryDock with bist := { ddRun := r, march := m, ddAborting := ab } }

theorem witness_TestRuns :
    (∀ k ∈ [0, 1, 2], (docked k).slotEnded 2 = some ⟨15, 5, 2, k, 1, 0⟩ ∧ (docked k).mode = .underway ∧
      Map.get (fun _ => 0) (docked k).bist.served 2 ≠ 5 * 65536 + 15 + 1 ∧ (docked k).sliceRuns 2 k = decide (k ≠ 0)) ∧
    (((slotted .underway .running .lent).slot 2 7).st = .lent ∧ (slotted .underway .running .lent).gated B.BIST = false ∧
      (slotted .underway .running .lent).halted B.BIST = false ∧ (slotted .underway .running .lent).inDock 2 = none) ∧
    (let w := withField 0x184 0 2 1
     nfield w.toNat 2 5 = 1 ∧ nfield w.toNat 7 5 = 3 ∧ (dev .moored).writes .host B.BIST O.BIST_DD_CMD w ∧ (dev .moored).mode ≠ .dryDock ∧
      (drying none none).writes .host B.BIST O.BIST_DD_CMD w ∧ (drying none none).mode = .dryDock ∧ (drying none none).bist.ddRun = none ∧
      (drying none none).bist.march = none ∧ (drying none (some ⟨false, false, 0, 1, false⟩)).bist.march.isSome ∧
      (drying none (some ⟨false, false, 0, 1, false⟩)).writes .host B.BIST O.BIST_DD_CMD w ∧
      nfield (withField 0x8 0 2 1).toNat 7 5 < nfield (withField 0x8 0 2 1).toNat 2 5 ∧
      (drying none none).writes .host B.BIST O.BIST_DD_CMD (withField 0x8 0 2 1)) ∧
    ((drying (some (1, 3)) none).writes .host B.BIST O.BIST_DD_CMD (withField 0 0 2 2) ∧ (drying (some (1, 3)) none).bist.ddRun.isSome) ∧
    (let d := drying (some (1, 3)) none true
     d.bist.ddRun = some (1, 3) ∧ d.gated B.BIST = false ∧ d.halted B.BIST = false ∧ d.bist.ddAborting = true) := by
  unfold Dev.writes; decide +kernel

def scrubber (x : PsScrub) (time : Nat := 0) : Dev :=
  { dev .moored with bist := { ps := [(5, x)] }, clk := { (dev .moored).clk with time } }

theorem witness_TestReadsAndScrubbers :
    RegSrc.peeks .host true = false ∧
    (let r : ResultRec := ⟨7, 8⟩
     let d := { dev .moored with bist := { results := [r] } }
     d.bist.results = [r] ∧ d.reads .host B.BIST O.BIST_RES_LO ∧ (dev .moored).bist.results = [] ∧ (dev .moored).reads .host B.BIST O.BIST_RES_LO) ∧
    (∀ b ∈ [false, true], let d := ((session .test { sess := 3 }).setFlag B.SEC F.SEC_LC_SCAN_OK true).setFlag B.BIST F.BIST_SCAN_CTRL_EN b
     d.writes .host B.BIST O.BIST_SCAN_DATA 5 ∧ d.flag B.BIST F.BIST_SCAN_CTRL_EN = b) ∧
    (∀ k ∈ [0, 6, 7], let d := { dev .moored with log := { (dev .moored).log with unread := 1, word := k, rd := 511 } }
     d.reads .host B.LH O.LH_FLOG_PORT ∧ d.log.unread ≠ 0 ∧ d.log.word = k) ∧
    ((dev .moored).reads .host B.LH O.LH_FLOG_PORT ∧ (dev .moored).log.unread = 0) ∧
    ((scrubber {}).psRuns = true ∧ ((scrubber {}).ps 5).stopped = false ∧ ((scrubber { queue := [3] }).ps 5).queue = [3] ∧
      ((scrubber {}).ps 5).queue = [] ∧ (scrubber {}).psNext 5 ((scrubber {}).ps 5).place = none) ∧
    ((scrubber {} 8000000).psBeat 5 + 8000000 ≤ (scrubber {} 8000000).psClock ∧ (scrubber {} 8000000).mode ≠ .quarantine ∧
      (scrubber {} 8000000).clk.phase ≠ .selfRefresh ∧ (scrubber {}).psClock < (scrubber {}).psBeat 5 + 8000000) := by
  unfold Dev.writes Dev.reads; decide +kernel

/-- The word index of a register. -/
def regAddr (blk off : Nat) : BitVec 22 := BitVec.ofNat 22 ((blk * blockBytes + off) / 4)

theorem witness_RegisterWrites :
    (let a := regAddr (B.DMC 7) O.DMC_LANE_SEL
     4 * a.toNat / blockBytes = B.DMC 7 ∧ 4 * a.toNat % blockBytes = O.DMC_LANE_SEL ∧ (dev .moored).writes .host (B.DMC 7) O.DMC_LANE_SEL 5) ∧
    (let a := regAddr (B.DMC 7) 0x3FFC
     (dev .moored).writes .host (4 * a.toNat / blockBytes) (4 * a.toNat % blockBytes) 5 ∧
      regFind (4 * a.toNat / blockBytes) (4 * a.toNat % blockBytes) = none ∧ 4 * a.toNat / blockBytes ≠ B.PCIE) ∧
    (dev .moored).mode ≠ .beacon ∧ (dev .moored).mode ≠ .reset ∧ (dev .reset).mode = .reset := by
  unfold Dev.writes; decide

theorem witness_AccessGates :
    ((Instr.evtForce .host 0x10 5).access = some (.host, 0x10, O.EVT_FORCE, some 5) ∧ O.EVT_FORCE < blockBytes ∧
      (Instr.bistResLoRead .csp false).access = some (.csp, B.BIST, O.BIST_RES_LO, none) ∧
      (Instr.secMboxData (.berth 0) none false).access = some (.berth 0, B.SEC, O.SEC_MBOX_DATA, none) ∧
      (Instr.nonce (.berth 0) 0).access = some (.berth 0, B.SEC, O.SEC_CMD, some (withField 0 0 4 1))) ∧
    (dev .reset).gateOf (RegSrc.src .host) 0x10 O.EVT_FORCE true = .silent ∧
    ((dev .quarantine).gateOf (RegSrc.src .host) 0x10 O.EVT_FORCE true = .refused ∧
      (dev .quarantine).writeDenied (RegSrc.src .host) 0x10 O.EVT_FORCE 5 = false ∧
      (dev .quarantine).writeDenied (RegSrc.src (.berth 0)) B.SEC O.SEC_CMD (withField 0 0 4 1) = true) ∧
    ((dev .moored).setReg B.CLK (O.CLK_EN0 + 4) 0).gateOf (RegSrc.src .host) (B.ERG 0) O.ERG_NOTE_POST true = .zero ∧
    ((dev .moored).gateOf (RegSrc.src (.berth 0)) B.SEC O.SEC_CMD true = .open_ ∧
      (dev .moored).writeDenied (RegSrc.src (.berth 0)) B.SEC O.SEC_CMD (withField 0 0 4 1) = true) ∧
    ((dev .moored).gateOf (RegSrc.src (.berth 0)) B.SEC O.SEC_MBOX_DATA false = .open_ ∧
      (dev .moored).readDenied (RegSrc.src (.berth 0)) B.SEC O.SEC_MBOX_DATA = true) := by
  refine ⟨⟨rfl, by decide, rfl, rfl, rfl⟩, by decide⟩

/-- Whether a register has a field with an access code that takes what is written to it. -/
def offers (d : Dev) (blk off : Nat) (acc : Acc) (w : Word) (locked : Bool) : Bool :=
  off != O.BLK_STATUS && d.locked blk == locked && (regFind blk off).any (fun r => r.fields.any (fun f =>
    f.acc == acc && fieldOpen blk off f.lo && !d.fieldBad blk off w.toNat f.lo))

theorem witness_AccessCodes :
    offers (dev .moored) B.PWR O.PWR_ERG_MASK .rw 5 false = true ∧ offers (dev .moored) B.WDG O.WDG_LOAD .rwl 5 false = true ∧
    offers ((dev .moored).setFlag B.WDG F.BLK_CTRL_LOCK true) B.WDG O.WDG_LOAD .rwl 5 true = true ∧
    offers (dev .moored) B.TIDE O.TIDE_NUM_LO .ro 5 false = true ∧ offers (dev .moored) B.CLK O.CLK_CMD .wo 5 false = true ∧
    offers (dev .moored) B.TIDE O.EVT_STATUS .w1c 5 false = true ∧ offers (dev .moored) B.TIDE O.BLK_CTRL .w1s 5 false = true := by decide

theorem witness_ReservedEncodings :
    let a := regAddr B.ETH O.ST_PPS_CFG
    4 * a.toNat / blockBytes = B.ETH ∧ 4 * a.toNat % blockBytes = O.ST_PPS_CFG ∧ (dev .moored).writes .host B.ETH O.ST_PPS_CFG 3 ∧
      (dev .moored).writeReg .host B.ETH O.ST_PPS_CFG 3 = (dev .moored).storeReg B.ETH O.ST_PPS_CFG 3 ∧
      (regFind B.ETH O.ST_PPS_CFG).map (fun (r : RegDef) => r.fields.map (fun (f : FieldDef) =>
        (f.acc == .rw && fieldOpen B.ETH O.ST_PPS_CFG f.lo, (dev .moored).fieldBad B.ETH O.ST_PPS_CFG 3 f.lo))) =
          some [(true, false), (true, false), (true, true)] := by
  unfold Dev.writes; decide +kernel

theorem witness_ForcedEvents : OutputsShow (dev .moored) ∧ (dev .moored).writes .host B.TIDE O.EVT_FORCE 0xFFFFFFFF ∧
    (blkKind (BitVec.ofNat 8 B.TIDE).toNat).isSome = true := by
  unfold Dev.writes; exact ⟨shows_moored, by decide⟩

theorem witness_ProgramSlot : OutputsShow (dev .moored) ∧ OutputsShow (dev .slack) ∧ (dev .moored).pipe = 0 ∧ (dev .slack).pipe = 0 ∧
    (dev .moored).writes .host B.CFG O.CFG_CMD (withField 8 0 3 4) ∧ nfield (withField 8 0 3 4).toNat 3 2 = 1 ∧
    (dev .slack).writes .host B.CFG O.CFG_CMD (withField 16 0 3 4) ∧ nfield (withField 16 0 3 4).toNat 3 2 = 2 ∧
    (dev .slack).mode ≠ .moored ∧ (dev .slack).mode ≠ .underway := by
  unfold Dev.writes
  exact ⟨shows_moored, shows _ (by decide) (by decide) (by decide) (by decide) (by decide), by decide⟩

theorem witness_PeekReads :
    (Instr.tideNumLoRead .wire true).access = some (.wire, B.TIDE, O.TIDE_NUM_LO, none) ∧
    (Instr.lhFlogPortRead .wire true).access = some (.wire, B.LH, O.LH_FLOG_PORT, none) ∧
    (dev .moored).reads .wire B.TIDE O.TIDE_NUM_LO ∧ (dev .moored).reads .wire B.LH O.LH_FLOG_PORT := by
  unfold Dev.reads; decide

theorem witness_StepKeepsOutputs : OutputsShow (st (dev .moored)).dev ∧ ∃ s', step (st (dev .moored)) = .next s' :=
  ⟨shows_moored, _, rfl⟩

theorem witness_IdleStep : unpowered.clk.mainPower = false ∧ (dev .moored).clk.mainPower = true ∧ ((dev .moored).clk.time + 1) % 500 ≠ 0 := by
  decide

theorem witness_ResetState : ∃ r f, regFind B.TIDE O.TIDE_LEN = some r ∧ f ∈ r.fields ∧ O.TIDE_LEN ≠ O.BLK_ID ∧ O.TIDE_LEN ≠ O.BLK_FREEZE ∧
    O.TIDE_LEN < blockBytes := ⟨_, _, rfl, List.mem_cons_self, by decide⟩

theorem witness_HeaderRoundTrips :
    bhdrClean ({ op := 3, tag := 7, decl := 8191, len := 65536 } : BHdr).enc = true ∧
    hdrClean ({ op := 1, tag := 511, addr := holdBase, len := 64, plen := 64, stamp := 2 ^ 32 - 1 } : Hdr).enc = true ∧
    2 ^ 32 - 1 < 2 ^ 32 := by decide

theorem witness_MemoryStores : holdBase ≤ holdBase + 5 ∧ (holdBase + 5 - holdBase) / 0x2000000 ∈ [0] := by decide

/-! ### Ill-formed commands -/

theorem test_narrow_of_a_whole_register : Instr.wellFormed (.narrowAccess .host 8 4) = false := by decide
theorem test_narrow_of_nothing : Instr.wellFormed (.narrowAccess .host 9 0) = false := by decide
theorem test_lock_of_no_block : [Instr.lock .host 0x5B 0, .refuseClr .host 0x5B 0, .evtForce .host 0x5B 0, .eccFlipArm .host 0x5B 0,
    .bucketLeak 0x5B].all Instr.wellFormed = false ∧ Instr.wellFormed (.lock .host 0x5A 0) = true := by decide
theorem test_sentinel_of_no_bundle : Instr.wellFormed (.sentinelFail 3) = false := by decide
theorem test_complete_too_long : ∀ bs : List Byte, 65536 < bs.length → Instr.wellFormed (.schedComplete 0 0 .ok bs) = false := by
  intro bs h; simp [Instr.wellFormed]; omega
theorem test_peek_reads_of_the_host : ∀ i ∈ [Instr.tideNumLoRead .host true, .turnTimeLoRead .host true, .tideSkewRead .host true,
    .holdXferMaxRead .host true, .hnSchMaxwaitRead .host true, .stNowLoRead .host true, .stPpsCapLoRead .host true, .pwrRailIRead .host true,
    .dbgHaltTideLoRead .host true, .dbgResumeAtLoRead .host true, .bistResLoRead .host true, .lhFlogPortRead .host true], i.wellFormed = false := by
  decide
theorem test_peek_write : Instr.wellFormed (.secMboxData .wire (some 1) true) = false := by decide
theorem test_short_row : Instr.wellFormed (.ts1Row 0 [0] 0 0) = false := by decide
theorem test_short_frame : Instr.wellFormed (.frameReceive 0 [0] []) = false := by decide
theorem test_block_beyond_a_frame : Instr.wellFormed (.frameReceive 0 (List.replicate 40 0) [(40, 0)]) = false := by decide
theorem test_empty_tlps : Instr.wellFormed (.hostReadTlp 0 0 0) = false ∧ Instr.wellFormed (.hostWriteTlp 0 0 []) = false := by decide
theorem test_short_descriptor : Instr.wellFormed (.lighterDescriptor 0 [1]) = false := by decide
theorem test_long_piece : ∀ bs : List Byte, 4096 < bs.length → Instr.wellFormed (.lighterPieceDone 0 0 (.data bs)) = false := by
  intro bs h; simp [Instr.wellFormed]; omega
theorem test_empty_stream : Instr.wellFormed (.streamData .host none [] true) = false := by decide
theorem test_lane_of_no_bundle : Instr.wellFormed (.bundleTestDone [(3, 0)] []) = false := by decide
theorem test_few_readings : Instr.wellFormed (.bootTemperatureCheck [none]) = false ∧ Instr.wellFormed (.thermalSweep [none]) = false := by decide
theorem test_few_rails : Instr.wellFormed (.powerEstimate [] [1]) = false := by decide
theorem test_finding_nowhere : Instr.wellFormed (.drydockSlot 0 [.lane 1 0 60 0 false]) = false ∧
    Instr.wellFormed (.ddRunDone [(0, .lane 1 0 60 0 false)] 1) = false := by decide
theorem test_too_many_header_errors : Instr.wellFormed (.routerHop 0 0 (List.replicate 5 (0, 0))) = false := by decide
theorem test_three_bad_copies : Instr.wellFormed (.planeScrubRead 0 3) = false := by decide
theorem test_empty_csp_stream : Instr.wellFormed (.cspStream []) = false := by decide

/-! ### Values that the spec states -/

/-- "Worked example: reading a header" (chapter 00): register block 0x13 is DMC3. -/
theorem test_block_id : (dev .moored).showReg .host 0x13 0 false = 0xA2100113 := by decide

/-- R348: the CRC of "123456789" is 0x29B1. -/
theorem test_jetty_crc : crcBytes 16 0x1021 0xFFFF [0x31, 0x32, 0x33, 0x34, 0x35, 0x36, 0x37, 0x38, 0x39] = 0x29B1 := by decide +kernel

/-- "Worked example: one hoist bundle on the Sandbar arm" (chapter 01): HOIST_LOST by DRYDOCK_TEST at station time 0x0001_A2B3_0000_0000 ns. -/
theorem test_shoal_entry :
    (({ dev .moored with eth := { time := 0x0001A2B300000000 * 2 ^ 32 } } : Dev).shoalAdd 3 (bundleId 1 5 71 12) 2).stack.shoal =
      [⟨0x00623953, 0x001A2B32⟩] := by decide

/-- "Worked example: a row budget on the quay board" (chapter 05): word 5 of row 300 of bank 0x925 of the hold. -/
theorem test_hold_address : holdBank 0x0010124B2C28 = 0x925 ∧ (0x0010124B2C28 - holdBase) % 0x20000 = 300 * 0x100 + 5 * 8 := by decide

/-- "Worked example: DMC2 on the Sandbar arm" (chapter 06): the inputs of groups 1, 2, 3, 8, 9 and 4. -/
theorem test_arbiter_inputs :
    let d := ((dev .moored).setReg (B.DMC 2) O.ARB_PRIO_MAP0 0x7652DEF0).setReg (B.DMC 2) O.ARB_PRIO_MAP1 0xFEDCBA56
    [1, 2, 3, 8, 9, 4].map (d.arbInput 2) = [15, 14, 13, 6, 5, 2] := by decide

/-- "Worked example: where the Sandbar set-points live" (chapter 07): DMC2, bank group 1, bank 0 of channel 0, row 4. -/
theorem test_external_place : (dev .moored).dmcOf 0x402000 = 2 := by decide +kernel

/-- "Worked example: the Sandbar set-point metadata" (chapter 08). -/
theorem test_metadata_places :
    let g : RangeImg := { base := 0, size := 1, mode := 2, slot := 0, metaBase := 0x1D0, dataKey := 0, macKey := 0 }
    [0, 4, 1, 2, 3].map (fun k => g.metaAddr k 1026) = [0x000740820080, 0x000740A04000, 0x000740A44000, 0x000740A80400, 0x000740A88080] := by decide

/-- "Worked example: a breakpoint on the quay board" (chapter 16): RESUME accepted at 1,000,007,500 ns; G0 and the resumption. -/
theorem test_resume_instant :
    let d := { dev .anchored with eth := { time := 1000007500 * 2 ^ 32 } }
    ((d.writeReg .host B.DBG O.DBG_CTRL 2).run.resumeAt = some 1000030208) := by decide

/-- "Worked example: the hidden hot spot in erg 12" (chapter 15): THM_VALUE after the second sweep. -/
theorem test_thm_value :
    let d := { (dev .moored).setFld B.THM F.THM_SEL_SENSOR 76 with
      thm := { sensors := [(76, { raw := 0x548, acting := 0x68F, suspect := true })] } }
    d.showReg .host B.THM O.THM_VALUE false = 0x168F0548 := by decide

/-- R462: the watch dog's load is a count of microseconds; the 500th cycle of the time clock counts one. -/
theorem test_watchdog_counts :
    let d := wdgOn false none
    (({ d with clk := { d.clk with time := 499 } } : Dev).timeCycle.fld B.WDG F.WDG_COUNT_COUNT = 8) ∧
      (({ d with clk := { d.clk with time := 500 } } : Dev).timeCycle.fld B.WDG F.WDG_COUNT_COUNT = 9) := by decide +kernel

/-- FIPS 197, appendix C.3, the cipher of R285: AES-256 of one block. -/
theorem test_aes : Aes.encWith (Aes.schedule (List.range 32)) ((List.range 16).map (fun k => 17 * k)) =
    [0x8e, 0xa2, 0xb7, 0xca, 0x51, 0x67, 0x45, 0xbf, 0xea, 0xfc, 0x49, 0x90, 0x4b, 0x49, 0x60, 0x89] := by decide +kernel

/-! ### The queue -/

/-- From reset, with main power applied at the front of the queue, the device enters Reset; then the queue is empty and the device idles. -/
theorem test_power_on :
    ∃ s, step ⟨State.reset.dev, [.powerOn true]⟩ = .next s ∧ s.pending = [] ∧ s.dev.mode = .reset := ⟨_, rfl, rfl, by decide⟩

end Sys2Proof.Tests
end

section
/-! The register tables as a whole: every row describes a register, and what its fields hold at reset. -/

namespace Sys2Proof.Machine

/-- Two fields of a register share no bit. -/
abbrev FieldDef.apart (f g : FieldDef) : Prop := f.lo + f.w ≤ g.lo ∨ g.lo + g.w ≤ f.lo

/-- A table row that describes a 32-bit register: each field lies in the word and holds its reset value, and no two fields share a bit. -/
structure RegDef.Sound (r : RegDef) : Prop where
  fits : ∀ f ∈ r.fields, f.lo + f.w ≤ 32
  resets : ∀ f ∈ r.fields, f.reset < 2 ^ f.w
  apart : r.fields.Pairwise FieldDef.apart

/-- Every row of the register tables of the spec describes a register. -/
theorem tables_sound (k : BlkKind) : ∀ r ∈ headerRegs ++ flipRegs ++ kindRegs k, r.Sound := by
  have computed : ∀ r ∈ headerRegs ++ flipRegs ++ kindRegs k,
      (∀ f ∈ r.fields, f.lo + f.w ≤ 32 ∧ f.reset < 2 ^ f.w) ∧ r.fields.Pairwise FieldDef.apart := by
    cases k <;> decide +kernel
  intro r hr
  obtain ⟨hf, hp⟩ := computed r hr
  exact ⟨fun f h => (hf f h).1, fun f h => (hf f h).2, hp⟩

/-- What stands at an offset of a block is a row of the header, of the error-injection registers or of the kind's own table. -/
theorem regFind_mem {blk off : Nat} {r : RegDef} (h : regFind blk off = some r) : ∃ k, r ∈ headerRegs ++ flipRegs ++ kindRegs k := by
  unfold regFind at h
  split at h
  · cases h
  · rename_i k _
    have hm := List.mem_of_find?_eq_some h
    simp only [List.mem_append] at hm
    refine ⟨k, List.mem_append.2 (hm.imp_left (fun hm => List.mem_append.2 (hm.imp_right fun hf => ?_)))⟩
    split at hf
    · exact hf
    · cases hf

theorem regFind_sound {blk off : Nat} {r : RegDef} (h : regFind blk off = some r) : r.Sound :=
  have ⟨k, hr⟩ := regFind_mem h
  tables_sound k r hr

theorem regFind_isSome_blk {blk off : Nat} {r : RegDef} (h : regFind blk off = some r) : ∃ k, blkKind blk = some k := by
  unfold regFind at h
  split at h
  · cases h
  · exact ⟨_, ‹_›⟩

theorem regFind_flipLo (blk : Nat) (h : flips blk = true) : regFind blk O.ECC_FLIP_LO = flipRegs.head? := by
  unfold flips at h
  unfold regFind
  split at h
  · rename_i k hk
    simp [hk, h, headerRegs, flipRegs, RegDef.covers, O.ECC_FLIP_LO]
  · cases h

/-! ### Fields put one after another -/

/-- A word after a field has taken the value `v`, if there is one. -/
def FieldDef.put (f : FieldDef) (v : Option Nat) (n : Nat) : Nat := v.elim n (putField n f.lo f.w)

theorem FieldDef.nfield_put (f : FieldDef) (v : Option Nat) (n : Nat) :
    nfield (f.put v n) f.lo f.w = v.elim (nfield n f.lo f.w) (· % 2 ^ f.w) := by
  cases v with
  | none => rfl
  | some v => exact nfield_putField _ _ _ _

theorem FieldDef.nfield_put_of_apart {f g : FieldDef} (h : f.apart g) (v : Option Nat) (n : Nat) :
    nfield (f.put v n) g.lo g.w = nfield n g.lo g.w := by
  cases v with
  | none => rfl
  | some v => exact nfield_putField_ne _ _ _ _ _ _ h.symm

theorem FieldDef.put_lt {f : FieldDef} (h : f.lo + f.w ≤ 32) (v : Option Nat) {n : Nat} (hn : n < 2 ^ 32) : f.put v n < 2 ^ 32 := by
  cases v with
  | none => exact hn
  | some v => exact putField_lt _ _ _ _ _ hn h

/-- A word after each listed field has taken the value that `val` gives it, if any. -/
def putFields (val : FieldDef → Option Nat) (fs : List FieldDef) (n : Nat) : Nat := fs.foldl (fun a f => f.put (val f) a) n

variable (val : FieldDef → Option Nat)

theorem nfield_putFields_of_apart (fs : List FieldDef) (g : FieldDef) (h : ∀ f ∈ fs, g.apart f) (n : Nat) :
    nfield (putFields val fs n) g.lo g.w = nfield n g.lo g.w := by
  induction fs generalizing n with
  | nil => rfl
  | cons f fs ih =>
    exact (ih (fun x hx => h x (List.mem_cons_of_mem _ hx)) _).trans (FieldDef.nfield_put_of_apart (h f List.mem_cons_self).symm _ _)

/-- Each field holds its own value: the others share no bit with it. -/
theorem nfield_putFields (fs : List FieldDef) (hp : fs.Pairwise FieldDef.apart) (g : FieldDef) (hg : g ∈ fs) (n : Nat) :
    nfield (putFields val fs n) g.lo g.w = (val g).elim (nfield n g.lo g.w) (· % 2 ^ g.w) := by
  induction fs generalizing n with
  | nil => cases hg
  | cons f fs ih =>
    obtain ⟨hf, hfs⟩ := List.pairwise_cons.1 hp
    rcases List.mem_cons.1 hg with rfl | hg'
    · exact (nfield_putFields_of_apart val fs g hf _).trans (g.nfield_put _ _)
    · refine (ih hfs hg' _).trans ?_
      rw [FieldDef.nfield_put_of_apart (hf g hg')]

theorem putFields_lt (fs : List FieldDef) (h : ∀ f ∈ fs, f.lo + f.w ≤ 32) (n : Nat) (hn : n < 2 ^ 32) : putFields val fs n < 2 ^ 32 := by
  induction fs generalizing n with
  | nil => exact hn
  | cons f fs ih => exact ih (fun x hx => h x (List.mem_cons_of_mem _ hx)) _ (FieldDef.put_lt (h f List.mem_cons_self) _ hn)

/-- Adding up the shifted values of fields that share no bit puts each of them. -/
theorem sum_eq_putFields (fs : List FieldDef) (hp : fs.Pairwise FieldDef.apart) (n : Nat) (hn : ∀ f ∈ fs, nfield n f.lo f.w = 0) :
    fs.foldl (fun a f => a + f.reset % 2 ^ f.w * 2 ^ f.lo) n = putFields (fun f => some f.reset) fs n := by
  induction fs generalizing n with
  | nil => rfl
  | cons f fs ih =>
    obtain ⟨hf, hfs⟩ := List.pairwise_cons.1 hp
    have put : n + f.reset % 2 ^ f.w * 2 ^ f.lo = f.put (some f.reset) n := by
      simp [FieldDef.put, putField, hn f List.mem_cons_self]
    rw [List.foldl_cons, put]
    refine ih hfs _ (fun g hg => ?_)
    rw [FieldDef.nfield_put_of_apart (hf g hg), hn g (List.mem_cons_of_mem _ hg)]

/-! ### What stands in a register at reset -/

theorem RegDef.Sound.resetWord_eq {r : RegDef} (h : r.Sound) : r.resetWord = putFields (fun f => some f.reset) r.fields 0 :=
  sum_eq_putFields _ h.apart 0 (fun _ _ => by simp [nfield])

theorem RegDef.Sound.nfield_resetWord {r : RegDef} (h : r.Sound) (f : FieldDef) (hf : f ∈ r.fields) :
    nfield (BitVec.ofNat 32 r.resetWord).toNat f.lo f.w = f.reset := by
  rw [h.resetWord_eq, BitVec.toNat_ofNat, Nat.mod_eq_of_lt (putFields_lt _ _ h.fits _ (by decide)), nfield_putFields _ _ h.apart f hf]
  exact Nat.mod_eq_of_lt (h.resets f hf)

/-- Apart from BLK_ID and BLK_FREEZE, whose reset values depend on the block, a register resets to the word of its table row. -/
theorem regReset_eq {blk off : Nat} {r : RegDef} (hr : regFind blk off = some r) (ho : off < blockBytes) (hid : off ≠ O.BLK_ID)
    (hfr : off ≠ O.BLK_FREEZE) : regReset (blockBytes * blk + off) = BitVec.ofNat 32 r.resetWord := by
  obtain ⟨k, hk⟩ := regFind_isSome_blk hr
  simp [regReset, window_blk _ _ ho, window_off _ _ ho, hk, hr, hid, hfr]

theorem reset_outputsShow : OutputsShow State.reset.dev where
  irq := by decide +kernel
  vectors := by decide +kernel
  cfgErr := by decide +kernel
  clkmon := by decide +kernel
  ports p := (portSource_default State.reset.dev p rfl).symm

end Sys2Proof.Machine
end

section
/-! A write to a register, as a list of fields that are put; what each access code puts, and what the write leaves alone (R4 to R9). -/

namespace Sys2Proof.Machine

/-- Whether a write takes the field: its access code and the block's LOCK let it, and it is a field that a write can change (R4, R8, R9). -/
def Dev.takesField (s : Dev) (blk off : Nat) (f : FieldDef) : Bool :=
  (f.acc == .rw || (f.acc == .rwl && !s.locked blk)) && fieldOpen blk off f.lo

/-- Whether the write would place a reserved encoding in a field that it takes (R6). -/
def Dev.rejectsField (s : Dev) (blk off : Nat) (w : Word) (f : FieldDef) : Bool :=
  s.takesField blk off f && s.fieldBad blk off w.toNat f.lo

/-- What a write of `w` puts in the field `f`; none where the field stays as it is (R4, R6). -/
def Dev.fieldStored (s : Dev) (blk off : Nat) (w : Word) (f : FieldDef) : Option Nat :=
  let v := nfield w.toNat f.lo f.w
  let old := s.fld blk ⟨off, f.lo, f.w⟩
  if s.takesField blk off f then (if s.rejectsField blk off w f then none else some v)
  else match f.acc with
    | .w1c => some (old - Nat.land old v)
    | .w1s => some (Nat.lor old v)
    | _ => none

variable (s : Dev) {blk off : Nat} {w : Word} {r : RegDef} {f : FieldDef}

theorem Dev.takesField_rw (h : f.acc = .rw) (ho : fieldOpen blk off f.lo = true) : s.takesField blk off f = true := by
  simp [Dev.takesField, h, ho]

theorem Dev.takesField_rwl (h : f.acc = .rwl) (hl : s.locked blk = false) (ho : fieldOpen blk off f.lo = true) :
    s.takesField blk off f = true := by
  simp [Dev.takesField, h, hl, ho]

theorem Dev.fieldStored_take (ht : s.takesField blk off f = true) (hb : s.fieldBad blk off w.toNat f.lo = false) :
    s.fieldStored blk off w f = some (nfield w.toNat f.lo f.w) := by
  simp [Dev.fieldStored, Dev.rejectsField, ht, hb]

theorem Dev.fieldStored_reject (ht : s.takesField blk off f = true) (hb : s.fieldBad blk off w.toNat f.lo = true) :
    s.fieldStored blk off w f = none := by
  simp [Dev.fieldStored, Dev.rejectsField, ht, hb]

theorem Dev.fieldStored_locked (h : f.acc = .rwl) (hl : s.locked blk = true) : s.fieldStored blk off w f = none := by
  simp [Dev.fieldStored, Dev.takesField, h, hl]

theorem Dev.fieldStored_ro (h : f.acc = .ro) : s.fieldStored blk off w f = none := by
  simp [Dev.fieldStored, Dev.takesField, h]

theorem Dev.fieldStored_wo (h : f.acc = .wo) : s.fieldStored blk off w f = none := by
  simp [Dev.fieldStored, Dev.takesField, h]

theorem Dev.fieldStored_w1c (h : f.acc = .w1c) :
    s.fieldStored blk off w f =
      some (s.fld blk ⟨off, f.lo, f.w⟩ - Nat.land (s.fld blk ⟨off, f.lo, f.w⟩) (nfield w.toNat f.lo f.w)) := by
  simp [Dev.fieldStored, Dev.takesField, h]

theorem Dev.fieldStored_w1s (h : f.acc = .w1s) :
    s.fieldStored blk off w f = some (Nat.lor (s.fld blk ⟨off, f.lo, f.w⟩) (nfield w.toNat f.lo f.w)) := by
  simp [Dev.fieldStored, Dev.takesField, h]

/-- What a write puts in a field has the field's width. -/
theorem Dev.fieldStored_lt {v : Nat} (h : s.fieldStored blk off w f = some v) : v < 2 ^ f.w := by
  have hold : s.fld blk ⟨off, f.lo, f.w⟩ < 2 ^ f.w := s.fld_lt _ _
  have hnew : nfield w.toNat f.lo f.w < 2 ^ f.w := nfield_lt _ _ _
  unfold Dev.fieldStored at h
  dsimp only at h
  split at h
  · split at h
    · cases h
    · cases h; exact hnew
  · split at h
    · cases h; exact lt_of_le_of_lt (Nat.sub_le _ _) hold
    · cases h; exact Nat.bitwise_lt_two_pow hold hnew
    · cases h

/-- A field of another register than the one stored. -/
theorem Dev.fld_setReg_ne (b o b' : Nat) (g : Fld) (v : Word) (hne : blockBytes * b' + g.off ≠ blockBytes * b + o) :
    (s.setReg b o v).fld b' g = s.fld b' g := by
  rw [Dev.fld, Dev.reg_setReg_ne _ _ _ _ _ _ hne, Dev.fld]

/-- A write, as a list of fields that are put. -/
theorem Dev.storeReg_eq (hr : regFind blk off = some r) :
    s.storeReg blk off w =
      if r.fields.any (s.rejectsField blk off w) then
        (s.setReg blk off (BitVec.ofNat 32 (putFields (s.fieldStored blk off w) r.fields (s.reg blk off).toNat))).refuse blk
      else s.setReg blk off (BitVec.ofNat 32 (putFields (s.fieldStored blk off w) r.fields (s.reg blk off).toNat)) := by
  have one : ∀ (a : Nat) (f : FieldDef), f.put (s.fieldStored blk off w f) a =
      if s.takesField blk off f then
        (if s.rejectsField blk off w f then a else putField a f.lo f.w (nfield w.toNat f.lo f.w))
      else match f.acc with
        | .w1c => putField a f.lo f.w (nfield (s.reg blk off).toNat f.lo f.w -
            Nat.land (nfield (s.reg blk off).toNat f.lo f.w) (nfield w.toNat f.lo f.w))
        | .w1s => putField a f.lo f.w (Nat.lor (nfield (s.reg blk off).toNat f.lo f.w) (nfield w.toNat f.lo f.w))
        | _ => a := by
    intro a f
    unfold Dev.fieldStored
    cases s.takesField blk off f <;> cases s.rejectsField blk off w f <;> cases f.acc <;> rfl
  simp only [putFields, one]
  unfold Dev.storeReg
  rw [hr]
  rfl

/-- A write to no register changes nothing (R5). -/
theorem Dev.storeReg_none (hr : regFind blk off = none) : s.storeReg blk off w = s := by rw [Dev.storeReg, hr]

/-- What a write leaves alone, for an observation that overlooks the register itself and the block's BLK_STATUS. -/
theorem Dev.storeReg_keeps {β : Type} {p : Dev → β} (h1 : ∀ (s : Dev) v, p (s.setReg blk off v) = p s)
    (h2 : ∀ (s : Dev) v, p (s.setReg blk O.BLK_STATUS v) = p s) : p (s.storeReg blk off w) = p s := by
  cases hr : regFind blk off with
  | none => rw [s.storeReg_none hr]
  | some r =>
    rw [s.storeReg_eq hr]
    split
    · exact (h2 _ _).trans (h1 _ _)
    · exact h1 _ _

@[simp] theorem Dev.storeReg_mem (blk off : Nat) (w : Word) : (s.storeReg blk off w).mem = s.mem :=
  s.storeReg_keeps (p := Dev.mem) (fun _ _ => rfl) (fun _ _ => rfl)

@[simp] theorem Dev.storeReg_flipArmed (blk off : Nat) (w : Word) : (s.storeReg blk off w).flipArmed = s.flipArmed :=
  s.storeReg_keeps (p := Dev.flipArmed) (fun _ _ => rfl) (fun _ _ => rfl)

/-- Another register of the block than the one written and than BLK_STATUS. -/
theorem Dev.reg_storeReg_ne {o : Nat} (ho : o ≠ off) (hs : o ≠ O.BLK_STATUS) : (s.storeReg blk off w).reg blk o = s.reg blk o :=
  s.storeReg_keeps (p := fun s : Dev => s.reg blk o) (fun s v => s.reg_setReg_ne _ _ _ _ _ (by omega))
    (fun s v => s.reg_setReg_ne _ _ _ _ _ (by omega))

/-- The register itself after a write. -/
theorem Dev.reg_storeReg (hr : regFind blk off = some r) (hs : off ≠ O.BLK_STATUS) :
    (s.storeReg blk off w).reg blk off = BitVec.ofNat 32 (putFields (s.fieldStored blk off w) r.fields (s.reg blk off).toNat) := by
  rw [s.storeReg_eq hr]
  split
  · rw [Dev.refuse, Dev.reg_count_ne _ _ _ _ _ (fun h => hs (Nat.add_left_cancel h)), Dev.reg_setReg]
  · rw [Dev.reg_setReg]

/-- A field of the register after a write: what the write puts there, else what it held. -/
theorem Dev.fld_storeReg (hr : regFind blk off = some r) (hf : f ∈ r.fields) (hs : off ≠ O.BLK_STATUS) :
    (s.storeReg blk off w).fld blk ⟨off, f.lo, f.w⟩ = (s.fieldStored blk off w f).getD (s.fld blk ⟨off, f.lo, f.w⟩) := by
  have hr' := regFind_sound hr
  show nfield ((s.storeReg blk off w).reg blk off).toNat f.lo f.w = _
  rw [s.reg_storeReg hr hs, BitVec.toNat_ofNat, Nat.mod_eq_of_lt (putFields_lt _ _ hr'.fits _ (s.reg blk off).isLt),
    nfield_putFields _ _ hr'.apart f hf]
  cases h : s.fieldStored blk off w f with
  | none => rfl
  | some v => exact Nat.mod_eq_of_lt (s.fieldStored_lt h)

/-- A reserved encoding that a field does not take counts once in REFUSE_CNT (R6). -/
theorem Dev.refuseCnt_storeReg (hr : regFind blk off = some r) (hf : f ∈ r.fields) (hb : s.rejectsField blk off w f = true)
    (hs : off ≠ O.BLK_STATUS) :
    (s.storeReg blk off w).fld blk F.BLK_STATUS_REFUSE_CNT = satAdd F.BLK_STATUS_REFUSE_CNT.w (s.fld blk F.BLK_STATUS_REFUSE_CNT) 1 := by
  have cnt (v : Word) : (s.setReg blk off v).fld blk F.BLK_STATUS_REFUSE_CNT = s.fld blk F.BLK_STATUS_REFUSE_CNT :=
    s.fld_setReg_ne _ _ _ _ _ (fun h => hs (Nat.add_left_cancel h).symm)
  rw [s.storeReg_eq hr, if_pos (List.any_eq_true.2 ⟨f, hf, hb⟩), Dev.refuse, Dev.fld_count _ _ _ (by decide), cnt]

/-- DBG_STAT has no field that a write takes. -/
theorem Dev.takesField_dbgStat (hr : regFind B.DBG O.DBG_STAT = some r) (hf : f ∈ r.fields) :
    s.takesField B.DBG O.DBG_STAT f = false := by
  have ro : ∀ r' ∈ regFind B.DBG O.DBG_STAT, ∀ f ∈ r'.fields, f.acc = .ro := by decide
  simp [Dev.takesField, ro r hr f hf]

end Sys2Proof.Machine
end

section
/-! A register command that is carried out, and the registers of the header that its port acts on (R3, R5, R8, R10, R13). -/

namespace Sys2Proof.Machine

/-! ### A register command that is carried out -/

theorem Becomes.completes {c : Instr} {s : State} {d : Dev} {p : Dev → Prop} (h : Becomes c s d) (hp : p d.settle) : Completes c s p :=
  ⟨d.settle, h, hp⟩

/-- A register command that the device carries out does what the block's register port does, and is answered OK. -/
theorem becomes_command {c : Instr} {s : State} {r : RegSrc} {blk off : Nat} {w : Word}
    (hc : exec c s = run (fun d => d.command r blk off w) s) (ho : off < blockBytes) (h : s.dev.writes r blk off w) :
    Becomes c s (s.dev.writeReg r.src blk off w).okReply := by
  obtain ⟨hg, hd⟩ := h
  rw [Becomes, hc, run, Dev.command_open _ _ _ _ _ ho hg hd, Dev.okReply]

theorem exec_registerWrite_command (src : RegSrc) (addr : BitVec 22) (data : Word) (m : State) :
    exec (.registerWrite src addr data) m =
      run (fun d => d.command src (4 * addr.toNat / blockBytes) (4 * addr.toNat % blockBytes) data) m := by
  simp only [exec_registerWrite, Dev.command, regOffset, Nat.div_add_mod]

theorem becomes_registerWrite {s : State} {src : RegSrc} {addr : BitVec 22} {data : Word}
    (h : s.dev.writes src (4 * addr.toNat / blockBytes) (4 * addr.toNat % blockBytes) data) :
    Becomes (.registerWrite src addr data) s
      (s.dev.writeReg src.src (4 * addr.toNat / blockBytes) (4 * addr.toNat % blockBytes) data).okReply :=
  becomes_command (exec_registerWrite_command src addr data s) (Nat.mod_lt _ (by decide)) h

variable (s : Dev)

@[simp] theorem Dev.okReply_mem (v : Word) : (s.okReply v).mem = s.mem := rfl
@[simp] theorem Dev.okReply_reply (v : Word) : (s.okReply v).reply = some ⟨.ok, v⟩ := rfl
@[simp] theorem Dev.okReply_flipArmed (v : Word) : (s.okReply v).flipArmed = s.flipArmed := rfl
@[simp] theorem Dev.okReply_reg (v : Word) (blk off : Nat) : (s.okReply v).reg blk off = s.reg blk off := rfl
@[simp] theorem Dev.okReply_fld (v : Word) (blk : Nat) (f : Fld) : (s.okReply v).fld blk f = s.fld blk f := rfl

/-! ### The registers that the port acts on before the block's own -/

variable {blk : Nat}

theorem Dev.writeReg_blkCtrl (src : Src) (w : Word) (h : (blkKind blk).isSome) : s.writeReg src blk O.BLK_CTRL w = s.blkCtrl blk w := by
  obtain ⟨k, hk⟩ := Option.isSome_iff_exists.1 h
  simp [Dev.writeReg, hk]

theorem Dev.writeReg_evtForce (src : Src) (w : Word) (h : (blkKind blk).isSome) : s.writeReg src blk O.EVT_FORCE w = s.evtForce blk w := by
  obtain ⟨k, hk⟩ := Option.isSome_iff_exists.1 h
  simp [Dev.writeReg, hk, O.EVT_FORCE, O.BLK_CTRL, O.BLK_FREEZE]

theorem Dev.writeReg_eccFlipLo (src : Src) (w : Word) (h : (blkKind blk).isSome) (hf : flips blk = true) :
    s.writeReg src blk O.ECC_FLIP_LO w = s.eccFlipLo blk w := by
  obtain ⟨k, hk⟩ := Option.isSome_iff_exists.1 h
  simp [Dev.writeReg, hk, hf, O.ECC_FLIP_LO, O.EVT_FORCE, O.BLK_CTRL, O.BLK_FREEZE]

/-- A write to a reserved offset, the vector table of the PCI Express block apart, changes nothing (R5). -/
theorem Dev.writeReg_reserved (src : Src) {off : Nat} (w : Word) (hr : regFind blk off = none) (hp : blk ≠ B.PCIE) :
    s.writeReg src blk off w = s := by
  cases hk : blkKind blk with
  | none => simp [Dev.writeReg, hk]
  | some k =>
    have header (o : Nat) (d : RegDef) (hd : headerRegs.find? (fun d => d.covers o) = some d) : off ≠ o := by
      rintro rfl
      rw [regFind_header blk off (by simp [hk]) d hd] at hr
      cases hr
    have flipLo : ¬ (off = O.ECC_FLIP_LO ∧ flips blk = true) := by
      rintro ⟨rfl, hf⟩
      rw [regFind_flipLo blk hf] at hr
      cases hr
    simp [Dev.writeReg, hk, header O.BLK_CTRL _ rfl, header O.BLK_FREEZE _ rfl, header O.EVT_FORCE _ rfl, flipLo, hr, hp]

/-- A narrow access in a mode in which the window answers (R3, R463). -/
theorem Dev.narrowAccess_answered (h1 : s.mode ≠ .beacon) (h2 : s.mode ≠ .reset) :
    s.narrowAccess = { s with reply := some ⟨.range, 0⟩ } := by simp [Dev.narrowAccess, h1, h2]

/-- A narrow access in a mode in which nothing answers. -/
theorem Dev.narrowAccess_silent (h : s.mode = .beacon ∨ s.mode = .reset) : s.narrowAccess = { s with reply := none } := by
  simp [Dev.narrowAccess, h]

/-! ### BLK_CTRL, the flip mask and the bucket -/

/-- A write to BLK_CTRL with a one at LOCK sets it (R4, R8). -/
theorem Dev.flag_blkCtrl_lock (w : Word) (hb : (blkKind blk).isSome) (h : nfield w.toNat 31 1 = 1) :
    (s.blkCtrl blk w).flag blk F.BLK_CTRL_LOCK = true := by
  have stored : (s.storeReg blk O.BLK_CTRL w).fld blk F.BLK_CTRL_LOCK ≠ 0 := by
    have hf := s.fld_storeReg (w := w) (f := ⟨31, 1, .w1s, 0⟩) (regFind_header blk O.BLK_CTRL hb _ rfl) (by decide) (by decide)
    rw [s.fieldStored_w1s rfl, Option.getD_some, h] at hf
    intro h0
    exact absurd (Nat.or_eq_zero_iff.1 (hf.symm.trans h0)).2 (by decide)
  have kept : (s.blkCtrl blk w).fld blk F.BLK_CTRL_LOCK = (s.storeReg blk O.BLK_CTRL w).fld blk F.BLK_CTRL_LOCK := by
    unfold Dev.blkCtrl
    dsimp only
    split
    · exact Dev.fld_setFld_ne _ _ _ _ _ _ (by simp [F.BLK_CTRL_LOCK, F.BLK_STATUS_REFUSE_CNT])
    · rfl
  simpa [Dev.flag, kept] using stored

/-- A write to BLK_CTRL with REFUSE_CLR set clears REFUSE_CNT (R8). -/
theorem Dev.fld_blkCtrl_refuseCnt (w : Word) (h : nbit w.toNat 1 = true) :
    (s.blkCtrl blk w).fld blk F.BLK_STATUS_REFUSE_CNT = 0 := by
  rw [Dev.blkCtrl, if_pos h, Dev.fld_setFld _ _ _ _ (by decide), Nat.zero_mod]

@[simp] theorem Dev.blkCtrl_mem (w : Word) : (s.blkCtrl blk w).mem = s.mem := by
  unfold Dev.blkCtrl
  dsimp only
  split <;> simp

/-- No mask is a reserved encoding of ECC_FLIP_LO. -/
theorem Dev.fieldBad_flipLo (n : Nat) (hf : flips blk = true) : s.fieldBad blk O.ECC_FLIP_LO n 0 = false := by
  unfold flips at hf
  unfold Dev.fieldBad
  split at hf
  · rename_i k hk
    rw [hk]
    cases k with
    | dmc | hold | mce | scrb => rfl
    | _ => cases hf
  · cases hf

theorem Dev.fld_word (off : Nat) : s.fld blk ⟨off, 0, 32⟩ = (s.reg blk off).toNat := by
  simp [Dev.fld, nfield, Nat.mod_eq_of_lt (s.reg blk off).isLt]

theorem Dev.reg_storeReg_flipLo (w : Word) (hf : flips blk = true) :
    (s.storeReg blk O.ECC_FLIP_LO w).reg blk O.ECC_FLIP_LO = w := by
  have takes : s.takesField blk O.ECC_FLIP_LO ⟨0, 32, .rw, 0⟩ = true := rfl
  have stored := s.fld_storeReg (w := w) (f := ⟨0, 32, .rw, 0⟩) (regFind_flipLo blk hf) (by decide) (by decide)
  rw [s.fieldStored_take takes (s.fieldBad_flipLo _ hf), Option.getD_some, Dev.fld_word] at stored
  apply BitVec.eq_of_toNat_eq
  rw [stored, nfield, Nat.shiftRight_zero, Nat.mod_eq_of_lt w.isLt]

/-- ECC_FLIP_LO stores the low half of the mask (R13). -/
theorem Dev.reg_eccFlipLo (w : Word) (hf : flips blk = true) : (s.eccFlipLo blk w).reg blk O.ECC_FLIP_LO = w :=
  s.reg_storeReg_flipLo w hf

theorem Dev.reg_eccFlipLo_hi (w : Word) : (s.eccFlipLo blk w).reg blk O.ECC_FLIP_HI = s.reg blk O.ECC_FLIP_HI :=
  s.reg_storeReg_ne (by decide) (by decide)

/-- The block is armed while either half of the mask is not zero (R13). -/
theorem Dev.flipArmed_eccFlipLo (w : Word) :
    (s.eccFlipLo blk w).flipArmed.contains blk ↔ w ≠ 0 ∨ s.reg blk O.ECC_FLIP_HI ≠ 0 := by
  have hi : (s.storeReg blk O.ECC_FLIP_LO w).reg blk O.ECC_FLIP_HI = s.reg blk O.ECC_FLIP_HI := s.reg_storeReg_ne (by decide) (by decide)
  unfold Dev.eccFlipLo
  dsimp only
  rw [hi]
  by_cases h : w = 0 ∧ s.reg blk O.ECC_FLIP_HI = 0
  · simp [h]
  · rw [if_neg (by simpa using h)]
    simpa [← not_and_or] using h

/-- The period of a bucket that leaks (R534). -/
theorem Dev.bucketLeak_leaks (hp : s.clk.mainPower = true) (hl : s.fld blk F.EVT_BUCKET_LEAK ≠ 15) :
    s.bucketLeak blk = s.setFld blk F.EVT_BUCKET_LEVEL (s.fld blk F.EVT_BUCKET_LEVEL - 1) := by
  simp [Dev.bucketLeak, hp, hl]

end Sys2Proof.Machine
end

section
/-! The outputs after they have settled, and where settling raises no event (R8, R362, R363, R10). -/

namespace Sys2Proof.Machine

/-- Settling makes the outputs show the state, whatever they showed before. -/
theorem settle_outputsShow (s : Dev) : OutputsShow s.settle where
  irq := rfl
  vectors := rfl
  cfgErr := rfl
  clkmon := rfl
  ports p := by rw [settle_portSource, settle_port]

/-- A step ends with the settling of the outputs, with a command at the front of the queue and without. -/
theorem step_settles {s s' : State} (h : step s = .next s') : ∃ d : Dev, s'.dev = d.settle := by
  obtain ⟨d, pending⟩ := s
  cases pending with
  | nil =>
    obtain rfl := Host.Outcome.next.inj h
    exact ⟨_, rfl⟩
  | cons c rest =>
    obtain ⟨f, hf⟩ := exec_is_run c ⟨d, rest⟩
    obtain rfl := Host.Outcome.next.inj (hf.symm.trans h)
    exact ⟨_, rfl⟩

/-- Where every port has the source that R362 gives it, settling raises no event: it writes the ports and the outputs and no more. -/
theorem settlePorts_of_sources (s : Dev) (h : ∀ p, (s.port p).txSrc = s.portSource p) :
    s.settlePorts = { s with ports := s.settlePorts.ports } := by
  have none_moves : (s.ports.map (·.1)).filter (fun p => (s.port p).txSrc == .slots && s.portSource p != .slots) = [] := by
    simp [List.filter_eq_nil_iff, h]
  simp only [Dev.settlePorts, none_moves, List.foldl_nil]

theorem settle_of_sources (s : Dev) (h : ∀ p, (s.port p).txSrc = s.portSource p) :
    s.settle = { s with ports := s.settlePorts.ports }.settleOutputs := by
  rw [Dev.settle, settlePorts_of_sources s h]

/-! ### Events by force -/

variable (s : Dev)

/-- There are 0x5B block indices (R217). -/
theorem blkKind_lt {b : Nat} (h : (blkKind b).isSome) : b < 0x5B := by
  by_contra hb
  have hnone : blkKind b = none := by
    unfold blkKind
    simp only [show ¬ b < 0x10 by omega, show ¬ b < 0x18 by omega, show ¬ b < 0x28 by omega, show ¬ b < 0x30 by omega,
      show ¬ b < 0x50 by omega, show ¬ b < 0x58 by omega, show b ≠ 0x58 by omega, show b ≠ 0x59 by omega, show b ≠ 0x5A by omega, if_false]
  rw [hnone] at h
  cases h

theorem Dev.mode_setReg_evt (b : Nat) (w : Word) : (s.setReg b O.EVT_STATUS w).mode = s.mode := by
  have apart : blockBytes * B.LH + F.LH_MODE_MODE.off ≠ blockBytes * b + O.EVT_STATUS := fun h =>
    absurd (window_inj (by decide) (by decide) h).2 (by decide)
  rw [Dev.mode, s.fld_setReg_ne _ _ _ _ _ apart, Dev.mode]

/-- The source of a jetty line does not depend on the events of a block (R362). -/
theorem Dev.portSource_setReg_evt (b : Nat) (w : Word) (p : Nat) : (s.setReg b O.EVT_STATUS w).portSource p = s.portSource p := by
  unfold Dev.portSource
  rw [s.mode_setReg_evt b w]
  rfl

/-- The device after a forced event, its outputs settled: no line changes its source, so no event is raised besides. -/
theorem settle_evtForce (b : Nat) (w : Word) (h : OutputsShow s) : (s.evtForce b w).okReply.settle =
    { (s.evtForce b w).okReply with ports := (s.evtForce b w).okReply.settlePorts.ports }.settleOutputs :=
  settle_of_sources _ (fun p => (h.ports p).trans (s.portSource_setReg_evt b _ p).symm)

theorem mem_irqBlocks {b : Nat} : b ∈ s.irqBlocks ↔
    b < 0x5B ∧ s.flag b F.BLK_CTRL_IRQ_EN = true ∧ s.reg b O.EVT_STATUS &&& s.reg b O.EVT_ENABLE ≠ 0 := by
  simp [Dev.irqBlocks]

theorem or_and_ne_zero (old forced enabled : Word) (h : forced &&& enabled ≠ 0) : (old ||| forced) &&& enabled ≠ 0 := by
  rw [BitVec.and_comm, BitVec.and_or_distrib_left]
  intro h0
  exact h (by rw [BitVec.and_comm]; exact (BitVec.or_eq_zero_iff.1 h0).2)

/-- The registers after a forced event: EVT_STATUS of the block takes the forced bits, the others are as they were. -/
theorem Dev.reg_evtForce (b : Nat) (w : Word) : (s.evtForce b w).reg b O.EVT_STATUS = s.reg b O.EVT_STATUS ||| w := s.reg_setReg _ _ _

theorem Dev.reg_evtForce_ne (b b' o : Nat) (w : Word) (ho : o < blockBytes) (h : b' ≠ b ∨ o ≠ O.EVT_STATUS) :
    (s.evtForce b w).reg b' o = s.reg b' o :=
  s.reg_setReg_ne _ _ _ _ _ (fun e =>
    have ⟨hb, hoff⟩ := window_inj ho (by decide) e
    h.elim (· hb) (· hoff))

end Sys2Proof.Machine
end

section
/-! A message that its endpoint takes, and the ways of a request at its target (R16, R216, R221, R239). -/

namespace Sys2Proof.Machine

/-- The device without a message that its endpoint takes. -/
abbrev Dev.takeDelivered (s : Dev) (m : Msg) : Dev := { s with net := { s.net with delivered := dropFirst m s.net.delivered } }

/-- A well-formed message is taken by the command for its OP, where its endpoint does not hold it back. -/
theorem Dev.netTake_run {s d : Dev} {m : Msg} {mine : Nat → Bool} {f : Dev → Option Dev} (hd : s.net.delivered.contains m = true)
    (hq : s.mode ≠ .quarantine) (hm : (s.takeDelivered m).malformed m = false) (hop : mine m.h.op = true)
    (hf : f (s.takeDelivered m) = some d) : s.netTake m mine f = d := by
  simp [Dev.netTake, hop, hq, List.contains_iff_mem.1 hd, hm, hf]

variable (s : Dev) (m : Msg)

/-- A response reaches an initiator that neither its gate nor a halt stops (R222, R248). -/
theorem Dev.responseIn_matching {o : Out} (ho : s.matching m.h = some o) (hg : s.srcGated o.src = false) (hh : s.srcHalted o.src = false) :
    s.responseIn m = some (s.outPart o m) := by
  simp only [Dev.responseIn, ho, hg, Bool.false_eq_true, if_false]
  split
  · rfl
  · rfl
  · simp [hh]

/-- A metadata request that its DMC takes joins the reserved queue (R221, R251). -/
theorem Dev.metaArrive_push (hg : s.gated (B.DMC (s.dmcOf m.h.addr)) = false) (hw : addrWin m.h.addr = some .ext)
    (hu : s.beyondUsable (s.dmcOf m.h.addr) m.h.addr m.h.len = false) (hs : 2 ≤ s.fld (B.DMC (s.dmcOf m.h.addr)) F.DMC_STATE_STATE) :
    s.metaArrive m = s.arbPush (s.dmcOf m.h.addr) m := by
  simp [Dev.metaArrive, hg, hw, hu, Nat.not_lt.2 hs]

theorem Dev.netTake_meta {s : Dev} {m : Msg} {mine : Nat → Bool} (hd : s.net.delivered.contains m = true) (hq : s.mode ≠ .quarantine)
    (hm : (s.takeDelivered m).malformed m = false) (hop : mine m.h.op = true)
    (hg : (s.takeDelivered m).gated (B.DMC ((s.takeDelivered m).dmcOf m.h.addr)) = false) (hw : addrWin m.h.addr = some .ext)
    (hu : (s.takeDelivered m).beyondUsable ((s.takeDelivered m).dmcOf m.h.addr) m.h.addr m.h.len = false)
    (hs : 2 ≤ (s.takeDelivered m).fld (B.DMC ((s.takeDelivered m).dmcOf m.h.addr)) F.DMC_STATE_STATE) :
    s.netTake m mine (fun s => some (s.metaArrive m)) = (s.takeDelivered m).arbPush ((s.takeDelivered m).dmcOf m.h.addr) m :=
  Dev.netTake_run hd hq hm hop (by rw [(s.takeDelivered m).metaArrive_push m hg hw hu hs])

/-- A read of a register by a message (R216, R221). -/
theorem Dev.serveRegs_read {r : Reply} {d : Dev} (hop : m.h.op = 1)
    (hb : s.busRead (s.nodeSrc m.h.src) m.h.peek (m.h.addr - regWindow) = (some r, d)) :
    s.serveRegs m = d.respond m.h r.status (leBytes 4 r.data.toNat) := by
  unfold regWindow at hb
  simp [Dev.serveRegs, hop, hb]

/-- A write of a register by a message whose data are not poisoned (R216, R221, R223). -/
theorem Dev.serveRegs_write {st : Status} {d : Dev} (hop : m.h.op = 2) (hp : m.poison = [])
    (hb : s.busWrite (s.nodeSrc m.h.src) (m.h.addr - regWindow) (BitVec.ofNat 32 (ofLeBytes (m.data.take 4))) = (some st, d)) :
    s.serveRegs m = d.respond m.h st := by
  unfold regWindow at hb
  simp [Dev.serveRegs, hop, hp, hb]

theorem Dev.serveRequest_regs (ha : addrBad m.h.addr m.h.len = false) (hw : addrWin m.h.addr = some .regs) :
    s.serveRequest m = some (s.serveRegs m) := by simp [Dev.serveRequest, ha, hw]

theorem Dev.serveRequest_hold (ha : addrBad m.h.addr m.h.len = false) (hw : addrWin m.h.addr = some .hold) :
    s.serveRequest m = some (s.bankArrive m) := by simp [Dev.serveRequest, ha, hw]

/-- A request for a bank that is awake and that neither its gate nor a halt stops enters the bank (R190, R248). -/
theorem Dev.bankArrive_enters (hg : s.gated (B.HOLD (holdBank m.h.addr / 1024)) = false) (hs : s.bankSleeps (holdBank m.h.addr) = false)
    (hh : s.halted (B.HOLD (holdBank m.h.addr / 1024)) = false) : s.bankArrive m = s.enterBank m := by
  simp [Dev.bankArrive, hg, hs, hh]

theorem Dev.enterBank_serves (h : s.bankRefusal (s.nodeSrc m.h.src) (holdBank m.h.addr) = none) : s.enterBank m = s.lockEnter m := by
  rw [Dev.enterBank, h]

theorem Dev.enterBank_refuses {st : Status} (h : s.bankRefusal (s.nodeSrc m.h.src) (holdBank m.h.addr) = some st) :
    s.enterBank m = s.respond m.h st := by rw [Dev.enterBank, h]

/-- A read or write of length zero moves no byte (R16). -/
theorem Dev.lockEnter_empty (h : m.h.op ≤ 2) (hl : m.h.len = 0) : s.lockEnter m = s.respond m.h .ok := by
  simp [Dev.lockEnter, h, hl]

/-- A RELINQUISH, and a request that no lock stops, goes on to the arbiter (R239, R241). -/
theorem Dev.lockEnter_pass (hl : m.h.op ≤ 2 → m.h.len ≠ 0) (h : m.h.op = 6 ∨ s.lockMeets m = false) :
    s.lockEnter m = s.arbPush (s.arbOf m.h.addr) m := by
  have full : ¬ (m.h.op ≤ 2 ∧ m.h.len = 0) := fun ⟨h1, h2⟩ => hl h1 h2
  by_cases h6 : m.h.op = 6
  · simp [Dev.lockEnter, h6]
  · simp [Dev.lockEnter, full, h6, Dev.lockGate, h.resolve_left h6]

/-- A request that meets a lock waits at the table (R239). -/
theorem Dev.lockEnter_wait (hl : m.h.op ≤ 2 → m.h.len ≠ 0) (h6 : m.h.op ≠ 6) (h : s.lockMeets m = true)
    (hr : (s.lockWaiters (s.lockTable m.h.addr)).length < waitRoom) :
    s.lockEnter m = s.setWaiters (s.lockTable m.h.addr) (s.lockWaiters (s.lockTable m.h.addr) ++ [m]) := by
  have full : ¬ (m.h.op ≤ 2 ∧ m.h.len = 0) := fun ⟨h1, h2⟩ => hl h1 h2
  simp [Dev.lockEnter, full, h6, Dev.lockGate, h, Dev.lockWait, Nat.not_le.2 hr]

end Sys2Proof.Machine
end

section
/-! The register commands of the header, each with what it completes with (R4, R8, R13). -/

namespace Sys2Proof.Machine

variable {src : RegSrc} {b : BitVec 8} {data : Word} {st : State}

theorem completes_lock (hb : (blkKind b.toNat).isSome) (hw : st.dev.writes src b.toNat O.BLK_CTRL (withField data 31 1 1)) :
    Completes (.lock src b data) st (fun d =>
      d.flag b.toNat F.BLK_CTRL_LOCK = true ∧ d.mem = st.dev.mem ∧ d.reply = some ⟨.ok, 0⟩) := by
  have becomes := becomes_command (exec_lock src b data st) (by decide) hw
  rw [st.dev.writeReg_blkCtrl _ _ hb] at becomes
  refine becomes.completes ⟨?_, by rw [settle_mem, Dev.okReply_mem, Dev.blkCtrl_mem], by rw [settle_reply, Dev.okReply_reply]⟩
  rw [Dev.flag, settle_fld _ _ _ (by decide) (by decide) (.inr (by decide)), Dev.okReply_fld, ← Dev.flag]
  exact st.dev.flag_blkCtrl_lock _ hb (nfield_withField data 31 1 1 (by decide))

theorem completes_refuseClr (hb : (blkKind b.toNat).isSome) (hw : st.dev.writes src b.toNat O.BLK_CTRL (withField data 1 1 1)) :
    Completes (.refuseClr src b data) st (fun d =>
      d.fld b.toNat F.BLK_STATUS_REFUSE_CNT = 0 ∧ d.mem = st.dev.mem ∧ d.reply = some ⟨.ok, 0⟩) := by
  have becomes := becomes_command (exec_refuseClr src b data st) (by decide) hw
  rw [st.dev.writeReg_blkCtrl _ _ hb] at becomes
  refine becomes.completes ⟨?_, by rw [settle_mem, Dev.okReply_mem, Dev.blkCtrl_mem], by rw [settle_reply, Dev.okReply_reply]⟩
  rw [settle_fld _ _ _ (by decide) (by decide) (.inr (by decide)), Dev.okReply_fld]
  exact st.dev.fld_blkCtrl_refuseCnt _ (nbit_withField data 1 1 (by decide))

theorem completes_eccFlipArm (hb : (blkKind b.toNat).isSome) (hf : flips b.toNat = true) (hw : st.dev.writes src b.toNat O.ECC_FLIP_LO data) :
    Completes (.eccFlipArm src b data) st (fun d =>
      d.reg b.toNat O.ECC_FLIP_LO = data ∧ d.reg b.toNat O.ECC_FLIP_HI = st.dev.reg b.toNat O.ECC_FLIP_HI ∧
      (d.flipArmed.contains b.toNat ↔ data ≠ 0 ∨ st.dev.reg b.toNat O.ECC_FLIP_HI ≠ 0)) := by
  have becomes := becomes_command (exec_eccFlipArm src b data st) (by decide) hw
  rw [st.dev.writeReg_eccFlipLo _ _ hb hf] at becomes
  refine becomes.completes ⟨?_, ?_, ?_⟩
  · rw [settle_reg _ _ _ (by decide) (by decide) (.inr (by decide)), Dev.okReply_reg, st.dev.reg_eccFlipLo _ hf]
  · rw [settle_reg _ _ _ (by decide) (by decide) (.inr (by decide)), Dev.okReply_reg, st.dev.reg_eccFlipLo_hi]
  · rw [settle_flipArmed, Dev.okReply_flipArmed, st.dev.flipArmed_eccFlipLo]

end Sys2Proof.Machine
end

section
/-! The statements of the scope (chapter 00), settled. -/

namespace Sys2Proof.Machine

/-- Settles O57: a step ends with the settling of the outputs, which makes them show the state. -/
theorem stepKeepsOutputs : Obligations.StepKeepsOutputs := by
  intro s s' _ h
  obtain ⟨d, hd⟩ := step_settles h
  rw [hd]
  exact settle_outputsShow d

/-- Settles O1: each command is carried out by the header's port, and settling leaves what it stored. -/
theorem blockHeaderCommands : Obligations.BlockHeaderCommands := by
  intro s src blk data hb
  refine ⟨completes_lock hb, completes_refuseClr hb, fun hw => ?_, fun hw hf => completes_eccFlipArm hb hf hw, fun hp hl => ?_⟩
  · have becomes := becomes_command (exec_evtForce src blk data s) (by decide) hw
    rwa [s.dev.writeReg_evtForce _ _ hb] at becomes
  · rw [Becomes, exec_bucketLeak, run, s.dev.bucketLeak_leaks hp hl]

/-- Settles O13: the commands by the rule that a well-formed message is taken, a target's answer by its rules. -/
theorem networkMessages : Obligations.NetworkMessages := by
  refine ⟨?_, ?_⟩
  · intro s m s1 hd hq hm
    refine ⟨fun d hserve => ⟨fun hop => ?_, fun hop => ?_, fun hop => ?_, fun hop => ?_⟩, fun o hop ho hg hh => ?_,
      fun k hk hg hw hu hs => ⟨fun hop => ?_, fun hop => ?_⟩⟩
    · rw [Becomes, exec_netRead, run, Dev.netRead, Dev.netTake_run hd hq hm (by simp [hop]) hserve]
    · rw [Becomes, exec_netWrite, run, Dev.netWrite, Dev.netTake_run hd hq hm (by simp [hop]) hserve]
    · rw [Becomes, exec_netAcquire, run, Dev.netAcquire, Dev.netTake_run hd hq hm (by simp [hop]) hserve]
    · rw [Becomes, exec_netRelinquish, run, Dev.netRelinquish, Dev.netTake_run hd hq hm (by simp [hop]) hserve]
    · rw [Becomes, exec_netResponse, run, Dev.netResponse, Dev.netTake_run hd hq hm (by simp [hop]) (s1.responseIn_matching m ho hg hh)]
    · subst hk
      rw [Becomes, exec_netMread, run, Dev.netMread, Dev.netTake_meta hd hq hm (by simp [hop]) hg hw hu hs]
    · subst hk
      rw [Becomes, exec_netMwrite, run, Dev.netMwrite, Dev.netTake_meta hd hq hm (by simp [hop]) hg hw hu hs]
  · intro s m ha
    refine ⟨fun r d hw hop hb => ?_, fun st d hw hop hp hb => ?_, fun hw hg hs hh hr => ?_, s.lockEnter_empty m, s.lockEnter_pass m,
      s.lockEnter_wait m, fun st hw hg hs hh hr => ?_⟩
    · rw [s.serveRequest_regs m ha hw, s.serveRegs_read m hop hb]
    · rw [s.serveRequest_regs m ha hw, s.serveRegs_write m hop hp hb]
    · rw [s.serveRequest_hold m ha hw, s.bankArrive_enters m hg hs hh, s.enterBank_serves m hr]
    · rw [s.serveRequest_hold m ha hw, s.bankArrive_enters m hg hs hh, s.enterBank_refuses m hr]

/-- Settles O48: a whole-register write is the register command at its address; a narrow access stops before any register. -/
theorem registerWrites : Obligations.RegisterWrites := by
  intro s src addr data byte size
  dsimp only
  refine ⟨fun h => ⟨becomes_registerWrite h, fun hr hp => ?_⟩, fun h1 h2 => ?_, fun h => ?_⟩
  · have hw := becomes_registerWrite h
    rwa [s.dev.writeReg_reserved _ _ hr hp] at hw
  · rw [Becomes, exec_narrowAccess, run, s.dev.narrowAccess_answered h1 h2]
  · rw [Becomes, exec_narrowAccess, run, s.dev.narrowAccess_silent h]

/-- Settles O50: each access code by what it puts in the field. -/
theorem accessCodes : Obligations.AccessCodes := by
  intro d blk off w r f hr hf hs
  dsimp only
  rw [d.fld_storeReg hr hf hs]
  refine ⟨?_, ?_, ?_, ?_, ?_, ?_⟩
  · rintro ha ⟨ho, hb⟩
    rw [d.fieldStored_take (d.takesField_rw ha ho) hb, Option.getD_some]
  · rintro ha hl ⟨ho, hb⟩
    rw [d.fieldStored_take (d.takesField_rwl ha hl ho) hb, Option.getD_some]
  · intro ha hl
    rw [d.fieldStored_locked ha hl, Option.getD_none]
  · rintro (ha | ha)
    · rw [d.fieldStored_ro ha, Option.getD_none]
    · rw [d.fieldStored_wo ha, Option.getD_none]
  · intro ha
    rw [d.fieldStored_w1c ha, Option.getD_some]
  · intro ha
    rw [d.fieldStored_w1s ha, Option.getD_some]

/-- Settles O51: a write that the device carries out stores the register, and settling leaves that register and BLK_STATUS alone. -/
theorem reservedEncodings : Obligations.ReservedEncodings := by
  intro s src addr data r f
  dsimp only
  generalize hblk : 4 * addr.toNat / blockBytes = blk
  generalize hoff : 4 * addr.toNat % blockBytes = off
  intro hw hr hstore hf hacc hopen hbad hns hne
  have hlt : off < blockBytes := hoff ▸ Nat.mod_lt _ (by decide)
  have takes : s.dev.takesField blk off f = true :=
    hacc.elim (s.dev.takesField_rw · hopen) (fun ⟨ha, hl⟩ => s.dev.takesField_rwl ha hl hopen)
  have notDbgStat : blk ≠ B.DBG ∨ off ≠ O.DBG_STAT := by
    by_contra hc
    obtain ⟨rfl, rfl⟩ : blk = B.DBG ∧ off = O.DBG_STAT := by simpa [not_or] using hc
    rw [s.dev.takesField_dbgStat hr hf] at takes
    cases takes
  have becomes : Becomes (.registerWrite src addr data) s (s.dev.storeReg blk off data).okReply := by
    rw [← hstore, ← hblk, ← hoff]
    exact becomes_registerWrite (by rwa [hblk, hoff])
  refine becomes.completes ⟨?_, ?_, ?_, ?_⟩
  · rw [settle_fld _ _ _ hlt hne notDbgStat, Dev.okReply_fld, s.dev.fld_storeReg hr hf hns, s.dev.fieldStored_reject takes hbad,
      Option.getD_none]
  · intro g hg ha ho hb
    rw [settle_fld _ _ ⟨off, g.lo, g.w⟩ hlt hne notDbgStat, Dev.okReply_fld, s.dev.fld_storeReg hr hg hns,
      s.dev.fieldStored_take (s.dev.takesField_rw ha ho) hb, Option.getD_some]
  · rw [settle_fld _ _ _ (by decide) (by decide) (.inr (by decide)), Dev.okReply_fld,
      s.dev.refuseCnt_storeReg hr hf (by simp [Dev.rejectsField, takes, hbad]) hns]
  · rw [settle_mem, Dev.okReply_mem, Dev.storeReg_mem]

/-- Settles O52: the settled outputs request the interrupt, and settling raises no event of its own. -/
theorem forcedEvents : Obligations.ForcedEvents := by
  intro s src blk data hout hw hblk
  have becomes : Becomes (.evtForce src blk data) s (s.dev.evtForce blk.toNat data).okReply := by
    rw [← s.dev.writeReg_evtForce src.src data hblk]
    exact becomes_command (exec_evtForce src blk data s) (by decide) hw
  have status : (s.dev.evtForce blk.toNat data).okReply.settle.reg blk.toNat O.EVT_STATUS = s.dev.reg blk.toNat O.EVT_STATUS ||| data := by
    rw [settle_evtForce _ _ _ hout]
    exact s.dev.reg_evtForce _ _
  have others (b o : Nat) (h : b ≠ blk.toNat ∨ o ≠ O.EVT_STATUS) (ho : o < blockBytes) :
      (s.dev.evtForce blk.toNat data).okReply.settle.reg b o = s.dev.reg b o := by
    rw [settle_evtForce _ _ _ hout]
    exact s.dev.reg_evtForce_ne _ _ _ _ ho h
  refine becomes.completes ⟨status, fun hen hirq => ?_, others, ?_⟩
  · rw [(settle_outputsShow _).irq, mem_irqBlocks]
    refine ⟨blkKind_lt hblk, ?_, ?_⟩
    · rwa [Dev.flag, Dev.fld, others _ _ (.inr (by decide)) (by decide)]
    · rw [status, others _ O.EVT_ENABLE (.inr (by decide)) (by decide)]
      exact or_and_ne_zero _ _ _ hen
  · rw [settle_mode]
    refine ⟨s.dev.mode_setReg_evt _ _, ?_⟩
    rw [settle_evtForce _ _ _ hout]
    exact ⟨rfl, rfl, rfl, rfl, rfl, rfl, rfl, rfl, rfl, rfl⟩

/-- Settles O58: a field of a register at reset is cut out of the word its table row resets to. -/
theorem resetState : Obligations.ResetState := by
  refine ⟨rfl, by decide +kernel, rfl, reset_outputsShow, rfl, ?_⟩
  intro blk off r f hr hf hid hfr ho
  show nfield (regReset (blockBytes * blk + off)).toNat f.lo f.w = f.reset
  rw [regReset_eq hr ho hid hfr, (regFind_sound hr).nfield_resetWord f hf]

end Sys2Proof.Machine
end

section
/-! What an event and the settling of the outputs leave of the device, beside what Laws/Settle.lean says; what storing a register and
ending a command leave. -/

namespace Sys2Proof.Machine

/-- The device without what an event or the settling of the outputs may change: the registers, a pending halt, the flags sent and the
links, the ports, pins and vectors. -/
def Dev.core (s : Dev) : Dev :=
  { s with regs := [], run := { s.run with haltAt := none, haltTide := 0 }, tide := { s.tide with flags := [] }, links := [],
           ports := [], pins := {}, pcie := { s.pcie with asserted := [], owed := [] } }

theorem core_overlooks (ev : Nat → Prop) : Overlooks Dev.core ev :=
  ⟨fun _ _ _ _ => rfl, fun _ _ => rfl, fun _ _ _ => rfl, fun _ _ => rfl, fun _ _ _ => rfl⟩

theorem core_overlooksOut : OverlooksOut Dev.core := ⟨core_overlooks _, fun _ _ => rfl, fun _ _ _ _ => rfl⟩

theorem settle_core (s : Dev) : s.settle.core = s.core := settle_keeps core_overlooksOut s

theorem Dev.event_core (s : Dev) (b n : Nat) : (s.event b n).core = s.core :=
  event_keeps (core_overlooks fun _ => True) s b n (.inl trivial)

/-! ### The tide after the outputs have settled -/

@[simp] theorem settle_tideNum (s : Dev) : s.settle.tide.num = s.tide.num := congrArg (·.tide.num) (settle_core s)
@[simp] theorem settle_decls (s : Dev) : s.settle.tide.decls = s.tide.decls := congrArg (·.tide.decls) (settle_core s)
@[simp] theorem settle_transfers (s : Dev) : s.settle.tide.transfers = s.tide.transfers := congrArg (·.tide.transfers) (settle_core s)
@[simp] theorem settle_xing (s : Dev) : s.settle.tide.xing = s.tide.xing := congrArg (·.tide.xing) (settle_core s)
@[simp] theorem settle_released (s : Dev) : s.settle.tide.released = s.tide.released := congrArg (·.tide.released) (settle_core s)

theorem settle_flag (s : Dev) (b : Nat) (f : Fld) (hb : f.off < blockBytes) (ho : f.off ≠ O.EVT_STATUS)
    (hd : b ≠ B.DBG ∨ f.off ≠ O.DBG_STAT) : s.settle.flag b f = s.flag b f := by
  rw [Dev.flag, settle_fld s b f hb ho hd, Dev.flag]

@[simp] theorem settle_erg (s : Dev) (e : Nat) : s.settle.erg e = s.erg e := by rw [Dev.erg, settle_ergs, Dev.erg]

/-! ### After an event -/

section
variable (s : Dev) (b n : Nat)

@[simp] theorem Dev.event_mem : (s.event b n).mem = s.mem := congrArg (·.mem) (s.event_core b n)
@[simp] theorem Dev.event_stack : (s.event b n).stack = s.stack := congrArg (·.stack) (s.event_core b n)
@[simp] theorem Dev.event_cfg : (s.event b n).cfg = s.cfg := congrArg (·.cfg) (s.event_core b n)
@[simp] theorem Dev.event_hold : (s.event b n).hold = s.hold := congrArg (·.hold) (s.event_core b n)
@[simp] theorem Dev.event_decls : (s.event b n).tide.decls = s.tide.decls := congrArg (·.tide.decls) (s.event_core b n)

/-- An event changes no register but EVT_STATUS of blocks and DBG_STAT. -/
theorem Dev.event_reg (b' o : Nat) (hb : o < blockBytes) (ho : o ≠ O.EVT_STATUS) (hd : b' ≠ B.DBG ∨ o ≠ O.DBG_STAT) :
    (s.event b n).reg b' o = s.reg b' o :=
  event_keeps (p := fun s : Dev => s.reg b' o) (reg_overlooks b' o hb ho hd fun _ => True) s b n (.inl trivial)

theorem Dev.event_fld (b' : Nat) (f : Fld) (hb : f.off < blockBytes) (ho : f.off ≠ O.EVT_STATUS) (hd : b' ≠ B.DBG ∨ f.off ≠ O.DBG_STAT) :
    (s.event b n).fld b' f = s.fld b' f := by
  rw [Dev.fld, s.event_reg b n b' f.off hb ho hd, Dev.fld]

end

/-! ### After a counter goes up -/

section
variable (s : Dev) (b : Nat) (f : Fld) (n : Nat)

@[simp] theorem Dev.addFld_mem : (s.addFld b f n).mem = s.mem := s.setFld_mem _ _ _
@[simp] theorem Dev.addFld_tide : (s.addFld b f n).tide = s.tide := s.setFld_tide _ _ _
@[simp] theorem Dev.addFld_net : (s.addFld b f n).net = s.net := s.setFld_net _ _ _

end

/-! ### After the end of a command, and after a register is stored -/

variable (s : Dev) (b : Nat) (st : Status)

/-- The end of a command writes BLK_STATUS of its block and nothing else (R8, R15). -/
theorem Dev.finish_keeps {β : Type} {p : Dev → β} (h : ∀ (s : Dev) v, p (s.setReg b O.BLK_STATUS v) = p s) : p (s.finish b st) = p s := by
  unfold Dev.finish
  split
  · exact (h _ _).trans (h _ _)
  · exact h _ _

@[simp] theorem Dev.finish_mem : (s.finish b st).mem = s.mem := s.finish_keeps b st (p := Dev.mem) fun _ _ => rfl
@[simp] theorem Dev.finish_stack : (s.finish b st).stack = s.stack := s.finish_keeps b st (p := Dev.stack) fun _ _ => rfl
@[simp] theorem Dev.finish_erg (e : Nat) : (s.finish b st).erg e = s.erg e := s.finish_keeps b st (p := fun d => d.erg e) fun _ _ => rfl

@[simp] theorem Dev.storeReg_stack (o : Nat) (w : Word) : (s.storeReg b o w).stack = s.stack :=
  s.storeReg_keeps (p := Dev.stack) (fun _ _ => rfl) (fun _ _ => rfl)
@[simp] theorem Dev.storeReg_eth (o : Nat) (w : Word) : (s.storeReg b o w).eth = s.eth :=
  s.storeReg_keeps (p := Dev.eth) (fun _ _ => rfl) (fun _ _ => rfl)

@[simp] theorem Dev.okReply_stack (v : Word) : (s.okReply v).stack = s.stack := rfl
@[simp] theorem Dev.okReply_erg (v : Word) (e : Nat) : (s.okReply v).erg e = s.erg e := rfl

/-! ### After a command has ended with a status, its answer is given and the outputs have settled -/

theorem lastStatus_settle_finish : (s.finish b st).okReply.settle.fld b F.BLK_STATUS_LAST_STATUS = st.code := by
  rw [settle_fld _ _ _ (by decide) (by decide) (.inr (by decide)), Dev.okReply_fld, Dev.fld_finish]

theorem mem_settle_finish : (s.finish b st).okReply.settle.mem = s.mem := by rw [settle_mem, Dev.okReply_mem, Dev.finish_mem]
theorem stack_settle_finish : (s.finish b st).okReply.settle.stack = s.stack := by rw [settle_stack, Dev.okReply_stack, Dev.finish_stack]
theorem erg_settle_finish (e : Nat) : (s.finish b st).okReply.settle.erg e = s.erg e := by
  rw [settle_erg, Dev.okReply_erg, Dev.finish_erg]

theorem reg_settle_finish {o : Nat} (ho : o < blockBytes) (he : o ≠ O.EVT_STATUS) (hs : o ≠ O.BLK_STATUS)
    (hd : b ≠ B.DBG ∨ o ≠ O.DBG_STAT) : (s.finish b st).okReply.settle.reg b o = s.reg b o := by
  rw [settle_reg _ _ _ ho he hd, Dev.okReply_reg, s.reg_finish_ne _ _ _ _ fun h => hs (Nat.add_left_cancel h)]

/-! ### Modes -/

theorem Mode.code_lt (m : Mode) : m.code < 2 ^ 4 := by cases m <;> decide
theorem Mode.ofCode_code (m : Mode) : Mode.ofCode m.code = m := by cases m <;> rfl

/-- The mode after a mode change (R466). -/
@[simp] theorem Dev.mode_setMode (m : Mode) : (s.setMode m).mode = m := by
  unfold Dev.setMode
  split
  · assumption
  · rw [Dev.mode, Dev.event_fld _ _ _ _ _ (by decide) (by decide) (.inl (by decide)), Dev.fld_setFld _ _ _ _ (by decide),
      F.LH_MODE_MODE, Nat.mod_eq_of_lt m.code_lt, Mode.ofCode_code]

/-- PREV after a mode change (R466). -/
theorem Dev.prev_setMode {m : Mode} (h : s.mode ≠ m) : (s.setMode m).fld B.LH F.LH_MODE_PREV = s.mode.code := by
  rw [Dev.setMode, if_neg h, Dev.event_fld _ _ _ _ _ (by decide) (by decide) (.inl (by decide)),
    Dev.fld_setFld_field _ B.LH F.LH_MODE_MODE F.LH_MODE_PREV _ (by decide) rfl (.inr (by decide)),
    Dev.fld_setFld _ _ _ _ (by decide), F.LH_MODE_PREV, Nat.mod_eq_of_lt s.mode.code_lt]

/-! ### Commands that reach what they act on -/

/-- A function that Quarantine stops, in another mode (R20). -/
theorem becomes_live {c : Instr} {s : State} {f : Dev → Dev} (hc : exec c s = run (fun d => d.live f) s) (hq : s.dev.mode ≠ .quarantine) :
    Becomes c s (f s.dev) := by
  rw [Becomes, hc, run, Dev.live_open _ _ hq]

/-- A register of the block's own, outside the header and the flip mask, is written by the block (R5). -/
theorem Dev.writeReg_own (src : Src) {blk off : Nat} (w : Word) {k : BlkKind} (hk : blkKind blk = some k) (hr : (regFind blk off).isSome)
    (ho : off ∉ [O.BLK_CTRL, O.BLK_FREEZE, O.EVT_FORCE, O.ECC_FLIP_LO]) : s.writeReg src blk off w = s.writeKind src blk off w := by
  simp only [List.mem_cons, List.not_mem_nil, or_false, not_or] at ho
  obtain ⟨hctrl, hfreeze, hforce, hflip⟩ := ho
  simp [Dev.writeReg, hk, hr, hctrl, hfreeze, hforce, hflip]

end Sys2Proof.Machine
end

section
/-! Sentinels, queue releases, scheduled transfers and admission: what each does when nothing stands in its way (R30, R59, R66, R67, R75). -/

namespace Sys2Proof.Machine

variable (s : Dev)

/-- SENTINEL_FAIL of a bundle that has a sentinel (R30). -/
theorem Dev.sentinelFail_eq {id : Nat} (he : bundleExists id = true) (hs : (s.bundle id).sentinel = true) :
    s.sentinelFail id =
      let d := (s.setBundle id { s.bundle id with suspect := true, miss := satAdd 16 (s.bundle id).miss 1 }).event B.BIST 9
      if s.inUse (bErg id) (bDune id) then d.breach 4 (bErg id) 0 else d.classC B.BIST := by
  simp [Dev.sentinelFail, he, hs]

/-- What has come to its release tick and reached the reading side is released (R59). -/
theorem Dev.xingRelease_ripe {q arrival : Nat} {e : XEntry} {rest : List XEntry} (hx : Map.get (fun _ => []) s.tide.xing q = e :: rest)
    (hr : e.release ≤ s.tide.count) (ha : arrival ≤ s.tide.count) :
    s.xingRelease q arrival = s.xingTake q (decide (e.release < arrival)) := by
  simp [Dev.xingRelease, hx, Nat.not_lt.2 hr, Nat.not_lt.2 ha]

section
variable {q : Nat} {e : XEntry} {rest : List XEntry} (hx : Map.get (fun _ => []) s.tide.xing q = e :: rest)
  (hc : Map.get (fun _ => []) s.net.crossing q = []) (hq : ¬ (17664 ≤ q ∧ q < 17920)) (late : Bool)
include hx hc hq

/-- A release that hands on no message and no burst: the entries of one stamp move from the queue to what is released (R59). -/
theorem Dev.xingTake_tide : (s.xingTake q late).tide = { s.tide with
    xing := Map.set (fun _ => []) s.tide.xing q (rest.dropWhile fun x => x.stamp == e.stamp),
    released := Map.set (fun _ => []) s.tide.released q (e :: rest.takeWhile fun x => x.stamp == e.stamp) } := by
  cases late <;> simp [Dev.xingTake, hx, hc, hq]

theorem Dev.xingTake_mem : (s.xingTake q late).mem = s.mem := by
  cases late <;> simp [Dev.xingTake, hx, hc, hq]

end

/-- A held request leaves at its issue tick (R67). -/
theorem Dev.schedIssueTick_held {id len tag : Nat} {d : Decl} {data : List Byte} (hd : s.tide.decls[id]? = some d) (hm : s.mode = .underway)
    (ht : s.tide.tick = d.issueTick) (hi : d.issues s.tide.num = true) (hg : s.gate id s.tide.num = .held len tag data)
    (hr : s.ergRuns (d.srcBerth / 16) = true) : s.schedIssueTick id = s.schedSend id d s.tide.num len tag data := by
  simp [Dev.schedIssueTick, hd, hm, ht, Dev.issueDue, hi, hg, hr]

/-- A transfer that is no memory write completes: it stands last, with the status and data that came (R66). -/
theorem Dev.schedComplete_done {id issue : Nat} {st : Status} {data : List Byte} {t : Transfer}
    (ht : s.tide.transfers.find? (fun t => t.decl == id && t.issueTide == issue && !t.remote) = some t) (hk : t.kind ≠ 2) (hd : ¬ t.done) :
    s.schedComplete id issue st data = { s with tide := { s.tide with
      transfers := s.tide.transfers.filter (fun u => u != t) ++
        [{ t with done := true, onTime := s.inMargin t.releaseTide, status := st, data }] } } := by
  simp [Dev.schedComplete, Dev.schedArrive, ht, hk, hd]

/-! ### Admission -/

/-- An image that the check refuses (R75, R76). -/
theorem Dev.admission_refused {f : AdmFail} (hp : s.pipe = 2) (hq : s.mode ≠ .quarantine) (ha : s.admitImage s.cfg.coming = .inl f) :
    s.admission = (s.admRecord (some f)).refuseImage f.status 7 := by
  simp [Dev.admission, hp, hq, ha]

/-- An image that the check admits is STAGED with its bounds (R75, R415). -/
def Dev.stageAdmitted (bounds : List Nat) : Dev :=
  ((({ s with cfg := { s.cfg with coming := { s.cfg.coming with bounds } } }.admRecord none).setFld B.CFG F.CFG_PIPE_STATE 3).cfgShow .ok 0).event
    B.CFG 0

variable (bounds : List Nat)

/-- Recording a check writes registers of ADM alone (R76). -/
theorem Dev.fld_admRecord (f : Option AdmFail) {b : Nat} (g : Fld) (hb : b ≠ B.ADM) (hg : g.off < blockBytes) :
    (s.admRecord f).fld b g = s.fld b g := by
  have apart (o : Nat) (ho : o < blockBytes) : blockBytes * b + g.off ≠ blockBytes * B.ADM + o := fun h => hb (window_inj hg ho h).1
  simp only [Dev.admRecord]
  rw [Dev.fld_setReg_ne _ _ _ _ _ _ (apart _ (by decide)), Dev.fld_setReg_ne _ _ _ _ _ _ (apart _ (by decide)),
    Dev.fld_setReg_ne _ _ _ _ _ _ (apart _ (by decide))]

/-- Showing how an image stands writes CFG_RESULT alone (R415). -/
theorem Dev.fld_cfgShow (st : Status) (stage : Nat) (g : Fld) (hg : g.off ≠ O.CFG_RESULT) :
    (s.cfgShow st stage).fld B.CFG g = s.fld B.CFG g := by
  have apart : blockBytes * B.CFG + g.off ≠ blockBytes * B.CFG + O.CFG_RESULT := fun h => hg (Nat.add_left_cancel h)
  rw [Dev.cfgShow, Dev.fld_setFld_ne _ _ _ _ _ _ apart, Dev.fld_setFld_ne _ _ _ _ _ _ apart, Dev.fld_setFld_ne _ _ _ _ _ _ apart]

theorem Dev.stageAdmitted_pipe : (s.stageAdmitted bounds).fld B.CFG F.CFG_PIPE_STATE = 3 := by
  rw [Dev.stageAdmitted, Dev.event_fld _ _ _ _ _ (by decide) (by decide) (.inl (by decide)), Dev.fld_cfgShow _ _ _ _ (by decide),
    Dev.fld_setFld _ _ _ _ (by decide)]
  rfl

theorem Dev.stageAdmitted_auto : (s.stageAdmitted bounds).flag B.CFG F.CFG_ACT_CTRL_AUTO = s.flag B.CFG F.CFG_ACT_CTRL_AUTO := by
  rw [Dev.flag, Dev.stageAdmitted, Dev.event_fld _ _ _ _ _ (by decide) (by decide) (.inl (by decide)), Dev.fld_cfgShow _ _ _ _ (by decide),
    Dev.fld_setFld_ne _ _ _ _ _ _ (by decide), Dev.fld_admRecord _ _ _ (by decide) (by decide)]
  rfl

theorem Dev.stageAdmitted_bounds : (s.stageAdmitted bounds).cfg.coming.bounds = bounds := by
  rw [Dev.stageAdmitted, Dev.event_cfg]
  rfl

theorem Dev.stageAdmitted_decls : (s.stageAdmitted bounds).tide.decls = s.tide.decls := by
  rw [Dev.stageAdmitted, Dev.event_decls]
  rfl

/-- An admitted image stays STAGED where AUTO does not commit it (R415). -/
theorem Dev.admission_admitted {bounds : List Nat} (hp : s.pipe = 2) (hq : s.mode ≠ .quarantine)
    (ha : s.admitImage s.cfg.coming = .inr bounds) (hauto : s.flag B.CFG F.CFG_ACT_CTRL_AUTO = false) :
    s.admission = s.stageAdmitted bounds := by
  have stays : (s.stageAdmitted bounds).flag B.CFG F.CFG_ACT_CTRL_AUTO = false := (s.stageAdmitted_auto bounds).trans hauto
  simp only [Dev.stageAdmitted] at stays
  simp [Dev.admission, hp, hq, ha, stays, Dev.stageAdmitted]

end Sys2Proof.Machine
end

section
/-! The plane commands of an erg, case by case (R150, R151, R158, R162, R164, R165), and the read of PSW_MAX (R170). -/

namespace Sys2Proof.Machine

section
variable (s : Dev) {e p : Nat}

/-! ### FENCE -/

/-- An erg that is in Slack at the turn of the commit takes no fence (R158). -/
theorem Dev.fenceCmd_slack (h : s.slackNext e = true) : s.fenceCmd e = s.finish (B.ERG e) .state := by simp [Dev.fenceCmd, h]

/-- A fence of an erg that runs is committed for the turn of a commit (R158, R162). -/
theorem Dev.fenceCmd_running (hs : s.slackNext e = false) (he : (s.erg e).mode = .running) (hp : s.pendOf e = .none) (hm : s.mode = .underway) :
    s.fenceCmd e = (s.setErg e { s.erg e with pend := .fence s.commitTurn }).finish (B.ERG e) .ok := by
  simp [Dev.fenceCmd, hs, he, hp, hm]

/-- A fence of an erg that is fenced changes nothing (R158). -/
theorem Dev.fenceCmd_fenced (hs : s.slackNext e = false) (he : (s.erg e).mode = .fenced) (hp : s.pendOf e = .none) (hm : s.planeMode = true) :
    s.fenceCmd e = s.finish (B.ERG e) .ok := by
  rw [Dev.planeMode] at hm
  simp only [Dev.fenceCmd, hm, hs, he, hp, Bool.not_true, Bool.or_self, Bool.false_eq_true, if_false]

theorem Dev.fenceCmd_unscheduled (he : (s.erg e).mode = .unscheduled) : s.fenceCmd e = s.finish (B.ERG e) .state := by
  simp [Dev.fenceCmd, he]

/-! ### RELEASE -/

theorem Dev.releaseCmd_free (hm : s.planeMode = true) (h : (s.slot e p).st = .free) : s.releaseCmd e p = s.finish (B.ERG e) .ok := by
  simp [Dev.releaseCmd, hm, h]

/-- The release of a slot that an image in the pipeline has claimed ends the image (R151). -/
theorem Dev.releaseCmd_claimed (hm : s.planeMode = true) (h : (s.slot e p).st = .loading ∨ (s.slot e p).st = .staged) :
    s.releaseCmd e p = s.imageReleased.finish (B.ERG e) .ok := by
  rcases h with h | h <;> simp [Dev.releaseCmd, hm, h]

theorem Dev.releaseCmd_refused (hm : s.planeMode = true) (hf : (s.slot e p).st ≠ .free) (hl : (s.slot e p).st ≠ .loading)
    (hs : (s.slot e p).st ≠ .staged) : s.releaseCmd e p = s.finish (B.ERG e) .state := by
  cases h : (s.slot e p).st with
  | free => exact absurd h hf
  | loading => exact absurd h hl
  | staged => exact absurd h hs
  | _ => simp [Dev.releaseCmd, hm, h]

/-! ### LEND and RECALL of plane 7 -/

theorem Dev.lendCmd_range (hp : p ≠ 7) : s.lendCmd e p = s.finish (B.ERG e) .range := by simp [Dev.lendCmd, hp]

theorem Dev.lendCmd_free (hm : s.planeMode = true) (h : (s.slot e 7).st = .free) :
    s.lendCmd e 7 = (s.setSlot e 7 { st := .lent }).finish (B.ERG e) .ok := by
  simp [Dev.lendCmd, hm, h]

theorem Dev.lendCmd_lent (hm : s.planeMode = true) (h : (s.slot e 7).st = .lent) : s.lendCmd e 7 = s.finish (B.ERG e) .ok := by
  simp [Dev.lendCmd, hm, h]

theorem Dev.lendCmd_refused (hm : s.planeMode = true) (hf : (s.slot e 7).st ≠ .free) (hl : (s.slot e 7).st ≠ .lent) :
    s.lendCmd e 7 = s.finish (B.ERG e) .state := by
  cases h : (s.slot e 7).st with
  | free => exact absurd h hf
  | lent => exact absurd h hl
  | _ => simp [Dev.lendCmd, hm, h]

theorem Dev.recallCmd_range (hp : p ≠ 7) : s.recallCmd e p = s.finish (B.ERG e) .range := by simp [Dev.recallCmd, hp]

/-- In a dry-dock slot the plane comes back at the next turn (R165). -/
theorem Dev.recallCmd_docked (hm : s.planeMode = true) (h : (s.slot e 7).st = .lent) (hd : (s.inDock e).isSome) :
    s.recallCmd e 7 = (s.setSlot e 7 { st := .recalling }).finish (B.ERG e) .ok := by
  simp [Dev.recallCmd, hm, h, hd]

/-- Outside dry-dock slots the plane comes back at once, null (R165). -/
theorem Dev.recallCmd_undocked (hm : s.planeMode = true) (h : (s.slot e 7).st = .lent) (hd : s.inDock e = none) :
    s.recallCmd e 7 = (s.freeSlot e 7 true).finish (B.ERG e) .ok := by
  simp [Dev.recallCmd, hm, h, hd]

theorem Dev.recallCmd_refused (hm : s.planeMode = true) (hl : (s.slot e 7).st ≠ .lent) (hr : (s.slot e 7).st ≠ .recalling) :
    s.recallCmd e 7 = s.finish (B.ERG e) .state := by
  cases h : (s.slot e 7).st with
  | lent => exact absurd h hl
  | recalling => exact absurd h hr
  | _ => simp [Dev.recallCmd, hm, h]

/-! ### What a change of an erg or a slot leaves to be read -/

@[simp] theorem Dev.erg_setErg (x : ErgSt) : (s.setErg e x).erg e = x := by simp [Dev.erg, Dev.setErg, Map.get_set]

@[simp] theorem Dev.slot_setSlot (x : SlotSt) : (s.setSlot e p x).slot e p = x := by simp [Dev.slot, Dev.setSlot, Map.get_set]
@[simp] theorem Dev.setSlot_mem (x : SlotSt) : (s.setSlot e p x).mem = s.mem := rfl

@[simp] theorem Dev.slot_freeSlot (null : Bool) : (s.freeSlot e p null).slot e p = {} := by
  cases null <;> exact s.slot_setSlot {}
@[simp] theorem Dev.freeSlot_mem (null : Bool) : (s.freeSlot e p null).mem = s.mem := by cases null <;> rfl

theorem slot_settle_finish (b : Nat) (st : Status) : (s.finish b st).okReply.settle.slot e p = s.slot e p := by
  rw [Dev.slot, erg_settle_finish, Dev.slot]

end

/-! ### The commands as writes to ERG_PLANE_CMD -/

variable {s : State} {src : RegSrc} {data : Word}

theorem Dev.writeReg_planeCmd (d : Dev) (r : Src) (e : Fin 32) (w : Word) :
    d.writeReg r (B.ERG e.val) O.ERG_PLANE_CMD w = d.planeCmd e.val w := by
  have row : ∀ e : Fin 32, blkKind (B.ERG e.val) = some .erg ∧ (regFind (B.ERG e.val) O.ERG_PLANE_CMD).isSome := by decide
  have index : B.ERG e.val - 0x30 = e.val := Nat.add_sub_cancel_left _ _
  rw [d.writeReg_own r w (row e).1 (row e).2 (by decide), Dev.writeKind, (row e).1]
  simp only [index, Dev.writeERG, if_true]
  exact if_neg (by decide)

/-- A plane command that the device carries out, by its OP (R150, R170). -/
theorem becomes_planeCmd {c : Instr} {e : Fin 32} {op : Nat}
    (hc : exec c s = run (fun d => d.command src (B.ERG e.val) O.ERG_PLANE_CMD (withField data 0 4 op)) s)
    (hw : s.dev.writes src (B.ERG e.val) O.ERG_PLANE_CMD (withField data 0 4 op)) :
    Becomes c s (s.dev.planeCmd e.val (withField data 0 4 op)).okReply := by
  have becomes := becomes_command hc (by decide) hw
  rwa [Dev.writeReg_planeCmd] at becomes

theorem becomes_fence {e : Fin 32} (hw : s.dev.writes src (B.ERG e.val) O.ERG_PLANE_CMD (withField data 0 4 1)) :
    Becomes (.fence src e data) s (s.dev.fenceCmd e.val).okReply := by
  have becomes := becomes_planeCmd (exec_fence src e data s) hw
  rwa [Dev.planeCmd, nfield_withField _ _ _ _ (by decide)] at becomes

theorem becomes_release {e : Fin 32} (hw : s.dev.writes src (B.ERG e.val) O.ERG_PLANE_CMD (withField data 0 4 2)) :
    Becomes (.release src e data) s (s.dev.releaseCmd e.val (nfield (withField data 0 4 2).toNat 4 3)).okReply := by
  have becomes := becomes_planeCmd (exec_release src e data s) hw
  rwa [Dev.planeCmd, nfield_withField _ _ _ _ (by decide)] at becomes

theorem becomes_lend {e : Fin 32} (hw : s.dev.writes src (B.ERG e.val) O.ERG_PLANE_CMD (withField data 0 4 3)) :
    Becomes (.lend src e data) s (s.dev.lendCmd e.val (nfield (withField data 0 4 3).toNat 4 3)).okReply := by
  have becomes := becomes_planeCmd (exec_lend src e data s) hw
  rwa [Dev.planeCmd, nfield_withField _ _ _ _ (by decide)] at becomes

theorem becomes_recall {e : Fin 32} (hw : s.dev.writes src (B.ERG e.val) O.ERG_PLANE_CMD (withField data 0 4 4)) :
    Becomes (.recall src e data) s (s.dev.recallCmd e.val (nfield (withField data 0 4 4).toNat 4 3)).okReply := by
  have becomes := becomes_planeCmd (exec_recall src e data s) hw
  rwa [Dev.planeCmd, nfield_withField _ _ _ _ (by decide)] at becomes

/-- A read of PSW_MAX that is no peek returns the largest count and clears it (R170). -/
theorem becomes_pswMaxRead {peek : Bool} (hp : src.peeks peek = false) (hr : s.dev.reads src B.TIDE O.PSW_MAX) :
    Becomes (.pswMaxRead src peek) s (s.dev.pswMaxRead.okReply (s.dev.showReg src.src B.TIDE O.PSW_MAX false)) := by
  obtain ⟨hg, hd⟩ := hr
  rw [Becomes, exec_pswMaxRead, run, Dev.readCommand_open _ _ _ _ _ (by decide) hg hd, hp]
  rfl

end Sys2Proof.Machine
end

section
/-! Bundles selected, the shoal map read, added to and persisted (R35 to R39, R46, R193). -/

namespace Sys2Proof.Machine

section
variable (s : Dev)

/-! ### STK_BUNDLE_SEL and STK_SHOAL_CMD -/

theorem Dev.bundleSel_known {w : Word} (h : bundleExists (w.toNat % 2 ^ 26) = true) :
    s.bundleSel w = s.setReg B.BIST O.STK_BUNDLE_SEL (BitVec.ofNat 32 (w.toNat % 2 ^ 26)) := if_pos h

/-- An ID that names no bundle is selected all the same, with LAST_STATUS RANGE (R46). -/
theorem Dev.bundleSel_unknown {w : Word} (h : bundleExists (w.toNat % 2 ^ 26) = false) :
    s.bundleSel w = (s.setReg B.BIST O.STK_BUNDLE_SEL (BitVec.ofNat 32 (w.toNat % 2 ^ 26))).finish B.BIST .range := by
  rw [Dev.bundleSel, if_neg (by rw [h]; decide)]
  rfl

theorem Dev.shoalRead_found {k : Nat} {x : ShoalEntry} (h : s.stack.shoal[k]? = some x) :
    s.shoalRead k = ((s.setReg B.BIST O.STK_SHOAL_ENTRY_LO x.lo).setReg B.BIST O.STK_SHOAL_ENTRY_HI x.hi).finish B.BIST .ok := by
  simp [Dev.shoalRead, h]

theorem Dev.shoalRead_beyond {k : Nat} (h : s.stack.shoal[k]? = none) : s.shoalRead k = s.finish B.BIST .range := by
  simp [Dev.shoalRead, h]

/-- An entry of a new kind and ID stands last in the shoal map, with the device's time (R36, R37). -/
theorem Dev.shoalAdd_shoal {kind id : Nat} (cause : Nat) (hnew : s.stack.shoal.any (fun x => x.lo.toNat % 2 ^ 30 == kind + 16 * id) = false) :
    (s.shoalAdd kind id cause).stack.shoal =
      s.stack.shoal ++ [⟨BitVec.ofNat 32 (kind + 16 * id), BitVec.ofNat 32 (cause + 16 * (s.ns / 2 ^ 32))⟩] := by
  rw [Dev.shoalAdd, if_neg (by rw [hnew]; decide)]
  dsimp only
  split
  · rw [Dev.event_stack]
  · split
    · rw [Dev.event_stack]
    · rfl

@[simp] theorem Dev.shoalAdd_mem (kind id cause : Nat) : (s.shoalAdd kind id cause).mem = s.mem := by
  unfold Dev.shoalAdd
  dsimp only
  split
  · rfl
  · split
    · rw [Dev.event_mem]
    · split
      · rw [Dev.event_mem]
      · rfl

section
variable {lo hi : Nat} (hlo : (s.reg B.BIST O.STK_SHOAL_ENTRY_LO).toNat = lo) (hhi : (s.reg B.BIST O.STK_SHOAL_ENTRY_HI).toNat = hi)
  (hkind : [1, 2, 3, 4, 5, 7].contains (lo % 16) = true) (hcause : hi % 16 = 4) (hid : lo < 2 ^ 30)
include hlo hhi hkind hcause hid

/-- What ADD does with an entry that the host may add: its kind and ID first, then the room for it (R37, R46). -/
theorem Dev.shoalHostAdd_eq : s.shoalHostAdd =
    if s.stack.shoal.any (fun x => x.lo.toNat % 2 ^ 30 == lo) = true then s.finish B.BIST .ok
    else if 4096 ≤ s.stack.shoal.length then s.finish B.BIST .range
    else (s.shoalAdd (lo % 16) (lo / 16 % 2 ^ 26) 4).finish B.BIST .ok := by
  have allowed : (!(([1, 2, 3, 4, 5, 7] : List Nat).contains (lo % 16)) || hi % 16 != 4 || lo / 2 ^ 30 != 0) = false := by
    rw [hkind, hcause, Nat.div_eq_of_lt hid]
    rfl
  unfold Dev.shoalHostAdd
  rw [hlo, hhi]
  dsimp only
  rw [if_neg (by rw [allowed]; decide), Nat.mod_eq_of_lt hid]

end

/-! ### Persisting -/

/-- Writing a sector changes non-volatile memory, and may raise an event (R424). -/
theorem Dev.nvWrite_core (sec : Nat) (bytes : List Byte) : { (s.nvWrite sec bytes).core with nv := {} } = { s.core with nv := {} } := by
  unfold Dev.nvWrite
  dsimp only
  split
  · rfl
  · split
    · rw [Dev.event_core]
      rfl
    · rfl

@[simp] theorem Dev.nvWrite_mem (sec : Nat) (bytes : List Byte) : (s.nvWrite sec bytes).mem = s.mem := congrArg (·.mem) (s.nvWrite_core sec bytes)
@[simp] theorem Dev.nvWrite_stack (sec : Nat) (bytes : List Byte) : (s.nvWrite sec bytes).stack = s.stack :=
  congrArg (·.stack) (s.nvWrite_core sec bytes)
@[simp] theorem Dev.nvWrite_hold (sec : Nat) (bytes : List Byte) : (s.nvWrite sec bytes).hold = s.hold :=
  congrArg (·.hold) (s.nvWrite_core sec bytes)

/-- Remap tables with nothing to persist (R193). -/
theorem Dev.remapPersist_clean (h : s.hold.remapDirty = false) : s.remapPersist = s := by simp [Dev.remapPersist, h]

/-- The shoal map persisted while neither sector is read-only: both copies after a lost map, else the alternate one (R38, R39). -/
theorem Dev.shoalPersist_stack (hd : s.stack.dirty = true) (h0 : s.nvRo 386 = false) (h1 : s.nvRo 387 = false) :
    s.shoalPersist.stack = { s.stack with
      dirty := false, both := false, updates := if s.stack.both then 1 else satAdd 32 s.stack.updates 1,
      lastCopy := if s.stack.both then 1 else 1 - s.stack.lastCopy, persisted := min s.stack.shoal.length 4096 } := by
  cases hb : s.stack.both <;>
    simp [Dev.shoalPersist, hd, h0, h1, hb, nextCopy, apply_ite Dev.stack, min_comm]

/-- Persisting the shoal map changes the non-volatile memory and what the stack remembers of it, and may raise an event. -/
theorem Dev.shoalPersist_keeps {β : Type} {p : Dev → β} (hstack : ∀ (s : Dev) x, p { s with stack := x } = p s)
    (hnv : ∀ (s : Dev) sec bytes, p (s.nvWrite sec bytes) = p s) (hevent : ∀ s : Dev, p (s.event B.BIST 13) = p s) :
    p s.shoalPersist = p s := by
  unfold Dev.shoalPersist
  dsimp only
  split
  · rfl
  · split
    · rw [apply_ite p, hevent, ite_self, hstack, hnv, hnv]
    · split
      · exact hstack _ _
      · rw [apply_ite p, hevent, ite_self, hstack, hnv]

@[simp] theorem Dev.shoalPersist_mem : s.shoalPersist.mem = s.mem :=
  s.shoalPersist_keeps (fun _ _ => rfl) (fun s => s.nvWrite_mem) (fun s => s.event_mem _ _)
@[simp] theorem Dev.shoalPersist_hold : s.shoalPersist.hold = s.hold :=
  s.shoalPersist_keeps (fun _ _ => rfl) (fun s => s.nvWrite_hold) (fun s => s.event_hold _ _)

/-! ### The commands as writes to the registers of BIST -/

theorem Dev.writeReg_bist (src : Src) {off : Nat} (w : Word) (hr : (regFind B.BIST off).isSome)
    (ho : off ∉ [O.BLK_CTRL, O.BLK_FREEZE, O.EVT_FORCE, O.ECC_FLIP_LO]) : s.writeReg src B.BIST off w = s.writeBIST off w :=
  s.writeReg_own src w (k := .bist) rfl hr ho

end

variable {s : State} {src : RegSrc} {data : Word}

theorem becomes_stkBundleSel (hw : s.dev.writes src B.BIST O.STK_BUNDLE_SEL data) :
    Becomes (.stkBundleSel src data) s (s.dev.bundleSel data).okReply := by
  have becomes := becomes_command (exec_stkBundleSel src data s) (by decide) hw
  rwa [Dev.writeReg_bist _ _ _ (by decide) (by decide), Dev.writeBIST, if_pos rfl] at becomes

theorem mod_four_withField (op : Nat) (h : op < 4) : (withField data 0 2 op).toNat % 4 = op := by
  have hf : (withField data 0 2 op).toNat % 4 = op % 4 := nfield_withField data 0 2 op (by decide)
  rw [hf, Nat.mod_eq_of_lt h]

/-- A write to STK_SHOAL_CMD stores the fields, then READ acts (R46). -/
theorem Dev.writeReg_shoalRead (d : Dev) (r : Src) {w : Word} (h : w.toNat % 4 = 1) : d.writeReg r B.BIST O.STK_SHOAL_CMD w =
    (d.storeReg B.BIST O.STK_SHOAL_CMD w).shoalRead (nfield w.toNat 16 13) := by
  rw [Dev.writeReg_bist _ _ _ (by decide) (by decide), Dev.writeBIST, if_neg (by decide), if_pos rfl]
  dsimp only
  split
  · rfl
  · omega
  · contradiction

/-- A write to STK_SHOAL_CMD stores the fields, then ADD acts (R46). -/
theorem Dev.writeReg_shoalAdd (d : Dev) (r : Src) {w : Word} (h : w.toNat % 4 = 2) : d.writeReg r B.BIST O.STK_SHOAL_CMD w =
    (d.storeReg B.BIST O.STK_SHOAL_CMD w).shoalHostAdd := by
  rw [Dev.writeReg_bist _ _ _ (by decide) (by decide), Dev.writeBIST, if_neg (by decide), if_pos rfl]
  dsimp only
  split
  · omega
  · rfl
  · contradiction

theorem becomes_shoalRead (hw : s.dev.writes src B.BIST O.STK_SHOAL_CMD (withField data 0 2 1)) :
    Becomes (.shoalRead src data) s ((s.dev.storeReg B.BIST O.STK_SHOAL_CMD (withField data 0 2 1)).shoalRead
      (nfield (withField data 0 2 1).toNat 16 13)).okReply := by
  have becomes := becomes_command (exec_shoalRead src data s) (by decide) hw
  rwa [Dev.writeReg_shoalRead _ _ (mod_four_withField 1 (by decide))] at becomes

theorem becomes_shoalAdd (hw : s.dev.writes src B.BIST O.STK_SHOAL_CMD (withField data 0 2 2)) :
    Becomes (.shoalAdd src data) s (s.dev.storeReg B.BIST O.STK_SHOAL_CMD (withField data 0 2 2)).shoalHostAdd.okReply := by
  have becomes := becomes_command (exec_shoalAdd src data s) (by decide) hw
  rwa [Dev.writeReg_shoalAdd _ _ (mod_four_withField 2 (by decide))] at becomes

end Sys2Proof.Machine
end

section
/-! The steps of Boot (R26, R420, R432, R433, R463, R464). -/

namespace Sys2Proof.Machine

variable (s : Dev)

/-! ### BOOT_PLL_LOCK -/

/-- What Boot reads of the island as the PLLs lock: the failure policy, and a tamper event kept from Beacon (R420, R444). -/
def Dev.pllItems : Dev :=
  let d := (s.setFld B.CLK F.CLK_STAT_LOCK 0x3F).setFlag B.CFG F.CFG_BOOT_STAT_POLICY s.failPolicy
  if s.sec.tamperedBeacon then d.event B.SEC 5 else d

/-- The step after the PLLs have locked: the MOOR image is due, the keys stand and the generator serves (R432, R433). -/
def Dev.moorDue : Dev :=
  { s with clk := { s.clk with phase := .moor, jettyLock := true }, sec := { s.sec with keysUp := true, tamperedBeacon := false } }.setFlag B.SEC
    F.SEC_RNG_STAT_RUN true

theorem Dev.bootPllLock_eq (hp : s.clk.phase = .plls) (hm : s.mode = .boot) : s.bootPllLock = s.pllItems.moorDue := by
  rw [Dev.bootPllLock, if_neg (by simp [hp, hm])]
  rfl

theorem Dev.pllItems_mem : s.pllItems.mem = s.mem := by
  unfold Dev.pllItems
  dsimp only
  split
  · rw [Dev.event_mem, Dev.setFlag, Dev.setFld_mem, Dev.setFld_mem]
  · rw [Dev.setFlag, Dev.setFld_mem, Dev.setFld_mem]

/-- The event that reading the island may raise touches no field of the registers it sets. -/
theorem Dev.pllItems_fld (b : Nat) (f : Fld) (hb : f.off < blockBytes) (he : f.off ≠ O.EVT_STATUS) (hd : b ≠ B.DBG) :
    s.pllItems.fld b f = ((s.setFld B.CLK F.CLK_STAT_LOCK 0x3F).setFld B.CFG F.CFG_BOOT_STAT_POLICY s.failPolicy.toNat).fld b f := by
  unfold Dev.pllItems
  dsimp only
  split
  · rw [Dev.event_fld _ _ _ _ _ hb he (.inl hd), Dev.setFlag]
  · rw [Dev.setFlag]

/-- Fields of other registers than SEC_RNG_STAT. -/
theorem Dev.moorDue_fld {b : Nat} {f : Fld} (h : blockBytes * b + f.off ≠ blockBytes * B.SEC + F.SEC_RNG_STAT_RUN.off) :
    s.moorDue.fld b f = s.fld b f :=
  Dev.fld_setFld_ne _ _ _ _ _ _ h

section
variable (hp : s.clk.phase = .plls) (hm : s.mode = .boot)
include hp hm

theorem Dev.bootPllLock_mode : s.bootPllLock.mode = .boot := by
  rw [s.bootPllLock_eq hp hm, Dev.mode, Dev.moorDue_fld _ (by decide), Dev.pllItems_fld _ _ _ (by decide) (by decide) (by decide),
    Dev.fld_setFld_ne _ _ _ _ _ _ (by decide), Dev.fld_setFld_ne _ _ _ _ _ _ (by decide), ← Dev.mode, hm]

theorem Dev.bootPllLock_clk : s.bootPllLock.clk = { s.pllItems.clk with phase := .moor, jettyLock := true } := by
  rw [s.bootPllLock_eq hp hm, Dev.moorDue, Dev.setFlag, Dev.setFld_clk]

theorem Dev.bootPllLock_keysUp : s.bootPllLock.sec.keysUp = true := by
  rw [s.bootPllLock_eq hp hm, Dev.moorDue, Dev.setFlag, Dev.setFld_sec]

theorem Dev.bootPllLock_lock : s.bootPllLock.fld B.CLK F.CLK_STAT_LOCK = 0x3F := by
  rw [s.bootPllLock_eq hp hm, Dev.moorDue_fld _ (by decide), Dev.pllItems_fld _ _ _ (by decide) (by decide) (by decide),
    Dev.fld_setFld_ne _ _ _ _ _ _ (by decide), Dev.fld_setFld _ _ _ _ (by decide)]
  rfl

theorem Dev.bootPllLock_policy : s.bootPllLock.flag B.CFG F.CFG_BOOT_STAT_POLICY = s.failPolicy := by
  rw [s.bootPllLock_eq hp hm, Dev.flag, Dev.moorDue_fld _ (by decide), Dev.pllItems_fld _ _ _ (by decide) (by decide) (by decide),
    Dev.fld_setFld _ _ _ _ (by decide)]
  cases s.failPolicy <;> rfl

theorem Dev.bootPllLock_rngRuns : s.bootPllLock.rngRuns = true := by
  rw [s.bootPllLock_eq hp hm, Dev.rngRuns, Dev.flag, Dev.moorDue, Dev.setFlag, Dev.fld_setFld _ _ _ _ (by decide)]
  rfl

theorem Dev.bootPllLock_mem : s.bootPllLock.mem = s.mem := by
  rw [s.bootPllLock_eq hp hm, Dev.moorDue, Dev.setFlag, Dev.setFld_mem, Dev.pllItems_mem]

end

/-! ### The steps after it -/

/-- The bundle test is done: its findings are taken in (R26, R39, R193, R519). -/
theorem Dev.bundleTestDone_eq {lanes : List (BitVec 26 × Fin 68)} (dunes : List (Fin 8192)) (hp : s.clk.phase = .bundleTest)
    (hm : s.mode = .boot) (hl : ∀ x ∈ lanes, bundleExists x.1.toNat = true) :
    s.bundleTestDone (lanes.map fun x => (x.1.toNat, x.2.val)) (dunes.map Fin.val) =
      let s2 := s.shoalBoot.remapBoot.each lanes (fun (d : Dev) x => d.markLane x.1.toNat x.2.val 1)
      let s3 := s2.each dunes (fun (d : Dev) g => d.shoalAdd 1 (bundleId 3 (g.val / 256) (g.val % 256) 0x7FF) 1)
      { s3 with clk := { s3.clk with phase := .temperature } } := by
  have marked (d : Dev) : (lanes.map fun x => (x.1.toNat, x.2.val)).foldl
      (fun d (x : Nat × Nat) => if bundleExists x.1 then d.markLane x.1 (x.2 % 68) 1 else d) d =
      lanes.foldl (fun d x => d.markLane x.1.toNat x.2.val 1) d := by
    rw [List.foldl_map]
    refine List.foldl_ext _ _ _ fun d x hx => ?_
    rw [if_pos (hl x hx), Nat.mod_eq_of_lt x.2.isLt]
  rw [Dev.bundleTestDone, if_neg (by simp [hp, hm])]
  simp only [Dev.each, marked, List.foldl_map]

/-- The temperature step of Boot, at its phase (R463, R464). -/
theorem Dev.bootTemperature_eq (readings : List (Option Int)) (hp : s.clk.phase = .temperature) (hm : s.mode = .boot) :
    s.bootTemperature readings =
      let d := s.thermalSweep readings
      if d.mode ≠ .boot then d
      else if (List.range 136).any (fun n => decide ((d.sensor n).acting < -640)) then d.setMode .coldHold
      else { d with clk := { d.clk with phase := .image } } := by
  rw [Dev.bootTemperature, if_neg (by simp [hp, hm])]

theorem Dev.bootApply_eq (fails : List MarchFail) (hp : s.clk.phase = .apply) (hm : s.mode = .boot) :
    s.bootApply fails = (s.bootHold fails).bootGo (s.bootHold fails).cfg.coming.regs := by
  simp [Dev.bootApply, hm, hp]

end Sys2Proof.Machine
end

section
/-! The statements of the stack (chapter 01), settled. -/

namespace Sys2Proof.Machine

/-- Settles O4: each event by what it does where Quarantine does not stop it. -/
theorem tideEvents : Obligations.TideEvents := by
  intro s hq
  refine ⟨fun id he hs hu => ?_, fun id he hs hu => ?_, fun q arrival e rest hx hr ha => ?_,
    fun q arrival e rest hx hc hr ha hburst => ?_, fun id d len tag data hd hm ht hi hg hr => ?_,
    fun id issue st data t ht hk hdone => ?_, fun f hp _ ha => ?_, fun bounds hp _ ha hauto => ?_⟩
  · have becomes := becomes_live (exec_sentinelFail id s) hq
    rwa [s.dev.sentinelFail_eq he hs, if_neg (by simp [hu])] at becomes
  · have becomes := becomes_live (exec_sentinelFail id s) hq
    rwa [s.dev.sentinelFail_eq he hs, if_pos hu] at becomes
  · have becomes := becomes_live (exec_xingRelease q arrival s) hq
    rwa [s.dev.xingRelease_ripe hx hr ha] at becomes
  · have becomes := becomes_live (exec_xingRelease q arrival s) hq
    rw [s.dev.xingRelease_ripe hx hr ha] at becomes
    refine becomes.completes ⟨?_, ?_, ?_, ?_⟩
    · rw [settle_xing, s.dev.xingTake_tide hx hc hburst, Map.get_set, if_pos rfl]
    · rw [settle_released, s.dev.xingTake_tide hx hc hburst, Map.get_set, if_pos rfl]
    · rw [settle_tideNum, s.dev.xingTake_tide hx hc hburst]
    · rw [settle_mem, s.dev.xingTake_mem hx hc hburst]
  · have becomes := becomes_live (exec_schedIssueTick id s) hq
    rwa [s.dev.schedIssueTick_held hd hm ht hi hg hr] at becomes
  · have becomes := becomes_live (exec_schedComplete id issue st data s) hq
    rw [s.dev.schedComplete_done ht hk hdone] at becomes
    exact becomes.completes ⟨settle_transfers _, settle_mem _⟩
  · have becomes := becomes_live (exec_admission s) hq
    rwa [s.dev.admission_refused hp hq ha] at becomes
  · have becomes := becomes_live (exec_admission s) hq
    rw [s.dev.admission_admitted hp hq ha hauto] at becomes
    refine becomes.completes ⟨?_, ?_, ?_⟩
    · rw [settle_cfg, Dev.stageAdmitted_bounds]
    · rw [settle_fld _ _ _ (by decide) (by decide) (.inl (by decide)), Dev.stageAdmitted_pipe]
    · rw [settle_decls, Dev.stageAdmitted_decls]

/-- Settles O32: each command by its case; the status it ends with stands after the outputs have settled. -/
theorem planeCommands : Obligations.PlaneCommands := by
  intro s src e data peek
  dsimp only
  refine ⟨fun hw hs => s.dev.fenceCmd_slack hs ▸ becomes_fence hw,
    fun hw hs => ⟨fun he hp hm => ?_, fun he hp hm => ?_, fun he => s.dev.fenceCmd_unscheduled he ▸ becomes_fence hw⟩,
    fun hw hm => ⟨fun h => s.dev.releaseCmd_free hm h ▸ becomes_release hw, fun h => s.dev.releaseCmd_claimed hm h ▸ becomes_release hw,
      fun hf hl hs => s.dev.releaseCmd_refused hm hf hl hs ▸ becomes_release hw⟩,
    fun hw => ⟨fun hp hm h => ?_, fun hp hm h => ?_, fun hp hm hf hl => ?_, fun hp => s.dev.lendCmd_range hp ▸ becomes_lend hw⟩,
    fun hw => ⟨fun hp hm h hd => ?_, fun hp hm h hd => ?_, fun hp hm hl hr => ?_, fun hp => s.dev.recallCmd_range hp ▸ becomes_recall hw⟩,
    fun hp hr => ?_⟩
  · have becomes := becomes_fence hw
    rw [s.dev.fenceCmd_running hs he hp hm] at becomes
    exact becomes.completes ⟨(erg_settle_finish _ _ _ _).trans (Dev.erg_setErg _ _), lastStatus_settle_finish _ _ _,
      (mem_settle_finish _ _ _).trans (Dev.setErg_mem _ _ _)⟩
  · have becomes := becomes_fence hw
    rw [s.dev.fenceCmd_fenced hs he hp hm] at becomes
    exact becomes.completes ⟨erg_settle_finish _ _ _ _, lastStatus_settle_finish _ _ _, mem_settle_finish _ _ _⟩
  · have becomes := becomes_lend hw
    rw [hp, s.dev.lendCmd_free hm h] at becomes
    exact becomes.completes ⟨by rw [slot_settle_finish, Dev.slot_setSlot], lastStatus_settle_finish _ _ _,
      (mem_settle_finish _ _ _).trans (Dev.setSlot_mem _ _)⟩
  · have becomes := becomes_lend hw
    rw [hp, s.dev.lendCmd_lent hm h] at becomes
    exact becomes.completes ⟨erg_settle_finish _ _ _ _, lastStatus_settle_finish _ _ _, mem_settle_finish _ _ _⟩
  · have becomes := becomes_lend hw
    rwa [hp, s.dev.lendCmd_refused hm hf hl] at becomes
  · have becomes := becomes_recall hw
    rw [hp, s.dev.recallCmd_docked hm h hd] at becomes
    exact becomes.completes ⟨by rw [slot_settle_finish, Dev.slot_setSlot], lastStatus_settle_finish _ _ _,
      (mem_settle_finish _ _ _).trans (Dev.setSlot_mem _ _)⟩
  · have becomes := becomes_recall hw
    rw [hp, s.dev.recallCmd_undocked hm h hd] at becomes
    exact becomes.completes ⟨by rw [slot_settle_finish, Dev.slot_freeSlot], lastStatus_settle_finish _ _ _,
      (mem_settle_finish _ _ _).trans (Dev.freeSlot_mem _ _)⟩
  · have becomes := becomes_recall hw
    rwa [hp, s.dev.recallCmd_refused hm hl hr] at becomes
  · refine (becomes_pswMaxRead hp hr).completes ⟨settle_reply _, ?_, ?_, settle_mem _⟩
    · rw [settle_fld _ _ _ (by decide) (by decide) (.inl (by decide)), Dev.okReply_fld, Dev.pswMaxRead, Dev.fld_setFld _ _ _ _ (by decide),
        Nat.zero_mod]
    · rw [settle_fld _ _ _ (by decide) (by decide) (.inl (by decide)), Dev.okReply_fld, Dev.pswMaxRead,
        Dev.fld_setFld_field _ B.TIDE F.PSW_MAX_MAX F.PSW_MAX_OVER_CNT _ (by decide) rfl (.inr (by decide))]

/-- Settles O33: each command by its case; writing STK_SHOAL_CMD leaves the entry registers and the map as they were. -/
theorem shoalMap : Obligations.ShoalMap := by
  intro s src data
  dsimp only
  refine ⟨fun hw => ⟨fun he => ?_, fun he => ?_⟩, fun hw => ⟨fun x hx => ?_, fun hx => ?_⟩,
    fun hw hkind hcause hid => ?_, fun hq hd h0 h1 hclean => ?_⟩
  · have becomes := becomes_stkBundleSel hw
    rwa [Dev.bundleSel_known _ he] at becomes
  · have becomes := becomes_stkBundleSel hw
    rw [Dev.bundleSel_unknown _ he] at becomes
    refine becomes.completes ⟨?_, lastStatus_settle_finish _ _ _, mem_settle_finish _ _ _⟩
    rw [reg_settle_finish _ _ _ (by decide) (by decide) (by decide) (.inl (by decide)), Dev.reg_setReg]
  · have becomes := becomes_shoalRead hw
    rw [Dev.shoalRead_found _ (by rwa [Dev.storeReg_stack])] at becomes
    refine becomes.completes ⟨?_, ?_, lastStatus_settle_finish _ _ _, ?_, ?_⟩
    · rw [reg_settle_finish _ _ _ (by decide) (by decide) (by decide) (.inl (by decide)), Dev.reg_setReg_ne _ _ _ _ _ _ (by decide), Dev.reg_setReg]
    · rw [reg_settle_finish _ _ _ (by decide) (by decide) (by decide) (.inl (by decide)), Dev.reg_setReg]
    · rw [stack_settle_finish, Dev.setReg_stack, Dev.setReg_stack, Dev.storeReg_stack]
    · rw [mem_settle_finish, Dev.setReg_mem, Dev.setReg_mem, Dev.storeReg_mem]
  · have becomes := becomes_shoalRead hw
    rw [Dev.shoalRead_beyond _ (by rwa [Dev.storeReg_stack])] at becomes
    refine becomes.completes ⟨lastStatus_settle_finish _ _ _, (stack_settle_finish _ _ _).trans (Dev.storeReg_stack _ _ _ _), ?_,
      (mem_settle_finish _ _ _).trans (Dev.storeReg_mem _ _ _ _)⟩
    rw [reg_settle_finish _ _ _ (by decide) (by decide) (by decide) (.inl (by decide)), Dev.reg_storeReg_ne _ (by decide) (by decide)]
  · have becomes := becomes_shoalAdd hw
    have entry (o : Nat) (ho : o ≠ O.STK_SHOAL_CMD) (hs : o ≠ O.BLK_STATUS) :
        (s.dev.storeReg B.BIST O.STK_SHOAL_CMD (withField data 0 2 2)).reg B.BIST o = s.dev.reg B.BIST o := s.dev.reg_storeReg_ne ho hs
    rw [Dev.shoalHostAdd_eq _ (congrArg _ (entry _ (by decide) (by decide))) (congrArg _ (entry _ (by decide) (by decide))) hkind hcause hid,
      Dev.storeReg_stack] at becomes
    refine ⟨fun hnew hroom => ?_, fun hnew hfull => ?_, fun hdup _ => ?_⟩
    · have parts : (s.dev.reg B.BIST O.STK_SHOAL_ENTRY_LO).toNat % 16 + 16 * ((s.dev.reg B.BIST O.STK_SHOAL_ENTRY_LO).toNat / 16 % 2 ^ 26) =
          (s.dev.reg B.BIST O.STK_SHOAL_ENTRY_LO).toNat := by omega
      rw [if_neg (by rw [hnew]; decide), if_neg (Nat.not_le.2 hroom)] at becomes
      refine becomes.completes ⟨?_, lastStatus_settle_finish _ _ _, by rw [mem_settle_finish, Dev.shoalAdd_mem, Dev.storeReg_mem]⟩
      rw [stack_settle_finish, Dev.shoalAdd_shoal _ _ (by rwa [Dev.storeReg_stack, parts]), parts, Dev.storeReg_stack,
        Dev.ns, Dev.storeReg_eth, Dev.ns]
    · rw [if_neg (by rw [hnew]; decide), if_pos hfull] at becomes
      exact becomes.completes ⟨(stack_settle_finish _ _ _).trans (Dev.storeReg_stack _ _ _ _), lastStatus_settle_finish _ _ _,
        (mem_settle_finish _ _ _).trans (Dev.storeReg_mem _ _ _ _)⟩
    · rw [if_pos hdup] at becomes
      exact becomes.completes ⟨(stack_settle_finish _ _ _).trans (Dev.storeReg_stack _ _ _ _), lastStatus_settle_finish _ _ _,
        (mem_settle_finish _ _ _).trans (Dev.storeReg_mem _ _ _ _)⟩
  · have becomes := becomes_live (exec_shoalPersist s) hq
    rw [Dev.persistMaps, Dev.remapPersist_clean _ (by rwa [Dev.shoalPersist_hold])] at becomes
    refine becomes.completes ?_
    rw [settle_stack, s.dev.shoalPersist_stack hd h0 h1, settle_mem, Dev.shoalPersist_mem]
    exact ⟨rfl, rfl, rfl, rfl, rfl, rfl⟩

/-- Settles O39: each step at its phase; settling leaves the mode, the clocks and the registers a step sets. -/
theorem bootSteps : Obligations.BootSteps := by
  intro s hm
  refine ⟨fun hp => ?_, fun lanes dunes hp hl => ?_, fun readings hp => ?_, fun _ => exec_residentImageRead s, fun fails hp => ?_⟩
  · have becomes : Becomes .bootPllLock s s.dev.bootPllLock := exec_bootPllLock s
    refine becomes.completes ⟨?_, ?_, ?_, ?_, ?_, ?_, ?_, ?_⟩
    · rw [settle_mode, s.dev.bootPllLock_mode hp hm]
    · rw [settle_clk, s.dev.bootPllLock_clk hp hm]
    · rw [settle_clk, s.dev.bootPllLock_clk hp hm]
    · rw [settle_fld _ _ _ (by decide) (by decide) (.inl (by decide)), s.dev.bootPllLock_lock hp hm]
    · rw [settle_sec, s.dev.bootPllLock_keysUp hp hm]
    · rw [Dev.rngRuns, settle_flag _ _ _ (by decide) (by decide) (.inl (by decide)), ← Dev.rngRuns, s.dev.bootPllLock_rngRuns hp hm]
    · rw [settle_flag _ _ _ (by decide) (by decide) (.inl (by decide)), s.dev.bootPllLock_policy hp hm]
    · rw [settle_mem, s.dev.bootPllLock_mem hp hm]
  · rw [Becomes, exec_bundleTestDone, run, s.dev.bundleTestDone_eq dunes hp hm hl]
  · have becomes : Becomes (.bootTemperatureCheck readings) s (s.dev.bootTemperature readings) := exec_bootTemperatureCheck readings s
    rw [s.dev.bootTemperature_eq readings hp hm] at becomes
    dsimp only at becomes
    refine becomes.completes ⟨fun h => ?_, fun h ⟨n, hn, hcold⟩ => ?_, fun h hwarm => ?_⟩
    · rw [if_pos h, settle_mode]
    · have cold : (List.range 136).any (fun n => decide (((s.dev.thermalSweep readings).sensor n).acting < -640)) = true :=
        List.any_eq_true.2 ⟨n, List.mem_range.2 hn, decide_eq_true hcold⟩
      rw [if_neg (not_not.2 h), if_pos cold]
      refine ⟨by rw [settle_mode, Dev.mode_setMode], ?_⟩
      rw [settle_fld _ _ _ (by decide) (by decide) (.inl (by decide)), Dev.prev_setMode _ (by rw [h]; decide), h]
    · have warm : ¬ (List.range 136).any (fun n => decide (((s.dev.thermalSweep readings).sensor n).acting < -640)) = true := by
        simpa using hwarm
      rw [if_neg (not_not.2 h), if_neg warm]
      exact ⟨(settle_mode _).trans h, by rw [settle_clk]⟩
  · rw [Becomes, exec_bootApply, run, s.dev.bootApply_eq fails hp hm]

end Sys2Proof.Machine
end

section
/-! Outside Underway an event is its bit and no more (R507, R510): what it, the settling of the outputs, and a write to another block than LH
leave of the mode and the tide. -/

namespace Sys2Proof.Machine

variable (s : Dev)

/-! ### The mode and the registers -/

/-- The mode stands in a register of LH: no other block's registers change it. -/
theorem Dev.mode_setReg {b o : Nat} (hb : b ≠ B.LH) (ho : o < blockBytes) (w : Word) : (s.setReg b o w).mode = s.mode := by
  rw [Dev.mode, s.fld_setReg_ne _ _ _ _ _ fun h => hb (window_inj (by decide) ho h).1.symm, Dev.mode]

theorem Dev.mode_setFld {b : Nat} {f : Fld} (hb : b ≠ B.LH) (ho : f.off < blockBytes) (v : Nat) : (s.setFld b f v).mode = s.mode :=
  s.mode_setReg hb ho _

theorem Dev.mode_storeReg {b o : Nat} (hb : b ≠ B.LH) (ho : o < blockBytes) (w : Word) : (s.storeReg b o w).mode = s.mode :=
  s.storeReg_keeps (p := Dev.mode) (fun s => s.mode_setReg hb ho) (fun s => s.mode_setReg hb (by decide))

theorem Dev.mode_finish {b : Nat} (hb : b ≠ B.LH) (st : Status) : (s.finish b st).mode = s.mode :=
  s.finish_keeps b st (p := Dev.mode) fun s => s.mode_setReg hb (by decide)

/-- An event changes EVT_STATUS of its block and DBG_STAT, not the mode (R8, R510). -/
@[simp] theorem Dev.mode_event (b n : Nat) : (s.event b n).mode = s.mode := by
  rw [Dev.mode, s.event_fld _ _ _ _ (by decide) (by decide) (.inl (by decide)), Dev.mode]

@[simp] theorem Dev.storeReg_tide (b o : Nat) (w : Word) : (s.storeReg b o w).tide = s.tide :=
  s.storeReg_keeps (p := Dev.tide) (fun _ _ => rfl) (fun _ _ => rfl)

@[simp] theorem Dev.finish_tide (b : Nat) (st : Status) : (s.finish b st).tide = s.tide :=
  s.finish_keeps b st (p := Dev.tide) fun _ _ => rfl

@[simp] theorem Dev.okReply_tide (v : Word) : (s.okReply v).tide = s.tide := rfl

@[simp] theorem settle_stopAt : s.settle.tide.stopAt = s.tide.stopAt := congrArg (·.tide.stopAt) (settle_core s)

/-- The device with another state of its tides. -/
def Dev.setTide (s : Dev) (t : TideSt) : Dev := { s with tide := t }

@[simp] theorem Dev.setTide_tide (t : TideSt) : (s.setTide t).tide = t := rfl

/-! ### Events outside Underway -/

/-- The event breakpoint asks for a halt in Underway alone (R507, R510). -/
theorem Dev.event_eq_raiseBit (h : s.mode ≠ .underway) (b n : Nat) : s.event b n = s.raiseBit b n := by
  have raised : (s.raiseBit b n).mode ≠ .underway := by
    unfold Dev.raiseBit
    split
    · exact h
    · exact (s.mode_setReg_evt b _).trans_ne h
  unfold Dev.event
  dsimp only
  split
  · rw [Dev.haltRequest, if_pos raised]
  · rfl

/-- What overlooks EVT_STATUS overlooks an event outside Underway. -/
theorem Dev.event_keeps_still {β : Type} {p : Dev → β} (hp : ∀ (s : Dev) b w, p (s.setReg b O.EVT_STATUS w) = p s)
    (h : s.mode ≠ .underway) (b n : Nat) : p (s.event b n) = p s := by
  rw [s.event_eq_raiseBit h, Dev.raiseBit]
  split
  · rfl
  · exact hp _ _ _

theorem Dev.event_tide (h : s.mode ≠ .underway) (b n : Nat) : (s.event b n).tide = s.tide :=
  s.event_keeps_still (p := Dev.tide) (fun _ _ _ => rfl) h b n

theorem events_tide (l : List Nat) (b : Nat → Nat) (n : Nat) (h : s.mode ≠ .underway) :
    (l.foldl (fun s k => s.event (b k) n) s).tide = s.tide := by
  induction l generalizing s with
  | nil => rfl
  | cons k l ih => rw [List.foldl_cons, ih _ (by rwa [Dev.mode_event]), s.event_tide h]

/-- Outside Underway settling leaves the tide whole: no halt goes out as a flag. -/
theorem settle_tide (h : s.mode ≠ .underway) : s.settle.tide = s.tide := by
  show s.settlePorts.tide = s.tide
  unfold Dev.settlePorts
  exact events_tide _ _ _ _ h

/-! ### After a command has ended with a status outside Underway -/

theorem tide_settle_finish {b : Nat} (hb : b ≠ B.LH) (t : TideSt) (st : Status) (h : s.mode ≠ .underway) :
    ((s.setTide t).finish b st).okReply.settle.tide = t := by
  have still : ((s.setTide t).finish b st).okReply.mode ≠ .underway := ((s.setTide t).mode_finish hb st).trans_ne h
  rw [settle_tide _ still, Dev.okReply_tide, Dev.finish_tide, Dev.setTide_tide]

theorem mode_settle_finish {b : Nat} (hb : b ≠ B.LH) (st : Status) : (s.finish b st).okReply.settle.mode = s.mode :=
  (settle_mode _).trans (s.mode_finish hb st)

end Sys2Proof.Machine
end

section
/-! Ticks, turns and the start and stop of tides (R54, R57, R58, R95); BREACH_CLR, the reads of the tide registers and ADM_BOUND_SEL (R76,
R89). -/

namespace Sys2Proof.Machine

section
variable (s : Dev)

/-! ### Ticks and turns -/

theorem Dev.fabricTick_underway (hm : s.mode = .underway) (ht : s.tide.tick < s.tideLen) : s.fabricTick = s.tideTick := by
  rw [Dev.fabricTick, if_pos hm, if_pos ht]

theorem Dev.fabricTick_bare (hm : s.mode ≠ .underway) (ht : s.mode.ticks = true) : s.fabricTick = s.bareTick := by
  rw [Dev.fabricTick, if_neg hm, if_pos ht]

/-- After its last tick a tide turns at once (R54). -/
theorem Dev.tideTurn_due (hm : s.mode = .underway) (ht : s.tide.tick = s.tideLen) : s.tideTurn = s.turn := by
  rw [Dev.tideTurn, if_neg (not_not.2 hm), ht, Nat.sub_self, Dev.ticks]

/-- The mode, and the device without its registers and the sliding windows of plane switches and row commands. -/
def Dev.offWindows (s : Dev) : Mode × Dev := (s.mode, { s with regs := [], psw := [], hold := { s.hold with xfers := [] } })

theorem Dev.setFld_offWindows {b : Nat} {f : Fld} (hb : b ≠ B.LH) (ho : f.off < blockBytes) (v : Nat) :
    (s.setFld b f v).offWindows = s.offWindows := by
  rw [Dev.offWindows, s.mode_setFld hb ho]
  rfl

theorem Dev.event_offWindows (h : s.mode ≠ .underway) (b n : Nat) : (s.event b n).offWindows = s.offWindows := by
  have rest := s.event_keeps_still (p := fun s => s.offWindows.2) (fun _ _ _ => rfl) h b n
  exact Prod.ext (s.mode_event b n) rest

/-- A window's count and maximum are shown; where the count passes its limit, that is counted and an event (R169, R185). -/
theorem Dev.windowShown_offWindows {b : Nat} {now top over_ : Fld} (hb : b ≠ B.LH) (hnow : now.off < blockBytes) (htop : top.off < blockBytes)
    (hover : over_.off < blockBytes) (h : s.mode ≠ .underway) (v w n : Nat) (passes : Bool) :
    (if passes then (((s.setFld b now v).setFld b top w).count b over_).event b n else (s.setFld b now v).setFld b top w).offWindows =
      s.offWindows := by
  have shown : ((s.setFld b now v).setFld b top w).offWindows = s.offWindows :=
    (Dev.setFld_offWindows _ hb htop _).trans (s.setFld_offWindows hb hnow _)
  have counted : (((s.setFld b now v).setFld b top w).count b over_).offWindows = s.offWindows :=
    (Dev.setFld_offWindows _ hb hover _).trans shown
  split
  · exact (Dev.event_offWindows _ ((congrArg (·.1) counted).trans_ne h) _ _).trans counted
  · exact shown

theorem Dev.pswShow_offWindows (h : s.mode ≠ .underway) : s.pswShow.offWindows = s.offWindows :=
  s.windowShown_offWindows (by decide) (by decide) (by decide) (by decide) h _ _ _ _

theorem Dev.xferShow_offWindows (h : s.mode ≠ .underway) : s.xferShow.offWindows = s.offWindows :=
  s.windowShown_offWindows (by decide) (by decide) (by decide) (by decide) h _ _ _ _

/-- The windows of plane switches and of row commands move on (R169, R185). -/
theorem Dev.windowTicks_offWindows (h : s.mode ≠ .underway) (n : Nat) : (s.pswTick n).xferTick.offWindows = s.offWindows := by
  have psw (x : List Nat) : { s with psw := x }.pswShow.offWindows = s.offWindows := Dev.pswShow_offWindows _ h
  have xfer (d : Dev) (hd : d.mode ≠ .underway) (x : List Nat) :
      { d with hold := { d.hold with xfers := x } }.xferShow.offWindows = d.offWindows := Dev.xferShow_offWindows _ hd
  exact (xfer _ ((congrArg (·.1) (psw _)).trans_ne h) _).trans (psw _)

/-- The device after a tick that no tide takes, with no work due: its tick counts have gone on. -/
def Dev.counted (s : Dev) : Dev := { s with tide := { s.tide with count := s.tide.count + 1, exec := s.tide.exec + 1 } }

theorem Dev.bareTick_idle (hm : s.mode = .moored) (hx : s.tide.xing = []) (hb : s.hold.banks = []) :
    s.bareTick = (s.counted.pswTick 0).xferTick := by
  have due : s.dueWork = s := by simp [Dev.dueWork, Dev.xingDue, Dev.rowsDue, hx, hb]
  rw [Dev.bareTick, due]
  dsimp only
  rw [if_neg (by rw [hm]; decide), Dev.counted]

/-- In Moored a tick without work due moves the tick counts and the windows on, and nothing else but registers. -/
theorem Dev.bareTick_offWindows (hm : s.mode = .moored) (hx : s.tide.xing = []) (hb : s.hold.banks = []) :
    s.bareTick.offWindows = s.counted.offWindows := by
  have still : s.counted.mode ≠ .underway := hm.trans_ne (by decide)
  rw [s.bareTick_idle hm hx hb, s.counted.windowTicks_offWindows still]

/-! ### The start of tide 0 -/

/-- The mode, the tides and memory: what the steps that follow the mode change at a tide's start leave alone. -/
def Dev.voyage (s : Dev) : Mode × TideSt × List Host.Cell := (s.mode, s.tide, s.mem)

theorem Dev.forN_keeps {β : Type} {p : Dev → β} {f : Dev → Nat → Dev} (h : ∀ s k, p (f s k) = p s) (n : Nat) : p (s.forN n f) = p s :=
  foldl_keeps f _ (fun s k _ => h s k) s

theorem Dev.setFld_voyage {b : Nat} {f : Fld} (hb : b ≠ B.LH) (ho : f.off < blockBytes) (v : Nat) :
    (s.setFld b f v).voyage = s.voyage := by
  rw [Dev.voyage, s.mode_setFld hb ho]
  rfl

theorem Dev.showArb_voyage (a : Nat) : (s.showArb a).voyage = s.voyage := by
  unfold Dev.showArb
  split
  · have dmc : B.DMC a ≠ B.LH := by simp only [B.DMC, B.LH]; omega
    have quota (i : Nat) (hi : i < 16) : (F.ARB_QUOTA_USED i).off < blockBytes := by
      simp only [F.ARB_QUOTA_USED, blockBytes]; omega
    exact (foldl_keeps (p := Dev.voyage) _ _ (fun s i hi => s.setFld_voyage dmc (quota i (List.mem_range.1 hi)) _) _).trans
      (s.setFld_voyage dmc (by decide) _)
  · rfl

theorem Dev.arbWindowStart_voyage (a : Nat) : (s.arbWindowStart a).voyage = s.voyage := by
  rw [Dev.arbWindowStart, Dev.showArb_voyage]
  rfl

theorem Dev.arbiterWindows_voyage : s.arbiterWindows.voyage = s.voyage :=
  foldl_keeps _ _ (fun s a _ => s.arbWindowStart_voyage a) s

theorem Dev.showChange_voyage (e : Nat) : (s.showChange e).voyage = s.voyage :=
  (apply_ite Dev.voyage _ _ _).trans (ite_self _)

/-- The device as tide 0 begins, its mode and the blocks still to follow (R57, R87). -/
def Dev.tideZero (s : Dev) : Dev :=
  { s with tide := { s.tide with num := 0, tick := 0, armed := none, started := false, startSeen := none, flags := [], stopAt := none,
                                 policyFixed := false, gates := [], transfers := [], turns := [] } }

/-- An armed start whose instant has come (R57). -/
theorem Dev.tideStart_due {t : Nat} (hm : s.mode = .moored) (hs : s.tide.started = true) (ha : s.tide.armed = some t) (ht : t ≤ s.ns) :
    s.tideStart.voyage = (s.tideZero.setMode .underway).voyage := by
  have begins : s.tideStart =
      (((((s.tideZero.setMode .underway).forN 16 Dev.dropStart).forN 256 Dev.rxOpen).arbiterWindows).forN 32 Dev.showChange) := by
    simp [Dev.tideStart, ha, hm, hs, Nat.not_lt.2 ht, Dev.tideZero]
  rw [begins, Dev.forN_keeps _ Dev.showChange_voyage, Dev.arbiterWindows_voyage,
    Dev.forN_keeps (p := Dev.voyage) (f := Dev.rxOpen) _ fun _ _ => rfl, Dev.forN_keeps (p := Dev.voyage) (f := Dev.dropStart) _ fun _ _ => rfl]

/-- A mode change writes LH_MODE and raises an event (R466). -/
theorem Dev.setMode_core (m : Mode) : (s.setMode m).core = s.core := by
  unfold Dev.setMode
  split
  · rfl
  · rw [Dev.event_core]
    rfl

/-! ### START and STOP -/

/-- START of a device that is no part of a mesh start arms it for TIDE_START (R57). -/
theorem Dev.tideStartCmd_single (hm : s.mode = .moored) (ha : s.tide.activated = true) (hs : ¬ s.tide.started = true)
    (hmaster : s.flag B.TIDE F.TIDE_CTRL_MASTER = false) (hfollow : s.flag B.TIDE F.TIDE_CTRL_FOLLOW = false) :
    s.tideStartCmd = (s.setTide { s.tide with
      started := true, armed := some (s.reg64 B.TIDE O.TIDE_START_LO O.TIDE_START_HI) }).finish B.TIDE .ok := by
  simp [Dev.tideStartCmd, Dev.setTide, hm, ha, hs, hmaster, hfollow]

/-- STOP disarms a start in Moored (R58). -/
theorem Dev.tideStopCmd_moored (hm : s.mode = .moored) (hs : s.tide.started = true) :
    s.tideStopCmd = (s.setTide { s.tide with started := false, armed := none, startSeen := none }).finish B.TIDE .ok := by
  simp [Dev.setTide, Dev.tideStopCmd, hm, hs]

/-- STOP in Underway is due at the next turn (R58). -/
theorem Dev.tideStopCmd_underway (hm : s.mode = .underway) (hs : s.tide.stopAt = none) :
    s.tideStopCmd = (s.setTide { s.tide with stopAt := some (s.tide.num + 1, .stop) }).finish B.TIDE .ok := by
  simp [Dev.setTide, Dev.tideStopCmd, Dev.stopTides, hm, hs]

/-- What START and STOP leave alone: an observation that overlooks the tide, the links and BLK_STATUS. -/
theorem Dev.tideCmds_keep {β : Type} {p : Dev → β} (htide : ∀ (s : Dev) t, p { s with tide := t } = p s)
    (hlink : ∀ (s : Dev) n l, p (s.setLink n l) = p s) (hstatus : ∀ (s : Dev) w, p (s.setReg B.TIDE O.BLK_STATUS w) = p s) :
    p s.tideStartCmd = p s ∧ p s.tideStopCmd = p s := by
  have ends (d : Dev) (st : Status) : p (d.finish B.TIDE st) = p d := d.finish_keeps _ _ hstatus
  have sends (d : Dev) (t l : Nat) (from_ : Option Nat) : p (d.sendStart t l from_) = p d :=
    foldl_keeps (p := p) _ _ (fun _ _ _ => (hlink _ _ _).trans (hlink _ _ _)) d
  constructor
  · unfold Dev.tideStartCmd
    dsimp only
    split
    · exact ends _ _
    · rw [ends]
      split
      · exact (sends _ _ _ _).trans (htide _ _)
      · exact htide _ _
  · unfold Dev.tideStopCmd
    split
    · split
      · exact (ends _ _).trans (htide _ _)
      · exact ends _ _
    · rw [ends, Dev.stopTides]
      split
      · split
        · rfl
        · exact htide _ _
      · exact htide _ _
    · exact ends _ _

/-! ### TIDE_CTRL

That a write stores MASTER and FOLLOW first, then BREACH_CLR acts, then CMD, is the model's choice (log entry 78). -/

theorem Dev.writeReg_tideCtrl (r : Src) (w : Word) : s.writeReg r B.TIDE O.TIDE_CTRL w = s.tideCtrl w :=
  s.writeReg_own r w (k := .tide) rfl (by decide) (by decide)

theorem Dev.tideCtrl_start {w : Word} (hc : w.toNat % 4 = 1) (hb : nbit w.toNat 2 = false) :
    s.tideCtrl w = (s.storeReg B.TIDE O.TIDE_CTRL w).tideStartCmd := by simp [Dev.tideCtrl, hc, hb]

theorem Dev.tideCtrl_stop {w : Word} (hc : w.toNat % 4 = 2) (hb : nbit w.toNat 2 = false) :
    s.tideCtrl w = (s.storeReg B.TIDE O.TIDE_CTRL w).tideStopCmd := by simp [Dev.tideCtrl, hc, hb]

theorem Dev.tideCtrl_clear {w : Word} (hc : w.toNat % 4 = 0) (hb : nbit w.toNat 2 = true) :
    s.tideCtrl w = (s.storeReg B.TIDE O.TIDE_CTRL w).breachClr := by simp [Dev.tideCtrl, hc, hb]

/-- BREACH_CLR with any CMD, for an observation that overlooks what CMD does (R89). -/
theorem Dev.tideCtrl_clear_keeps {β : Type} {p : Dev → β} (htide : ∀ (s : Dev) t, p { s with tide := t } = p s)
    (hlink : ∀ (s : Dev) n l, p (s.setLink n l) = p s) (hstatus : ∀ (s : Dev) w, p (s.setReg B.TIDE O.BLK_STATUS w) = p s)
    {w : Word} (hb : nbit w.toNat 2 = true) : p (s.tideCtrl w) = p (s.storeReg B.TIDE O.TIDE_CTRL w).breachClr := by
  obtain ⟨starts, stops⟩ := (s.storeReg B.TIDE O.TIDE_CTRL w).breachClr.tideCmds_keep htide hlink hstatus
  unfold Dev.tideCtrl
  dsimp only
  rw [if_pos hb]
  split
  · exact starts
  · exact stops
  · rfl

/-- The breach registers (R82, R89). -/
def breachRegs : List Nat := [O.BREACH_FIRST0, O.BREACH_FIRST1, O.BREACH_LAST0, O.BREACH_LAST1, O.BREACH_CNT]

/-- A register of the block that is written, and its neighbours. -/
theorem Dev.reg_setReg_block (b o o' : Nat) (w : Word) : (s.setReg b o w).reg b o' = if o' = o then w else s.reg b o' := by
  split
  · next h => rw [h, Dev.reg_setReg]
  · next h => exact s.reg_setReg_ne _ _ _ _ _ fun e => h (Nat.add_left_cancel e)

theorem Dev.reg_breachClr {o : Nat} (ho : o ∈ breachRegs) : s.breachClr.reg B.TIDE o = 0 := by
  simp only [breachRegs, List.mem_cons, List.not_mem_nil, or_false] at ho
  simp only [Dev.breachClr, Dev.reg_setReg_block]
  rcases ho with h | h | h | h | h <;> simp [h]

/-! ### ADM_BOUND_SEL -/

theorem Dev.writeReg_boundSel (r : Src) (w : Word) : s.writeReg r B.ADM O.ADM_BOUND_SEL w = s.boundSel w :=
  s.writeReg_own r w (k := .adm) rfl (by decide) (by decide)

end

/-! ### The commands as register accesses -/

variable {s : State} {src : RegSrc} {data : Word} {peek : Bool}

theorem becomes_tideCtrl {c : Instr} {w : Word} (hc : exec c s = run (fun d => d.command src B.TIDE O.TIDE_CTRL w) s)
    (hw : s.dev.writes src B.TIDE O.TIDE_CTRL w) : Becomes c s (s.dev.tideCtrl w).okReply := by
  have becomes := becomes_command hc (by decide) hw
  rwa [Dev.writeReg_tideCtrl] at becomes

theorem becomes_tideCtrlStart (hw : s.dev.writes src B.TIDE O.TIDE_CTRL (withField data 0 2 1))
    (hb : nbit (withField data 0 2 1).toNat 2 = false) : Becomes (.tideCtrlStart src data) s
      (s.dev.storeReg B.TIDE O.TIDE_CTRL (withField data 0 2 1)).tideStartCmd.okReply := by
  have becomes := becomes_tideCtrl (exec_tideCtrlStart src data s) hw
  rwa [Dev.tideCtrl_start _ (mod_four_withField 1 (by decide)) hb] at becomes

theorem becomes_tideCtrlStop (hw : s.dev.writes src B.TIDE O.TIDE_CTRL (withField data 0 2 2))
    (hb : nbit (withField data 0 2 2).toNat 2 = false) : Becomes (.tideCtrlStop src data) s
      (s.dev.storeReg B.TIDE O.TIDE_CTRL (withField data 0 2 2)).tideStopCmd.okReply := by
  have becomes := becomes_tideCtrl (exec_tideCtrlStop src data s) hw
  rwa [Dev.tideCtrl_stop _ (mod_four_withField 2 (by decide)) hb] at becomes

theorem becomes_admBoundSel (hw : s.dev.writes src B.ADM O.ADM_BOUND_SEL data) :
    Becomes (.admBoundSel src data) s (s.dev.boundSel data).okReply := by
  have becomes := becomes_command (exec_admBoundSel src data s) (by decide) hw
  rwa [Dev.writeReg_boundSel] at becomes

/-- A read of a register of TIDE that is no peek returns what the register shows, and acts (R89, R505). -/
theorem becomes_tideRead {c : Instr} {off : Nat} (hc : exec c s = run (fun d => d.readCommand src peek B.TIDE off) s)
    (ho : off < blockBytes) (hp : src.peeks peek = false) (hr : s.dev.reads src B.TIDE off) :
    Becomes c s ((s.dev.readActs src.src B.TIDE off false).okReply (s.dev.showReg src.src B.TIDE off false)) := by
  obtain ⟨hg, hd⟩ := hr
  rw [Becomes, hc, run, Dev.readCommand_open _ _ _ _ _ ho hg hd, hp]
  rfl

end Sys2Proof.Machine
end

section
/-! A message that a berth's interface takes, up to the request it makes (R67, R123, R125, R126, R216, R238). -/

namespace Sys2Proof.Machine

variable (s : Dev)

@[simp] theorem Dev.berth_setBerth (b : Nat) (x : BerthSt) : (s.setBerth b x).berth b = x := by
  simp [Dev.berth, Dev.setBerth, Map.get_set]

@[simp] theorem Dev.berthBegun_tide (b : Nat) (m : BMsg) : (s.berthBegun b m).tide = s.tide := rfl

section
variable {s} {b op : Nat} {m : BMsg} (h : s.berthTakesMsg b m op)
include h

/-- A berth that is live presents in Underway. -/
theorem mode_of_berthTakesMsg : s.mode = .underway := by
  obtain ⟨live, -⟩ := h
  simp only [Dev.berthLive, Bool.and_eq_true, beq_iff_eq] at live
  obtain ⟨⟨⟨underway, -⟩, -⟩, -⟩ := live
  exact underway

/-- Each beat of a message that the interface takes has its credit (R123). -/
theorem berthSays_of_takesMsg (take : Dev → Bool → Dev) : s.berthSays b m take = take (s.berthPaid b m) false := by
  obtain ⟨live, -, pays, -⟩ := h
  have none_lost : (s.takeCredits b m).2 = false := decide_eq_false (Nat.not_lt.2 pays)
  rw [Dev.berthSays, live]
  show take (s.takeCredits b m).1 (s.takeCredits b m).2 = _
  rw [none_lost, Dev.berthPaid]

/-- A message that the interface takes makes its tag busy and is taken on (R125, R126). -/
theorem berthCheck_of_takesMsg {ops : List Nat} (hop : op ∈ ops) (take : Dev → BHdr → Dev) :
    (s.berthPaid b m).berthCheck b m false ops take = take (s.berthBegun b m) (BHdr.dec m.hdr) := by
  obtain ⟨-, free, -, clean, spelled⟩ := h
  have tags : ((s.berthPaid b m).berth b).tags = (s.berth b).tags := by rw [Dev.berthPaid, Dev.takeCredits, Dev.berth_setBerth]
  simp [Dev.berthCheck, tags, free, clean, spelled, hop, Dev.berthBegun]

end

section
variable {s} {b : Nat} {m : BMsg} (hclosed : m.closed = true)
include hclosed

/-- READ (R126). -/
theorem berthRead_of_takesMsg (h : s.berthTakesMsg b m 1) (hb : m.beats = []) (hpos : 0 < (BHdr.dec m.hdr).len)
    (hlen : (BHdr.dec m.hdr).len ≤ 4096) : s.berthRead b m = (s.berthBegun b m).berthRequest b (BHdr.dec m.hdr) 1 [] := by
  rw [Dev.berthRead, berthSays_of_takesMsg h, Dev.hearRead, berthCheck_of_takesMsg h (by decide)]
  simp [hb, hclosed, Nat.not_lt.2 hlen, hpos.ne']

/-- WRITE (R126). -/
theorem berthWrite_of_takesMsg (h : s.berthTakesMsg b m 2) (hb : m.beats.length = ((BHdr.dec m.hdr).len + 31) / 32) (hpos : 0 < (BHdr.dec m.hdr).len)
    (hlen : (BHdr.dec m.hdr).len ≤ 4096) : s.berthWrite b m =
      (s.berthBegun b m).berthRequest b (BHdr.dec m.hdr) 2 (beatBytes (BHdr.dec m.hdr).len m.beats) := by
  rw [Dev.berthWrite, berthSays_of_takesMsg h, Dev.hearWrite, berthCheck_of_takesMsg h (by decide)]
  simp [hb, hclosed, Nat.not_lt.2 hlen, hpos.ne']

/-- ACQUIRE, with its lease (R238). -/
theorem berthAcquire_of_takesMsg (h : s.berthTakesMsg b m 5) (hb : m.beats = []) : s.berthAcquire b m =
    (s.berthBegun b m).berthRequest b (BHdr.dec m.hdr) 5 [] (BHdr.dec m.hdr).context := by
  rw [Dev.berthAcquire, berthSays_of_takesMsg h, Dev.hearAcquire, berthCheck_of_takesMsg h (by decide)]
  simp [hb, hclosed]

/-- RELINQUISH (R238). -/
theorem berthRelinquish_of_takesMsg (h : s.berthTakesMsg b m 6) (hb : m.beats = []) : s.berthRelinquish b m =
    (s.berthBegun b m).berthRequest b (BHdr.dec m.hdr) 6 [] := by
  rw [Dev.berthRelinquish, berthSays_of_takesMsg h, Dev.hearRelinquish, berthCheck_of_takesMsg h (by decide)]
  simp [hb, hclosed]

/-- A SCHED of the berth's own declaration comes to the gate (R67, R126). -/
theorem berthSched_of_takesMsg {d : Decl} (h : s.berthTakesMsg b m 3) (hd : s.tide.decls[(BHdr.dec m.hdr).decl]? = some d) (hsrc : d.srcBerth = b)
    (hb : m.beats.length = if d.kind = 1 then 0 else ((BHdr.dec m.hdr).len + 31) / 32) : s.berthSched b m =
      (s.berthBegun b m).schedGate b (BHdr.dec m.hdr).decl d (BHdr.dec m.hdr).len (BHdr.dec m.hdr).tag
        (beatBytes (BHdr.dec m.hdr).len m.beats) := by
  rw [Dev.berthSched, berthSays_of_takesMsg h, Dev.hearSched, berthCheck_of_takesMsg h (by decide)]
  simp [hd, hsrc, hb, hclosed]

end

/-- A request to a device of the mesh, at an address that is none amiss, leaves for the network (R216). -/
theorem Dev.berthRequest_leaves {b : Fin 512} {h : BHdr} {dv : Nat} (op : Nat) (data : List Byte) (lease : Nat)
    (hd : s.berthDev h = some dv) (ha : addrBad h.addr h.len = false) : s.berthRequest b.val h op data lease =
      s.request { src := .berth b, tag := h.tag, op, addr := h.addr, len := h.len, data, dst := s.destNode h.addr / 64 * 64 + dv, lease } := by
  simp [Dev.berthRequest, hd, ha]

/-- A request that reaches an idle gate in the issue's tide, by its issue tick, is held there (R67). The header is judged as it is presented,
with the 8 ticks of its crossing counted in: the model's choice (log entry 87). -/
theorem Dev.schedGate_held {b id len tag : Nat} {d : Decl} (data : List Byte) (hlen : len ≤ d.size) (hl : d.live = true)
    (ht : s.tide.tick + 8 < s.tideLen) (hi : d.issues s.tide.num = true) (hg : s.gate id s.tide.num = .idle)
    (hdue : s.tide.tick + 8 ≤ d.issueTick) : s.schedGate b id d len tag data = s.setGate id s.tide.num (.held len tag data) := by
  simp [Dev.schedGate, Nat.not_lt.2 hlen, hl, ht, hi, hg, Nat.not_lt.2 hdue]

end Sys2Proof.Machine
end

section
/-! Service messages on a link that is UP, case by case (R83, R87, R332 to R337, R385, R507, R511). -/

namespace Sys2Proof.Machine

section
variable (s : Dev)

/-! ### A message, by its code -/

/-- What the device does with a service message of a code and a payload (R332). -/
def Dev.svcTake (s : Dev) (n code pay : Nat) : Dev :=
  match code with
  | 1 => s.svcBreach n pay
  | 2 => s.svcHalt n pay
  | 3 => s.svcResume n pay
  | 4 => s.svcStartA n pay
  | 5 => s.svcStartB n pay
  | 6 => s.svcTurn n pay
  | 7 => s.svcSync n pay
  | 8 => s.svcSyncRx n pay
  | 9 => s.svcEpoch n pay
  | _ => s

theorem Dev.svcAct_eq (n : Nat) (w : DWord) : s.svcAct n w = s.svcTake n (w.toNat % 256) (w.toNat / 256) := rfl

/-- A message that comes on a trained link is acted on, with the payload it carries (R326). -/
theorem Dev.svcReceive_up {n code : Nat} (hc : code < 256) (h : s.linkState n = 2) (p : BitVec 56) :
    s.svcReceive n code p.toNat = s.svcTake n code p.toNat := by
  have word : (BitVec.ofNat 64 (code + 256 * (p.toNat % 2 ^ 56))).toNat = code + 256 * p.toNat := by
    rw [BitVec.toNat_ofNat, Nat.mod_eq_of_lt p.isLt, Nat.mod_eq_of_lt (by have := p.isLt; omega)]
  have low : (code + 256 * p.toNat) % 256 = code := by omega
  have high : (code + 256 * p.toNat) / 256 = p.toNat := by omega
  rw [Dev.svcReceive, if_pos h, Dev.svcAct_eq, word, low, high]

/-! ### What handing on a flag, and a record of a breach, leave alone -/

section
variable (code target coord : Nat) (from_ : Option Nat)

theorem Dev.sendFlag_core : (s.sendFlag code target coord from_).core = s.core :=
  sendFlag_keeps (core_overlooks fun _ => True) s code target coord from_

@[simp] theorem Dev.mode_sendFlag : (s.sendFlag code target coord from_).mode = s.mode := by
  rw [Dev.mode, Dev.fld, sendFlag_keeps (p := fun s : Dev => s.reg B.LH F.LH_MODE_MODE.off)
    (reg_overlooks _ _ (by decide) (by decide) (.inl (by decide)) fun _ => True), ← Dev.fld, ← Dev.mode]

@[simp] theorem Dev.sendFlag_tideNum : (s.sendFlag code target coord from_).tide.num = s.tide.num :=
  congrArg (·.tide.num) (s.sendFlag_core code target coord from_)

@[simp] theorem Dev.sendFlag_policyFixed : (s.sendFlag code target coord from_).tide.policyFixed = s.tide.policyFixed :=
  congrArg (·.tide.policyFixed) (s.sendFlag_core code target coord from_)

@[simp] theorem Dev.sendFlag_resumeAt : (s.sendFlag code target coord from_).run.resumeAt = s.run.resumeAt :=
  congrArg (·.run.resumeAt) (s.sendFlag_core code target coord from_)

end

@[simp] theorem Dev.event_tideNum (b n : Nat) : (s.event b n).tide.num = s.tide.num := congrArg (·.tide.num) (s.event_core b n)

@[simp] theorem Dev.event_policyFixed (b n : Nat) : (s.event b n).tide.policyFixed = s.tide.policyFixed :=
  congrArg (·.tide.policyFixed) (s.event_core b n)

theorem Dev.flagTide_event (b n t : Nat) : (s.event b n).flagTide t = s.flagTide t := by rw [Dev.flagTide, Dev.event_tideNum, Dev.flagTide]

theorem Dev.pushNote_tide (b code : Nat) : (s.pushNote b code).1.tide = s.tide := by
  unfold Dev.pushNote
  dsimp only
  split
  · rfl
  · rfl

/-- Notes to the berths of an erg do not move a turn that the policy has fixed. -/
theorem Dev.noteErg_policyFixed (e code : Nat) : (s.noteErg e code).tide.policyFixed = s.tide.policyFixed := by
  unfold Dev.noteErg
  split
  · rfl
  · refine foldl_keeps (p := fun s : Dev => s.tide.policyFixed) _ _ (fun s i _ => ?_) s
    have note : (s.pushNote (16 * e + i) code).1.tide.policyFixed = s.tide.policyFixed := congrArg (·.policyFixed) (s.pushNote_tide _ _)
    dsimp only
    split
    · rw [Dev.event_policyFixed, note]
    · exact note

/-- Nor does the entry of a recovered error in the fault log, whose ring is no part of the tides. -/
theorem Dev.logError_policyFixed {cls : ErrClass} (hf : cls ≠ .f) (st : Status) (blk evt addr coord synd info : Nat) :
    (s.logError cls st blk evt addr coord synd info).tide.policyFixed = s.tide.policyFixed := by
  unfold Dev.logError
  dsimp only
  rw [if_neg hf]
  split
  · rw [Dev.event_policyFixed, Dev.count, Dev.addFld_tide, Dev.setFld_tide]
  · rw [Dev.setFld_tide]

theorem policyFixed_overlooks (ev : Nat → Prop) : Overlooks (fun s : Dev => s.tide.policyFixed) ev :=
  ⟨fun _ _ _ _ => rfl, fun _ _ => rfl, fun _ _ _ => rfl, fun _ _ => rfl, fun _ _ _ => rfl⟩

/-- A record of a breach does not move the turn that the policy has fixed (R82, R84). -/
theorem Dev.breachRecord_policyFixed (cause e decl : Nat) : (s.breachRecord cause e decl).tide.policyFixed = s.tide.policyFixed := by
  have notes (d : Dev) : ((List.range 32).foldl
      (fun s k => if s.flag (B.ERG k) F.ERG_CTRL_NOTE_BREACH then s.noteErg k 3 else s) d).tide.policyFixed = d.tide.policyFixed :=
    foldl_keeps (p := fun s : Dev => s.tide.policyFixed) _ _ (fun s k _ => by
      split
      · exact s.noteErg_policyFixed _ _
      · rfl) d
  unfold Dev.breachRecord
  dsimp only
  rw [apply_ite fun d : Dev => d.tide.policyFixed, haltRequest_keeps (policyFixed_overlooks fun _ => True), ite_self, notes,
    Dev.logError_policyFixed _ (by decide), Dev.event_policyFixed, Dev.count, Dev.addFld_tide, Dev.setReg_tide, Dev.setReg_tide,
    apply_ite Dev.tide, Dev.setReg_tide, Dev.setReg_tide, ite_self]

/-! ### BREACH, HALT and RESUME -/

/-- BREACH where the policy has fixed a turn, with a target still to come (R83, R335): that the turn stays is the model's choice (log entry
94). -/
theorem Dev.svcBreach_fixed {n pay : Nat} (hcopy : s.flagCopy 1 pay = false) (hm : s.mode = .underway) (hfixed : s.tide.policyFixed = true)
    (ht : s.tide.num < (s.sendFlag 1 pay (pay / 2 ^ 50 % 64) (some n)).flagTide pay) :
    s.svcBreach n pay = ((s.sendFlag 1 pay (pay / 2 ^ 50 % 64) (some n)).event B.TIDE 4).breachRecord 7 0 0 := by
  unfold Dev.svcBreach
  generalize pay / 2 ^ 50 % 64 = coord at ht ⊢
  simp [hcopy, hm, Dev.flagTide_event, Nat.not_le.2 ht, Dev.breachRecord_policyFixed, hfixed]

/-- HALT with a target still to come (R507, R508). -/
theorem Dev.svcHalt_ahead {n pay : Nat} (hcopy : s.flagCopy 2 pay = false) (hm : s.mode = .underway)
    (ht : s.tide.num < (s.sendFlag 2 pay (pay / 2 ^ 50 % 64) (some n)).flagTide pay) :
    s.svcHalt n pay = (s.sendFlag 2 pay (pay / 2 ^ 50 % 64) (some n)).haltAt
      ((s.sendFlag 2 pay (pay / 2 ^ 50 % 64) (some n)).flagTide pay) true 2 := by
  unfold Dev.svcHalt
  generalize pay / 2 ^ 50 % 64 = coord at ht ⊢
  simp [hcopy, hm, Nat.not_le.2 ht]

/-- RESUME in a halt that no instant ends yet (R511): that a lone flag resumes, without a step, is the model's choice (log entry 93). -/
theorem Dev.svcResume_halted {n pay : Nat} (hcopy : s.flagCopy 3 pay = false) (hm : s.mode = .anchored) (hr : s.run.resumeAt = none) :
    s.svcResume n pay = (s.sendFlag 3 pay (pay / 2 ^ 50 % 64) (some n)).resumeSoon
      ((s.sendFlag 3 pay (pay / 2 ^ 50 % 64) (some n)).ns / resumeGrid * resumeGrid) := by
  simp [Dev.svcResume, hcopy, hm, hr]

/-! ### START_B, TURN, EPOCH -/

/-- START_B of a start that this follower has passed on: it arms the device, whose image is activated (R87); that one START is passed on once
is the model's choice (log entry 95). -/
theorem Dev.svcStartB_seen {n pay a : Nat} (ha : (s.link n).gotA = some a) (hf : s.flag B.TIDE F.TIDE_CTRL_FOLLOW = true)
    (hm : s.mode = .moored) (harmed : s.tide.armed = none)
    (hseen : s.tide.startSeen = some (a % 2 ^ 32 + 2 ^ 32 * (pay % 2 ^ 32), s.tideLen)) (hlen : a / 2 ^ 32 % 2 ^ 17 = s.tideLen)
    (hact : s.tide.activated = true) : s.svcStartB n pay =
      (s.setLink n { s.link n with gotA := none }).setTide
        { s.tide with armed := some (a % 2 ^ 32 + 2 ^ 32 * (pay % 2 ^ 32)), started := true } := by
  have follow : (s.setLink n { s.link n with gotA := none }).flag B.TIDE F.TIDE_CTRL_FOLLOW = true := hf
  have moored : (s.setLink n { s.link n with gotA := none }).mode = .moored := hm
  have length : (s.setLink n { s.link n with gotA := none }).tideLen = s.tideLen := rfl
  rw [Dev.svcStartB, ha]
  dsimp only
  generalize a % 2 ^ 32 + 2 ^ 32 * (pay % 2 ^ 32) = time at hseen ⊢
  generalize a / 2 ^ 32 % 2 ^ 17 = len at hlen ⊢
  simp [follow, moored, length, harmed, hseen, hlen, hact, Dev.setTide]

/-- TURN of the tide to come waits for this device's turn (R337). -/
theorem Dev.svcTurn_early {n pay : Nat} (hnext : pay / 2 ^ 36 % 2 ^ 20 = (s.tide.num + 1) % 2 ^ 20)
    (hnone : ∀ t ∈ s.tide.turns, t.1 ≠ pay / 2 ^ 36 % 2 ^ 20) : s.svcTurn n pay = s.setLink n { s.link n with turnRx := some pay } := by
  have absent : s.tide.turns.find? (fun t => t.1 == pay / 2 ^ 36 % 2 ^ 20) = none := by simpa [List.find?_eq_none] using hnone
  rw [Dev.svcTurn]
  dsimp only
  rw [absent]
  exact if_pos hnext

/-- TURN of a tide whose turn this device has made (R337). -/
theorem Dev.svcTurn_made {n pay : Nat} {t : Nat × Nat} (ht : s.tide.turns.find? (fun t => t.1 == pay / 2 ^ 36 % 2 ^ 20) = some t) :
    s.svcTurn n pay = s.turnCompare n pay t.2 := by
  rw [Dev.svcTurn]
  dsimp only
  rw [ht]

/-- The device as it takes its station time from an EPOCH (R385). What the message does not carry, the bits below 8 ns, is a free value: the
model's choice (log entry 36). -/
def Dev.epochTaken (s : Dev) (pay : Nat) : Dev :=
  { s with free := s.free + 1,
           eth := { s.eth with time := pay % 2 ^ 56 * 2 ^ 40 + (Config.freeWord s.free).toNat % 2 ^ 40 } }.setFlag B.ETH F.ST_STAT_VALID true

theorem Dev.takeEpoch_taken {n pay : Nat} (hs : s.stSrc = 3) (hl : s.fld B.ETH F.ST_CTRL_LINK = n)
    (hv : s.flag B.ETH F.ST_STAT_VALID = false) : s.takeEpoch n pay = s.epochTaken pay := by
  simp [Dev.takeEpoch, Dev.freeWord, Dev.epochTaken, hs, hl, hv]

theorem Dev.epochTaken_time {pay : Nat} (hp : pay < 2 ^ 56) : (s.epochTaken pay).eth.time / 2 ^ 40 = pay := by
  rw [Dev.epochTaken, Dev.setFlag, Dev.setFld_eth]
  dsimp only
  omega

theorem Dev.epochTaken_valid (pay : Nat) : (s.epochTaken pay).flag B.ETH F.ST_STAT_VALID = true := by
  rw [Dev.flag, Dev.epochTaken, Dev.setFlag, Dev.fld_setFld _ _ _ _ (by decide)]
  rfl

@[simp] theorem Dev.link_setLink (n : Nat) (l : LinkSt) : (s.setLink n l).link n = l := by simp [Dev.link, Dev.setLink, Map.get_set]

/-! ### Where no line changes its source, settling leaves the links and the tide -/

theorem settle_link_of_sources (h : ∀ p, (s.port p).txSrc = s.portSource p) (n : Nat) : s.settle.link n = s.link n := by
  rw [settle_of_sources s h]
  rfl

theorem settle_tide_of_sources (h : ∀ p, (s.port p).txSrc = s.portSource p) : s.settle.tide = s.tide := by
  rw [settle_of_sources s h]
  rfl

end

/-- A service message that comes on a trained link (R326). -/
theorem becomes_svc {c : Instr} {s : State} {n : Fin 16} {p : BitVec 56} {code : Nat}
    (hc : exec c s = run (fun d => d.svcReceive n.val code p.toNat) s) (hcode : code < 256) (h : s.dev.linkState n.val = 2) :
    Becomes c s (s.dev.svcTake n.val code p.toNat) := by
  rw [Becomes, hc, run, s.dev.svcReceive_up hcode h]

end Sys2Proof.Machine
end

section
/-! The statements of tides (chapter 02), and of what they bring to berths and links, settled. -/

namespace Sys2Proof.Machine

/-- Settles O2: ticks and turns by their case; what a start, a stop and a tick in Moored change is left standing by the steps after it. -/
theorem tideCommands : Obligations.TideCommands := by
  intro s src data _ hclk
  have ticking {c : Instr} {f : Dev → Dev} (hc : exec c s = run (fun d => d.clocked 0 f) s) (hq : s.dev.mode ≠ .quarantine) :
      Becomes c s (f s.dev) := by rw [Becomes, hc, run, s.dev.clocked_open 0 f hclk hq]
  have notQuarantine {m : Mode} (hm : s.dev.mode = m) (h : m ≠ .quarantine) : s.dev.mode ≠ .quarantine := hm.trans_ne h
  refine ⟨fun hm ht => ?_, fun hm ht => ?_, fun hm hx hb => ?_, fun hm ht => ?_, fun t hm hs ha ht => ?_,
    fun hw hm ha hs hb hmaster hfollow => ?_, fun hw hm hs hb => ?_, fun hw hm hs hb => ?_⟩
  · rw [← s.dev.fabricTick_underway hm ht]
    exact ticking (exec_fabricTick s) (notQuarantine hm (by decide))
  · rw [← s.dev.fabricTick_bare hm ht]
    refine ticking (exec_fabricTick s) fun hq => ?_
    rw [hq] at ht
    cases ht
  · have becomes := ticking (exec_fabricTick s) (notQuarantine hm (by decide))
    rw [s.dev.fabricTick_bare (hm.trans_ne (by decide)) (by rw [hm]; rfl)] at becomes
    have rest := s.dev.bareTick_offWindows hm hx hb
    have moored : s.dev.bareTick.mode = .moored := (congrArg (·.1) rest).trans hm
    refine becomes.completes ⟨?_, ?_, ?_, ?_⟩
    · exact (settle_tide _ (moored.trans_ne (by decide))).trans (congrArg (·.2.tide) rest)
    · exact (settle_fab _).trans (congrArg (·.2.fab) rest)
    · exact (settle_berths _).trans (congrArg (·.2.berths) rest)
    · exact (settle_mem _).trans (congrArg (·.2.mem) rest)
  · rw [← s.dev.tideTurn_due hm ht]
    exact ticking (exec_tideTurn s) (notQuarantine hm (by decide))
  · have becomes := ticking (exec_tideStart s) (notQuarantine hm (by decide))
    have voyage := s.dev.tideStart_due hm hs ha ht
    have tide : s.dev.tideStart.core.tide = s.dev.tideZero.core.tide :=
      (congrArg (fun v : Mode × TideSt × List Host.Cell => { v.2.1 with flags := [] }) voyage).trans
        (congrArg (·.tide) (s.dev.tideZero.setMode_core .underway))
    have settled : s.dev.tideStart.settle.core.tide = s.dev.tideZero.core.tide := (congrArg (·.tide) (settle_core _)).trans tide
    refine becomes.completes ⟨?_, congrArg (·.num) settled, congrArg (·.tick) settled, congrArg (·.armed) settled, ?_⟩
    · exact ((settle_mode _).trans (congrArg (·.1) voyage)).trans (Dev.mode_setMode _ _)
    · exact ((settle_mem _).trans (congrArg (·.2.2) voyage)).trans (congrArg (·.mem) (Dev.setMode_core _ _))
  · have becomes := becomes_tideCtrlStart hw hb
    have moored : (s.dev.storeReg B.TIDE O.TIDE_CTRL (withField data 0 2 1)).mode = .moored :=
      (s.dev.mode_storeReg (by decide) (by decide) _).trans hm
    rw [Dev.tideStartCmd_single _ moored (by rwa [Dev.storeReg_tide]) (by rwa [Dev.storeReg_tide]) hmaster hfollow] at becomes
    refine becomes.completes ⟨?_, lastStatus_settle_finish _ _ _, (mode_settle_finish _ (by decide) _).trans moored⟩
    rw [tide_settle_finish _ (by decide) _ _ (moored.trans_ne (by decide)), Dev.storeReg_tide, Dev.reg64,
      Dev.reg_storeReg_ne _ (by decide) (by decide), Dev.reg_storeReg_ne _ (by decide) (by decide), Dev.reg64]
  · have becomes := becomes_tideCtrlStop hw hb
    have moored : (s.dev.storeReg B.TIDE O.TIDE_CTRL (withField data 0 2 2)).mode = .moored :=
      (s.dev.mode_storeReg (by decide) (by decide) _).trans hm
    rw [Dev.tideStopCmd_moored _ moored (by rwa [Dev.storeReg_tide])] at becomes
    refine becomes.completes ⟨?_, lastStatus_settle_finish _ _ _, (mode_settle_finish _ (by decide) _).trans moored⟩
    rw [tide_settle_finish _ (by decide) _ _ (moored.trans_ne (by decide)), Dev.storeReg_tide]
  · have becomes := becomes_tideCtrlStop hw hb
    have underway : (s.dev.storeReg B.TIDE O.TIDE_CTRL (withField data 0 2 2)).mode = .underway :=
      (s.dev.mode_storeReg (by decide) (by decide) _).trans hm
    rw [Dev.tideStopCmd_underway _ underway (by rwa [Dev.storeReg_tide])] at becomes
    refine becomes.completes ⟨?_, (mode_settle_finish _ (by decide) _).trans underway, lastStatus_settle_finish _ _ _⟩
    rw [settle_stopAt, Dev.okReply_tide, Dev.finish_tide, Dev.setTide_tide, Dev.storeReg_tide]

/-- Settles O3: BREACH_CLR by what it stores, whatever CMD does besides; the reads by what each shows and latches. -/
theorem tideRegisters : Obligations.TideRegisters := by
  intro s src data peek hp
  have clears : nbit (withField data 2 1 1).toNat 2 = true := nbit_withField data 2 1 (by decide)
  refine ⟨fun hw => ?_, fun hw hc => ?_, fun hr => becomes_tideRead (exec_tideNumLoRead src peek s) (by decide) hp hr,
    fun hr => becomes_tideRead (exec_turnTimeLoRead src peek s) (by decide) hp hr, fun hr => ?_, fun hw hid => ?_, fun hw hid => ?_⟩
  · have becomes := becomes_tideCtrl (exec_breachClr src data s) hw
    have cleared (o : Nat) (ho : o ∈ breachRegs) (hb : o < blockBytes) (hs : o ≠ O.BLK_STATUS) (he : o ≠ O.EVT_STATUS) :
        (s.dev.tideCtrl (withField data 2 1 1)).okReply.settle.reg B.TIDE o = 0 := by
      rw [settle_reg _ _ _ hb he (.inl (by decide)), Dev.okReply_reg,
        s.dev.tideCtrl_clear_keeps (p := fun d => d.reg B.TIDE o) (fun _ _ => rfl) (fun _ _ _ => rfl)
          (fun d w => d.reg_setReg_ne _ _ _ _ _ fun e => hs (Nat.add_left_cancel e)) clears, Dev.reg_breachClr _ ho]
    refine becomes.completes ⟨cleared _ (by decide) (by decide) (by decide) (by decide), cleared _ (by decide) (by decide) (by decide) (by decide),
      cleared _ (by decide) (by decide) (by decide) (by decide), cleared _ (by decide) (by decide) (by decide) (by decide),
      cleared _ (by decide) (by decide) (by decide) (by decide), settle_reply _, ?_⟩
    rw [settle_mem, Dev.okReply_mem,
      s.dev.tideCtrl_clear_keeps (p := Dev.mem) (fun _ _ => rfl) (fun _ _ _ => rfl) (fun _ _ => rfl) clears]
    exact Dev.storeReg_mem _ _ _ _
  · have becomes := becomes_tideCtrl (exec_breachClr src data s) hw
    rwa [Dev.tideCtrl_clear _ hc clears] at becomes
  · refine (becomes_tideRead (exec_tideSkewRead src peek s) (by decide) hp hr).completes ⟨settle_reply _, ?_, settle_mem _⟩
    rw [settle_fld _ _ _ (by decide) (by decide) (.inl (by decide)), Dev.okReply_fld]
    exact Dev.fld_setFld _ _ _ _ (by decide)
  · have becomes := becomes_admBoundSel hw
    rwa [Dev.boundSel, if_neg (Nat.not_le.2 hid)] at becomes
  · have becomes := becomes_admBoundSel hw
    rwa [Dev.boundSel, if_pos hid] at becomes

/-- Settles O5: a message that the interface takes comes to its request, and the request to the network or the gate. -/
theorem berthRequests : Obligations.BerthRequests := by
  intro s b m
  have live {c : Instr} {f : Dev → Dev} {op : Nat} (hc : exec c s = run (fun d => d.live f) s) (ht : s.dev.berthTakesMsg b.val m op) :
      Becomes c s (f s.dev) := becomes_live hc ((mode_of_berthTakesMsg ht).trans_ne (by decide))
  refine ⟨fun dv ht hb hc hpos hlen hd ha => ?_, fun dv ht hb hc hpos hlen hd ha => ?_,
    fun d ht hdecl hsrc hb hc hlen hl htick hi hg hdue => ?_, fun dv ht hb hc hd ha => ?_, fun dv ht hb hc hd ha => ?_⟩
  · rw [← Dev.berthRequest_leaves _ 1 [] 0 hd ha, ← berthRead_of_takesMsg hc ht hb hpos hlen]
    exact live (exec_berthRead b m s) ht
  · rw [← Dev.berthRequest_leaves _ 2 _ 0 hd ha, ← berthWrite_of_takesMsg hc ht hb hpos hlen]
    exact live (exec_berthWrite b m s) ht
  · have held := (s.dev.berthBegun b.val m).schedGate_held (b := b.val) (tag := (BHdr.dec m.hdr).tag)
      (beatBytes (BHdr.dec m.hdr).len m.beats) hlen hl htick hi hg hdue
    rw [Dev.berthBegun_tide] at held
    rw [← held, ← berthSched_of_takesMsg hc ht hdecl hsrc hb]
    exact live (exec_berthSched b m s) ht
  · rw [← Dev.berthRequest_leaves _ 5 [] _ hd ha, ← berthAcquire_of_takesMsg hc ht hb]
    exact live (exec_berthAcquire b m s) ht
  · rw [← Dev.berthRequest_leaves _ 6 [] 0 hd ha, ← berthRelinquish_of_takesMsg hc ht hb]
    exact live (exec_berthRelinquish b m s) ht

/-- Settles O24: each message by its case; on a link whose lines keep their sources, settling leaves the link and the tide. -/
theorem serviceMessages : Obligations.ServiceMessages := by
  intro s n p hout hup
  have sources (l : LinkSt) : ∀ k, ((s.dev.setLink n.val l).port k).txSrc = (s.dev.setLink n.val l).portSource k := hout.ports
  refine ⟨fun hcopy hm hfixed ht => ?_, fun hcopy hm ht => ?_, fun hcopy hm hr => ?_, ?_,
    fun a ha hf hm harmed hseen hlen hact => ?_, fun hnext hnone => ?_, fun t ht => ?_, ?_, ?_, fun hs hl hv => ?_⟩
  · have becomes := becomes_svc (exec_svcBreach n p s) (by decide) hup
    rwa [Dev.svcTake, s.dev.svcBreach_fixed hcopy hm hfixed ht] at becomes
  · have becomes := becomes_svc (exec_svcHalt n p s) (by decide) hup
    rwa [Dev.svcTake, s.dev.svcHalt_ahead hcopy hm ht] at becomes
  · have becomes := becomes_svc (exec_svcResume n p s) (by decide) hup
    rwa [Dev.svcTake, s.dev.svcResume_halted hcopy hm hr] at becomes
  · have becomes := becomes_svc (exec_startA n p s) (by decide) hup
    rw [Dev.svcTake, Dev.svcStartA] at becomes
    exact becomes.completes ⟨(settle_link_of_sources _ (sources _) _).trans (Dev.link_setLink _ _ _), settle_tide_of_sources _ (sources _),
      settle_mem _, settle_hold _, settle_ext _⟩
  · have becomes := becomes_svc (exec_startB n p s) (by decide) hup
    rw [Dev.svcTake, s.dev.svcStartB_seen ha hf hm harmed hseen hlen hact] at becomes
    exact becomes.completes ⟨settle_tide _ (hm.trans_ne (by decide)), (settle_mode _).trans hm, settle_mem _, settle_hold _, settle_ext _⟩
  · have becomes := becomes_svc (exec_svcTurn n p s) (by decide) hup
    rw [Dev.svcTake, s.dev.svcTurn_early hnext hnone] at becomes
    exact becomes.completes ⟨(settle_link_of_sources _ (sources _) _).trans (Dev.link_setLink _ _ _), settle_tide_of_sources _ (sources _),
      settle_mem _, settle_hold _, settle_ext _⟩
  · have becomes := becomes_svc (exec_svcTurn n p s) (by decide) hup
    rwa [Dev.svcTake, s.dev.svcTurn_made ht] at becomes
  · have becomes := becomes_svc (exec_sync n p s) (by decide) hup
    rwa [Dev.svcTake, Dev.svcSync] at becomes
  · have becomes := becomes_svc (exec_syncRx n p s) (by decide) hup
    rwa [Dev.svcTake, Dev.svcSyncRx] at becomes
  · have becomes := becomes_svc (exec_epoch n p s) (by decide) hup
    rw [Dev.svcTake, Dev.svcEpoch, s.dev.takeEpoch_taken hs hl hv] at becomes
    refine becomes.completes ⟨?_, ?_, settle_free _, settle_mem _, settle_hold _, settle_ext _⟩
    · rw [settle_eth, s.dev.epochTaken_time p.isLt]
    · rw [settle_flag _ _ _ (by decide) (by decide) (.inl (by decide)), s.dev.epochTaken_valid]

end Sys2Proof.Machine
end

section
/-! Header beats and header flits as fields that follow one another (R122, R220). -/

namespace Sys2Proof.Machine

/-- The word that fields spell, each given by its width and its value, from bit 0 on. -/
def packed : List (Nat × Nat) → Nat
  | [] => 0
  | (w, v) :: fs => v % 2 ^ w + 2 ^ w * packed fs

/-- The fields of the given widths that a word holds from bit `lo` on. -/
def cutFields (n : Nat) : Nat → List Nat → List (Nat × Nat)
  | _, [] => []
  | lo, w :: ws => (w, nfield n lo w) :: cutFields n (lo + w) ws

theorem nfield_eq (n lo w : Nat) : nfield n lo w = n / 2 ^ lo % 2 ^ w := by rw [nfield, Nat.shiftRight_eq_div_pow]

theorem nbit_toNat (n i : Nat) : (nbit n i).toNat = nfield n i 1 := by
  rcases Nat.mod_two_eq_zero_or_one (n >>> i) with h | h <;> simp [nbit, nfield, h]

theorem nbit_eq_of_nfield {n i : Nat} {b : Bool} (h : nfield n i 1 = b.toNat) : nbit n i = b :=
  Function.LeftInverse.injective Bool.ofNat_toNat ((nbit_toNat n i).trans h)

theorem packed_lt (fs : List (Nat × Nat)) : packed fs < 2 ^ (fs.map Prod.fst).sum := by
  induction fs with
  | nil => exact Nat.one_pos
  | cons f fs ih =>
    obtain ⟨w, v⟩ := f
    rw [packed, List.map_cons, List.sum_cons, Nat.pow_add]
    have low : v % 2 ^ w < 2 ^ w := Nat.mod_lt _ (Nat.two_pow_pos w)
    calc v % 2 ^ w + 2 ^ w * packed fs < 2 ^ w * (packed fs + 1) := by rw [Nat.mul_succ, Nat.add_comm]; exact Nat.add_lt_add_left low _
      _ ≤ 2 ^ w * 2 ^ (fs.map Prod.fst).sum := Nat.mul_le_mul_left _ ih

/-- What stands above the lowest field. -/
theorem packed_cons_div (w v : Nat) (fs : List (Nat × Nat)) : packed ((w, v) :: fs) / 2 ^ w = packed fs := by
  rw [packed, Nat.add_mul_div_left _ _ (Nat.two_pow_pos w), Nat.div_eq_of_lt (Nat.mod_lt _ (Nat.two_pow_pos w)), Nat.zero_add]

/-- Each field stands above the widths of those before it. -/
theorem nfield_packed {fs : List (Nat × Nat)} {k w v : Nat} (hf : fs[k]? = some (w, v)) :
    nfield (packed fs) ((fs.map Prod.fst).take k).sum w = v % 2 ^ w := by
  induction fs generalizing k with
  | nil => simp at hf
  | cons f fs ih =>
    obtain ⟨w', v'⟩ := f
    cases k with
    | zero =>
      obtain ⟨rfl, rfl⟩ : w' = w ∧ v' = v := by simpa using hf
      simp [nfield_eq, packed, Nat.add_mul_mod_self_left]
    | succ k =>
      have tail := ih (k := k) hf
      rw [nfield_eq] at tail
      rw [nfield_eq, List.map_cons, List.take_succ_cons, List.sum_cons, Nat.pow_add, ← Nat.div_div_eq_div_mul, packed_cons_div]
      exact tail

/-- The fields cut out of a word spell the word again, as far as they reach. -/
theorem packed_cutFields (n lo : Nat) (ws : List Nat) : packed (cutFields n lo ws) = n / 2 ^ lo % 2 ^ ws.sum := by
  induction ws generalizing lo with
  | nil => simp [cutFields, packed, Nat.mod_one]
  | cons w ws ih =>
    rw [cutFields, packed, ih, nfield_eq, Nat.mod_mod, List.sum_cons, Nat.pow_add, Nat.pow_add, Nat.mod_mul, Nat.div_div_eq_div_mul]

/-! A word of 256 bits. -/

theorem nfield_packed_flit {fs : List (Nat × Nat)} {ws : List Nat} (hws : fs.map Prod.fst = ws) (hsum : ws.sum = 256) {k lo w v : Nat}
    (hlo : (ws.take k).sum = lo) (hf : fs[k]? = some (w, v)) (hv : v < 2 ^ w) : nfield (BitVec.ofNat 256 (packed fs)).toNat lo w = v := by
  subst hws hlo
  rw [BitVec.toNat_ofNat, Nat.mod_eq_of_lt (hsum ▸ packed_lt fs), nfield_packed hf, Nat.mod_eq_of_lt hv]

theorem packed_cutFields_flit (b : BitVec 256) {ws : List Nat} (h : ws.sum = 256) : BitVec.ofNat 256 (packed (cutFields b.toNat 0 ws)) = b := by
  rw [packed_cutFields, h, Nat.pow_zero, Nat.div_one, Nat.mod_eq_of_lt b.isLt, BitVec.ofNat_toNat, BitVec.setWidth_eq]

/-! ### The header beat of a berth message (R122) -/

/-- The widths of a header beat's fields. -/
def BHdr.widths : List Nat := [4, 3, 1, 4, 4, 13, 3, 48, 6, 1, 9, 17, 15, 32, 96]

/-- The fields of a header beat, the reserved ones zero. -/
def BHdr.fields (h : BHdr) : List (Nat × Nat) :=
  [(4, h.op), (3, h.tag), (1, 0), (4, h.status), (4, 0), (13, h.decl), (3, 0), (48, h.addr), (6, h.dev), (1, h.remote.toNat), (9, 0),
   (17, h.len), (15, 0), (32, h.context), (96, 0)]

theorem BHdr.widths_sum : BHdr.widths.sum = 256 := by decide

theorem BHdr.enc_eq (h : BHdr) : h.enc = BitVec.ofNat 256 (packed h.fields) := by
  have flag : h.remote.toNat % 2 = h.remote.toNat := Nat.mod_eq_of_lt h.remote.toNat_lt
  rw [BHdr.enc]
  refine congrArg (BitVec.ofNat 256) ?_
  simp only [BHdr.fields, packed, Nat.zero_mod, Nat.pow_one, Nat.reducePow, flag]
  ring

theorem BHdr.nfield_enc (h : BHdr) (k : Nat) {lo w v : Nat} (hlo : (BHdr.widths.take k).sum = lo) (hf : h.fields[k]? = some (w, v))
    (hv : v < 2 ^ w) : nfield h.enc.toNat lo w = v := by
  rw [h.enc_eq, nfield_packed_flit (fs := h.fields) rfl BHdr.widths_sum hlo hf hv]

theorem BHdr.dec_enc (h : BHdr) (hop : h.op < 16) (htag : h.tag < 8) (hstatus : h.status < 16) (hdecl : h.decl < 2 ^ 13)
    (haddr : h.addr < 2 ^ 48) (hdev : h.dev < 64) (hlen : h.len < 2 ^ 17) (hcontext : h.context < 2 ^ 32) : BHdr.dec h.enc = h := by
  have remote : nbit h.enc.toNat 86 = h.remote := nbit_eq_of_nfield (h.nfield_enc 9 (by decide) rfl h.remote.toNat_lt)
  rw [BHdr.dec, h.nfield_enc 0 (by decide) rfl hop, h.nfield_enc 1 (by decide) rfl htag, h.nfield_enc 3 (by decide) rfl hstatus,
    h.nfield_enc 5 (by decide) rfl hdecl, h.nfield_enc 7 (by decide) rfl haddr, h.nfield_enc 8 (by decide) rfl hdev, remote,
    h.nfield_enc 11 (by decide) rfl hlen, h.nfield_enc 13 (by decide) rfl hcontext]

/-- The fields of a flit's header are the flit's own where its reserved bits are zero. -/
theorem BHdr.fields_dec {b : BitVec 256} (hb : bhdrClean b = true) : (BHdr.dec b).fields = cutFields b.toNat 0 BHdr.widths := by
  simp only [bhdrClean, Bool.and_eq_true, Bool.not_eq_true', Bool.or_eq_false_iff, bne_eq_false_iff_eq, and_assoc] at hb
  obtain ⟨h7, h12, h29, h87, h113, h160, -⟩ := hb
  have h7 : nfield b.toNat 7 1 = 0 := by rw [← nbit_toNat, h7, Bool.toNat_false]
  simp [BHdr.fields, BHdr.dec, cutFields, BHdr.widths, nbit_toNat, h7, h12, h29, h87, h113, h160]

theorem BHdr.enc_dec {b : BitVec 256} (hb : bhdrClean b = true) : (BHdr.dec b).enc = b := by
  rw [BHdr.enc_eq, BHdr.fields_dec hb, packed_cutFields_flit b BHdr.widths_sum]

/-! ### The header flit of a packet (R220) -/

/-- The widths of a header flit's fields. -/
def Hdr.widths : List Nat := [4, 4, 9, 1, 1, 1, 7, 4, 1, 22, 22, 4, 48, 17, 10, 5, 32, 16, 13, 3, 16, 16]

/-- The fields of a header flit, the reserved ones zero. -/
def Hdr.fields (h : Hdr) : List (Nat × Nat) :=
  [(4, h.op), (4, h.status), (9, h.tag), (1, h.sch.toNat), (1, h.peek.toNat), (1, h.last.toNat), (7, h.pkt), (4, h.qg), (1, 0), (22, h.dst),
   (22, h.src), (4, 0), (48, h.addr), (17, h.len), (10, h.plen), (5, 0), (32, h.stamp), (16, h.rtag), (13, h.decl), (3, 0), (16, h.lease),
   (16, 0)]

theorem Hdr.widths_sum : Hdr.widths.sum = 256 := by decide

theorem Hdr.enc_eq (h : Hdr) : h.enc = BitVec.ofNat 256 (packed h.fields) := by
  have flag (b : Bool) : b.toNat % 2 = b.toNat := Nat.mod_eq_of_lt b.toNat_lt
  rw [Hdr.enc]
  refine congrArg (BitVec.ofNat 256) ?_
  simp only [Hdr.fields, packed, Nat.zero_mod, Nat.pow_one, Nat.reducePow, flag]
  ring

theorem Hdr.nfield_enc (h : Hdr) (k : Nat) {lo w v : Nat} (hlo : (Hdr.widths.take k).sum = lo) (hf : h.fields[k]? = some (w, v))
    (hv : v < 2 ^ w) : nfield h.enc.toNat lo w = v := by
  rw [h.enc_eq, nfield_packed_flit (fs := h.fields) rfl Hdr.widths_sum hlo hf hv]

theorem Hdr.nbit_enc (h : Hdr) (k : Nat) {i : Nat} {b : Bool} (hi : (Hdr.widths.take k).sum = i) (hf : h.fields[k]? = some (1, b.toNat)) :
    nbit h.enc.toNat i = b :=
  nbit_eq_of_nfield (h.nfield_enc k hi hf b.toNat_lt)

theorem Hdr.dec_enc (h : Hdr) (hop : h.op < 16) (hstatus : h.status < 16) (htag : h.tag < 512) (hpkt : h.pkt < 128) (hqg : h.qg < 16)
    (hdst : h.dst < 2 ^ 22) (hsrc : h.src < 2 ^ 22) (haddr : h.addr < 2 ^ 48) (hlen : h.len < 2 ^ 17) (hplen : h.plen < 2 ^ 10)
    (hstamp : h.stamp < 2 ^ 32) (hrtag : h.rtag < 2 ^ 16) (hdecl : h.decl < 2 ^ 13) (hlease : h.lease < 2 ^ 16) : Hdr.dec h.enc = h := by
  rw [Hdr.dec, h.nfield_enc 0 (by decide) rfl hop, h.nfield_enc 1 (by decide) rfl hstatus, h.nfield_enc 2 (by decide) rfl htag,
    h.nbit_enc 3 (by decide) rfl, h.nbit_enc 4 (by decide) rfl, h.nbit_enc 5 (by decide) rfl, h.nfield_enc 6 (by decide) rfl hpkt,
    h.nfield_enc 7 (by decide) rfl hqg, h.nfield_enc 9 (by decide) rfl hdst, h.nfield_enc 10 (by decide) rfl hsrc,
    h.nfield_enc 12 (by decide) rfl haddr, h.nfield_enc 13 (by decide) rfl hlen, h.nfield_enc 14 (by decide) rfl hplen,
    h.nfield_enc 16 (by decide) rfl hstamp, h.nfield_enc 17 (by decide) rfl hrtag, h.nfield_enc 18 (by decide) rfl hdecl,
    h.nfield_enc 20 (by decide) rfl hlease]

/-- The fields of a flit's header are the flit's own where its reserved bits are zero. -/
theorem Hdr.fields_dec {b : BitVec 256} (hb : hdrClean b = true) : (Hdr.dec b).fields = cutFields b.toNat 0 Hdr.widths := by
  simp only [hdrClean, Bool.and_eq_true, beq_iff_eq, and_assoc] at hb
  obtain ⟨h31, h76, h155, h221, h240⟩ := hb
  simp [Hdr.fields, Hdr.dec, cutFields, Hdr.widths, nbit_toNat, h31, h76, h155, h221, h240]

theorem Hdr.enc_dec {b : BitVec 256} (hb : hdrClean b = true) : (Hdr.dec b).enc = b := by
  rw [Hdr.enc_eq, Hdr.fields_dec hb, packed_cutFields_flit b Hdr.widths_sum]

/-- Settles O59: the fields of a header stand one above another over the whole of its 256 bits. -/
theorem headerRoundTrips : Obligations.HeaderRoundTrips :=
  ⟨BHdr.dec_enc, fun _ => BHdr.enc_dec, Hdr.dec_enc, fun _ => Hdr.enc_dec⟩

end Sys2Proof.Machine
end

section
/-! What the router hears of a served request and what it presents to a berth: responses, release reads, beats of messages, notes (R121,
R124, R127, R129 to R131). -/

namespace Sys2Proof.Machine

variable (s : Dev) (b : Nat)

/-! ### The I path -/

@[simp] theorem Dev.iWord_setIWord (w : BitVec 288) : (s.setIWord b w).iWord b = w := by simp [Dev.iWord, Dev.setIWord, Map.get_set]
@[simp] theorem Dev.berth_setIWord (w : BitVec 288) (k : Nat) : (s.setIWord b w).berth k = s.berth k := rfl
@[simp] theorem Dev.berth_putBeat (d : BitVec 256) (ctl k : Nat) : (s.putBeat b d ctl).berth k = s.berth k := rfl

theorem settle_berth : s.settle.berth b = s.berth b := by rw [Dev.berth, settle_berths, Dev.berth]
theorem settle_iWord : s.settle.iWord b = s.iWord b := by rw [Dev.iWord, settle_fab, Dev.iWord]
theorem settle_iBusy : s.settle.iBusy b = s.iBusy b := by rw [Dev.iBusy, settle_iWord, Dev.iBusy]

/-- A beat put on the path sets I_VALID (R121); the control beside it stands above that bit. -/
theorem Dev.iBusy_putBeat (d : BitVec 256) {ctl : Nat} (h : ctl % 2 = 0) : (s.putBeat b d ctl).iBusy b = true := by
  have above : (d.toNat + 2 ^ 256 * (1 + ctl)).testBit 256 = true := by
    rw [Nat.testBit_eq_decide_div_mod_eq, Nat.add_mul_div_left _ _ (Nat.two_pow_pos 256), Nat.div_eq_of_lt d.isLt]
    simp; omega
  rw [Dev.iBusy, Dev.putBeat, Dev.iWord_setIWord, BitVec.getLsbD_or, BitVec.getLsbD_ofNat, above]
  simp

/-- A note's beat sets NOTE_VALID beside whatever else the path carries (R131). -/
theorem noteWord_getLsbD (w : BitVec 288) (code : Nat) : (w ||| BitVec.ofNat 288 (2 ^ 256 * (2048 + 4096 * code))).getLsbD 267 = true := by
  have set : (2 ^ 256 * (2048 + 4096 * code)).testBit 267 = true := by
    rw [Nat.testBit_two_pow_mul, Nat.testBit_eq_decide_div_mod_eq]
    simp; omega
  rw [BitVec.getLsbD_or, BitVec.getLsbD_ofNat, set]
  simp

/-! ### A message that answers a served request -/

variable {s b}

/-- Each beat of a message of a berth that is live has its credit (R123). -/
theorem Dev.berthSays_paid {m : BMsg} (hl : s.berthLive b = true) (hp : s.berthPays b m) (take : Dev → Bool → Dev) :
    s.berthSays b m take = take (s.berthPaid b m) false := by
  have none_lost : (s.takeCredits b m).2 = false := decide_eq_false (Nat.not_lt.2 hp)
  rw [Dev.berthSays, hl]
  show take (s.takeCredits b m).1 (s.takeCredits b m).2 = _
  rw [none_lost, Dev.berthPaid]

theorem Dev.berthPaid_served (m : BMsg) : ((s.berthPaid b m).berth b).served = (s.berth b).served := by
  rw [Dev.berthPaid, Dev.takeCredits, Dev.berth_setBerth]

/-- A well-formed RESPONSE that CONTEXT matches to a served request ends it, and is forwarded (R127). -/
theorem Dev.hearResponse_matched {m : BMsg} {q : Served} (hclean : bhdrClean m.hdr = true) (hop : (BHdr.dec m.hdr).op = 4)
    (hst : (BHdr.dec m.hdr).status ≠ 15) (hclosed : m.closed = true)
    (hq : (s.berth b).served.find? (fun q => q.context == (BHdr.dec m.hdr).context) = some q)
    (hlen : (BHdr.dec m.hdr).len = if q.isRead && (BHdr.dec m.hdr).status == 0 then q.len else 0)
    (hbeats : m.beats.length = ((BHdr.dec m.hdr).len + 31) / 32) :
    s.hearResponse b m false = (s.setBerth b { s.berth b with
      served := (s.berth b).served.filter (fun y => y.context != (BHdr.dec m.hdr).context) }).berthForward b q
        (Status.ofCode (BHdr.dec m.hdr).status) (beatBytes (BHdr.dec m.hdr).len m.beats) := by
  simp only [Bool.and_eq_true, beq_iff_eq] at hlen
  simp [Dev.hearResponse, hclean, hop, hst, hclosed, hq, ← hlen, hbeats]

/-! ### Release reads -/

/-- A release read that does not follow one of the tick before (R129). -/
theorem Dev.releaseRead_accepted {i : Nat} (hl : s.berthLive b = true) (h : ∀ t, (s.berth b).rrLast = some t → t + 1 < s.tide.exec) :
    s.releaseRead b i = s.setBerth b { s.berth b with
      rr := (s.berth b).rr ++ [⟨s.tide.exec + 24, (viewBeat (s.berth b).view i).1, (viewBeat (s.berth b).view i).2.1,
        (viewBeat (s.berth b).view i).2.2⟩],
      rrLast := some s.tide.exec } := by
  cases hr : (s.berth b).rrLast with
  | none => simp [Dev.releaseRead, hl, hr]
  | some t => simp [Dev.releaseRead, hl, hr, Nat.not_le.2 (h t hr)]

theorem Dev.releaseReadReturn_due {r : RrItem} {rest : List RrItem} (hr : (s.berth b).rr = r :: rest) (hdue : r.due ≤ s.tide.exec)
    (hi : s.iBusy b = false) : s.releaseReadReturn b =
      (s.setBerth b { s.berth b with rr := rest }).putBeat b r.data (2 * 16 + 64 * r.status + 1024 * r.empty.toNat) := by
  simp [Dev.releaseReadReturn, hr, Nat.not_lt.2 hdue, hi]

/-! ### Messages and notes -/

/-- The one beat of a message that is no response: the message leaves the queue, its beat takes a credit if it is a served request's (R124,
R131). -/
theorem Dev.presentBeat_single {m : IMsg} {rest : List IMsg} {x : BitVec 256} (hq : (s.berth b).inq = m :: rest) (h0 : m.src ≠ 0)
    (hb : m.beats = [x]) (hp : s.presents b m) (hc : m.src = 1 → (s.berth b).rqCredits ≠ 0) : s.presentBeat b m.src =
      (s.setBerth b { s.berth b with
        inq := rest, rqCredits := if m.src = 1 then (s.berth b).rqCredits - 1 else (s.berth b).rqCredits }).putBeat b x
          (2 * (!m.started).toNat + 4 + 16 * m.src) := by
  obtain ⟨idle, none_due, crossed, in_service⟩ := hp
  have credited : ¬ (m.src = 1 ∧ (s.berth b).rqCredits = 0) := fun h => hc h.1 h.2
  simp [Dev.presentBeat, hq, hb, h0, credited, idle, none_due, crossed, in_service]

/-- What is left to see of it once the outputs have settled. -/
theorem Dev.presentBeat_single_settled {m : IMsg} {rest : List IMsg} {x : BitVec 256} (hq : (s.berth b).inq = m :: rest) (h0 : m.src ≠ 0)
    (hb : m.beats = [x]) (hp : s.presents b m) (hc : m.src = 1 → (s.berth b).rqCredits ≠ 0) :
    let d := (s.presentBeat b m.src).settle
    (d.berth b).inq = rest ∧ (d.berth b).rqCredits = (if m.src = 1 then (s.berth b).rqCredits - 1 else (s.berth b).rqCredits) ∧
      d.iBusy b = true := by
  have busy : ∀ t : Dev, (t.putBeat b x (2 * (!m.started).toNat + 4 + 16 * m.src)).iBusy b = true :=
    fun t => t.iBusy_putBeat b x (by omega)
  rw [Dev.presentBeat_single hq h0 hb hp hc]
  simp only [settle_berth, settle_iBusy, Dev.berth_putBeat, Dev.berth_setBerth, busy, and_self]

/-- A note of an earlier tide is presented from tick offset 8 on (R131). -/
theorem Dev.notePresent_due {n : Note} {rest : List Note} (hn : (s.berth b).notes = n :: rest) (hl : s.berthLive b = true)
    (ht : n.tide < s.tide.num) (h8 : 8 ≤ s.tide.tick) (hi : (s.iWord b).getLsbD 267 = false) : s.notePresent b =
      (s.setBerth b { s.berth b with notes := rest }).setIWord b (s.iWord b ||| BitVec.ofNat 288 (2 ^ 256 * (2048 + 4096 * n.code))) := by
  simp [Dev.notePresent, -BitVec.getLsbD_eq_getElem, hn, hl, Nat.not_le.2 ht, Nat.not_lt.2 h8, hi]

theorem Dev.pushNote_room {code : Nat} (h : (s.berth b).notes.length < 4) :
    s.pushNote b code = (s.setBerth b { s.berth b with notes := (s.berth b).notes ++ [⟨code, s.tide.num⟩] }, false) := by
  simp [Dev.pushNote, Nat.not_le.2 h]

/-- A note posted to a berth with room for it (R131, R141). -/
theorem Dev.notePost_queued {e : Nat} {w : Word} (h4 : nbit w.toNat 4 = true) (ht : s.takesNotes e = true)
    (hroom : (s.berth (16 * e + w.toNat % 16)).notes.length < 4) : s.notePost e w =
      (s.setBerth (16 * e + w.toNat % 16) { s.berth (16 * e + w.toNat % 16) with
        notes := (s.berth (16 * e + w.toNat % 16)).notes ++ [⟨4, s.tide.num⟩] }).finish (B.ERG e) .ok := by
  simp [Dev.notePost, h4, ht, s.pushNote_room hroom]

/-- ERG_NOTE_POST is a write of the block's own register (R141). -/
theorem Dev.writeReg_notePost (s : Dev) (r : Src) (e : Fin 32) (w : Word) :
    s.writeReg r (B.ERG e.val) O.ERG_NOTE_POST w = s.notePost e.val w := by
  have row : ∀ e : Fin 32, blkKind (B.ERG e.val) = some .erg ∧ (regFind (B.ERG e.val) O.ERG_NOTE_POST).isSome := by decide
  have index : B.ERG e.val - 0x30 = e.val := Nat.add_sub_cancel_left _ _
  rw [s.writeReg_own r w (row e).1 (row e).2 (by decide), Dev.writeKind, (row e).1]
  simp only [index, Dev.writeERG, if_true]

/-- Settles O6: each command by what it does when its conditions hold; settling leaves the berths, the I path and memory. -/
theorem berthPresentation : Obligations.BerthPresentation := by
  intro s b hmode
  refine ⟨fun m q hl hp hclean hop hst hclosed hq hlen hbeats => ?_, fun i hl hlast => ?_, fun r rest hr hdue hi => ?_,
    fun m rest x hq hsrc hb hp hc => ?_, fun m rest x hq hsrc hb hp => ?_, fun n rest hn hl ht h8 hi => ?_, fun src e data hw ht hroom => ?_⟩
  · rw [← s.dev.berthPaid_served m] at hq ⊢
    rw [← Dev.hearResponse_matched hclean hop hst hclosed hq hlen hbeats, ← Dev.berthSays_paid hl hp fun s lost => s.hearResponse b m lost]
    exact becomes_live (exec_berthResponse b m s) hmode
  · have becomes := becomes_live (exec_releaseRead b i s) hmode
    rw [Dev.releaseRead_accepted hl hlast] at becomes
    exact becomes.completes (by simp [settle_berth])
  · rw [← Dev.releaseReadReturn_due hr hdue hi]
    exact becomes_live (exec_releaseReadReturn b s) hmode
  · have settled := Dev.presentBeat_single_settled hq (by omega) hb hp fun _ => hc
    rw [hsrc, if_pos rfl] at settled
    exact (becomes_live (exec_servedRequestPresent b s) hmode).completes settled
  · have settled := Dev.presentBeat_single_settled hq (by omega) hb hp (by omega)
    rw [hsrc, if_neg (by decide)] at settled
    exact (becomes_live (exec_lateDeliveryPresent b s) hmode).completes settled
  · have becomes := becomes_live (exec_notePresent b s) hmode
    rw [Dev.notePresent_due hn hl ht h8 hi] at becomes
    refine becomes.completes ⟨by simp only [settle_berth, Dev.berth_setIWord, Dev.berth_setBerth], ?_⟩
    rw [settle_iWord, Dev.iWord_setIWord]
    exact noteWord_getLsbD _ _
  · have becomes := becomes_command (exec_ergNotePost src e data s) (by decide) hw
    rwa [Dev.writeReg_notePost, Dev.notePost_queued (nbit_withField data 4 1 (by decide)) ht hroom] at becomes

end Sys2Proof.Machine
end

section
/-! The slots of a jetty port, its mooring frames, and the frame that leaves its pins (R132, R133, R347, R348, R350, R354 to R357, R359,
R361 to R363). -/

namespace Sys2Proof.Machine

variable (s : Dev) (p : Nat)

/-! ### Ports and what drives their lines -/

theorem Dev.port_setPort (x : PortSt) (q : Nat) : (s.setPort p x).port q = if q = p then x else s.port q := by
  simp [Dev.port, Dev.setPort, Map.get_set]

@[simp] theorem Dev.port_setPort_same (x : PortSt) : (s.setPort p x).port p = x := by rw [Dev.port_setPort, if_pos rfl]

theorem port_overlooks (ev : Nat → Prop) : Overlooks (fun s : Dev => s.port p) ev :=
  ⟨fun _ _ _ _ => rfl, fun _ _ => rfl, fun _ _ _ => rfl, fun _ _ => rfl, fun _ _ _ => rfl⟩

@[simp] theorem Dev.port_event (b n : Nat) : (s.event b n).port p = s.port p :=
  event_keeps (port_overlooks p fun _ => True) s b n (.inl trivial)

@[simp] theorem Dev.event_fab (b n : Nat) : (s.event b n).fab = s.fab := congrArg (·.fab) (s.event_core b n)

/-- What drives a line depends of its port on the mooring settings and the transmit table, beside the clock, the mode and the ergs (R362). -/
theorem Dev.portSource_congr {s t : Dev} {p : Nat} (hmoor : (s.port p).moor = (t.port p).moor) (htx : (s.port p).tx = (t.port p).tx)
    (hclk : s.clk = t.clk) (hmode : s.mode = t.mode) (hergs : s.ergs = t.ergs) : s.portSource p = t.portSource p := by
  have runs : s.ergRuns (p / 8) = t.ergRuns (p / 8) := by rw [Dev.ergRuns, Dev.erg, hergs]; rfl
  unfold Dev.portSource
  dsimp only
  rw [hmoor, htx, hclk, hmode, runs]

/-- An event moves no line to another source. -/
theorem Dev.portSource_event (b n : Nat) : (s.event b n).portSource p = s.portSource p :=
  Dev.portSource_congr (by rw [Dev.port_event]) (by rw [Dev.port_event]) (congrArg (·.clk) (s.event_core b n)) (s.mode_event b n)
    (congrArg (·.ergs) (s.event_core b n))

variable {s p} {x : PortSt}

theorem Dev.portSource_setPort (hm : x.moor = (s.port p).moor) (ht : x.tx = (s.port p).tx) (q : Nat) :
    (s.setPort p x).portSource q = s.portSource q := by
  have same : ((s.setPort p x).port q).moor = (s.port q).moor ∧ ((s.setPort p x).port q).tx = (s.port q).tx := by
    rw [s.port_setPort]
    split
    · next h => exact h ▸ ⟨hm, ht⟩
    · exact ⟨rfl, rfl⟩
  exact Dev.portSource_congr same.1 same.2 rfl rfl rfl

/-- Settling leaves a port whose line keeps its source. -/
theorem settle_port_of_source {d : Dev} (hd : d.port p = x) (hs : x.txSrc = d.portSource p) : d.settle.port p = x := by
  rw [settle_port, hd, ← hs]

theorem settle_regs_of_sources (h : ∀ q, (s.port q).txSrc = s.portSource q) : s.settle.regs = s.regs := by
  rw [settle_of_sources s h]
  rfl

theorem Dev.sources_setPort (h : ∀ q, (s.port q).txSrc = s.portSource q) (hm : x.moor = (s.port p).moor) (ht : x.tx = (s.port p).tx)
    (hs : x.txSrc = (s.port p).txSrc) (q : Nat) : ((s.setPort p x).port q).txSrc = (s.setPort p x).portSource q := by
  rw [Dev.portSource_setPort hm ht, ← h q, s.port_setPort]
  split
  · next hq => rw [hq, hs]
  · rfl

/-- A port stored, its line at the same source: settling leaves the port, the registers and memory. -/
theorem Dev.settle_setPort (h : ∀ q, (s.port q).txSrc = s.portSource q) (hm : x.moor = (s.port p).moor) (ht : x.tx = (s.port p).tx)
    (hs : x.txSrc = (s.port p).txSrc) :
    (s.setPort p x).settle.port p = x ∧ (s.setPort p x).settle.regs = s.regs ∧ (s.setPort p x).settle.mem = s.mem :=
  have sources := Dev.sources_setPort h hm ht hs
  ⟨settle_port_of_source (s.port_setPort_same p x) (by simpa using sources p), settle_regs_of_sources sources, settle_mem _⟩

/-! ### Receive slots (R133, R356 to R358) -/

/-- The entry `idx` of a port's receive table, whose slot comes in `delay` ticks, in the tide `num`, is due (R356). -/
structure Dev.RxDue (s : Dev) (p idx : Nat) (e : SlotEntry) (delay num : Nat) : Prop where
  entry : (s.port p).rx[idx]? = some e
  underway : s.mode = .underway
  runs : s.ergRuns (p / 8) = true
  ungated : s.gated (portBlock p) = false
  phase : num % e.period = e.phase
  near : delay ≤ 16
  place : (s.tide.tick ≤ e.tick ∧ delay = e.tick - s.tide.tick ∧ num = s.tide.num) ∨
    (e.tick < s.tide.tick ∧ delay = s.tideLen - s.tide.tick + e.tick ∧ num = s.tide.num + 1)
  undone : (s.port p).rxDone ≤ s.tide.count + delay

/-- What the capture edge of a slot `delay` ticks ahead finds at a port (R356, R358). The phase of the edge is a free value: the model's
choice (log entry 130). -/
def Dev.rxCapture (s : Dev) (p delay : Nat) : Option JFrame × Nat × Nat × PortSt :=
  (s.port p).capture (s.tide.count + delay) s.edgePhase.1

/-- The reason of a slot without a frame (R358); of several faults the latest is shown, the model's choice (log entry 131). -/
theorem PortSt.capture_why (x : PortSt) (slot phase : Nat) : (x.capture slot phase).2.2.1 =
    if x.sync then ((x.faults.filter (fun f => decide (f.1 + 16 + phase ≤ slot))).getLast?.map (·.2)).getD 1 else 5 := by
  rw [PortSt.capture]
  cases x.sync <;> rfl

/-- The device with a frame, or NOFRAME, laid over what the port presents from `delay` ticks on; the burst is on its way (R59, R133). -/
def Dev.rxLaid (s : Dev) (p delay : Nat) (f : Option JFrame) : Dev :=
  { s.edgePhase.2.xingPush (17408 + p) (s.tide.count + delay - 16) 16 (.burst p) with fab := { s.fab with
      rxIn := Map.set (fun _ => []) s.fab.rxIn p (layBurst (Map.get (fun _ => []) s.fab.rxIn p) delay (rxBurst f)) } }

/-- The device after a receive slot of a port whose cluster is not gated: with the newest frame, older ones counted, or with NOFRAME (R358). -/
def Dev.rxTaken (s : Dev) (p delay : Nat) : Dev :=
  let c := s.rxCapture p delay
  match c.1 with
  | some f =>
    let s1 := (s.rxLaid p delay (some f)).setPort p { c.2.2.2 with overrunCnt := satAdd 16 (s.port p).overrunCnt c.2.1 }
    if c.2.1 = 0 then s1 else s1.event (portBlock p) 3
  | none => (s.rxLaid p delay none).setPort p { c.2.2.2 with noframeWhy := c.2.2.1, noframeCnt := satAdd 16 (s.port p).noframeCnt 1 }

theorem Dev.receiveSlot_due {idx delay num : Nat} {e : SlotEntry} (h : s.RxDue p idx e delay num) :
    s.receiveSlot p idx = s.rxTaken p delay := by
  obtain ⟨entry, underway, runs, ungated, phase, near, place, undone⟩ := h
  have ticks : (if decide (e.tick < s.tide.tick) = true then s.tideLen - s.tide.tick + e.tick else e.tick - s.tide.tick) = delay ∧
      (if decide (e.tick < s.tide.tick) = true then s.tide.num + 1 else s.tide.num) = num := by
    rcases place with ⟨later, hdelay, hnum⟩ | ⟨earlier, hdelay, hnum⟩
    · simp [Nat.not_lt.2 later, hdelay, hnum]
    · simp [earlier, hdelay, hnum]
  rw [Dev.receiveSlot]
  simp only [entry, ticks.1, ticks.2]
  rw [if_neg (by simp [underway, runs, phase, Nat.not_lt.2 near, Nat.not_lt.2 undone]), ungated, Dev.rxTaken, Dev.rxCapture]
  rcases (s.port p).capture (s.tide.count + delay) s.edgePhase.1 with ⟨_ | f, older, why, x⟩ <;> rfl

/-- A port is stored, and perhaps an event raised: settling leaves the port, what the fabric sees and memory. -/
theorem Dev.settle_setPort_event {t : Dev} (hsrc : (t.port p).txSrc = t.portSource p) (hm : x.moor = (t.port p).moor) (ht : x.tx = (t.port p).tx)
    (hs : x.txSrc = (t.port p).txSrc) (quiet : Prop) [Decidable quiet] (b n : Nat) :
    let d := (if quiet then t.setPort p x else (t.setPort p x).event b n).settle
    d.fab = t.fab ∧ d.port p = x ∧ d.mem = t.mem := by
  have source : x.txSrc = (t.setPort p x).portSource p := by rw [Dev.portSource_setPort hm ht, ← hsrc, hs]
  split
  · exact ⟨settle_fab _, settle_port_of_source (t.port_setPort_same p x) source, settle_mem _⟩
  · refine ⟨by simp, settle_port_of_source (by simp) ?_, by simp⟩
    rw [Dev.portSource_event, source]

theorem Dev.rxLaid_rxIn (delay : Nat) (f : Option JFrame) : Map.get (fun _ => []) (s.rxLaid p delay f).fab.rxIn p =
    layBurst (Map.get (fun _ => []) s.fab.rxIn p) delay (rxBurst f) := by
  simp [Dev.rxLaid, Map.get_set]

section
variable {delay : Nat} (hsrc : (s.port p).txSrc = s.portSource p)
include hsrc

/-- A slot that finds frames presents the newest and counts the others (R356, R358). -/
theorem Dev.rxTaken_some_settled {f : JFrame} (hf : (s.rxCapture p delay).1 = some f) :
    let d := (s.rxTaken p delay).settle
    Map.get (fun _ => []) d.fab.rxIn p = layBurst (Map.get (fun _ => []) s.fab.rxIn p) delay (rxBurst (some f)) ∧
      d.port p = { (s.rxCapture p delay).2.2.2 with overrunCnt := satAdd 16 (s.port p).overrunCnt (s.rxCapture p delay).2.1 } ∧
      d.mem = s.mem := by
  have settled := Dev.settle_setPort_event (t := s.rxLaid p delay (some f)) (p := p)
    (x := { (s.rxCapture p delay).2.2.2 with overrunCnt := satAdd 16 (s.port p).overrunCnt (s.rxCapture p delay).2.1 })
    hsrc rfl rfl rfl ((s.rxCapture p delay).2.1 = 0) (portBlock p) 3
  obtain ⟨fab, port, mem⟩ := settled
  simp only [Dev.rxTaken, hf]
  exact ⟨by rw [fab, Dev.rxLaid_rxIn], port, mem⟩

/-- A slot that finds none presents NOFRAME, with the reason (R358). -/
theorem Dev.rxTaken_none_settled (hf : (s.rxCapture p delay).1 = none) :
    let d := (s.rxTaken p delay).settle
    Map.get (fun _ => []) d.fab.rxIn p = layBurst (Map.get (fun _ => []) s.fab.rxIn p) delay (rxBurst none) ∧
      d.port p = { (s.rxCapture p delay).2.2.2 with
        noframeWhy := (s.rxCapture p delay).2.2.1, noframeCnt := satAdd 16 (s.port p).noframeCnt 1 } ∧
      d.mem = s.mem := by
  have settled := Dev.settle_setPort_event (t := s.rxLaid p delay none) (p := p) (x := { (s.rxCapture p delay).2.2.2 with
    noframeWhy := (s.rxCapture p delay).2.2.1, noframeCnt := satAdd 16 (s.port p).noframeCnt 1 })
    hsrc rfl rfl rfl True (portBlock p) 3
  obtain ⟨fab, port, mem⟩ := settled
  simp only [if_true] at fab port mem
  simp only [Dev.rxTaken, hf]
  exact ⟨by rw [fab, Dev.rxLaid_rxIn], port, mem⟩

end

/-! ### Transmit slots (R132, R350, R354, R355, R363) -/

/-- The entry `idx` of a port's transmit table has sampled its burst (R355), and the burst has not yet been sent on. -/
structure Dev.TxDue (s : Dev) (p idx : Nat) (e : SlotEntry) : Prop where
  entry : (s.port p).tx[idx]? = some e
  underway : s.mode = .underway
  runs : s.ergRuns (p / 8) = true
  phase : s.tide.num % e.period = e.phase
  sampled : s.tide.tick = e.tick + 4
  unsent : ∀ y ∈ Map.get (fun _ => []) s.tide.xing (17664 + p), y.stamp ≠ s.tide.count - 1

/-- Whether a mooring frame holds the line where a slot would send (R354, R363). -/
def Dev.lineHeld (s : Dev) (p : Nat) : Bool := (s.port p).moorAt.any (fun m => s.lineTaken m (s.tide.count - 4))

/-- A port whose burst has made no frame: the fault is counted, and with SKIP_MOOR its next mooring frame goes out in the slot (R355, R361). -/
def PortSt.noBurst (x : PortSt) (valid : Bool) (stamp : Nat) : PortSt :=
  let x1 : PortSt := if valid then { x with txFormatCnt := satAdd 16 x.txFormatCnt 1 } else { x with skipCnt := satAdd 16 x.skipCnt 1 }
  match (if x.skipMoor then x1.moorFrame 0xD else none) with
  | some (m, next) => { x1 with leaving := x.leaving ++ [(stamp, m)], lastSlot := some m, next, reason := 0xD }
  | none => x1

/-- The device with a burst of a port on its way to the symbol clock (R59, R354). -/
def Dev.txPushed (s : Dev) (p : Nat) : Dev := s.xingPush (17664 + p) (s.tide.count - 1) 16 (.burst p)

/-- The device after a transmit slot that the line is free for, with the frame that the burst made, if any (R355). -/
def Dev.txSends (s : Dev) (p : Nat) : Option JFrame → Dev
  | some f => (s.txPushed p).setPort p { s.port p with lastSlot := some f, leaving := (s.port p).leaving ++ [(s.tide.count - 1, f)] }
  | none =>
    let valid := nbit ((s.txBurst p).getD 0 0) 30
    let s1 := (s.txPushed p).setPort p ((s.port p).noBurst valid (s.tide.count - 1))
    if valid then s1.event (portBlock p) 4 else s1

/-- A slot that the line is not free for counts one SKIP and does nothing else: the model's choice (log entry 96). The proof keeps the lets of
the definition, or its port would be written out once per field. -/
theorem Dev.transmitSlot_due {idx : Nat} {e : SlotEntry} (h : s.TxDue p idx e) : s.transmitSlot p idx =
    if s.lineHeld p then (s.txPushed p).setPort p { s.port p with skipCnt := satAdd 16 (s.port p).skipCnt 1 }
    else s.txSends p (burstFrame (s.txBurst p) idx s.tide.num) := by
  obtain ⟨entry, underway, runs, phase, sampled, unsent⟩ := h
  have first : ((Map.get (fun _ => []) s.tide.xing (17664 + p)).any fun y => y.stamp == s.tide.count - 1) = false := by
    simpa using unsent
  unfold Dev.transmitSlot
  extract_lets x blk stamp burst valid pushed taken x1 x2 sent
  rw [show x.tx[idx]? = some e from entry]
  refine (if_neg (by simp [underway, runs, phase, sampled, stamp, first])).trans ?_
  have held : s.lineHeld p = taken := by
    rw [Dev.lineHeld]
    simp only [taken, x]
    cases (s.port p).moorAt with
    | none => exact Option.any_none
    | some m => exact Option.any_some
  rw [held]
  clear_value taken
  cases taken with
  | true => rfl
  | false =>
    rw [if_neg Bool.false_ne_true]
    cases burstFrame (s.txBurst p) idx s.tide.num with
    | some f => rfl
    | none => rfl

/-- A burst of four TX words that makes a frame (R132, R355). -/
def BurstGood (b : List Nat) : Prop :=
  nbit (b.getD 0 0) 31 = true ∧ (∀ k < 4, nbit (b.getD k 0) 30 = true) ∧ (nfield (b.getD 2 0) 20 4 = 1 ∨ nfield (b.getD 2 0) 20 4 = 3)

section
variable {b : List Nat} (idx tide : Nat)

theorem burstGood_iff : ((List.range 4).all (fun k => nbit (b.getD k 0) 30) && nbit (b.getD 0 0) 31 &&
    (nfield (b.getD 2 0) 20 4 == 1 || nfield (b.getD 2 0) 20 4 == 3)) = true ↔ BurstGood b := by
  simp only [BurstGood, Bool.and_eq_true, Bool.or_eq_true, List.all_eq_true, List.mem_range, beq_iff_eq]
  exact ⟨fun ⟨⟨hall, hfirst⟩, htype⟩ => ⟨hfirst, hall, htype⟩, fun ⟨hfirst, hall, htype⟩ => ⟨⟨hall, hfirst⟩, htype⟩⟩

theorem burstFrame_good (h : BurstGood b) : burstFrame b idx tide =
    some (JFrame.noF ⟨BitVec.ofNat 4 (nfield (b.getD 2 0) 20 4), BitVec.ofNat 4 idx, BitVec.ofNat 16 tide,
      BitVec.ofNat 80 (nfield (b.getD 0 0) 0 30 + 2 ^ 30 * nfield (b.getD 1 0) 0 30 + 2 ^ 60 * nfield (b.getD 2 0) 0 20)⟩) :=
  if_pos (burstGood_iff.2 h)

theorem burstFrame_not_good (h : ¬ BurstGood b) : burstFrame b idx tide = none := if_neg fun hb => h (burstGood_iff.1 hb)

theorem not_burstGood_of_invalid (h : nbit (b.getD 0 0) 30 = false) : ¬ BurstGood b := fun ⟨_, hall, _⟩ =>
  Bool.false_ne_true (h.symm.trans (hall 0 (by decide)))

end

theorem Dev.lineHeld_true {t : Nat} (ht : (s.port p).moorAt = some t) (h : s.lineTaken t (s.tide.count - 4) = true) :
    s.lineHeld p = true := by
  rw [Dev.lineHeld, ht, Option.any_some, h]

/-- The line is free where no mooring frame holds it. -/
theorem Dev.lineHeld_false (h : ∀ t, (s.port p).moorAt = some t → s.lineTaken t (s.tide.count - 4) = false) : s.lineHeld p = false := by
  rw [Dev.lineHeld, Option.any_eq_false]
  simpa using h

theorem PortSt.noBurst_plain (x : PortSt) (valid : Bool) (stamp : Nat) (h : x.skipMoor = false) : x.noBurst valid stamp =
    if valid then { x with txFormatCnt := satAdd 16 x.txFormatCnt 1 } else { x with skipCnt := satAdd 16 x.skipCnt 1 } := by
  rw [PortSt.noBurst, h]
  rfl

/-! ### Mooring frames (R359, R361, R362) -/

theorem PortSt.moorFrame_some (x : PortSt) (reason : Nat) (h : x.moor.count ≠ 0) : x.moorFrame reason =
    some (⟨2, BitVec.ofNat 4 (x.next % x.moor.count), BitVec.ofNat 16 reason, x.moor.payloads.getD (x.next % x.moor.count) 0⟩,
      x.next % x.moor.count + 1) := if_neg h

/-- The mooring frame that goes out in the slot is the slot's last frame: the model's choice (log entry 96). -/
theorem PortSt.noBurst_moors (x : PortSt) (stamp : Nat) (h : x.skipMoor = true) (hc : x.moor.count ≠ 0) : x.noBurst false stamp =
    { x with
      skipCnt := satAdd 16 x.skipCnt 1,
      leaving := x.leaving ++ [(stamp, ⟨2, BitVec.ofNat 4 (x.next % x.moor.count), 0xD, x.moor.payloads.getD (x.next % x.moor.count) 0⟩)],
      lastSlot := some ⟨2, BitVec.ofNat 4 (x.next % x.moor.count), 0xD, x.moor.payloads.getD (x.next % x.moor.count) 0⟩,
      next := x.next % x.moor.count + 1, reason := 0xD } := by
  simp [PortSt.noBurst, PortSt.moorFrame, h, hc]

section
variable (hg : (s.port p).txSrc = .generator)
include hg

theorem Dev.mooringFrame_rotates (hh : (s.port p).moor.anchorHold = false) (hc : (s.port p).moor.count ≠ 0) : s.mooringFrame p =
    s.setPort p { s.port p with
      sent := JFrame.symbols ⟨2, BitVec.ofNat 4 ((s.port p).next % (s.port p).moor.count), BitVec.ofNat 16 (s.moorReason p),
        (s.port p).moor.payloads.getD ((s.port p).next % (s.port p).moor.count) 0⟩,
      next := (s.port p).next % (s.port p).moor.count + 1, reason := s.moorReason p, moorAt := some s.tide.count } := by
  simp [Dev.mooringFrame, hg, hh, (s.port p).moorFrame_some _ hc]

/-- In Anchored, under ANCHOR_HOLD, the last frame of a transmit slot goes out again (R362). -/
theorem Dev.mooringFrame_repeats {f : JFrame} (hh : (s.port p).moor.anchorHold = true) (hm : s.mode = .anchored)
    (hr : s.ergRuns (p / 8) = true) (hf : (s.port p).lastSlot = some f) : s.mooringFrame p =
      s.setPort p { s.port p with sent := f.symbols, moorAt := some s.tide.count } := by
  simp [Dev.mooringFrame, hg, hh, hm, hr, hf]

end

/-! ### Symbols (R345, R347, R348, R354) -/

theorem Dev.burstLeaves_found {stamp : Nat} {f : Nat × JFrame} (h : (s.port p).leaving.find? (fun y => y.1 == stamp) = some f) :
    s.burstLeaves p stamp =
      s.setPort p { s.port p with leaving := (s.port p).leaving.filter (fun y => y.1 != stamp), sent := f.2.symbols } := by
  simp [Dev.burstLeaves, h]

theorem length_leBytes (k n : Nat) : (leBytes k n).length = k := by
  induction k generalizing n with
  | zero => rfl
  | succ k ih => rw [leBytes, List.length_cons, ih]

theorem JFrame.length_bytes (f : JFrame) : f.bytes.length = 13 := by simp [JFrame.bytes, length_leBytes]

theorem JFrame.length_symbols (f : JFrame) : f.symbols.length = 16 := by simp [JFrame.symbols, f.length_bytes]

/-- The CRC goes last, its high byte first. -/
theorem JFrame.drop_symbols (f : JFrame) :
    (f.symbols.drop 14).map (·.octet) = [f.crc.extractLsb' 8 8, f.crc.extractLsb' 0 8] := by
  rw [JFrame.symbols, List.drop_succ_cons, List.map_append, List.drop_left' (by rw [List.length_map, f.length_bytes]), List.map_map]
  rfl

/-- A command of the fabric's ticks while their clock runs, in Underway (R20, R452). -/
theorem becomes_ticking {c : Instr} {s : State} {f : Dev → Dev} (hc : exec c s = run (fun d => d.clocked 0 f) s)
    (ha : ¬ 0 ∈ s.dev.clk.applying) (hm : s.dev.mode = .underway) : Becomes c s (f s.dev) := by
  rw [Becomes, hc, run, Dev.clocked_open _ _ _ ha (hm.trans_ne (by decide))]

/-- Settles O26: slots by what is due in them, the line free or not; settling leaves the port, for its line keeps its source. -/
theorem jettySlots : Obligations.JettySlots := by
  intro s p idx e hout x blk runs
  have source : (s.dev.port p.val).txSrc = s.dev.portSource p.val := hout.ports p.val
  refine ⟨?_, ?_, fun hg hh hc => ?_, fun f hg hh hm hr hf => ?_, fun stamp f hf => Dev.burstLeaves_found hf,
    fun f => ⟨f.length_symbols, f.drop_symbols⟩⟩
  · intro delay num ⟨happ, hm, hr⟩ hrx hgate hphase hnear hplace slot inTime got x1 lay hdone
    have due : s.dev.RxDue p.val idx.val e delay num := ⟨hrx, hm, hr, hgate, hphase, hnear, hplace, hdone⟩
    have becomes := becomes_ticking (exec_receiveSlot p idx s) happ hm
    rw [Dev.receiveSlot_due due] at becomes
    refine ⟨fun f hf => becomes.completes (Dev.rxTaken_some_settled source (congrArg (Option.map Prod.snd) hf)),
      fun hgot => becomes.completes ?_⟩
    have settled := Dev.rxTaken_none_settled source (delay := delay) (congrArg (fun l => l.getLast?.map Prod.snd) hgot)
    rwa [Dev.rxCapture, PortSt.capture_why] at settled
  · intro stamp s0 burst type good i m f ⟨happ, hm, hr⟩ hphase htx htick hfirst
    have due : s.dev.TxDue p.val idx.val e := ⟨htx, hm, hr, hphase, htick, hfirst⟩
    have becomes := becomes_ticking (exec_transmitSlot p idx s) happ hm
    rw [Dev.transmitSlot_due due] at becomes
    refine ⟨fun t ht htaken => ?_, fun hfree => ⟨fun hgood => ?_, fun hvalid hskip => ?_, fun hvalid hbad hskip => ?_,
      fun hvalid hskip hc => ?_⟩⟩
    · rwa [Dev.lineHeld_true ht htaken, if_pos rfl] at becomes
    all_goals rw [Dev.lineHeld_false hfree, if_neg Bool.false_ne_true] at becomes
    · rwa [burstFrame_good _ _ hgood] at becomes
    · rw [burstFrame_not_good _ _ (not_burstGood_of_invalid hvalid), Dev.txSends, hvalid, PortSt.noBurst_plain _ _ _ hskip] at becomes
      exact becomes
    · rw [burstFrame_not_good _ _ hbad, Dev.txSends, hvalid, PortSt.noBurst_plain _ _ _ hskip] at becomes
      exact becomes
    · rw [burstFrame_not_good _ _ (not_burstGood_of_invalid hvalid), Dev.txSends, hvalid, PortSt.noBurst_moors _ _ hskip hc] at becomes
      exact becomes
  · have becomes : Becomes (.mooringFrame p) s (s.dev.mooringFrame p.val) := exec_mooringFrame p s
    rw [Dev.mooringFrame_rotates hg hh hc] at becomes
    exact becomes.completes (Dev.settle_setPort hout.ports rfl rfl rfl)
  · have becomes : Becomes (.mooringFrame p) s (s.dev.mooringFrame p.val) := exec_mooringFrame p s
    rw [Dev.mooringFrame_repeats hg hh hm hr hf] at becomes
    obtain ⟨port, -, mem⟩ := Dev.settle_setPort (x := { s.dev.port p.val with sent := f.symbols, moorAt := some s.dev.tide.count })
      hout.ports rfl rfl rfl
    exact becomes.completes ⟨port, mem⟩

end Sys2Proof.Machine
end

section
/-! The bytes of memory after a store, and after the contents of ergs are wiped (R171 to R175, R199). -/

namespace Sys2Proof.Machine

/-- A key that is cleared holds the unlisted value again; another holds what it held. -/
theorem Map.get_clear {α : Type} (d : Nat → α) (p : Nat → Bool) (m : Map α) (k : Nat) :
    Map.get d (Map.clear p m) k = if p k then d k else Map.get d m k := by
  induction m with
  | nil => simp [Map.clear]
  | cons e m ih =>
    obtain ⟨j, v⟩ := e
    have tail : Map.get d (m.filter fun e => !p e.1) k = if p k then d k else Map.get d m k := ih
    cases hp : p j with
    | true =>
      rw [Map.clear, List.filter_cons_of_neg (by simp [hp]), tail]
      by_cases hj : j = k
      · rw [← hj, hp, if_pos rfl, if_pos rfl]
      · rw [Map.get, if_neg hj]
    | false =>
      rw [Map.clear, List.filter_cons_of_pos (by simp [hp]), Map.get, Map.get, tail]
      by_cases hj : j = k
      · simp [← hj, hp]
      · simp [hj]

/-- A store changes the bytes it stores to, each to the byte at its place. -/
theorem memByte_memStore (m : List Host.Cell) (k : Nat) (bs : List Byte) (a : Nat) :
    memByte (memStore m k bs) a = if k ≤ a ∧ a < k + bs.length then bs.getD (a - k) 0 else memByte m a := by
  induction bs generalizing m k with
  | nil => rw [if_neg (by simp), memStore]
  | cons b bs ih =>
    rw [memStore, ih, memByte_memPut, List.length_cons]
    rcases Nat.lt_trichotomy a k with h | rfl | h
    · rw [if_neg (by omega), if_neg (by omega), if_neg (by omega)]
    · rw [if_neg (by omega), if_pos rfl, if_pos (by omega), Nat.sub_self, List.getD_cons_zero]
    · obtain ⟨i, rfl⟩ : ∃ i, a = k + 1 + i := ⟨a - (k + 1), by omega⟩
      rw [if_neg (by omega : ¬ k + 1 + i = k), show k + 1 + i - k = i + 1 by omega, List.getD_cons_succ, Nat.add_sub_cancel_left]
      exact if_congr (by omega) rfl rfl

/-- What was stored reads back. -/
theorem memBytes_memStore (m : List Host.Cell) (k : Nat) (bs : List Byte) : memBytes (memStore m k bs) k bs.length = bs := by
  induction bs generalizing m k with
  | nil => rfl
  | cons b bs ih =>
    rw [memStore, List.length_cons, memBytes, ih, memByte_memStore_below _ _ _ _ (Nat.lt_succ_self k), memByte_memPut, if_pos rfl]

/-- The little-endian bytes of a number spell it, as far as they reach. -/
theorem ofLeBytes_leBytes (k n : Nat) : ofLeBytes (leBytes k n) = n % 256 ^ k := by
  induction k generalizing n with
  | zero => rw [leBytes, ofLeBytes, pow_zero, Nat.mod_one]
  | succ k ih =>
    rw [leBytes, ofLeBytes, ih, BitVec.toNat_ofNat, pow_succ' 256 k]
    exact Nat.mod_mul.symm

/-- Settles O60: a store by induction over its bytes; a word of the hold is eight of them, and a wipe clears the keys of its ergs. -/
theorem memoryStores : Obligations.MemoryStores := by
  refine ⟨memByte_memStore, fun d wi x a ha => ?_, fun d wi x => ?_, fun d es a => ?_⟩
  · rw [Dev.putArrayWord, memByte_memStore, length_leBytes, if_neg (by omega)]
  · have bytes := memBytes_memStore d.mem (holdBase + 8 * wi) (leBytes 8 x.data.toNat)
    rw [length_leBytes] at bytes
    rw [Dev.putArrayWord, bytes, ofLeBytes_leBytes, Nat.mod_eq_of_lt (by exact x.data.isLt)]
  · rw [Dev.wipeErgs, memByte, Map.get_clear]
    simp [memDefault, memByte]

end Sys2Proof.Machine
end

section
/-! The row port and the word port of a bank, where nothing stops or refuses what they do (R177 to R181, R186, R188, R190). -/

namespace Sys2Proof.Machine

variable {s : Dev} {b : Nat}

/-! ### The row port -/

/-- A row command of a running erg that keeps its dune's pace and that the bank does not ignore is counted and waits at the bank. -/
theorem Dev.rowCommand_sampled {e d : Nat} (lower : Bool) (reg row : Nat) (hm : s.mode = .underway) (hr : s.ergRuns e = true)
    (hp : ∀ t, (s.bank (256 * e + d)).lastCmd = some t → t + s.pace ≤ s.tide.count)
    (hi : (s.setBank (256 * e + d) { s.bank (256 * e + d) with lastCmd := some s.tide.count }).rowIgnored (256 * e + d) = false) :
    let b := 256 * e + d
    let s1 := s.setBank b { s.bank b with lastCmd := some s.tide.count }
    s.rowCommand lower e d reg row = (s1.xferCountOne.setBank b { s1.bank b with cmds := (s1.bank b).cmds ++
      [{ lower, reg, row, stamp := s.tide.count, captured := if lower then s.fab.row b reg else {}, at_ := s.tide.exec }] }).xingPush b
        s.tide.count 8 (.rowCommand e d row lower) := by
  unfold Dev.rowCommand
  dsimp only
  rw [if_neg (by simp [hm, hr])]
  refine (if_neg ?_).trans (if_neg (by simp [hi]))
  split
  next t ht => simpa using hp t ht
  next => exact Bool.false_ne_true

/-- The oldest row command, once it has been released. -/
theorem Dev.rowCycle_released {c : RowCmd} {rest : List RowCmd} (hc : (s.bank b).cmds = c :: rest) (hx : s.crossed b c.stamp = true)
    (ht : c.stamp + 8 ≤ s.tide.count) : s.rowCycle b = (s.setBank b { s.bank b with cmds := rest }).rowRun b c := by
  simp [Dev.rowCycle, hc, hx, Nat.not_lt.2 ht]

section
variable {c : RowCmd} (hl : s.hoistLost b = false) (ho : s.bankOut b = false) (hw : s.wiped b = false)
include hl ho hw

/-- A bank that is able to carries out a lower: the captured register is written back. -/
theorem Dev.rowRun_lower (h : c.lower = true) : s.rowRun b c = s.lowerRow b c.row c.captured := by
  simp [Dev.rowRun, hl, ho, hw, h]

/-- A bank that is able to carries out a hoist: the row it reads goes into the return queue. -/
theorem Dev.rowRun_hoist (h : c.lower = false) :
    let s2 := (s.hoistRow b c.row).2
    s.rowRun b c = (s2.setBank b { s2.bank b with landings := (s2.bank b).landings ++
      [{ due := c.at_ + 40, reg := c.reg, row := (s.hoistRow b c.row).1, stamp := c.stamp + 32 }] }).xingPush (8192 + b) (c.stamp + 32) 8
        (.row (b / 256) (b % 256)) := by
  simp [Dev.rowRun, hl, ho, hw, h]

end

/-- The oldest returning row, at the end of its tick. -/
theorem Dev.hoistLand_due {l : Landing} {rest : List Landing} (hb : (s.bank b).landings = l :: rest) (hd : l.due < s.tide.exec)
    (hx : s.crossed (8192 + b) l.stamp = true) :
    let s1 := { s.setBank b { s.bank b with landings := rest } with fab := s.fab.setRow b l.reg l.row }
    s.hoistLand b = if s.fab.wrote.contains (b, l.reg) then s1.event (B.ERG (b / 256)) 2 else s1 := by
  simp [Dev.hoistLand, hb, hx, Nat.not_le.2 hd]

/-- A command of a clock domain whose clock no APPLY relocks, outside Quarantine (R20, R452). -/
theorem becomes_clocked {c : Instr} {m : State} {d : Nat} {f : Dev → Dev} (hc : exec c m = run (fun s => s.clocked d f) m)
    (ha : ¬ d ∈ m.dev.clk.applying) (hq : m.dev.mode ≠ .quarantine) : Becomes c m (f m.dev) := by
  rw [Becomes, hc, run, Dev.clocked_open _ _ _ ha hq]

/-- Settles O7: a row command as it is sampled, carried out and landed, where nothing stands in its way. -/
theorem holdRowCommands : Obligations.HoldRowCommands := by
  intro s hq
  refine ⟨fun e dune reg row => ?_, fun bank c rest => ?_, fun bank l rest ha hl hd hx => ?_⟩
  · intro b s1 ha hdock hm hr hp hi
    have sampled (lower : Bool) := Dev.rowCommand_sampled lower reg.val row.val hm hr hp hi
    have sink (f : Dev → Dev) : s.dev.hlSink e.val f = f s.dev := s.dev.hlSink_open e.val f hdock ha hq
    constructor
    · rw [Becomes, exec_hoist, run, sink, sampled]
      rfl
    · rw [Becomes, exec_lower, run, sink, sampled]
      rfl
  · intro s1 ha hc hx ht
    refine ⟨?_, fun hl ho hw => ⟨Dev.rowRun_lower hl ho hw, Dev.rowRun_hoist hl ho hw⟩⟩
    have becomes := becomes_clocked (exec_rowCycle bank s) ha hq
    rwa [Dev.rowCycle_released hc hx ht] at becomes
  · have becomes := becomes_clocked (exec_hoistLand bank s) ha hq
    rwa [Dev.hoistLand_due hl hd hx] at becomes

/-! ### The word port -/

/-- A grant at a bank that is awake and that nothing makes refuse it is served. -/
theorem Dev.bankGrant_serves {q : ArbReq} (serve : Dev → ArbReq → Dev) (hg : (s.arb (8 + b)).grant = some q) (hs : s.asleep b = false)
    (hr : s.bankRefusal (s.nodeSrc q.msg.h.src) b = none) : s.bankGrant b serve = serve s q := by
  simp [Dev.bankGrant, hg, hs, hr]

/-- A request whose last word has been served is answered, and its grant ends. -/
theorem Dev.bankServed_last {q : ArbReq} (held : Nat) (h : reqWords q.msg.h.addr q.msg.h.len ≤ q.served) :
    s.bankServed b q held = (s.setArb (8 + b) { s.arb (8 + b) with grant := none, heldFor := 0 }).respondFrom (8 + b) q.msg.h
      (q.bad.getD .ok) ((q.got.drop (q.msg.h.addr % 8)).take q.msg.h.len) := by
  rw [Dev.bankServed, if_pos h]

/-- Without an armed flip mask a word whose data arrived good is stored as it is. -/
theorem Dev.portStore_plain {q : ArbReq} (d : DWord) (hp : poisonedWord q = false) (hf : s.flipArmed.contains (B.HOLD (b / 1024)) = false) :
    s.portStore b q d = (s.putHoldWord b (reqWord q.msg.h.addr q.served).1 (reqWord q.msg.h.addr q.served).2 (flippedWord d 0),
      { q with served := q.served + 1 }) := by
  simp [Dev.portStore, Dev.takeFlip, hp, (by simpa using hf : B.HOLD (b / 1024) ∉ s.flipArmed)]

/-- A full word that is the last of its request is the one that the grant writes. -/
theorem Dev.portWrite_last {q q1 : ArbReq} {s1 : Dev} (n : Nat) {held : Nat} (hn : q.served < reqWords q.msg.h.addr q.msg.h.len)
    (hf : fullWord q = true) (hh : held < 4) (hst : s.portStore b q (mergeWord 0 q) = (s1, q1))
    (hd : reqWords q1.msg.h.addr q1.msg.h.len ≤ q1.served) : Dev.portWrite b (n + 2) held (s, q) = (s1, q1, held + 1) := by
  rw [Dev.portWrite, if_neg (by simp [hf, hn, hh]), hst, Dev.portWrite, if_pos (by simp [hd])]

section
variable {q : ArbReq} (ho : q.msg.h.op = 2) (hf : fullWord q = false) (hn : q.served < reqWords q.msg.h.addr q.msg.h.len)
  (hg : (s.arb (8 + b)).grant = some q) (hs : s.asleep b = false) (hr : s.bankRefusal (s.nodeSrc q.msg.h.src) b = none)
include ho hf hn hg hs hr

/-- A partial write of a word without error: its bytes are merged into the word. -/
theorem Dev.partialWrite_merges {v : DWord}
    (hv : (s.holdWord b (reqWord q.msg.h.addr q.served).1 (reqWord q.msg.h.addr q.served).2).value = some v)
    (hc : (s.holdWord b (reqWord q.msg.h.addr q.served).1 (reqWord q.msg.h.addr q.served).2).correctable = false) :
    s.partialWrite b = (s.portStore b q (mergeWord v q)).1.bankServed b (s.portStore b q (mergeWord v q)).2 ((s.arb (8 + b)).heldFor + 1) := by
  rw [Dev.partialWrite, Dev.bankGrant_serves _ hg hs hr, if_neg (by simp [ho, hf, hn])]
  simp [hv, hc]

/-- A partial write of an uncorrectable word leaves the word and ends UNCORR. -/
theorem Dev.partialWrite_uncorr
    (hv : (s.holdWord b (reqWord q.msg.h.addr q.served).1 (reqWord q.msg.h.addr q.served).2).value = none) (hb : q.bad = none) :
    s.partialWrite b = (s.holdUncorr (B.HOLD (b / 1024)) 0
      (wordIndex b (reqWord q.msg.h.addr q.served).1 (reqWord q.msg.h.addr q.served).2) 2
      (s.holdWord b (reqWord q.msg.h.addr q.served).1 (reqWord q.msg.h.addr q.served).2).syn).bankServed b
        { q with served := q.served + 1, bad := some .uncorr } ((s.arb (8 + b)).heldFor + 1) := by
  rw [Dev.partialWrite, Dev.bankGrant_serves _ hg hs hr, if_neg (by simp [ho, hf, hn])]
  simp [hv, hb]

end

/-- Settles O8: each command by what the port does under a grant that nothing refuses. -/
theorem holdWordPorts : Obligations.HoldWordPorts := by
  intro s bank q b hq ha ht hg hs hr
  have port (f : Dev → Dev) : s.dev.wordPort bank.val f = f s.dev := s.dev.wordPort_open bank.val f ht ha hq
  refine ⟨fun hop => ?_, fun hop hwords hserved hfull hheld hpoison hflip => ?_, fun x hop hfull hn hx v hv hc => ?_,
    fun x hop hfull hn hx hv hbad => ?_⟩
  · rw [Becomes, exec_wordPortRead, run, port, Dev.wordPortRead, Dev.bankGrant_serves _ hg hs hr, if_neg (by simp [hop])]
  · have stored := Dev.portStore_plain (mergeWord 0 q) hpoison hflip
    rw [hserved] at stored
    rw [Becomes, exec_wordPortWrite, run, port, Dev.wordPortWrite, Dev.bankGrant_serves _ hg hs hr, if_neg (by simp [hop]), hheld,
      Dev.portWrite_last 2 (by omega) hfull (by decide) stored (by simp [hwords])]
    dsimp only
    rw [Dev.bankServed_last _ (by simp [hwords])]
  · subst hx
    rw [Becomes, exec_partialWrite, run, port, Dev.partialWrite_merges hop hfull hn hg hs hr hv hc]
  · subst hx
    rw [Becomes, exec_partialWrite, run, port, Dev.partialWrite_uncorr hop hfull hn hg hs hr hv hbad]

end Sys2Proof.Machine
end

section
/-! What storing a register, the end of a command and an event leave of the hold and the ergs; where an event's bit stands; the register
ports of the HOLD, BIST and SCRB blocks; commands that meet none of their refusals (R8, R557). -/

namespace Sys2Proof.Machine

variable (s : Dev)

@[simp] theorem Dev.storeReg_hold (b o : Nat) (w : Word) : (s.storeReg b o w).hold = s.hold :=
  s.storeReg_keeps (p := Dev.hold) (fun _ _ => rfl) (fun _ _ => rfl)
@[simp] theorem Dev.storeReg_erg (b o : Nat) (w : Word) (e : Nat) : (s.storeReg b o w).erg e = s.erg e :=
  s.storeReg_keeps (p := fun d => d.erg e) (fun _ _ => rfl) (fun _ _ => rfl)
@[simp] theorem Dev.finish_hold (b : Nat) (st : Status) : (s.finish b st).hold = s.hold :=
  s.finish_keeps b st (p := Dev.hold) fun _ _ => rfl
@[simp] theorem Dev.okReply_hold (v : Word) : (s.okReply v).hold = s.hold := rfl
@[simp] theorem Dev.count_mem (b : Nat) (f : Fld) : (s.count b f).mem = s.mem := s.setFld_mem _ _ _

/-- Another register of the block whose command ends. -/
theorem Dev.fld_finish_ne (b : Nat) (st : Status) {g : Fld} (h : g.off ≠ O.BLK_STATUS) : (s.finish b st).fld b g = s.fld b g := by
  rw [Dev.fld, s.reg_finish_ne _ _ _ _ fun e => h (Nat.add_left_cancel e), Dev.fld]

/-- A one-bit field just set reads as set. -/
theorem Dev.flag_setFlag (b : Nat) (f : Fld) (v : Bool) (hf : f.lo + f.w ≤ 32) (hw : f.w = 1) : (s.setFlag b f v).flag b f = v := by
  rw [Dev.flag, Dev.setFlag, Dev.fld_setFld _ _ _ _ hf, hw]
  cases v <;> rfl

/-! ### The bit of an event -/

/-- EVT_STATUS of a block that is no causeway's, where no event is of that block. -/
theorem evtStatus_overlooks {b : Nat} (hc : ¬ isCw b) : Overlooks (fun s : Dev => s.reg b O.EVT_STATUS) (fun _ => False) where
  evt s c w h := Dev.reg_setReg_ne s _ _ _ _ _ fun e =>
    hc ((window_inj (by decide) (by decide) e).1 ▸ h.resolve_left id)
  dbg s w := Dev.reg_setReg_ne s _ _ _ _ _ fun e => absurd (window_inj (by decide) (by decide) e).2 (by decide)
  run _ _ _ := rfl
  flags _ _ := rfl
  link _ _ _ := rfl

/-- An event's bit stands after the event, whatever breakpoint it hits (R8, R510). -/
theorem Dev.nbit_event {b n : Nat} (hn : n < 32) (hg : s.gated b = false) (hc : ¬ isCw b) :
    nbit ((s.event b n).reg b O.EVT_STATUS).toNat n = true := by
  have kept : (s.event b n).reg b O.EVT_STATUS = (s.raiseBit b n).reg b O.EVT_STATUS := by
    unfold Dev.event
    dsimp only
    split
    · exact haltRequest_keeps (evtStatus_overlooks hc) _ _ _
    · rfl
  rw [kept, s.nbit_raiseBit b n hn hg]

/-- A block whose register is written has its clock (R456). -/
theorem Dev.writes.not_gated {s : Dev} {r : RegSrc} {b o : Nat} {w : Word} (h : s.writes r b o w) : s.gated b = false := by
  obtain ⟨hg, -⟩ := h
  unfold Dev.gateOf at hg
  split at hg
  · cases hb : s.gated b with
    | false => rfl
    | true => rw [hb] at hg; cases hg
  next hne => exact absurd hg hne

/-! ### Register ports -/

theorem blkKind_hold (k : Fin 8) : blkKind (B.HOLD k.val) = some .hold := by decide +revert

theorem Dev.writeReg_hold (src : Src) (k : Fin 8) {off : Nat} (w : Word) (hr : (regFind (B.HOLD k.val) off).isSome)
    (ho : off ∉ [O.BLK_CTRL, O.BLK_FREEZE, O.EVT_FORCE, O.ECC_FLIP_LO]) : s.writeReg src (B.HOLD k.val) off w = s.writeHOLD k.val off w := by
  rw [s.writeReg_own src w (blkKind_hold k) hr ho, Dev.writeKind, blkKind_hold k]
  exact congrArg (s.writeHOLD · off w) (Nat.add_sub_cancel_left _ _)

/-- A write to HOLD_REMAP_CMD stores the fields, then the command acts (R209). -/
theorem Dev.writeReg_remapCmd (src : Src) (k : Fin 8) (w : Word) : s.writeReg src (B.HOLD k.val) O.HOLD_REMAP_CMD w =
    (s.storeReg (B.HOLD k.val) O.HOLD_REMAP_CMD w).remapCmd k.val w := by
  have known : ∀ k : Fin 8, (regFind (B.HOLD k.val) O.HOLD_REMAP_CMD).isSome := by decide
  rw [s.writeReg_hold src k w (known k) (by decide), Dev.writeHOLD, if_pos rfl]

/-- A write to HOLD_BOND_CMD stores the fields, then the command acts (R197, R200). -/
theorem Dev.writeReg_bondCmd (src : Src) (w : Word) : s.writeReg src (B.HOLD 0) O.HOLD_BOND_CMD w =
    (s.storeReg (B.HOLD 0) O.HOLD_BOND_CMD w).bondCmd w := by
  refine (s.writeReg_hold src 0 w (by decide) (by decide)).trans ?_
  rw [Dev.writeHOLD, if_neg (by decide), if_neg (by decide), if_pos (by decide)]
  rfl

theorem Dev.writeReg_marchCmd (src : Src) (w : Word) : s.writeReg src B.BIST O.MARCH_CMD w = s.marchCmd w := by
  rw [s.writeReg_bist src w (by decide) (by decide), Dev.writeBIST, if_neg (by decide), if_neg (by decide), if_pos rfl]

theorem Dev.writeReg_scrbCmd (src : Src) (w : Word) : s.writeReg src B.SCRB O.SCRB_CMD w = s.scrbCmd w := by
  rw [s.writeReg_own src w (k := .scrb) rfl (by decide) (by decide)]
  rfl

/-! ### Refusals -/

/-- A command none of whose refusal conditions holds runs (R557). -/
theorem Dev.guarded_runs (b : Nat) {cs : List (Bool × Status)} (f : Dev → Dev) (h : ∀ c ∈ cs, c.1 = false) : s.guarded b cs f = f s := by
  have held : cs.filter (·.1) = [] := List.filter_eq_nil_iff.2 fun c hc => by simp [h c hc]
  simp [Dev.guarded, firstRefusal, held]

end Sys2Proof.Machine
end

section
/-! Retention and wake of banks, and the bonded region (R195 to R200). -/

namespace Sys2Proof.Machine

variable {s : Dev}

/-! ### Retention and wake -/

theorem Dev.bank_setBank (k : Nat) (x : BankSt) (j : Nat) : (s.setBank k x).bank j = if j = k then x else s.bank j := by
  simp [Dev.bank, Dev.setBank, Map.get_set]

/-- The device with some of its banks in retention. -/
def Dev.retain (s : Dev) (bs : List Nat) : Dev := bs.foldl (fun s b => s.setBank b { s.bank b with power := .retention }) s

/-- Entering retention changes the banks and no more. -/
theorem Dev.retain_keeps {β : Type} {p : Dev → β} (h : ∀ (s : Dev) b x, p (s.setBank b x) = p s) (bs : List Nat) : p (s.retain bs) = p s :=
  foldl_keeps _ bs (fun s b _ => h s b _) s

theorem Dev.retain_power (bs : List Nat) (b : Nat) : ((s.retain bs).bank b).power = if b ∈ bs then .retention else (s.bank b).power := by
  induction bs generalizing s with
  | nil => rfl
  | cons c bs ih =>
    show (((s.setBank c { s.bank c with power := .retention }).retain bs).bank b).power = _
    rw [ih, Dev.bank_setBank]
    by_cases hb : b ∈ bs
    · rw [if_pos hb, if_pos (List.mem_cons_of_mem _ hb)]
    · by_cases hc : b = c
      · simp [hc]
      · simp [hb, hc]

/-- The banks of an erg that sleeps and whose work is finished go into retention (R195); short of device-wide Slack HLD_RET does not rise. -/
theorem Dev.bankRetention_enters {e : Nat} (hr : (s.erg e).slack.runs = false) (hw : (s.erg e).slack ≠ .waking) (he : s.emulated = false)
    (hm : s.mode ≠ .slack) (hb : ∀ i < 256, (s.bank (256 * e + i)).cmds = [] ∧ (s.arb (8 + (256 * e + i))).grant = none) :
    s.bankRetention e = s.retain ((List.range 256).map (256 * e + ·)) := by
  have idle : ((List.range 256).map (256 * e + ·)).any (fun b => !(s.bank b).cmds.isEmpty || (s.arb (8 + b)).grant.isSome) = false := by
    simp only [List.any_map, List.any_eq_false, List.mem_range, Function.comp]
    intro i hi
    obtain ⟨hc, hg⟩ := hb i hi
    simp [hc, hg]
  have awake : (s.retain ((List.range 256).map (256 * e + ·))).mode ≠ .slack :=
    (Dev.retain_keeps (p := Dev.mode) (fun _ _ _ => rfl) _).trans_ne hm
  unfold Dev.bankRetention
  dsimp only
  rw [if_neg (by simp [hr, hw, he]), if_neg (by rw [idle]; decide), Dev.hldRetRise]
  exact if_neg (by simp [show (List.foldl _ s _).mode ≠ .slack from awake])

/-- A bank that completes its wake while its erg holds no request (R196). -/
theorem Dev.bankWake_unheld {b : Nat} (hp : (s.bank b).power = .waking) (hw : Map.get (fun _ => []) s.net.wake (b / 256) = []) :
    s.bankWake b = { s.setBank b { s.bank b with power := .awake } with
      net := { s.net with wake := Map.set (fun _ => []) s.net.wake (b / 256) [] } } := by
  simp [Dev.bankWake, hp, hw]

/-! ### The bonded region -/

/-- The bonded setting that a word written to HOLD_BOND_CMD gives (R209). -/
def bondOf (w : Word) : Bond :=
  { ergA := nfield w.toNat 2 5, enA := nbit w.toNat 7, ergB := nfield w.toNat 8 5, enB := nbit w.toNat 13 }

/-- A wipe begins, after which `new` is the bonded setting (R199). -/
abbrev Dev.startWipe (s : Dev) (new : Bond) : Dev :=
  { s with hold := { s.hold with wipe := some new } }.wakeForWipe.setFlag (B.HOLD 0) F.HOLD_BOND_STAT_WIPING true

/-- SET of a setting that names no erg twice, while the ergs concerned are awake and do not run and no wipe is under way (R197). -/
theorem Dev.bondCmd_set {w : Word} (hop : w.toNat % 4 = 1)
    (hd : ¬ ((bondOf w).enA = true ∧ (bondOf w).enB = true ∧ (bondOf w).ergA = (bondOf w).ergB))
    (he : ∀ e ∈ s.hold.bond.ergs ++ (bondOf w).ergs, (s.erg e).mode ≠ .running ∧ (s.erg e).slack.runs = true) (hw : s.hold.wipe = none) :
    s.bondCmd w = s.startWipe (bondOf w) := by
  have distinct : ((bondOf w).enA && (bondOf w).enB && (bondOf w).ergA == (bondOf w).ergB) = false := by
    rw [Bool.eq_false_iff]
    simpa [and_assoc] using hd
  have free : (!(s.hold.bond.ergs ++ (bondOf w).ergs).all fun e => (s.erg e).mode != .running && (s.erg e).slack.runs) = false := by
    rw [Bool.not_eq_false', List.all_eq_true]
    intro e h
    simpa using he e h
  unfold Dev.bondCmd
  dsimp only
  rw [hop]
  refine s.guarded_runs _ _ ?_
  simp only [List.forall_mem_cons]
  exact ⟨distinct, free, by rw [hw]; rfl, fun _ h => nomatch h⟩

/-- WIPE while no wipe is under way: the setting stays (R200). -/
theorem Dev.bondCmd_wipe {w : Word} (hop : w.toNat % 4 = 2) (hw : s.hold.wipe = none) : s.bondCmd w = s.startWipe s.hold.bond := by
  simp [Dev.bondCmd, hop, hw]

/-- The end of a wipe that has been carried out: the new setting takes effect, and the command ends OK (R197, R199). -/
def Dev.endWipe (s : Dev) (new : Bond) : Dev :=
  (({ s with hold := { s.hold with wipe := none } }.setBond new).setFlag (B.HOLD 0) F.HOLD_BOND_STAT_WIPING false).finish (B.HOLD 0) .ok

theorem Dev.bondWiped_ends {new : Bond} (h : s.hold.wipe = some new) : s.bondWiped = (s.wipeNow (s.hold.bond.ergs ++ new.ergs)).endWipe new := by
  rw [Dev.bondWiped, h]
  rfl

section
variable (new : Bond)

@[simp] theorem Dev.endWipe_hold : (s.endWipe new).hold = { s.hold with wipe := none, bond := new } := by
  rw [Dev.endWipe, Dev.finish_hold]
  rfl

@[simp] theorem Dev.endWipe_mem : (s.endWipe new).mem = s.mem := by
  rw [Dev.endWipe, Dev.finish_mem]
  rfl

theorem Dev.endWipe_wiping : (s.endWipe new).flag (B.HOLD 0) F.HOLD_BOND_STAT_WIPING = false := by
  rw [Dev.endWipe, Dev.flag, Dev.fld_finish_ne _ _ _ (by decide), ← Dev.flag, Dev.flag_setFlag _ _ _ _ (by decide) rfl]

theorem Dev.endWipe_status : (s.endWipe new).fld (B.HOLD 0) F.BLK_STATUS_LAST_STATUS = Status.ok.code := Dev.fld_finish _ _ _

end

/-- Counting the wipe and its event leave memory as the wipe of its ergs left it. -/
@[simp] theorem Dev.wipeNow_mem (es : List Nat) : (s.wipeNow es).mem = (s.wipeErgs es).mem := by
  rw [Dev.wipeNow, Dev.event_mem, Dev.count_mem]

/-- Settles O10: banks by their supply; the bonded commands by their case; what settling leaves of a wipe that completes. -/
theorem holdBond : Obligations.HoldBond := by
  intro s src data hq
  refine ⟨fun e hr hw hem hm hb => ?_, fun bank hp hw => ?_, ?_, ?_, fun new ha hw => ?_⟩
  · have becomes := becomes_live (exec_bankRetentionEntry e s) hq
    rw [Dev.bankRetention_enters hr hw hem hm hb] at becomes
    refine becomes.completes ⟨fun i hi => ?_, ?_, ?_⟩
    · rw [Dev.bank, settle_hold, ← Dev.bank, Dev.retain_power, if_pos (List.mem_map.2 ⟨i, List.mem_range.2 hi, rfl⟩)]
    · rw [settle_mem, Dev.retain_keeps (p := Dev.mem) fun _ _ _ => rfl]
    · rw [settle_hold, Dev.retain_keeps (p := fun d => d.hold.syn) fun _ _ _ => rfl]
  · have becomes := becomes_live (exec_bankWake bank s) hq
    rw [Dev.bankWake_unheld hp hw] at becomes
    refine becomes.completes ⟨?_, settle_mem _⟩
    rw [Dev.bank, settle_hold]
    exact congrArg BankSt.power ((Dev.bank_setBank _ _ _).trans (if_pos rfl))
  · intro w new hwr hd he hw s1
    have becomes := becomes_command (exec_bondSet src data s) (by decide) hwr
    rwa [Dev.writeReg_bondCmd, Dev.bondCmd_set (mod_four_withField 1 (by decide)) hd
      (by simp only [Dev.storeReg_hold, Dev.storeReg_erg]; exact he) (by rwa [Dev.storeReg_hold])] at becomes
  · intro w hwr hw s1
    have becomes := becomes_command (exec_bondWipe src data s) (by decide) hwr
    rwa [Dev.writeReg_bondCmd, Dev.bondCmd_wipe (mod_four_withField 2 (by decide)) (by rwa [Dev.storeReg_hold])] at becomes
  · have becomes := becomes_clocked (exec_bondWiped s) ha hq
    rw [Dev.bondWiped_ends hw] at becomes
    refine becomes.completes ⟨?_, ?_, ?_, ?_, ?_⟩
    · rw [settle_hold, Dev.endWipe_hold]
    · rw [settle_hold, Dev.endWipe_hold]
    · rw [settle_flag _ _ _ (by decide) (by decide) (.inl (by decide)), Dev.endWipe_wiping]
    · rw [settle_mem, Dev.endWipe_mem, Dev.wipeNow_mem]
    · rw [settle_fld _ _ _ (by decide) (by decide) (.inl (by decide)), Dev.endWipe_status]

end Sys2Proof.Machine
end

section
/-! Marches over the hold and the plane stores (R203, R520). -/

namespace Sys2Proof.Machine

variable {s : Dev}

/-- The march that a word written to MARCH_CMD asks for (R209). -/
def marchOf (w : Word) (preserving : Bool) : March :=
  { planeStore := nbit w.toNat 2, preserving, first := nfield w.toNat 3 5, last := nfield w.toNat 8 5, aborted := false }

/-- What a march needs to start: its ergs in order, a mode for it, ergs that are awake and do not run, free slots where it marches plane stores,
no bonded erg where it destroys the hold outside Dry dock, and no test under way (R203, R520). -/
structure Dev.MayMarch (s : Dev) (m : March) : Prop where
  order : m.first ≤ m.last
  mode : s.mode = .moored ∨ s.mode = .underway ∨ s.mode = .dryDock
  idle : ∀ e ∈ m.ergs, (s.erg e).mode ≠ .running ∧ (s.erg e).slack.runs = true
  slots : m.planeStore = true → ∀ e ∈ m.ergs, ∀ q < 8, (s.slot e q).st = .free
  bonded : m.preserving = false → m.planeStore = false → s.mode ≠ .dryDock → ∀ e ∈ m.ergs, e ∉ s.hold.bond.ergs
  noMarch : s.bist.march = none
  noRun : s.bist.ddRun = none

/-- MARCH_CMD.START of a march that may start (R203): `op` is 1, or 2 where the march preserves. -/
theorem Dev.marchCmd_starts {w : Word} {p : Bool} (hop : w.toNat % 4 = p.toNat + 1) (h : s.MayMarch (marchOf w p)) :
    s.marchCmd w = { s with bist := { s.bist with march := some (marchOf w p) } } := by
  have preserves : (w.toNat % 4 == 2) = p := by rw [hop]; cases p <;> rfl
  have ordered : decide ((marchOf w p).last < (marchOf w p).first) = false := decide_eq_false (Nat.not_lt.2 h.order)
  have unbonded : (w.toNat % 4 == 1 && !(marchOf w p).planeStore && s.mode != .dryDock &&
      (marchOf w p).ergs.any fun e => s.hold.bond.ergs.contains e) = false := by
    rw [Bool.eq_false_iff]
    intro hb
    simp only [Bool.and_eq_true, List.any_eq_true, List.contains_iff_mem, beq_iff_eq, bne_iff_ne, Bool.not_eq_true'] at hb
    obtain ⟨⟨⟨h1, hplane⟩, hmode⟩, e, he, hbond⟩ := hb
    have destroys : p = false := by cases p with | false => rfl | true => rw [h1] at hop; contradiction
    exact h.bonded destroys hplane hmode e he hbond
  have inMode : (!(s.mode == .moored || s.mode == .underway || s.mode == .dryDock)) = false := by
    obtain hm | hm | hm := h.mode <;> rw [hm] <;> rfl
  have ergsIdle : ((marchOf w p).ergs.any fun e => (s.erg e).mode == .running || !(s.erg e).slack.runs) = false := by
    rw [List.any_eq_false]
    intro e he
    obtain ⟨hmode, hslack⟩ := h.idle e he
    simp [hmode, hslack]
  have slotsFree : ((marchOf w p).ergs.any fun e => (marchOf w p).planeStore && (List.range 8).any fun q => (s.slot e q).st != .free) = false := by
    rw [List.any_eq_false]
    intro e he
    simp only [Bool.and_eq_true, List.any_eq_true, List.mem_range, bne_iff_ne]
    rintro ⟨hplane, q, hq, hslot⟩
    exact hslot (h.slots hplane e he q hq)
  have noTest : (s.bist.march.isSome || s.bist.ddRun.isSome) = false := by rw [h.noMarch, h.noRun]; rfl
  unfold Dev.marchCmd
  dsimp only
  rw [if_neg (by omega), if_neg (by cases p <;> simp [hop]), preserves]
  refine s.guarded_runs _ _ ?_
  simp only [List.forall_mem_cons]
  exact ⟨ordered, unbonded, Bool.or_eq_false_iff.2 ⟨Bool.or_eq_false_iff.2 ⟨inMode, ergsIdle⟩, slotsFree⟩, noTest, fun _ h => nomatch h⟩

/-- MARCH_CMD.ABORT marks the march under way (R203). -/
theorem Dev.marchCmd_aborts {w : Word} {m : March} (hop : w.toNat % 4 = 3) (hm : s.bist.march = some m) :
    s.marchCmd w = { s with bist := { s.bist with march := some { m with aborted := true } } } := by
  simp [Dev.marchCmd, hop, hm]

/-- A command of MARCH_CMD by what its word does. -/
theorem becomes_marchCmd {c : Instr} {m : State} {src : RegSrc} {w : Word} (hc : exec c m = run (fun d => d.command src B.BIST O.MARCH_CMD w) m)
    (hw : m.dev.writes src B.BIST O.MARCH_CMD w) : Becomes c m (m.dev.marchCmd w).okReply := by
  have becomes := becomes_command hc (by decide) hw
  rwa [Dev.writeReg_marchCmd] at becomes

/-- Settles O11: a march starts where it may, ABORT marks the one under way, and MARCH_DONE ends it where nothing stops BIST. -/
theorem marches : Obligations.Marches := by
  intro s src data march may
  have starts (w : Word) (p : Bool) (h : may w p) : s.dev.MayMarch (marchOf w p) := by
    obtain ⟨horder, hmode, hergs, hmarch, hrun⟩ := h
    exact ⟨horder, hmode, fun e he => ⟨(hergs e he).1, (hergs e he).2.1⟩, fun hplane e he => (hergs e he).2.2.1 hplane,
      fun hp hplane hdock e he => (hergs e he).2.2.2 hp hplane hdock, hmarch, hrun⟩
  refine ⟨fun hw h => ?_, fun hw h => ?_, fun m hw hm => ?_, fun m fails touched hq hg hh hm => ?_⟩
  · have becomes := becomes_marchCmd (exec_marchDestructive src data s) hw
    rwa [Dev.marchCmd_starts (mod_four_withField 1 (by decide)) (starts _ false h)] at becomes
  · have becomes := becomes_marchCmd (exec_marchPreserving src data s) hw
    rwa [Dev.marchCmd_starts (mod_four_withField 2 (by decide)) (starts _ true h)] at becomes
  · have becomes := becomes_marchCmd (exec_marchAbort src data s) hw
    rwa [Dev.marchCmd_aborts (mod_four_withField 3 (by decide)) hm] at becomes
  · rw [Becomes, exec_marchDone, run, Dev.unlessStopped_open _ _ _ hg hh hq, Dev.marchDone, hm]

end Sys2Proof.Machine
end

section
/-! The scrubber, triggered and idle, and the transfer monitor's largest count (R205 to R209). -/

namespace Sys2Proof.Machine

variable {s : Dev}

/-! ### SCRB_CMD -/

/-- The device with the summary of the latest triggered scrub cleared (R207). -/
def Dev.clearScrubSummary (s : Dev) : Dev :=
  (((s.setReg B.SCRB O.SCRB_CORR 0).setReg B.SCRB O.SCRB_UNCORR 0).setReg B.SCRB O.SCRB_FIRST 0).setReg B.SCRB O.SCRB_LAST 0

@[simp] theorem Dev.clearScrubSummary_hold : s.clearScrubSummary.hold = s.hold := rfl
@[simp] theorem Dev.clearScrubSummary_mem : s.clearScrubSummary.mem = s.mem := rfl

/-- The registers of the summary (R209). -/
def scrubSummary : List Nat := [O.SCRB_CORR, O.SCRB_UNCORR, O.SCRB_FIRST, O.SCRB_LAST]

/-- They are neither the block's events nor its status. -/
theorem scrubSummary_own : ∀ o ∈ scrubSummary, o < blockBytes ∧ o ≠ O.EVT_STATUS ∧ o ≠ O.BLK_STATUS := by decide

theorem Dev.clearScrubSummary_reg {o : Nat} (ho : o ∈ scrubSummary) : s.clearScrubSummary.reg B.SCRB o = 0 := by
  unfold Dev.clearScrubSummary
  simp only [scrubSummary, List.mem_cons, List.not_mem_nil, or_false] at ho
  obtain rfl | rfl | rfl | rfl := ho
  · rw [Dev.reg_setReg_ne _ _ _ _ _ _ (by decide), Dev.reg_setReg_ne _ _ _ _ _ _ (by decide), Dev.reg_setReg_ne _ _ _ _ _ _ (by decide),
      Dev.reg_setReg]
  · rw [Dev.reg_setReg_ne _ _ _ _ _ _ (by decide), Dev.reg_setReg_ne _ _ _ _ _ _ (by decide), Dev.reg_setReg]
  · rw [Dev.reg_setReg_ne _ _ _ _ _ _ (by decide), Dev.reg_setReg]
  · rw [Dev.reg_setReg]

/-- Clearing the summary leaves the scrubber its clock. -/
theorem Dev.clearScrubSummary_gated : s.clearScrubSummary.gated B.SCRB = s.gated B.SCRB := by
  have enables : s.clearScrubSummary.reg B.CLK (O.CLK_EN0 + 4 * (B.SCRB / 32)) = s.reg B.CLK (O.CLK_EN0 + 4 * (B.SCRB / 32)) := by
    rw [Dev.clearScrubSummary, Dev.reg_setReg_ne _ _ _ _ _ _ (by decide), Dev.reg_setReg_ne _ _ _ _ _ _ (by decide),
      Dev.reg_setReg_ne _ _ _ _ _ _ (by decide), Dev.reg_setReg_ne _ _ _ _ _ _ (by decide)]
  rw [Dev.gated, Dev.gated, enables]

/-- A triggered scrub begins, with an empty summary (R207). -/
def Dev.beginScrub (s : Dev) (r : ScrubRun) : Dev := { s.clearScrubSummary with hold := { s.hold with scrub := some r } }

theorem summary_settle_beginScrub (r : ScrubRun) {o : Nat} (ho : o ∈ scrubSummary) :
    (s.beginScrub r).okReply.settle.reg B.SCRB o = 0 := by
  obtain ⟨hb, he, -⟩ := scrubSummary_own o ho
  exact (settle_reg _ _ _ hb he (.inl (by decide))).trans (Dev.clearScrubSummary_reg ho)

/-- A triggered scrub ends, its summary as it stands (R207). -/
def Dev.endScrub (s : Dev) : Dev := (s.event B.SCRB 0).finish B.SCRB .ok

theorem summary_settle_endScrub {o : Nat} (ho : o ∈ scrubSummary) :
    s.clearScrubSummary.endScrub.okReply.settle.reg B.SCRB o = 0 := by
  obtain ⟨hb, he, hs⟩ := scrubSummary_own o ho
  rw [Dev.endScrub, reg_settle_finish _ _ _ hb he hs (.inl (by decide)), Dev.event_reg _ _ _ _ _ hb he (.inl (by decide)),
    Dev.clearScrubSummary_reg ho]

theorem not_isJp_scrb : ¬ isJp B.SCRB := by unfold isJp; decide
theorem not_isCw_scrb : ¬ isCw B.SCRB := by unfold isCw; decide

/-- DONE stands after a scrub has ended, where the scrubber has its clock (R207). -/
theorem done_settle_endScrub (hg : s.gated B.SCRB = false) : nbit (s.endScrub.okReply.settle.reg B.SCRB O.EVT_STATUS).toNat 0 = true := by
  rw [settle_evt _ _ not_isJp_scrb not_isCw_scrb, Dev.okReply_reg, Dev.endScrub, Dev.reg_finish_ne _ _ _ _ _ (by decide),
    Dev.nbit_event _ (by decide) hg not_isCw_scrb]

@[simp] theorem Dev.endScrub_hold : s.endScrub.hold = s.hold := by rw [Dev.endScrub, Dev.finish_hold, Dev.event_hold]
@[simp] theorem Dev.endScrub_mem : s.endScrub.mem = s.mem := by rw [Dev.endScrub, Dev.finish_mem, Dev.event_mem]

section
variable {w : Word} (hop : w.toNat % 4 = 1) (hs : s.hold.scrub = none)
include hop hs

/-- START of a scrub of some rows, all of them in the hold (R205, R207). -/
theorem Dev.scrbCmd_starts (hn : 0 < s.fld B.SCRB F.SCRB_ROWS_COUNT)
    (hr : s.fld B.SCRB F.SCRB_START_ROW + s.fld B.SCRB F.SCRB_ROWS_COUNT ≤ 0x400000) :
    s.scrbCmd w = s.beginScrub { first := s.fld B.SCRB F.SCRB_START_ROW, count := s.fld B.SCRB F.SCRB_ROWS_COUNT } := by
  unfold Dev.scrbCmd
  rw [hop]
  refine (s.guarded_runs _ _ ?_).trans (if_neg hn.ne')
  simp only [List.forall_mem_cons]
  exact ⟨by simp [Nat.not_lt.2 hr], by rw [hs]; rfl, fun _ h => nomatch h⟩

/-- START of a scrub of no rows ends at once (R207). -/
theorem Dev.scrbCmd_empty (hn : s.fld B.SCRB F.SCRB_ROWS_COUNT = 0) :
    s.scrbCmd w = s.clearScrubSummary.endScrub := by
  unfold Dev.scrbCmd
  rw [hop]
  refine (s.guarded_runs _ _ ?_).trans (if_pos hn)
  simp only [List.forall_mem_cons]
  exact ⟨by simp [hn], by rw [hs]; rfl, fun _ h => nomatch h⟩

end

theorem Dev.scrbCmd_aborts {w : Word} {r : ScrubRun} (hop : w.toNat % 4 = 2) (hs : s.hold.scrub = some r) :
    s.scrbCmd w = { s with hold := { s.hold with scrub := some { r with aborted := true } } } := by
  simp [Dev.scrbCmd, hop, hs]

/-- A command of SCRB_CMD by what its word does. -/
theorem becomes_scrbCmd {c : Instr} {m : State} {src : RegSrc} {w : Word} (hc : exec c m = run (fun d => d.command src B.SCRB O.SCRB_CMD w) m)
    (hw : m.dev.writes src B.SCRB O.SCRB_CMD w) : Becomes c m (m.dev.scrbCmd w).okReply := by
  have becomes := becomes_command hc (by decide) hw
  rwa [Dev.writeReg_scrbCmd] at becomes

/-! ### Rows and laps -/

/-- A turn in a quadrant whose next row lies in an erg that no dry-dock slot covers, where nothing stops the scrubber. -/
theorem Dev.scrubTurn_runs {idle : Bool} {q e : Nat} (he : s.scrubErg idle q = some e) (hd : s.inDock e = none) (ha : ¬ 1 ∈ s.clk.applying)
    (hg : s.gated B.SCRB = false) (hh : s.halted B.SCRB = false) (hq : s.mode ≠ .quarantine) :
    s.scrubTurn idle q = s.scrubRow idle q := by
  simp [Dev.scrubTurn, he, hd, ha, s.unlessStopped_open _ _ hg hh hq]

/-- The triggered scrub visits a row of a bank that it does not skip and whose row port is free. -/
theorem Dev.scrubRow_triggered {q g : Nat} {r : ScrubRun} (hs : s.hold.scrub = some r) (ha : r.aborted = false) (hn : r.next q = some g)
    (hk : s.scrubSkips (g / 512) = false) (hf : s.scrubFree (g / 512) = true) :
    let s1 := s.scrubOne true g
    s.scrubRow false q = { s1 with hold := { s1.hold with
      scrub := some { r with visited := Map.modify (fun _ => 0) r.visited q (· + 1) } } } := by
  simp [Dev.scrubRow, hs, ha, hn, Dev.scrubStep, hk, hf]

/-- The idle scrubber visits a row of a bank that it does not skip and whose row port is free. -/
theorem Dev.scrubRow_idle {q : Nat} (he : s.flag B.SCRB F.SCRB_IDLE_CTRL_EN = true) (hi : s.scrubIn q = false)
    (hn : Map.get (fun _ => 0) s.hold.idleRows q < quadrantRows)
    (hk : s.scrubSkips ((quadrantRows * q + Map.get (fun _ => 0) s.hold.idleRows q) / 512) = false)
    (hf : s.scrubFree ((quadrantRows * q + Map.get (fun _ => 0) s.hold.idleRows q) / 512) = true) :
    let n := Map.get (fun _ => 0) s.hold.idleRows q
    let s1 := s.scrubOne false (quadrantRows * q + n)
    s.scrubRow true q = { s1 with hold := { s1.hold with idleRows := Map.set (fun _ => 0) s1.hold.idleRows q (n + 1) } } := by
  simp [Dev.scrubRow, Dev.idleStep, he, hi, Nat.not_le.2 hn, hk, hf]

theorem Dev.scrubDone_ends {r : ScrubRun} (hs : s.hold.scrub = some r) (ho : r.over_ = true) :
    s.scrubDone = ({ s with hold := { s.hold with scrub := none } }.setFlag B.SCRB F.SCRB_UNCORR_ABORTED r.aborted).endScrub := by
  simp [Dev.scrubDone, Dev.endScrub, hs, ho]

theorem Dev.scrubLap_ends {us : Nat} (he : s.flag B.SCRB F.SCRB_IDLE_CTRL_EN = true)
    (hr : ∀ q < 8, quadrantRows ≤ Map.get (fun _ => 0) s.hold.idleRows q) (hu : us < 2 ^ 32) :
    s.scrubLap us = ({ s with hold := { s.hold with idleRows := [] } }.setFld B.SCRB F.SCRB_IDLE_LAP_LAP_US us).event B.SCRB 2 := by
  have swept : (List.range 8).all (fun q => decide (quadrantRows ≤ Map.get (fun _ => 0) s.hold.idleRows q)) = true := by
    simpa [List.all_eq_true] using hr
  rw [Dev.scrubLap, if_neg (by rw [he, swept]; decide), Nat.min_eq_left (by omega)]

/-- A read of HOLD_XFER_MAX that is carried out shows the register and clears the count (R209). -/
theorem becomes_holdXferMaxRead {m : State} {src : RegSrc} {peek : Bool} (hp : src.peeks peek = false)
    (hr : m.dev.reads src (B.HOLD 0) O.HOLD_XFER_MAX) :
    Becomes (.holdXferMaxRead src peek) m (m.dev.xferMaxRead.okReply (m.dev.showReg src.src (B.HOLD 0) O.HOLD_XFER_MAX false)) := by
  obtain ⟨hg, hd⟩ := hr
  rw [Becomes, exec_holdXferMaxRead, run, Dev.readCommand_open _ _ _ _ _ (by decide) hg hd, hp]
  rfl

/-- Settles O12: each command by its case; settling leaves the hold, memory and the scrubber's registers. -/
theorem scrubs : Obligations.Scrubs := by
  intro s src data hq
  refine ⟨?_, fun hw hn hs => ?_, fun r hw hs => ?_, fun q r g ha hg hh hs hab hn hd hk hf => ?_, ?_, fun r hs ho => ?_,
    fun us he hr hu => ?_, fun peek hp hr => ?_⟩
  · intro first n hw hn hr hs
    have becomes := becomes_scrbCmd (exec_scrbStart src data s) hw
    rw [Dev.scrbCmd_starts (mod_four_withField 1 (by decide)) hs hn hr] at becomes
    exact becomes.completes ⟨settle_hold _, summary_settle_beginScrub _ (by decide), summary_settle_beginScrub _ (by decide),
      summary_settle_beginScrub _ (by decide), summary_settle_beginScrub _ (by decide)⟩
  · have becomes := becomes_scrbCmd (exec_scrbStart src data s) hw
    rw [Dev.scrbCmd_empty (mod_four_withField 1 (by decide)) hs hn] at becomes
    refine becomes.completes ⟨?_, ?_, done_settle_endScrub (Dev.clearScrubSummary_gated.trans hw.not_gated),
      summary_settle_endScrub (by decide), summary_settle_endScrub (by decide), lastStatus_settle_finish _ _ _⟩
    · rw [settle_hold, Dev.okReply_hold, Dev.endScrub_hold, Dev.clearScrubSummary_hold]
    · rw [settle_mem, Dev.okReply_mem, Dev.endScrub_mem, Dev.clearScrubSummary_mem]
  · have becomes := becomes_scrbCmd (exec_scrbAbort src data s) hw
    rw [Dev.scrbCmd_aborts (mod_four_withField 2 (by decide)) hs] at becomes
    exact becomes.completes ⟨settle_hold _, settle_mem _⟩
  · rw [Becomes, exec_scrubRow, run, Dev.scrubTurn_runs (by simp [Dev.scrubErg, hs, hn]) hd ha hg hh hq,
      Dev.scrubRow_triggered hs hab hn hk hf]
  · intro q n g ha hg hh hd he hi hn hk hf
    rw [Becomes, exec_scrubRow, run, Dev.scrubTurn_runs (by rfl) hd ha hg hh hq, Dev.scrubRow_idle he hi hn hk hf]
  · have becomes := becomes_live (exec_scrubDone s) hq
    rw [Dev.scrubDone_ends hs ho] at becomes
    refine becomes.completes ⟨?_, ?_, ?_, ?_⟩
    · rw [settle_hold, Dev.endScrub_hold, Dev.setFlag, Dev.setFld_hold]
    · rw [settle_flag _ _ _ (by decide) (by decide) (.inl (by decide)), Dev.flag, Dev.endScrub, Dev.fld_finish_ne _ _ _ (by decide),
        Dev.event_fld _ _ _ _ _ (by decide) (by decide) (.inl (by decide)), ← Dev.flag, Dev.flag_setFlag _ _ _ _ (by decide) rfl]
    · rw [settle_mem, Dev.endScrub_mem, Dev.setFlag, Dev.setFld_mem]
    · rw [settle_fld _ _ _ (by decide) (by decide) (.inl (by decide)), Dev.endScrub, Dev.fld_finish]
  · have becomes := becomes_live (exec_scrubLap us s) hq
    rw [Dev.scrubLap_ends he hr hu] at becomes
    refine becomes.completes ⟨?_, ?_, ?_⟩
    · rw [settle_reg _ _ _ (by decide) (by decide) (.inl (by decide)), Dev.event_reg _ _ _ _ _ (by decide) (by decide) (.inl (by decide)),
        ← Dev.fld_word]
      exact (Dev.fld_setFld _ B.SCRB F.SCRB_IDLE_LAP_LAP_US us (by decide)).trans (Nat.mod_eq_of_lt hu)
    · rw [settle_hold, Dev.event_hold, Dev.setFld_hold]
    · rw [settle_mem, Dev.event_mem, Dev.setFld_mem]
  · refine (becomes_holdXferMaxRead hp hr).completes ⟨settle_reply _, ?_, ?_, settle_hold _⟩
    · rw [settle_fld _ _ _ (by decide) (by decide) (.inl (by decide)), Dev.okReply_fld, Dev.xferMaxRead, Dev.fld_setFld _ _ _ _ (by decide),
        Nat.zero_mod]
    · rw [settle_fld _ _ _ (by decide) (by decide) (.inl (by decide)), Dev.okReply_fld, Dev.xferMaxRead,
        Dev.fld_setFld_field _ (B.HOLD 0) F.HOLD_XFER_MAX_MAX F.HOLD_XFER_MAX_OVER_CNT _ (by decide) rfl (.inr (by decide))]

end Sys2Proof.Machine
end

section
/-! Reading a remap entry (R191, R192, R209). -/

namespace Sys2Proof.Machine

variable {s : Dev}

/-- READ of a valid entry: the register takes the row, the word, VALID and the count of valid entries as one sum. -/
theorem Dev.remapCmd_read {k row wd : Nat} {w : Word} (hop : w.toNat % 4 = 1)
    (hr : s.remapAt (1024 * k + nfield w.toNat 16 10) (nfield w.toNat 2 3) = some (row, wd)) : s.remapCmd k w =
      (s.setReg (B.HOLD k) O.HOLD_REMAP_ENTRY
        (BitVec.ofNat 32 (row + 512 * wd + 16384 + 65536 * s.remapUsed (1024 * k + nfield w.toNat 16 10)))).finish (B.HOLD k) .ok := by
  simp [Dev.remapCmd, hop, hr]

/-- VALID as READ shows it: a word number beyond its five bits carries into it. -/
theorem nfield_remapEntry_valid (row wd used : Nat) :
    nfield (BitVec.ofNat 32 (row + 512 * wd + 16384 + 65536 * used)).toNat 14 1 = (row + 512 * wd + 16384) / 16384 % 2 := by
  rw [nfield, BitVec.toNat_ofNat, Nat.shiftRight_eq_div_pow]
  omega

/-- VALID after REMAP_READ of an entry that stands in the table. -/
theorem completes_remapRead_valid {m : State} {src : RegSrc} {k : Fin 8} {data : Word} {row wd : Nat}
    (hw : m.dev.writes src (B.HOLD k.val) O.HOLD_REMAP_CMD (withField data 0 2 1))
    (hr : m.dev.remapAt (1024 * k.val + nfield (withField data 0 2 1).toNat 16 10) (nfield (withField data 0 2 1).toNat 2 3) = some (row, wd)) :
    Completes (.remapRead src k data) m fun d =>
      d.fld (B.HOLD k.val) F.HOLD_REMAP_ENTRY_VALID = (row + 512 * wd + 16384) / 16384 % 2 := by
  have becomes := becomes_command (exec_remapRead src k data m) (by decide) hw
  rw [Dev.writeReg_remapCmd, Dev.remapCmd_read (mod_four_withField 1 (by decide)) (by rwa [Dev.remapAt, Dev.storeReg_hold])] at becomes
  refine becomes.completes ?_
  rw [settle_fld _ _ _ (by decide) (by decide) (.inr (by decide)), Dev.okReply_fld, Dev.fld_finish_ne _ _ _ (by decide)]
  exact (congrArg (fun w : Word => nfield w.toNat 14 1) (Dev.reg_setReg _ _ _ _)).trans (nfield_remapEntry_valid _ _ _)

/-- A device in Moored whose remap table has, as entry 0 of bank 0, word 32 of row 0, which no bank has (R191). -/
def remapBeyondWords : State :=
  { dev := ({ clk := { mainPower := true, phase := .done }, hold := { remap := [(0, some (0, 32))] } } : Dev).setFld B.LH F.LH_MODE_MODE
      Mode.moored.code }

/-- Refutes O9: its first clause asks that READ shows VALID for whatever entry the table holds, and word 32 of row 0, which fits no WORD
field, carries into VALID and leaves it 0. -/
theorem not_holdRemap : ¬ Obligations.HoldRemap := by
  intro h
  have carried : remapBeyondWords.dev.writes .host (B.HOLD 0) O.HOLD_REMAP_CMD (withField 0 0 2 1) := by unfold Dev.writes; decide
  have listed : remapBeyondWords.dev.remapAt 0 0 = some (0, 32) := by decide
  obtain ⟨hread, -⟩ := h remapBeyondWords .host 0 0 (by decide)
  obtain ⟨d, hd, hvalid, -⟩ := hread carried
  obtain ⟨d', hd', hshown⟩ := completes_remapRead_valid (k := 0) carried listed
  have same : d = d' := congrArg State.dev (Host.Outcome.next.inj (hd.symm.trans hd'))
  have one : (remapBeyondWords.dev.remapAt 0 0).isSome.toNat = 1 := by rw [listed]; rfl
  exact absurd ((hshown.symm.trans (same ▸ hvalid)).trans one) (by decide)

end Sys2Proof.Machine
end

section
/-! The router output's cycle, the end of an initiator's timer and of a lease: what each does where its time has come (R227, R236, R240). -/

namespace Sys2Proof.Machine

variable {s : Dev}

/-- The device before a router's output has its cycle: its router has taken in what fits (R226). -/
abbrev Dev.hopTakesIn (s : Dev) (r : Nat) : Dev := s.inject r 64

/-- The position of an output's wheel (R227). -/
abbrev Dev.wheelAt (s : Dev) (r o : Nat) : Nat := Map.get (fun _ => 0) (s.router r).wheel o

/-- The wheel of an output one position on (R227). -/
abbrev Dev.turnWheel (s : Dev) (r o : Nat) : Dev :=
  s.setRouter r { s.router r with wheel := Map.set (fun _ => 0) (s.router r).wheel o (s.wheelAt r o + 1) }

/-- No flit is ready: the cycle turns the wheel and no more. -/
theorem Dev.routerHop_idle {r o : Nat} (errs : List (Nat × BitVec 72))
    (h : wheelPick ((s.hopTakesIn r).wheelAt r o) ((s.hopTakesIn r).candidates r o) = none) :
    s.routerHop r o errs = (s.hopTakesIn r).turnWheel r o := by
  simp only [Dev.routerHop, h]

/-- The flit that the wheel picks is sent. -/
theorem Dev.routerHop_sends {r o : Nat} {c : Cand} (errs : List (Nat × BitVec 72))
    (h : wheelPick ((s.hopTakesIn r).wheelAt r o) ((s.hopTakesIn r).candidates r o) = some c) :
    s.routerHop r o errs = ((s.hopTakesIn r).turnWheel r o).hopFlit r o c errs := by
  simp only [Dev.routerHop, h]

/-- The request under a tag whose timer is over. -/
abbrev Dev.overdue (s : Dev) (who : Src) (tag : Nat) : Option Out :=
  s.net.outs.find? (fun o => o.src.sameSlots who && o.tag == tag && timerOver o.deadline s.clk.time)

theorem Dev.initiatorTimeout_due {who : Src} {tag : Nat} {o : Out} (ho : s.overdue who tag = some o) (hq : s.mode ≠ .quarantine)
    (hh : s.srcHalted o.src = false) : s.initiatorTimeout who tag = s.timedOut o := by
  simp [Dev.initiatorTimeout, ho, hq, hh]

/-- A request given up: its slot is free, the timeout is counted and recorded (R236). -/
abbrev Dev.givenUp (s : Dev) (o : Out) : Dev :=
  ({ s with net := { s.net with outs := s.net.outs.filter (· != o) } }.count B.HN F.HN_TO_CNT_TIMEOUT_CNT).classU B.HN 1 .timeout o.addr s.coord

/-- A berth counts its timeouts (R125). -/
theorem Dev.timedOut_berth {o : Out} {b : Fin 512} (h : o.src = .berth b) : s.timedOut o =
    ((s.givenUp o).setBerth b.val { (s.givenUp o).berth b.val with
      timeouts := satAdd 16 ((s.givenUp o).berth b.val).timeouts 1 }).giveAnswer o .timeout [] := by
  simp only [Dev.timedOut, h]

theorem Dev.timedOut_other {o : Out} (h : ∀ b, o.src ≠ .berth b) : s.timedOut o = (s.givenUp o).giveAnswer o .timeout [] := by
  unfold Dev.timedOut
  dsimp only
  split
  next b hb => exact absurd hb (h b)
  next => rfl

/-- A lease that is over frees its line, and the waiters go on. -/
theorem Dev.leaseExp_due {t line : Nat} {l : Lock} (hl : (s.locks t).find? (fun l => l.line == line) = some l)
    (ht : timerOver l.expires s.clk.time = true) (hs : s.leaseStands l = false) : s.leaseExp t line =
      (((s.setLocks t ((s.locks t).filter (· != l))).count B.HN F.HN_MISC_CNT_LEASE_EXP_CNT).classU B.HN 4 .ok (64 * line)
        (nodeDev l.holder)).waitersGo t := by
  simp [Dev.leaseExp, hl, ht, hs]

/-- Settles O14: each command meets none of what would keep it from acting. -/
theorem networkTimers : Obligations.NetworkTimers := by
  intro s
  refine ⟨fun router output errs ha hq => ⟨fun hnone => ?_, fun c hsome => ?_⟩, fun who tag o ho hq hh hsrc => ?_,
    fun who tag o b ho hq hh hsrc => ?_, fun table line l hl ht hq hs => ?_⟩
  · have becomes := becomes_clocked (exec_routerHop router output errs s) ha hq
    rwa [Dev.routerHop_idle _ hnone] at becomes
  · have becomes := becomes_clocked (exec_routerHop router output errs s) ha hq
    rwa [Dev.routerHop_sends _ hsome] at becomes
  · rw [Becomes, exec_initiatorTimeout, run, Dev.initiatorTimeout_due ho hq hh, Dev.timedOut_other hsrc]
  · rw [Becomes, exec_initiatorTimeout, run, Dev.initiatorTimeout_due ho hq hh, Dev.timedOut_berth hsrc]
  · rw [← Dev.leaseExp_due hl ht hs]
    exact becomes_live (exec_leaseExp table line s) hq

end Sys2Proof.Machine
end

section
/-! Port arbiters: the input that a free one grants, what a granted request does, windows, cut-offs, and the longest wait as it is read (R238, R241 to
R246, R252). -/

namespace Sys2Proof.Machine

/-- The search from the top finds the highest number of which `p` holds. -/
theorem find?_reverse_range {p : Nat → Bool} {n i : Nat} (hi : i < n) (hp : p i = true) (habove : ∀ j, i < j → j < n → p j = false) :
    (List.range n).reverse.find? p = some i := by
  induction n with
  | zero => omega
  | succ n ih =>
    rw [List.range_succ, List.reverse_append, List.reverse_singleton, List.singleton_append, List.find?_cons]
    by_cases hn : i = n
    · rw [← hn, hp]
    · rw [habove n (by omega) (by omega)]
      exact ih (by omega) fun j hij hjn => habove j hij (by omega)

variable (s : Dev) (a : Nat)

/-- Whether an input of an arbiter has a request and is not masked (R243). -/
def Dev.calls (i : Nat) : Bool := !s.arbMasked a i && (s.arb a).queue.any (fun q => s.arbInput a q.msg.h.qg == i)

variable {s a}

theorem Dev.calls_of_find {i : Nat} {q : ArbReq} (hm : s.arbMasked a i = false)
    (hq : (s.arb a).queue.find? (fun q => s.arbInput a q.msg.h.qg == i) = some q) : s.calls a i = true := by
  rw [Dev.calls, hm, Bool.not_false, Bool.true_and, List.any_eq_true]
  exact ⟨q, List.mem_of_find?_eq_some hq, List.find?_some (p := fun q : ArbReq => s.arbInput a q.msg.h.qg == i) hq⟩

theorem Dev.calls_eq_false {i : Nat} (h : s.arbMasked a i = true ∨ ∀ r ∈ (s.arb a).queue, s.arbInput a r.msg.h.qg ≠ i) : s.calls a i = false := by
  rcases h with hm | hr
  · simp [Dev.calls, hm]
  · simpa [Dev.calls] using fun _ => hr

/-- The arbiter with a request taken off its queue and its input's count up by one (R244). -/
abbrev Dev.arbTaken (s : Dev) (a i : Nat) (q : ArbReq) : Dev :=
  (s.setArb a { s.arb a with queue := (s.arb a).queue.erase q, used := Map.modify (fun _ => 0) (s.arb a).used i (· + 1) }).showArb a

/-- A free arbiter grants the first request of the highest input that calls (R243); a controller does so in RUN, where its queue has room (R265). -/
theorem Dev.arbiterGrant_grants {i : Nat} {q : ArbReq} (hfree : (s.arb a).grant = none)
    (hdmc : a < 8 → s.fld (B.DMC a) F.DMC_STATE_STATE = 2 ∧ (q.msg.h.op ≤ 2 → s.dmcRoom a q.msg = true)) (hi : i < 16)
    (hm : s.arbMasked a i = false) (hq : (s.arb a).queue.find? (fun q => s.arbInput a q.msg.h.qg == i) = some q)
    (habove : ∀ j, i < j → j < 16 → s.arbMasked a j = true ∨ ∀ r ∈ (s.arb a).queue, s.arbInput a r.msg.h.qg ≠ j) :
    s.arbiterGrant a = (s.arbTaken a i q).arbServe a { q with input := i } := by
  have best : (List.range 16).reverse.find? (s.calls a) = some i :=
    find?_reverse_range hi (Dev.calls_of_find hm hq) fun j hij hj => Dev.calls_eq_false (habove j hij hj)
  have runs : ¬ (a < 8 ∧ ¬ s.fld (B.DMC a) F.DMC_STATE_STATE = 2) := fun ⟨h8, h⟩ => h (hdmc h8).1
  have room : ¬ ((a < 8 ∧ q.msg.h.op ≤ 2) ∧ s.dmcRoom a q.msg = false) := fun ⟨⟨h8, hop⟩, h⟩ => by simp [(hdmc h8).2 hop] at h
  unfold Dev.calls at best
  simp [Dev.arbiterGrant, Dev.arbTaken, hfree, runs, best, hq, room]

/-- Where no input calls, nothing is granted (R243). -/
theorem Dev.arbiterGrant_none (h : ∀ i < 16, s.calls a i = false) : s.arbiterGrant a = s := by
  have best : (List.range 16).reverse.find? (s.calls a) = none := by simpa [List.find?_eq_none] using h
  unfold Dev.calls at best
  simp only [Dev.arbiterGrant, best, ite_self]

/-- A turn in which the arbiter grants nothing. -/
theorem Dev.arbTurn_idle (h : s.arbiterGrant a = s) : s.arbTurn a = s := by
  unfold Dev.arbTurn Dev.unlessStopped Dev.live
  simp only [h, ite_self]

theorem Dev.arbTurn_open (ha : ¬ 2 ∈ s.clk.applying) (hq : s.mode ≠ .quarantine) (hg : s.gated (arbBlock a) = false)
    (hh : s.halted (arbBlock a) = false) : s.arbTurn a = s.arbiterGrant a := by
  simp [Dev.arbTurn, ha, s.unlessStopped_open _ _ hg hh hq]

/-! ### What a granted request does -/

@[simp] theorem Dev.arb_setArb (x : ArbSt) : (s.setArb a x).arb a = x := by simp [Dev.arb, Dev.setArb, Map.get_set]

variable {q : ArbReq}

/-- A READ or a WRITE that meets no lock holds the grant (R242). -/
theorem Dev.arbServe_holds (hop : q.msg.h.op ≤ 2) (hm : s.lockMeets q.msg = false) :
    s.arbServe a q = s.setArb a { s.arb a with grant := some q, heldFor := 0, grantAt := s.clk.time } := by
  have h5 : q.msg.h.op ≠ 5 := by omega
  have h6 : q.msg.h.op ≠ 6 := by omega
  simp [Dev.arbServe, h5, h6, hm]

/-- An ACQUIRE of a free line, where the table has room, takes it (R238). -/
theorem Dev.arbServe_acquires (hop : q.msg.h.op = 5) (hm : s.lockMeets q.msg = false)
    (hfree : ∀ l ∈ s.locks (s.lockTable q.msg.h.addr), l.line ≠ q.msg.h.addr / 64)
    (hroom : (s.locks (s.lockTable q.msg.h.addr)).length < lockRoom (s.lockTable q.msg.h.addr)) :
    s.arbServe a q = (s.setLocks (s.lockTable q.msg.h.addr) (s.locks (s.lockTable q.msg.h.addr) ++
      [{ line := q.msg.h.addr / 64, holder := q.msg.h.src, expires := timerEnd s.clk.time (8 * q.msg.h.lease) }])).respondFrom
        (s.arbOf q.msg.h.addr) q.msg.h .ok := by
  have notHeld : ¬ ∃ l ∈ s.locks (s.lockTable q.msg.h.addr), l.line = q.msg.h.addr / 64 := fun ⟨l, hl, h⟩ => hfree l hl h
  simp [Dev.arbServe, Dev.lockServe, hop, hm, Dev.lockTake, notHeld, Nat.not_le.2 hroom]

theorem Dev.arbServe_relinquish (hop : q.msg.h.op = 6) : s.arbServe a q = s.lockFree q.msg := by simp [Dev.arbServe, Dev.lockServe, hop]

/-- A RELINQUISH of a line that its sender does not hold ends STATE (R238). -/
theorem Dev.lockFree_foreign {m : Msg} (h : ∀ l ∈ s.locks (s.lockTable m.h.addr), l.line = m.h.addr / 64 → l.holder ≠ m.h.src) :
    s.lockFree m = s.respondFrom (s.arbOf m.h.addr) m.h .state := by
  have notMine : (s.locks (s.lockTable m.h.addr)).any (fun l => l.line == m.h.addr / 64 && l.holder == m.h.src) = false := by
    simpa [List.any_eq_false] using h
  simp [Dev.lockFree, notMine]

/-- A RELINQUISH by the holder frees the line, and the waiters go on (R238). -/
theorem Dev.lockFree_holder {m : Msg} {l : Lock} (hl : l ∈ s.locks (s.lockTable m.h.addr)) (hline : l.line = m.h.addr / 64)
    (hh : l.holder = m.h.src) : s.lockFree m =
      ((s.setLocks (s.lockTable m.h.addr) ((s.locks (s.lockTable m.h.addr)).filter (fun l =>
        !(l.line == m.h.addr / 64 && l.holder == m.h.src)))).respondFrom (s.arbOf m.h.addr) m.h .ok).waitersGo (s.lockTable m.h.addr) := by
  have mine : (s.locks (s.lockTable m.h.addr)).any (fun l => l.line == m.h.addr / 64 && l.holder == m.h.src) = true :=
    List.any_eq_true.2 ⟨l, hl, by simp [hline, hh]⟩
  simp only [Dev.lockFree, mine, if_true]

/-! ### Windows, cut-offs and the longest wait -/

/-- Showing an arbiter stores fields of its controller's registers and no more. -/
theorem Dev.showArb_keeps {β : Type} {p : Dev → β} (h : ∀ (s : Dev) b f v, p (s.setFld b f v) = p s) : p (s.showArb a) = p s := by
  unfold Dev.showArb
  split
  · exact (Dev.forN_keeps _ (fun _ _ => h _ _ _ _) 16).trans (h _ _ _ _)
  · rfl

/-- A window of ARB_CFG.WIN cycles of NCLK is over (R244). -/
theorem Dev.arbiterWindow_ends (hm : s.mode ≠ .underway)
    (hw : 1000 * s.fld (arbBlock a) F.ARB_CFG_WIN ≤ 2 * (s.clk.time - (s.arb a).windowAt) * s.nclk) :
    s.arbiterWindow a = s.arbWindowStart a := by
  simp [Dev.arbiterWindow, hm, Nat.not_lt.2 hw]

theorem Dev.arbWindowStart_arb : (s.arbWindowStart a).arb a = { s.arb a with used := [], windowAt := s.clk.time } :=
  (Dev.showArb_keeps (p := fun d => d.arb a) fun _ _ _ _ => rfl).trans (Dev.arb_setArb _)

theorem Dev.arbWindowStart_mem : (s.arbWindowStart a).mem = s.mem := Dev.showArb_keeps (p := Dev.mem) fun _ _ _ _ => rfl

theorem settle_arb : s.settle.arb a = s.arb a := by rw [Dev.arb, settle_net, Dev.arb]

/-- A write grant that has lasted too long (R246). -/
theorem Dev.arbCut_cuts (hgrant : (s.arb a).grant = some q) (hop : q.msg.h.op = 2) (hold : s.grantOld a = true) : s.arbCut a =
    ((((((s.setArb a { s.arb a with grant := none, heldFor := 0, cut := (s.arb a).cut.filter (· != q.input) ++ [q.input] }).setReg
      (arbBlock a) O.ARB_FLAG (s.reg (arbBlock a) O.ARB_FLAG ||| BitVec.ofNat 32 (2 ^ q.input))).count (arbBlock a)
        F.ARB_CUT_CNT_CUT_CNT).classU (arbBlock a) 16 .cutoff q.msg.h.addr (nodeDev q.msg.h.src)).respondFrom a q.msg.h .cutoff)) := by
  simp [Dev.arbCut, hgrant, hop, hold]

/-- A read of HN_SCH_MAXWAIT that is carried out shows the register and clears MAX (R252). -/
theorem becomes_hnSchMaxwaitRead {m : State} {src : RegSrc} {peek : Bool} (hp : src.peeks peek = false)
    (hr : m.dev.reads src B.HN O.HN_SCH_MAXWAIT) :
    Becomes (.hnSchMaxwaitRead src peek) m (m.dev.schMaxRead.okReply (m.dev.showReg src.src B.HN O.HN_SCH_MAXWAIT false)) := by
  obtain ⟨hg, hd⟩ := hr
  rw [Becomes, exec_hnSchMaxwaitRead, run, Dev.readCommand_open _ _ _ _ _ (by decide) hg hd, hp]
  rfl

/-- Settles O15: the grant by the search from the top, the effects by the request's operation. -/
theorem arbiters : Obligations.Arbiters := by
  intro s arb
  dsimp only
  refine ⟨fun i q ha hq hg hh hfree hdmc hi hm hfind habove => ?_, fun hfree hnone => ?_, fun d q => ⟨fun hop hm => ?_, ?_, fun hop h => ?_,
    fun l hl hop hline hh => ?_⟩, fun ha hq hu hw => ?_, fun q ha hq hgrant hop hold => ?_, fun src peek hp hr => ?_⟩
  · rw [Becomes, exec_arbiterGrant, run, Dev.arbTurn_open ha hq hg hh, Dev.arbiterGrant_grants hfree hdmc hi hm hfind habove]
  · rw [Becomes, exec_arbiterGrant, run, Dev.arbTurn_idle (Dev.arbiterGrant_none fun i hi => Dev.calls_eq_false (hnone i hi))]
  · rw [Dev.arbServe_holds hop hm]
    exact ⟨by rw [Dev.arb_setArb], rfl⟩
  · exact Dev.arbServe_acquires
  · rw [Dev.arbServe_relinquish hop, Dev.lockFree_foreign h]
  · rw [Dev.arbServe_relinquish hop, Dev.lockFree_holder hl hline hh]
  · have becomes := becomes_clocked (exec_arbiterWindow arb s) ha hq
    rw [Dev.arbiterWindow_ends hu hw] at becomes
    refine becomes.completes ?_
    rw [settle_arb, settle_mem, Dev.arbWindowStart_arb, Dev.arbWindowStart_mem]
    exact ⟨rfl, rfl, rfl, rfl, rfl⟩
  · rw [← Dev.arbCut_cuts hgrant hop hold]
    exact becomes_clocked (exec_arbCut arb s) ha hq
  · refine (becomes_hnSchMaxwaitRead hp hr).completes ⟨settle_reply _, ?_, ?_, settle_net _, settle_mem _⟩
    · rw [settle_fld _ _ _ (by decide) (by decide) (.inl (by decide)), Dev.okReply_fld, Dev.schMaxRead, Dev.fld_setFld _ _ _ _ (by decide),
        Nat.zero_mod]
    · rw [settle_fld _ _ _ (by decide) (by decide) (.inl (by decide)), Dev.okReply_fld, Dev.schMaxRead,
        Dev.fld_setFld_field _ B.HN F.HN_SCH_MAXWAIT_MAX F.HN_SCH_MAXWAIT_OVER_CNT _ (by decide) rfl (.inr (by decide))]

end Sys2Proof.Machine
end

section
/-! The loss of the host's link while the PCI Express block is gated (R372, R456). -/

namespace Sys2Proof.Machine

variable {s : Dev}

/-- A gated block raises no event (R456). -/
theorem Dev.event_gated {b : Nat} (n : Nat) (hg : s.gated b = true) : s.event b n = s := by
  simp [Dev.event, Dev.raiseBit, hg]

/-- The clock enable of the PCI Express block is bit 12 of CLK_EN0 (R456). -/
theorem Dev.gated_pcie : s.gated B.PCIE = !nbit (s.reg B.CLK O.CLK_EN0).toNat 12 := rfl

/-- The device with PCIE_LINK as it is while the link is down (R372). -/
def Dev.linkReset (s : Dev) : Dev := (s.setReg B.PCIE O.PCIE_LINK 0).setFld B.PCIE F.PCIE_LINK_BAR4_SIZE 5

/-- The device with another state of its PCI Express port. -/
def Dev.setPcie (s : Dev) (x : PcieSt) : Dev := { s with pcie := x }

@[simp] theorem Dev.setPcie_reg (x : PcieSt) (b o : Nat) : (s.setPcie x).reg b o = s.reg b o := rfl
@[simp] theorem Dev.setPcie_iface (x : PcieSt) (i : Nat) : (s.setPcie x).iface i = s.iface i := rfl

/-- The device with its host link reset and no request of the host on its way (R372). -/
def Dev.hostUnlinked (s : Dev) : Dev := s.linkReset.setPcie { s.linkReset.pcie with tlps := [], tags := [], waiting := [] }

/-- The link's reset writes PCIE_LINK and no other register. -/
theorem Dev.reg_hostUnlinked {b o : Nat} (h : blockBytes * b + o ≠ blockBytes * B.PCIE + O.PCIE_LINK) : s.hostUnlinked.reg b o = s.reg b o := by
  rw [Dev.hostUnlinked, Dev.setPcie_reg, Dev.linkReset, Dev.reg_setFld_ne _ _ _ _ _ _ h, s.reg_setReg_ne _ _ _ _ _ h]

/-- With no session of the host open, the loss of the link resets it and raises LINK_DOWN. -/
theorem Dev.pcieLinkDown_closed (hs : (s.iface 0).sess = 0) : s.pcieLinkDown = s.hostUnlinked.event B.PCIE 1 := by
  have none_open : (s.hostUnlinked.iface 0).sess = 0 := by
    rwa [Dev.hostUnlinked, Dev.setPcie_iface, Dev.linkReset, Dev.iface, Dev.setFld_sec, Dev.setReg_sec]
  have closed : s.hostUnlinked.closeSession 0 = s.hostUnlinked := by simp only [Dev.closeSession, none_open, if_true]
  rw [← closed]
  rfl

/-- In a gated block the loss of the link leaves EVT_STATUS as it was. -/
theorem Dev.pcieLinkDown_gated (hg : s.gated B.PCIE = true) (hs : (s.iface 0).sess = 0) :
    s.pcieLinkDown.settle.reg B.PCIE O.EVT_STATUS = s.reg B.PCIE O.EVT_STATUS := by
  have gated : s.hostUnlinked.gated B.PCIE = true := by rwa [Dev.gated_pcie, Dev.reg_hostUnlinked (by decide), ← Dev.gated_pcie]
  rw [settle_evt _ _ (by unfold isJp; decide) (by unfold isCw; decide), Dev.pcieLinkDown_closed hs, Dev.event_gated _ gated,
    Dev.reg_hostUnlinked (by decide)]

/-- A device in Moored whose host link is up and whose PCI Express block is gated. -/
def gatedHost : State :=
  { dev := ((({ clk := { mainPower := true, phase := .done } } : Dev).setFld B.LH F.LH_MODE_MODE Mode.moored.code).setReg B.CLK O.CLK_EN0
      0xFFFFEFFF).setFld B.PCIE F.PCIE_LINK_SPEED 6 }

theorem gatedHost_outputsShow : OutputsShow gatedHost.dev where
  irq := by decide
  vectors := by decide
  cfgErr := by decide
  clkmon := by decide
  ports p := (portSource_default gatedHost.dev p rfl).symm

/-- Refutes O27: it asks that the loss of the link raise LINK_DOWN whatever the block's clock enable, and a gated block, whose link its gate
does not stop (R457), raises no event (R456). -/
theorem not_hostAndCspPorts : ¬ Obligations.HostAndCspPorts := by
  intro h
  have gated : gatedHost.dev.gated B.PCIE = true := by decide
  obtain ⟨hhost, -⟩ := h
  obtain ⟨-, -, hdown, -⟩ := hhost gatedHost gatedHost_outputsShow (by decide)
  obtain ⟨d, hd, -, -, -, -, hraised, -⟩ := hdown
  have becomes : gatedHost.dev.pcieLinkDown.settle = d :=
    congrArg State.dev (Host.Outcome.next.inj ((exec_pcieLinkDown gatedHost).symm.trans hd))
  have kept : d.reg B.PCIE O.EVT_STATUS = gatedHost.dev.reg B.PCIE O.EVT_STATUS := becomes ▸ Dev.pcieLinkDown_gated gated rfl
  rw [Dev.flag, Dev.fld, kept] at hraised
  exact absurd hraised (by decide)

end Sys2Proof.Machine
end

section
/-! The register ports of the GDDR7 controllers, and what the end of a command, an event and the settling of the outputs leave of the
controllers (R8, R278). -/

namespace Sys2Proof.Machine

variable (s : Dev)

/-! ### What stands at a controller after an update -/

@[simp] theorem Dev.dmc_setDmc (k : Nat) (x : DmcSt) : (s.setDmc k x).dmc k = x := by simp [Dev.dmc, Dev.setDmc, Map.get_set]

@[simp] theorem Dev.event_ext (b n : Nat) : (s.event b n).ext = s.ext := congrArg (·.ext) (s.event_core b n)
@[simp] theorem Dev.finish_ext (b : Nat) (st : Status) : (s.finish b st).ext = s.ext := s.finish_keeps b st (p := Dev.ext) fun _ _ => rfl
@[simp] theorem Dev.okReply_ext (v : Word) : (s.okReply v).ext = s.ext := rfl

theorem Dev.dmc_of_ext {s d : Dev} (h : d.ext = s.ext) (k : Nat) : d.dmc k = s.dmc k := by rw [Dev.dmc, h, Dev.dmc]

theorem ext_settle_finish (b : Nat) (st : Status) : (s.finish b st).okReply.settle.ext = s.ext := by
  rw [settle_ext, Dev.okReply_ext, Dev.finish_ext]

theorem dmc_settle_finish (b : Nat) (st : Status) (k : Nat) : (s.finish b st).okReply.settle.dmc k = s.dmc k :=
  Dev.dmc_of_ext (ext_settle_finish s b st) k

/-- A field of another register of the block, after a command has ended with a status, its answer is given and the outputs have settled. -/
theorem fld_settle_finish (b : Nat) (st : Status) {g : Fld} (hb : g.off < blockBytes) (he : g.off ≠ O.EVT_STATUS) (hs : g.off ≠ O.BLK_STATUS)
    (hd : b ≠ B.DBG ∨ g.off ≠ O.DBG_STAT) : (s.finish b st).okReply.settle.fld b g = s.fld b g := by
  rw [Dev.fld, reg_settle_finish s b st hb he hs hd, Dev.fld]

/-! ### Register ports -/

theorem blkKind_dmc (k : Fin 8) : blkKind (B.DMC k.val) = some .dmc := by decide +revert

variable {s : State} {c : Instr} {src : RegSrc} {k : Fin 8} {w : Word}

/-- A register of a controller's own is written by the controller (R5, R278). -/
theorem becomes_dmcPort {off : Nat} (hc : exec c s = run (fun d => d.command src (B.DMC k.val) off w) s) (ho : off < blockBytes)
    (hr : (regFind (B.DMC k.val) off).isSome) (hn : off ∉ [O.BLK_CTRL, O.BLK_FREEZE, O.EVT_FORCE, O.ECC_FLIP_LO])
    (hw : s.dev.writes src (B.DMC k.val) off w) : Becomes c s (s.dev.writeDMC k.val off w).okReply := by
  have becomes := becomes_command hc ho hw
  have index : B.DMC k.val - 0x10 = k.val := Nat.add_sub_cancel_left _ _
  rwa [Dev.writeReg_own _ _ _ (blkKind_dmc k) hr hn, Dev.writeKind, blkKind_dmc k, index] at becomes

theorem becomes_dmcCmd (hc : exec c s = run (fun d => d.command src (B.DMC k.val) O.DMC_CMD w) s)
    (hw : s.dev.writes src (B.DMC k.val) O.DMC_CMD w) : Becomes c s (s.dev.dmcCmd k.val w).okReply := by
  have known : ∀ k : Fin 8, (regFind (B.DMC k.val) O.DMC_CMD).isSome := by decide
  have becomes := becomes_dmcPort hc (by decide) (known k) (by decide) hw
  rwa [Dev.writeDMC, if_pos rfl] at becomes

theorem becomes_trainCmd (hc : exec c s = run (fun d => d.command src (B.DMC k.val) O.DMC_TRAIN_CMD w) s)
    (hw : s.dev.writes src (B.DMC k.val) O.DMC_TRAIN_CMD w) : Becomes c s (s.dev.trainCmd k.val w).okReply := by
  have known : ∀ k : Fin 8, (regFind (B.DMC k.val) O.DMC_TRAIN_CMD).isSome := by decide
  have becomes := becomes_dmcPort hc (by decide) (known k) (by decide) hw
  rwa [Dev.writeDMC, if_neg (by decide), if_pos rfl] at becomes

theorem becomes_mrw (hc : exec c s = run (fun d => d.command src (B.DMC k.val) O.DMC_MRW w) s)
    (hw : s.dev.writes src (B.DMC k.val) O.DMC_MRW w) : Becomes c s (s.dev.mrw k.val w).okReply := by
  have known : ∀ k : Fin 8, (regFind (B.DMC k.val) O.DMC_MRW).isSome := by decide
  have becomes := becomes_dmcPort hc (by decide) (known k) (by decide) hw
  rwa [Dev.writeDMC, if_neg (by decide), if_neg (by decide), if_pos rfl] at becomes

theorem becomes_laneSel (hc : exec c s = run (fun d => d.command src (B.DMC k.val) O.DMC_LANE_SEL w) s)
    (hw : s.dev.writes src (B.DMC k.val) O.DMC_LANE_SEL w) : Becomes c s (s.dev.laneSel k.val w).okReply := by
  have known : ∀ k : Fin 8, (regFind (B.DMC k.val) O.DMC_LANE_SEL).isSome := by decide
  have becomes := becomes_dmcPort hc (by decide) (known k) (by decide) hw
  rwa [Dev.writeDMC, if_neg (by decide), if_neg (by decide), if_neg (by decide), if_pos rfl] at becomes

/-- The map's command stands in the first controller (R257). -/
theorem becomes_mapCmd (hc : exec c s = run (fun d => d.command src (B.DMC 0) O.DMC_MAP_CMD w) s)
    (hw : s.dev.writes src (B.DMC 0) O.DMC_MAP_CMD w) : Becomes c s (s.dev.mapApply w).okReply :=
  becomes_dmcPort (k := 0) hc (by decide) (by decide) (by decide) hw

end Sys2Proof.Machine
end

section
/-! The commands of a GDDR7 controller where its state allows them (R257, R272, R276, R278). -/

namespace Sys2Proof.Machine

section
variable (s : Dev) {k : Nat} {w : Word}

/-! ### DMC_CMD -/

/-- A controller's state just entered reads as entered. -/
theorem Dev.fld_dmcState {st : Nat} (h : st < 4) : (s.dmcState k st).fld (B.DMC k) F.DMC_STATE_STATE = st := by
  rw [Dev.dmcState, Dev.fld_setFld _ _ _ _ (by decide)]
  exact Nat.mod_eq_of_lt h

theorem Dev.dmcCmd_start (hop : w.toNat % 8 = 1) (hst : s.fld (B.DMC k) F.DMC_STATE_STATE = 0) :
    s.dmcCmd k w = ((s.setDmc k ((s.dmc k).started s.clk.time)).dmcState k 1).finish (B.DMC k) .ok := by
  simp [Dev.dmcCmd, hop, hst]

theorem Dev.dmcCmd_go (hop : w.toNat % 8 = 2) (hst : s.fld (B.DMC k) F.DMC_STATE_STATE = 1) :
    s.dmcCmd k w = (s.dmcState k 2).finish (B.DMC k) .ok := by
  simp [Dev.dmcCmd, hop, hst]

theorem Dev.dmcCmd_maint (hop : w.toNat % 8 = 3) : s.dmcCmd k w = s.maint k (nfield w.toNat 8 8) := by simp [Dev.dmcCmd, hop]
theorem Dev.dmcCmd_end (hop : w.toNat % 8 = 4) : s.dmcCmd k w = s.maintEnd k := by simp [Dev.dmcCmd, hop]

/-! ### Maintenance windows -/

/-- In Moored a window starts at once and counts no tides (R276). -/
theorem Dev.maint_moored (n : Nat) (hst : s.fld (B.DMC k) F.DMC_STATE_STATE = 2) (hm : s.mode = .moored) :
    s.maint k n = (s.windowStart k 0 false).finish (B.DMC k) .ok := by
  simp [Dev.maint, hst, hm]

/-- The device with a window that waits for tide `start` (R276). -/
def Dev.windowPends (s : Dev) (k start n : Nat) : Dev :=
  (s.setDmc k { s.dmc k with window := .pending start n }).setFlag (B.DMC k) F.DMC_STATE_PENDING true

/-- In Underway a window of some tides waits for a tide that is neither the next nor too far ahead, where it meets no transfer (R276). -/
theorem Dev.maint_underway {n ahead : Nat} (hst : s.fld (B.DMC k) F.DMC_STATE_STATE = 2) (hm : s.mode = .underway) (hn : n ≠ 0)
    (ha : (s.fld (B.DMC k) F.DMC_MAINT_TIDE_TIDE + 2 ^ 32 - s.tide.num % 2 ^ 32) % 2 ^ 32 = ahead) (hlo : 2 ≤ ahead) (hhi : ahead < 2 ^ 31)
    (hd : s.windowMeets s.tide.decls k (s.tide.num + ahead) n = false) :
    s.maint k n = (s.windowPends k (s.tide.num + ahead) n).finish (B.DMC k) .ok := by
  have allowed : ¬ (n = 0 || ahead < 2 || 2 ^ 31 ≤ ahead || s.windowMeets s.tide.decls k (s.tide.num + ahead) n) = true := by
    simpa [hn, hd, Nat.not_lt.2 hlo] using hhi
  unfold Dev.maint
  dsimp only
  rw [ha, if_neg (not_not.2 hst), hm]
  exact if_neg allowed

/-- END of a window that counts tides waits for the next turn (R276). -/
theorem Dev.maintEnd_counts (hst : s.fld (B.DMC k) F.DMC_STATE_STATE = 3) (hw : (s.dmc k).window = .running false true) :
    s.maintEnd k = (s.setDmc k { s.dmc k with window := .running true true }).finish (B.DMC k) .ok := by
  simp [Dev.maintEnd, hst, hw]

theorem Dev.maintEnd_countless (hst : s.fld (B.DMC k) F.DMC_STATE_STATE = 3) (hw : (s.dmc k).window = .running false false) :
    s.maintEnd k = (s.windowEnd k).finish (B.DMC k) .ok := by
  simp [Dev.maintEnd, hst, hw]

/-! ### The map and the lane shown -/

/-- APPLY of legal masks while no controller is ONLINE or in MAINT (R257). -/
theorem Dev.mapApply_legal (hop : nbit w.toNat 0 = true) (hl : ∀ i < 9, maskLegal i (maskOf s.ext.staged i) = true)
    (hst : ∀ j < 8, s.fld (B.DMC j) F.DMC_STATE_STATE < 2) :
    s.mapApply w = { s with ext := { s.ext with active := s.ext.staged } }.finish (B.DMC 0) .ok := by
  have legal : (List.range 9).all (fun i => maskLegal i (maskOf s.ext.staged i)) = true := by simpa using hl
  have offline : (List.range 8).any (fun j => decide (2 ≤ s.fld (B.DMC j) F.DMC_STATE_STATE)) = false := by simpa using hst
  simp only [Dev.mapApply, hop, legal, offline, Bool.not_true, Bool.false_eq_true, if_false]

/-- A lane that a controller has is selected (R278). -/
theorem Dev.laneSel_known (h : w.toNat % 64 < 56) :
    s.laneSel k w = s.setReg (B.DMC k) O.DMC_LANE_SEL (BitVec.ofNat 32 (w.toNat % 64)) := if_neg (Nat.not_le.2 h)

theorem Dev.fld_laneSel (h : w.toNat % 64 < 56) : (s.laneSel k w).fld (B.DMC k) F.DMC_LANE_SEL_LANE = w.toNat % 64 := by
  rw [s.laneSel_known h]
  show nfield ((s.setReg (B.DMC k) O.DMC_LANE_SEL (BitVec.ofNat 32 (w.toNat % 64))).reg (B.DMC k) O.DMC_LANE_SEL).toNat 0 6 = _
  rw [Dev.reg_setReg, BitVec.toNat_ofNat, nfield]
  omega

end

theorem mod_eight_withField {data : Word} (op : Nat) (h : op < 8) : (withField data 0 3 op).toNat % 8 = op := by
  have hf : (withField data 0 3 op).toNat % 8 = op % 8 := nfield_withField data 0 3 op (by decide)
  rw [hf, Nat.mod_eq_of_lt h]

/-- The state of a controller after a command of its own has ended. -/
theorem state_settle_finish (s : Dev) (k : Nat) (st : Status) :
    (s.finish (B.DMC k) st).okReply.settle.fld (B.DMC k) F.DMC_STATE_STATE = s.fld (B.DMC k) F.DMC_STATE_STATE :=
  fld_settle_finish s _ st (by decide) (by decide) (by decide) (.inr (by decide))

/-- PENDING stands once a window waits and the command has ended. -/
theorem pending_settle_windowPends (s : Dev) (k start n : Nat) :
    ((s.windowPends k start n).finish (B.DMC k) .ok).okReply.settle.flag (B.DMC k) F.DMC_STATE_PENDING = true := by
  rw [Dev.flag, fld_settle_finish _ _ _ (by decide) (by decide) (by decide) (.inr (by decide)), ← Dev.flag, Dev.windowPends,
    Dev.flag_setFlag _ _ _ _ (by decide) rfl]

theorem windowPends_window (s : Dev) (k start n : Nat) : ((s.windowPends k start n).dmc k).window = .pending start n :=
  congrArg DmcSt.window (s.dmc_setDmc k _)

/-- Settles O16: each command by the equation of its case, read after it has ended OK. -/
theorem dmcCommands : Obligations.DmcCommands := by
  intro s src k data blk st okay
  refine ⟨?start, ?go, ?maint, ?end_, ?map, ?lane⟩
  case start =>
    intro hw hst
    have becomes := becomes_dmcCmd (exec_dmcStart src k data s) hw
    rw [Dev.dmcCmd_start _ (mod_eight_withField 1 (by decide)) hst] at becomes
    refine becomes.completes ⟨?_, ?_, lastStatus_settle_finish _ _ _, mem_settle_finish _ _ _⟩
    · rw [state_settle_finish, Dev.fld_dmcState _ (by decide)]
    · rw [dmc_settle_finish]
      exact s.dev.dmc_setDmc k.val _
  case go =>
    intro hw hst
    have becomes := becomes_dmcCmd (exec_dmcGo src k data s) hw
    rw [Dev.dmcCmd_go _ (mod_eight_withField 2 (by decide)) hst] at becomes
    refine becomes.completes ⟨?_, ext_settle_finish _ _ _, lastStatus_settle_finish _ _ _, mem_settle_finish _ _ _⟩
    rw [state_settle_finish, Dev.fld_dmcState _ (by decide)]
  case maint =>
    intro w n ahead hw hst
    have becomes := becomes_dmcCmd (exec_dmcMaint src k data s) hw
    rw [Dev.dmcCmd_maint _ (mod_eight_withField 3 (by decide))] at becomes
    refine ⟨fun hm => ?_, fun hm hn hlo hhi _ hd => ?_⟩
    · rwa [Dev.maint_moored _ _ hst hm] at becomes
    · rw [Dev.maint_underway _ hst hm hn rfl hlo hhi hd] at becomes
      refine becomes.completes ⟨?_, pending_settle_windowPends _ _ _ _, lastStatus_settle_finish _ _ _, mem_settle_finish _ _ _⟩
      rw [dmc_settle_finish, windowPends_window]
  case end_ =>
    intro hw hst
    have becomes := becomes_dmcCmd (exec_dmcEnd src k data s) hw
    rw [Dev.dmcCmd_end _ (mod_eight_withField 4 (by decide))] at becomes
    refine ⟨fun hwin => ?_, fun hwin => ?_⟩
    · rw [Dev.maintEnd_counts _ hst hwin] at becomes
      refine becomes.completes ⟨?_, ?_, lastStatus_settle_finish _ _ _, mem_settle_finish _ _ _⟩
      · rw [dmc_settle_finish, Dev.dmc_setDmc]
      · rwa [state_settle_finish]
    · rwa [Dev.maintEnd_countless _ hst hwin] at becomes
  case map =>
    intro hw hl hst
    have becomes := becomes_mapCmd (exec_mapApply src data s) hw
    rw [Dev.mapApply_legal _ (nbit_withField data 0 1 (by decide)) hl hst] at becomes
    exact becomes.completes ⟨ext_settle_finish _ _ _, mem_settle_finish _ _ _, lastStatus_settle_finish _ _ _⟩
  case lane =>
    intro hw hl
    refine (becomes_laneSel (exec_dmcLaneSel src k data s) hw).completes ⟨?_, ?_, ?_⟩
    · rw [settle_fld _ _ _ (by decide) (by decide) (.inr (by decide)), Dev.okReply_fld, Dev.fld_laneSel _ hl]
    · rw [settle_ext, Dev.okReply_ext, Dev.laneSel_known _ hl, Dev.setReg_ext]
    · rw [settle_mem, Dev.okReply_mem, Dev.laneSel_known _ hl, Dev.setReg_mem]

end Sys2Proof.Machine
end

section
/-! Training patterns and writes of mode registers, where the controller may take them (R272, R274, R275). -/

namespace Sys2Proof.Machine

/-! ### Tables after a fold -/

/-- What the step at one element brings about, and every step keeps, holds after the fold. -/
theorem foldl_brings {α β : Type} {P : β → Prop} {f : β → α → β} {a : α} (brings : ∀ b, P (f b a)) (keeps : ∀ b x, P b → P (f b x))
    {l : List α} (ha : a ∈ l) (b : β) : P (l.foldl f b) := by
  obtain ⟨before, after, rfl⟩ := List.append_of_mem ha
  rw [List.foldl_append, List.foldl_cons]
  exact List.foldlRecOn after f (brings _) fun b hb x _ => keeps b x hb

/-- One value set at the keys of a list stands at each of them. -/
theorem get_foldl_set {α : Type} [DecidableEq α] (d : Nat → α) (key : Nat → Nat) (v : α) {l : List Nat} {c : Nat} (hc : c ∈ l) (m : Map α) :
    Map.get d (l.foldl (fun m c => Map.set d m (key c) v) m) (key c) = v := by
  refine foldl_brings (P := fun m => Map.get d m (key c) = v) (fun m => ?_) (fun m x hm => ?_) hc m
  · rw [Map.get_set, if_pos rfl]
  · rw [Map.get_set, hm, ite_self]

/-- The lanes of a list after their error counters have been cleared. -/
theorem err_foldl_clear {ls : List Nat} {l : Nat} (hl : l ∈ ls) (m : Map LaneSt) :
    (Map.get (fun _ => {}) (ls.foldl (fun m l => Map.modify (fun _ => {}) m l (fun x => { x with err := 0 })) m) l).err = 0 := by
  refine foldl_brings (P := fun m => (Map.get (fun _ => ({} : LaneSt)) m l).err = 0) (fun m => ?_) (fun m x hm => ?_) hl m
  · rw [Map.modify, Map.get_set, if_pos rfl]
  · rw [Map.modify, Map.get_set, apply_ite LaneSt.err, hm, ite_self]

/-! ### DMC_TRAIN_CMD -/

section
variable (d : DmcSt)

/-- As an operation starts every lane's error counter is zero (R275). -/
theorem DmcSt.lanesClear_err {l : Nat} (hl : l < 56) : (Map.get (fun _ => {}) d.lanesClear.lanes l).err = 0 := by
  simp only [DmcSt.lanesClear, err_foldl_clear (List.mem_range.2 hl)]

@[simp] theorem DmcSt.lanesClear_fifo : d.lanesClear.fifo = d.fifo := by simp only [DmcSt.lanesClear]
@[simp] theorem DmcSt.lanesClear_op : d.lanesClear.op = d.op := by simp only [DmcSt.lanesClear]

end

/-- A controller with a pattern operation under way: the counters are clear, and WR_FIFO has loaded the channel's FIFO with the compare
buffer (R275). -/
def DmcSt.patternStarts (d : DmcSt) (op ch count : Nat) (buf : List Byte) : DmcSt :=
  { d.lanesClear with fifo := if op = 1 then Map.set (fun _ => []) d.fifo ch buf else d.fifo, op := some { op, ch, count } }

theorem DmcSt.patternStarts_err (d : DmcSt) (op ch count : Nat) (buf : List Byte) {l : Nat} (hl : l < 56) :
    (Map.get (fun _ => {}) (d.patternStarts op ch count buf).lanes l).err = 0 := by
  simp only [DmcSt.patternStarts, d.lanesClear_err hl]

section
variable (s : Dev) {k : Nat} {w : Word} (hop : w.toNat % 4 ≠ 0) (hr : s.trainRefusal k = none)
include hop hr

theorem Dev.trainCmd_starts (hn : nfield w.toNat 16 16 ≠ 0) :
    s.trainCmd k w =
      s.setDmc k ((s.dmc k).patternStarts (w.toNat % 4) (nfield w.toNat 2 2) (nfield w.toNat 16 16) (s.cmpBuffer k)) := by
  simp only [Dev.trainCmd, hop, hr, hn, if_false, DmcSt.patternStarts, DmcSt.lanesClear_fifo]

/-- An operation of no repetitions completes at once (R275). -/
theorem Dev.trainCmd_empty (hn : nfield w.toNat 16 16 = 0) :
    s.trainCmd k w = ((s.setDmc k (s.dmc k).lanesClear).event (B.DMC k) 4).finish (B.DMC k) .ok := by
  simp only [Dev.trainCmd, hop, hr, hn, if_false, if_true]

end

/-- A controller that may train has no pattern operation under way (R272). -/
theorem Dev.op_of_trainRefusal (s : Dev) {k : Nat} (hr : s.trainRefusal k = none) : (s.dmc k).op = none := by
  cases hop : (s.dmc k).op with
  | none => rfl
  | some o =>
    simp only [Dev.trainRefusal, hop, Option.isSome_some, Bool.true_or, if_true] at hr
    split at hr <;> cases hr

/-! ### DMC_MRW -/

/-- The channels that a word written to DMC_MRW names (R274). -/
def mrwChannels (w : Word) : List Nat := if nbit w.toNat 22 then [0, 1, 2, 3] else [nfield w.toNat 20 2]

/-- A controller after mode register `r` of some channels has been written (R274). -/
def DmcSt.modeWritten (d : DmcSt) (chs : List Nat) (r v : Nat) : DmcSt :=
  { d with modeRegs := chs.foldl (fun m c => Map.set (fun _ => 0) m (256 * c + r) v) d.modeRegs }

/-- A mode register of a channel that has just been written holds what was written. -/
theorem DmcSt.modeWritten_reg (d : DmcSt) {chs : List Nat} (r v : Nat) {c : Nat} (hc : c ∈ chs) :
    Map.get (fun _ => 0) (d.modeWritten chs r v).modeRegs (256 * c + r) = v :=
  get_foldl_set (fun _ => 0) (fun c => 256 * c + r) v hc d.modeRegs

/-- A word with GO written to DMC_MRW while the controller may take it (R272, R274). -/
theorem Dev.mrw_goes (s : Dev) {k : Nat} {w : Word} (hgo : nbit w.toNat 31 = true) (hr : s.trainRefusal k = none) :
    s.mrw k w = (s.setDmc k ((s.dmc k).modeWritten (mrwChannels w) (nfield w.toNat 12 8) (w.toNat % 4096))).finish (B.DMC k) .ok := by
  simp only [Dev.mrw, hgo, hr, Bool.not_true, Bool.false_eq_true, if_false, DmcSt.modeWritten, mrwChannels]

/-! ### The commands as writes to DMC_TRAIN_CMD -/

section
variable {s : State} {src : RegSrc} {k : Fin 8} {data : Word} {c : Instr} {op : Nat}
  (hc : exec c s = run (fun d => d.command src (B.DMC k.val) O.DMC_TRAIN_CMD (withField data 0 2 op)) s)
  (hr : s.dev.trainRefusal k.val = none) (hop : op ≠ 0) (h4 : op < 4)
  (hw : s.dev.writes src (B.DMC k.val) O.DMC_TRAIN_CMD (withField data 0 2 op))
include hc hr hop h4 hw

/-- A pattern operation of some repetitions starts: it is under way, every counter is clear, the FIFOs are as its OP leaves them. -/
theorem completes_patternStarts (hn : nfield (withField data 0 2 op).toNat 16 16 ≠ 0) : Completes c s (fun d =>
    let w := withField data 0 2 op
    ((d.dmc k.val).op = some { op, ch := nfield w.toNat 2 2, count := nfield w.toNat 16 16 } ∧
      (∀ l < 56, (Map.get (fun _ => {}) (d.dmc k.val).lanes l).err = 0) ∧ d.mem = s.dev.mem) ∧
    (d.dmc k.val).fifo =
      if op = 1 then Map.set (fun _ => []) (s.dev.dmc k.val).fifo (nfield w.toNat 2 2) (s.dev.cmpBuffer k.val) else (s.dev.dmc k.val).fifo) := by
  have op_of : (withField data 0 2 op).toNat % 4 = op := mod_four_withField op h4
  have becomes := becomes_trainCmd hc hw
  rw [Dev.trainCmd_starts _ (by rwa [op_of]) hr hn, op_of] at becomes
  have after (x : DmcSt) : (s.dev.setDmc k.val x).okReply.settle.dmc k.val = x := by
    rw [Dev.dmc_of_ext (settle_ext _), Dev.dmc_of_ext (Dev.okReply_ext _ _), Dev.dmc_setDmc]
  refine becomes.completes ⟨⟨?_, fun l hl => ?_, ?_⟩, ?_⟩
  · rw [after, DmcSt.patternStarts]
  · rw [after, DmcSt.patternStarts_err _ _ _ _ _ hl]
  · rw [settle_mem, Dev.okReply_mem, Dev.setDmc_mem]
  · rw [after, DmcSt.patternStarts]

/-- A pattern operation of no repetitions has ended with the command: no operation is under way, every counter is clear. -/
theorem completes_patternEmpty (hn : nfield (withField data 0 2 op).toNat 16 16 = 0) : Completes c s (fun d =>
    (d.dmc k.val).op = none ∧ (∀ l < 56, (Map.get (fun _ => {}) (d.dmc k.val).lanes l).err = 0) ∧
      (d.dmc k.val).fifo = (s.dev.dmc k.val).fifo ∧ d.fld (B.DMC k.val) F.BLK_STATUS_LAST_STATUS = Status.ok.code ∧ d.mem = s.dev.mem) := by
  have becomes := becomes_trainCmd hc hw
  rw [Dev.trainCmd_empty _ (by rwa [mod_four_withField op h4]) hr hn] at becomes
  have after (x : DmcSt) : (((s.dev.setDmc k.val x).event (B.DMC k.val) 4).finish (B.DMC k.val) .ok).okReply.settle.dmc k.val = x := by
    rw [dmc_settle_finish, Dev.dmc_of_ext (Dev.event_ext _ _ _), Dev.dmc_setDmc]
  refine becomes.completes ⟨?_, fun l hl => ?_, ?_, lastStatus_settle_finish _ _ _, ?_⟩
  · rw [after, DmcSt.lanesClear_op, s.dev.op_of_trainRefusal hr]
  · rw [after, DmcSt.lanesClear_err _ hl]
  · rw [after, DmcSt.lanesClear_fifo]
  · rw [mem_settle_finish, Dev.event_mem, Dev.setDmc_mem]

end

/-- A mode register write that goes: the register of each channel named holds the word's data, and the command has ended OK. -/
theorem completes_mrw {s : State} {src : RegSrc} {k : Fin 8} {c : Instr} {w : Word}
    (hc : exec c s = run (fun d => d.command src (B.DMC k.val) O.DMC_MRW w) s) (hw : s.dev.writes src (B.DMC k.val) O.DMC_MRW w)
    (hgo : nbit w.toNat 31 = true) (hr : s.dev.trainRefusal k.val = none) : Completes c s (fun d =>
      (∀ ch ∈ mrwChannels w, Map.get (fun _ => 0) (d.dmc k.val).modeRegs (256 * ch + nfield w.toNat 12 8) = w.toNat % 4096) ∧
      (d.dmc k.val).op = (s.dev.dmc k.val).op ∧ d.mem = s.dev.mem ∧
      d.fld (B.DMC k.val) F.BLK_STATUS_LAST_STATUS = Status.ok.code) := by
  have becomes := becomes_mrw hc hw
  rw [Dev.mrw_goes _ hgo hr] at becomes
  have after (x : DmcSt) : ((s.dev.setDmc k.val x).finish (B.DMC k.val) .ok).okReply.settle.dmc k.val = x := by
    rw [dmc_settle_finish, Dev.dmc_setDmc]
  refine becomes.completes ⟨fun ch hch => ?_, ?_, mem_settle_finish _ _ _, lastStatus_settle_finish _ _ _⟩
  · rw [after, DmcSt.modeWritten_reg _ _ _ hch]
  · rw [after, DmcSt.modeWritten]

/-- Settles O17: a pattern operation by its COUNT, whichever its OP; a mode register by the fold over its channels. -/
theorem dmcTraining : Obligations.DmcTraining := by
  intro s src k data blk buf started wide atOnce hr
  refine ⟨?wrFifo, fun hw hn => ?rdFifo, fun hw hn => ?caLoop, ?empty, ?mrw⟩
  case wrFifo =>
    intro w hw hn
    obtain ⟨d, hd, hstarted, hfifo⟩ := completes_patternStarts (exec_wrFifo src k data s) hr (by decide) (by decide) hw hn
    exact ⟨d, hd, hstarted, by rw [hfifo, if_pos rfl, Map.get_set, if_pos rfl]; rfl⟩
  case rdFifo =>
    obtain ⟨d, hd, hstarted, hfifo⟩ := completes_patternStarts (exec_rdFifo src k data s) hr (by decide) (by decide) hw hn
    exact ⟨d, hd, hstarted, by rw [hfifo, if_neg (by decide)]⟩
  case caLoop =>
    obtain ⟨d, hd, hstarted, hfifo⟩ := completes_patternStarts (exec_caLoop src k data s) hr (by decide) (by decide) hw hn
    exact ⟨d, hd, hstarted, by rw [hfifo, if_neg (by decide)]⟩
  case empty =>
    intro w hn hw
    refine ⟨?_, ?_, ?_⟩ <;> rintro rfl
    · exact completes_patternEmpty (exec_wrFifo src k data s) hr (by decide) (by decide) hw hn
    · exact completes_patternEmpty (exec_rdFifo src k data s) hr (by decide) (by decide) hw hn
    · exact completes_patternEmpty (exec_caLoop src k data s) hr (by decide) (by decide) hw hn
  case mrw =>
    intro w chs hw
    exact completes_mrw (exec_dmcMrw src k data s) hw (nbit_withField data 31 1 (by decide)) hr

end Sys2Proof.Machine
end

section
/-! What happens at a GDDR7 controller where nothing stands in its way: the end of a pattern operation, refresh, the service of pieces, the
errors that the device reports (R264 to R268, R275). -/

namespace Sys2Proof.Machine

variable {s : Dev} {k : Nat}

/-! ### Refresh -/

/-- A channel whose interval is over refreshes the next bank of its rotation (R268). -/
theorem Dev.refresh_due {ch : Nat} (hr : s.refreshes k = true) (hd : s.refreshDue k ch = true) :
    s.refresh k ch = s.setDmc k { s.dmc k with
      nextRef := Map.modify (fun _ => 0) (s.dmc k).nextRef ch refreshNext, refAt := Map.set (fun _ => 0) (s.dmc k).refAt ch s.clk.time } := by
  simp [Dev.refresh, hr, hd]

/-! ### The service of pieces -/

section
variable {bank : Nat} {found : AccessFound} (hst : s.fld (B.DMC k) F.DMC_STATE_STATE = 2) (hs : (s.dmc k).selfRefresh = false)
include hst hs

/-- Metadata requests go first (R266). -/
theorem Dev.dmcAccess_meta {q : Piece} {rest : List Piece} (hm : ((s.dmcTake k).dmc k).meta_ = q :: rest) :
    s.dmcAccess k bank found = ((s.dmcTake k).setDmc k { (s.dmcTake k).dmc k with meta_ := rest }).serveMeta q := by
  simp [Dev.dmcAccess, hst, hs, hm]

variable {q : Piece} (hm : ((s.dmcTake k).dmc k).meta_ = []) (hq : (s.dmcTake k).nextPiece k bank = some q)
include hm hq

/-- A write that its range takes is served (R261, R266). -/
theorem Dev.dmcAccess_write (hw : q.write = true) (ht : ((s.dmcTake k).serveWrite k found.word q).2 = true) :
    s.dmcAccess k bank found = ((s.dmcTake k).serveWrite k found.word q).1.pieceServed k q := by
  simp [Dev.dmcAccess, hst, hs, hm, hq, hw, ht]

/-- A read that its range takes is served, with the writes that wait before it (R266, R267). -/
theorem Dev.dmcAccess_read (hw : q.write = false)
    (ht : ((s.dmcTake k).serveRead k found ((dropFirst q ((s.dmcTake k).dmc k).pieces).filter (·.write)) q).2 = true) :
    s.dmcAccess k bank found =
      ((s.dmcTake k).serveRead k found ((dropFirst q ((s.dmcTake k).dmc k).pieces).filter (·.write)) q).1.pieceServed k q := by
  simp [Dev.dmcAccess, hst, hs, hm, hq, hw, ht]

end

/-! ### Pieces outside every range -/

section
variable {q : Piece} {found : AccessFound} (hr : s.rangeAt q.addr = none)
include hr

theorem Dev.serveWrite_plain : s.serveWrite k found.word q = (s.writePiece k found.word q, true) := by simp [Dev.serveWrite, hr]

variable {pend : List Piece}

/-- A read whose data misses its CRC twice in a row is served all the same (R264). -/
theorem Dev.serveRead_edc (h : 2 ≤ found.edc) : (s.serveRead k found pend q).2 = true := by simp [Dev.serveRead, hr, h]

/-- A read whose every line a pending write holds needs no check bytes; where its lines are read without an error it ends OK with their bytes
(R267). -/
theorem Dev.serveRead_held (he : found.edc = 0) (hp : ∀ a ∈ linesOf q.addr q.len, ∃ p ∈ pend, p.holds a = true)
    (hm : (s.readLines k pend (linesOf q.addr q.len)).1.mode ≠ .quarantine)
    (hn : (s.readLines k pend (linesOf q.addr q.len)).2.1 = none) :
    let got := s.readLines k pend (linesOf q.addr q.len)
    s.serveRead k found pend q = (got.1.pieceEnd q .ok ((got.2.2.drop (q.addr % 64)).take q.len), true) := by
  have held : (linesOf q.addr q.len).all (fun a => pend.any fun p => p.holds a) = true := by simpa using hp
  simp only [Dev.serveRead, hr, Option.bind_none, held, he, hm, hn, if_true, if_false]
  rfl

end

/-! ### Errors that the device reports -/

section
variable {q : Piece} {line : Nat} (hq : (s.dmc k).recent.find? (·.write) = some q)
include hq

/-- On a first report the write is repeated, a class C error (R264). -/
theorem Dev.writeCrcReport_first (h : (s.dmc k).retried ≠ some (q.lineAt line)) :
    s.writeCrcReport k line = (s.classC (B.DMC k)).setDmc k { s.dmc k with retried := some (q.lineAt line) } := by
  simp [Dev.writeCrcReport, hq, h]

/-- On a second report the line is poisoned, and the write ends UNCORR (R264). -/
theorem Dev.writeCrcReport_second (h : (s.dmc k).retried = some (q.lineAt line)) :
    s.writeCrcReport k line = (((s.dmcError k 0 5 (q.lineAt line) 0 true).storePoison (q.lineAt line)).amend q).setDmc k
      { s.dmc k with retried := none } := by
  simp [Dev.writeCrcReport, hq, h]

end

/-- The requests served in the cycles before the report end UNCORR; one entry records the earliest (R264). -/
theorem Dev.caErr_amends {n : Nat} {q : Piece} (hq : ((s.dmc k).recent.take n).getLast? = some q) :
    let s1 := s.dmcError k 1 2 q.addr 0 q.write
    s.caErr k n = (((s.dmc k).recent.take n).foldl Dev.amend s1).setDmc k { s1.dmc k with recent := [] } := by
  rw [Dev.caErr, hq]

/-- Settles O18: each event by what it does where nothing stops it. -/
theorem dmcEvents : Obligations.DmcEvents := by
  intro s k ha hq
  refine ⟨?trainDone, ?refresh, ?access, ?plain, ?crcFirst, ?crcSecond, ?caErr⟩
  case trainDone =>
    intro o errs ho sure good lanes
    have becomes := becomes_clocked (exec_trainDone k errs s) ha hq
    rwa [Dev.trainDone, ho] at becomes
  case refresh =>
    intro ch hr hd nextRef refAt
    rw [← Dev.refresh_due hr hd]
    exact becomes_clocked (exec_refresh k ch s) ha hq
  case access =>
    intro bank found hst hs s0
    have becomes := becomes_clocked (exec_dmcAccess k bank found s) ha hq
    refine ⟨fun q rest hm => ?_, fun q hm hp hw ht => ?_, fun q hm hp hw ht => ?_⟩
    · rwa [Dev.dmcAccess_meta hst hs hm] at becomes
    · rwa [Dev.dmcAccess_write hst hs hm hp hw ht] at becomes
    · rwa [Dev.dmcAccess_read hst hs hm hp hw ht] at becomes
  case plain =>
    intro d q found pend hr
    exact ⟨Dev.serveWrite_plain hr, Dev.serveRead_edc hr, fun he hp _ hm hn => Dev.serveRead_held hr he hp hm hn⟩
  case crcFirst =>
    intro q line hw h
    rw [← Dev.writeCrcReport_first hw h]
    exact becomes_clocked (exec_writeCrcReport ⟨k, line⟩ s) ha hq
  case crcSecond =>
    intro q line hw h
    rw [← Dev.writeCrcReport_second hw h]
    exact becomes_clocked (exec_writeCrcReport ⟨k, line⟩ s) ha hq
  case caErr =>
    intro n q hl s1
    rw [← Dev.caErr_amends hl]
    exact becomes_clocked (exec_caErr k n s) ha hq

end Sys2Proof.Machine
end

section
/-! The register ports of the cipher engines, and what updates of keys and ranges, the end of a command and an event leave of them (R8, R312). -/

namespace Sys2Proof.Machine

variable (s : Dev)

/-! ### Keys and ranges after an update -/

theorem Dev.key_setKey (k : Nat) (x : KeySt) (j : Nat) : (s.setKey k x).key j = if j = k then x else s.key j := by
  simp [Dev.key, Dev.setKey, Map.get_set]

@[simp] theorem Dev.key_setKey_same (k : Nat) (x : KeySt) : (s.setKey k x).key k = x := by rw [Dev.key_setKey, if_pos rfl]

theorem Dev.range_setRange (r : Nat) (x : RangeSt) (j : Nat) : (s.setRange r x).range j = if j = r then x else s.range j := by
  simp [Dev.range, Dev.setRange, Map.get_set]

@[simp] theorem Dev.range_setRange_same (r : Nat) (x : RangeSt) : (s.setRange r x).range r = x := by rw [Dev.range_setRange, if_pos rfl]

@[simp] theorem Dev.key_setRange (r : Nat) (x : RangeSt) (k : Nat) : (s.setRange r x).key k = s.key k := rfl
@[simp] theorem Dev.range_setKey (k : Nat) (x : KeySt) (r : Nat) : (s.setKey k x).range r = s.range r := rfl

theorem Dev.key_of_mce {s d : Dev} (h : d.mce = s.mce) (k : Nat) : d.key k = s.key k := by rw [Dev.key, h, Dev.key]
theorem Dev.range_of_mce {s d : Dev} (h : d.mce = s.mce) (r : Nat) : d.range r = s.range r := by rw [Dev.range, h, Dev.range]

/-! ### After an answer and the end of a command -/

@[simp] theorem Dev.finish_mce (b : Nat) (st : Status) : (s.finish b st).mce = s.mce := s.finish_keeps b st (p := Dev.mce) fun _ _ => rfl
@[simp] theorem Dev.okReply_mce (v : Word) : (s.okReply v).mce = s.mce := rfl

theorem mce_settle_okReply : s.okReply.settle.mce = s.mce := by rw [settle_mce, Dev.okReply_mce]
theorem mem_settle_okReply : s.okReply.settle.mem = s.mem := by rw [settle_mem, Dev.okReply_mem]

theorem mce_settle_finish (b : Nat) (st : Status) : (s.finish b st).okReply.settle.mce = s.mce := by
  rw [mce_settle_okReply, Dev.finish_mce]

theorem key_settle_finish (b : Nat) (st : Status) (k : Nat) : (s.finish b st).okReply.settle.key k = s.key k :=
  Dev.key_of_mce (mce_settle_finish s b st) k

/-! ### Register ports -/

variable {s : State} {c : Instr} {src : RegSrc} {w : Word}

/-- A write to MCE_RANGE_CMD is a command of the range that MCE_RANGE_SEL shows (R312). -/
theorem becomes_rangeCmd (hc : exec c s = run (fun d => d.command src B.MCE O.MCE_RANGE_CMD w) s)
    (hw : s.dev.writes src B.MCE O.MCE_RANGE_CMD w) : Becomes c s (s.dev.rangeCmd w).okReply := by
  have becomes := becomes_command hc (by decide) hw
  rw [Dev.writeReg_own _ _ _ (k := .mce) rfl (by decide) (by decide)] at becomes
  exact becomes

/-- A write to MCE_KEY_CMD is a command of the key ID that it names (R312). -/
theorem becomes_keyCmd (hc : exec c s = run (fun d => d.command src B.MCE O.MCE_KEY_CMD w) s)
    (hw : s.dev.writes src B.MCE O.MCE_KEY_CMD w) : Becomes c s (s.dev.keyCmd w).okReply := by
  have becomes := becomes_command hc (by decide) hw
  rw [Dev.writeReg_own _ _ _ (k := .mce) rfl (by decide) (by decide)] at becomes
  exact becomes

end Sys2Proof.Machine
end

section
/-! The commands of a protected range where its state allows them (R280, R281, R306, R308). -/

namespace Sys2Proof.Machine

section
variable (s : Dev) {r : Nat}

/-! ### ENABLE and DISABLE -/

/-- What a range stands as once ENABLE has taken its staged settings: its place, the map, and the keys of its key ID (R280, R281). -/
def Dev.stagedImg (s : Dev) (x : RangeSt) : RangeImg :=
  { base := x.sBase, size := x.sSize, mode := x.sMode, slot := x.sSlot, metaBase := s.fld B.MCE F.MCE_META_CFG_BASE,
    dataKey := (s.key x.sKey).data, macKey := (s.key x.sKey).mac, masks := s.ext.active }

/-- The staged lines lie within external memory, apart from the other ranges and from the metadata; the staged slots lie within the metadata,
apart from the slots of the other ranges (R280). -/
structure Dev.StagedApart (s : Dev) (r : Nat) : Prop where
  mode : (s.range r).sMode ≠ 3
  others : ∀ g ∈ s.otherImgs r, meet (s.range r).sBase (s.range r).sSize g.base g.size = false ∧
    (g.mode = 2 → meet (s.range r).sSlot (s.range r).sSize g.slot g.size = false)
  slots : s.fld B.MCE F.MCE_META_CFG_SLOTS ≠ 0 → meet ((s.range r).sBase * unit64) ((s.range r).sSize * unit64)
    (s.fld B.MCE F.MCE_META_CFG_BASE * unit64) (s.fld B.MCE F.MCE_META_CFG_SLOTS * Machine.slotBytes) = false
  usable : ((s.range r).sBase + (s.range r).sSize) * unit64 ≤ s.usableEnd
  room : (s.range r).sMode = 2 → (s.range r).sSlot + (s.range r).sSize ≤ s.fld B.MCE F.MCE_META_CFG_SLOTS

theorem Dev.rangeEnable_starts (apart : s.StagedApart r) (hst : (s.range r).st = .disabled) (hk : (s.key (s.range r).sKey).st = .active)
    (hon : s.allOnline = true)
    (hd : s.declReaches ((s.range r).sBase * unit64) (((s.range r).sBase + (s.range r).sSize) * unit64) = false) :
    s.rangeEnable r = s.setRange r { s.range r with
      st := .init, keyId := (s.range r).sKey, walking := none, poisonAll := false, img := some (s.stagedImg (s.range r)) } := by
  have lines : (s.otherImgs r).any (fun g => meet (s.range r).sBase (s.range r).sSize g.base g.size) = false :=
    List.any_eq_false.2 fun g hg => by simp [(apart.others g hg).1]
  have slots : (s.otherImgs r).any (fun g => g.mode == 2 && meet (s.range r).sSlot (s.range r).sSize g.slot g.size) = false :=
    List.any_eq_false.2 fun g hg => by simpa using (apart.others g hg).2
  have metadata : (s.fld B.MCE F.MCE_META_CFG_SLOTS != 0 && meet ((s.range r).sBase * unit64) ((s.range r).sSize * unit64)
      (s.fld B.MCE F.MCE_META_CFG_BASE * unit64) (s.fld B.MCE F.MCE_META_CFG_SLOTS * Machine.slotBytes)) = false := by
    simpa using apart.slots
  have room : ((s.range r).sMode = 2 && decide (s.fld B.MCE F.MCE_META_CFG_SLOTS < (s.range r).sSlot + (s.range r).sSize)) = false := by
    simpa using apart.room
  simp [Dev.rangeEnable, Dev.stagedImg, lines, slots, metadata, room, apart.mode, Nat.not_lt.2 apart.usable, hst, hk, hon, hd]

/-- That a range which walks is not disabled is the model's choice (log entry 27). -/
theorem Dev.rangeDisable_starts {g : RangeImg} (hg : (s.range r).img = some g) (hst : (s.range r).st = .enabled)
    (hw : (s.range r).walking = none) (hon : s.allOnline = true) (hd : s.declReaches g.lo g.hi = false) :
    s.rangeDisable r = s.setRange r { s.range r with st := .zeroising } := by
  simp [Dev.rangeDisable, hg, hst, hw, hon, hd]

/-! ### REKEY and ABORT -/

/-- The device as a walk of range `r` to key ID `new` starts, or goes on from the unit it has reached (R306, R307, R308). -/
def Dev.walkStarts (s : Dev) (r new : Nat) (g : RangeImg) : Dev :=
  let drained := s.setKey (s.range r).keyId { s.key (s.range r).keyId with st := .draining }
  let moving := drained.setRange r { s.range r with
    walking := some new, img := some { g with newData := (s.key new).data, newMac := (s.key new).mac } }
  { moving with mce := { moving.mce with walker := some { range := r, newId := new, unit := g.split } } }

/-- No other range that protects something is ENABLED under the key ID of range `r` (R306). -/
def Dev.KeyAlone (s : Dev) (r : Nat) : Prop :=
  ∀ k < 16, k ≠ r → (s.range k).st = .enabled → (s.range k).keyId = (s.range r).keyId → ∀ h, (s.range k).img = some h → h.mode = 0

theorem Dev.KeyAlone.not_shared {s : Dev} {r : Nat} (h : s.KeyAlone r) :
    (List.range 16).any (fun k => k != r && (s.range k).st == .enabled && (s.range k).keyId == (s.range r).keyId &&
      (s.range k).img.any (fun h => h.mode != 0)) = false := by
  refine List.any_eq_false.2 fun k hk => ?_
  have plain := h k (List.mem_range.1 hk)
  cases hi : (s.range k).img with
  | none => simp
  | some g => simpa [hi] using fun hne hst hkey => plain hne hst hkey g hi

variable {g : RangeImg} {new : Nat}

theorem Dev.rekey_starts (hg : (s.range r).img = some g) (hst : (s.range r).st = .enabled) (hm : g.mode ≠ 0) (alone : s.KeyAlone r)
    (hd : s.declReaches g.lo g.hi = false) (hne : new ≠ (s.range r).keyId) (hn : (s.key new).st = .active)
    (hold : (s.range r).walking = none ∧ (s.key (s.range r).keyId).st = .active ∨
      (s.range r).walking = some new ∧ (s.key (s.range r).keyId).st = .draining)
    (idle : s.mce.walker = none) : s.rekey r new = s.walkStarts r new g := by
  rw [Dev.rekey, hg]
  dsimp only
  rw [alone.not_shared]
  rcases hold with ⟨hw, ho⟩ | ⟨hw, ho⟩ <;> simp [hst, hm, hd, hne, hn, idle, hw, ho, Dev.walkStarts]

/-- After the start of a walk the range's old key drains and the new one is still ACTIVE (R290). -/
theorem Dev.key_walkStarts (k : Nat) : (s.walkStarts r new g).key k =
    if k = (s.range r).keyId then { s.key (s.range r).keyId with st := .draining } else s.key k :=
  s.key_setKey (s.range r).keyId { s.key (s.range r).keyId with st := .draining } k

theorem Dev.range_walkStarts : (s.walkStarts r new g).range r =
    { s.range r with walking := some new, img := some { g with newData := (s.key new).data, newMac := (s.key new).mac } } :=
  Dev.range_setRange_same _ r _

/-- The device whose walker stops after the unit it works on (R308). -/
def Dev.walkAborts (s : Dev) (w : Walker) : Dev := { s with mce := { s.mce with walker := some { w with aborting := true } } }

theorem Dev.rekeyAbort_walking {w : Walker} (hw : s.mce.walker = some w) (hr : w.range = r) :
    s.rekeyAbort r = (s.walkAborts w).finish B.MCE .ok := by
  rw [Dev.rekeyAbort, hw]
  exact if_pos hr

end

/-- A command of MCE_RANGE_CMD, by its code (R312). -/
theorem Dev.rangeCmd_eq (s : Dev) (data : Word) :
    let r := s.fld B.MCE F.MCE_RANGE_SEL_RANGE
    s.rangeCmd (withField data 0 3 1) = s.rangeEnable r ∧ s.rangeCmd (withField data 0 3 2) = s.rangeDisable r ∧
      s.rangeCmd (withField data 0 3 3) = s.rekey r (nfield (withField data 0 3 3).toNat 4 6) ∧
      s.rangeCmd (withField data 0 3 4) = s.rekeyAbort r := by
  refine ⟨?_, ?_, ?_, ?_⟩ <;> rw [Dev.rangeCmd, mod_eight_withField _ (by decide)] <;> rfl

/-- Settles O19: each command by the equation of its case. -/
theorem rangeCommands : Obligations.RangeCommands := by
  intro s src data r x
  obtain ⟨enable, disable, rekey, abort⟩ := s.dev.rangeCmd_eq data
  refine ⟨?enable, ?disable, ?rekey, ?abort⟩
  case enable =>
    intro others mb slots k hw hmode hothers hslots husable hroom hst hk hon hd
    have becomes := becomes_rangeCmd (exec_rangeEnable src data s) hw
    rwa [enable, s.dev.rangeEnable_starts ⟨hmode, hothers, hslots, husable, hroom⟩ hst hk hon hd] at becomes
  case disable =>
    intro g hw hg hst hwalk hon hd
    have becomes := becomes_rangeCmd (exec_rangeDisable src data s) hw
    rw [disable, s.dev.rangeDisable_starts hg hst hwalk hon hd] at becomes
    refine becomes.completes ⟨?_, mem_settle_okReply _⟩
    rw [Dev.range_of_mce (mce_settle_okReply _), Dev.range_setRange_same]
  case rekey =>
    intro g w new hw hg hst hm alone hd hne hn hold idle
    have becomes := becomes_rangeCmd (exec_rekey src data s) hw
    rw [rekey, s.dev.rekey_starts hg hst hm alone hd hne hn hold idle] at becomes
    refine becomes.completes ⟨?_, ?_, ?_, ?_, mem_settle_okReply _⟩
    · rw [mce_settle_okReply]
      rfl
    · rw [Dev.key_of_mce (mce_settle_okReply _), Dev.key_walkStarts, if_pos rfl]
    · rw [Dev.key_of_mce (mce_settle_okReply _), Dev.key_walkStarts, if_neg hne, hn]
    · rw [Dev.range_of_mce (mce_settle_okReply _), Dev.range_walkStarts]
  case abort =>
    intro w hw hwalker hr
    have becomes := becomes_rangeCmd (exec_rekeyAbort src data s) hw
    rw [abort, s.dev.rekeyAbort_walking hwalker hr] at becomes
    exact becomes.completes ⟨mce_settle_finish _ _ _, mem_settle_finish _ _ _, lastStatus_settle_finish _ _ _⟩

end Sys2Proof.Machine
end

section
/-! The commands of memory keys where the state of the key ID allows them (R289, R290). -/

namespace Sys2Proof.Machine

section
variable (s : Dev)

/-- A command of MCE_KEY_CMD for a memory key, by its code (R312). -/
theorem Dev.keyCmd_memory (data : Word) :
    let memory (op : Nat) := nbit (withField data 0 3 op).toNat 3 = false
    let id (op : Nat) := nfield (withField data 0 3 op).toNat 4 6
    (memory 1 → s.keyCmd (withField data 0 3 1) = s.keyGen false (id 1)) ∧
      (memory 2 → s.keyCmd (withField data 0 3 2) = s.keyUnwrap false (id 2)) ∧
      (memory 3 → s.keyCmd (withField data 0 3 3) = s.keyRetire false (id 3)) ∧
      (memory 4 → s.keyCmd (withField data 0 3 4) = s.keyZeroise false (id 4)) := by
  refine ⟨fun h => ?_, fun h => ?_, fun h => ?_, fun h => ?_⟩ <;> rw [Dev.keyCmd, mod_eight_withField _ (by decide), h] <;> rfl

/-! ### KEY_GEN and KEY_RETIRE -/

variable {id : Nat}

/-- The device after a memory key has been drawn and installed (R289): first the data key, then the MAC key. -/
def Dev.keyDrawn (s : Dev) (id : Nat) : Dev := s.draw.2.draw.2.installKey id s.draw.1 s.draw.2.draw.1

theorem Dev.keyGen_free (hst : (s.key id).st = .free) (hrun : s.flag B.SEC F.SEC_RNG_STAT_RUN = true) :
    s.keyGen false id = (s.keyDrawn id).finish B.MCE .ok := by
  simp only [Dev.keyGen, hst, hrun, Dev.keyDrawn, Bool.not_true, Bool.false_eq_true, ne_eq, not_true, if_false]

/-- A key that leaves FREE is ACTIVE, and its generation has counted (R290). -/
theorem Dev.key_installKey (data mac : BitVec 256) :
    (s.installKey id data mac).key id = { st := .active, gen := satAdd 16 (s.key id).gen 1, data, mac } :=
  s.key_setKey_same id _

@[simp] theorem Dev.installKey_mem (data mac : BitVec 256) : (s.installKey id data mac).mem = s.mem := rfl
@[simp] theorem Dev.installKey_reg (data mac : BitVec 256) (b o : Nat) : (s.installKey id data mac).reg b o = s.reg b o := rfl

theorem Dev.keyRetire_active (hst : (s.key id).st = .active) :
    s.keyRetire false id = (s.setKey id { s.key id with st := .retired }).finish B.MCE .ok := by
  simp [Dev.keyRetire, hst]

/-! ### KEY_UNWRAP -/

/-- The device with one word of MCE_WRAPn cleared, and with all of them (R289). -/
def Dev.wrapClear (s : Dev) (n : Nat) : Dev := s.setReg B.MCE (O.MCE_WRAP n) 0
def Dev.wrapCleared (s : Dev) : Dev := s.forN 18 Dev.wrapClear

theorem Dev.wrapCleared_mce : s.wrapCleared.mce = s.mce := Dev.forN_keeps (p := Dev.mce) (f := Dev.wrapClear) s (fun _ _ => rfl) 18
theorem Dev.wrapCleared_mem : s.wrapCleared.mem = s.mem := Dev.forN_keeps (p := Dev.mem) (f := Dev.wrapClear) s (fun _ _ => rfl) 18

theorem Dev.reg_wrapClear (m n : Nat) :
    (s.wrapClear m).reg B.MCE (O.MCE_WRAP n) = if m = n then 0 else s.reg B.MCE (O.MCE_WRAP n) := by
  split
  · next h => rw [h, Dev.wrapClear, Dev.reg_setReg]
  · next h =>
    have apart : blockBytes * B.MCE + O.MCE_WRAP n ≠ blockBytes * B.MCE + O.MCE_WRAP m := by simp only [O.MCE_WRAP]; omega
    rw [Dev.wrapClear, s.reg_setReg_ne _ _ _ _ _ apart]

theorem Dev.reg_wrapCleared {n : Nat} (hn : n < 18) : s.wrapCleared.reg B.MCE (O.MCE_WRAP n) = 0 := by
  have brings (d : Dev) : (d.wrapClear n).reg B.MCE (O.MCE_WRAP n) = 0 := by rw [Dev.reg_wrapClear, if_pos rfl]
  have keeps (d : Dev) (m : Nat) (hd : d.reg B.MCE (O.MCE_WRAP n) = 0) : (d.wrapClear m).reg B.MCE (O.MCE_WRAP n) = 0 := by
    rw [Dev.reg_wrapClear, hd, ite_self]
  exact foldl_brings brings keeps (List.mem_range.2 hn) s

/-- They stand at zero after the command has ended, whatever its status. -/
theorem reg_wrap_settle_finish {d : Dev} (h : ∀ n < 18, d.reg B.MCE (O.MCE_WRAP n) = 0) (st : Status) :
    ∀ n < 18, (d.finish B.MCE st).okReply.settle.reg B.MCE (O.MCE_WRAP n) = 0 := by
  intro n hn
  have inside : O.MCE_WRAP n < blockBytes := by simp only [O.MCE_WRAP, blockBytes]; omega
  have not_evt : O.MCE_WRAP n ≠ O.EVT_STATUS := by simp only [O.MCE_WRAP, O.EVT_STATUS]; omega
  have not_status : O.MCE_WRAP n ≠ O.BLK_STATUS := by simp only [O.MCE_WRAP, O.BLK_STATUS]; omega
  rw [reg_settle_finish _ _ _ inside not_evt not_status (.inl (by decide)), h n hn]

/-- A key of 256 bits from the bytes that hold it (R289). -/
def keyOfBytes (b : List Nat) : BitVec 256 := BitVec.ofNat 256 (ofLeBytes (toBytes b))

variable {kek : BitVec 256} (hst : (s.key id).st = .free) (hkek : s.kwk = some kek)
include hst hkek

/-- A wrapped key that unwraps is installed (R289, R290). -/
theorem Dev.keyUnwrap_opens {b : List Nat} (h : Aes.unwrap kek (s.wrapped 72) = some b) :
    s.keyUnwrap false id = (s.wrapCleared.installKey id (keyOfBytes (b.take 32)) (keyOfBytes (b.drop 32))).finish B.MCE .ok := by
  have cleared : s.forN 18 (fun s n => s.setReg B.MCE (O.MCE_WRAP n) 0) = s.wrapCleared := rfl
  simp only [Dev.keyUnwrap, cleared, hst, hkek, h, Bool.false_and, Bool.false_eq_true, if_false, ne_eq, not_true, Option.map_some, keyOfBytes]

/-- A wrapped key that fails its check is not (R289). -/
theorem Dev.keyUnwrap_fails (h : Aes.unwrap kek (s.wrapped 72) = none) : s.keyUnwrap false id = s.wrapCleared.finish B.MCE .auth := by
  have cleared : s.forN 18 (fun s n => s.setReg B.MCE (O.MCE_WRAP n) 0) = s.wrapCleared := rfl
  simp only [Dev.keyUnwrap, cleared, hst, hkek, h, Bool.false_and, Bool.false_eq_true, if_false, ne_eq, not_true, Option.map_some]

end

/-! ### KEY_ZEROISE -/

section
variable (s : Dev) (r : Nat)

theorem Dev.forgetMeta_mce (g : RangeImg) : (s.forgetMeta g).mce = s.mce :=
  s.forN_keeps (p := Dev.mce) (fun s k => by dsimp only; split <;> rfl) 8

/-- A range that is zeroised is DISABLED, and no key and no other range changes (R281, R290). -/
theorem Dev.zeroiseRange_mce : ∃ x : RangeSt, x.st = .disabled ∧
    (s.zeroiseRange r).mce.ranges = Map.set (fun _ => {}) s.mce.ranges r x ∧ (s.zeroiseRange r).mce.keys = s.mce.keys := by
  unfold Dev.zeroiseRange
  dsimp only
  split
  · exact ⟨_, rfl, rfl, rfl⟩
  · refine ⟨{ s.range r with st := .disabled, img := none, walking := none, poisonAll := false }, rfl, ?_⟩
    split <;> split <;> split <;> simp [Dev.clearPoison, Dev.setRange, Dev.forgetMeta_mce, Dev.freshRoot, Dev.clearExt]

theorem Dev.key_zeroiseRange (k : Nat) : (s.zeroiseRange r).key k = s.key k := by
  obtain ⟨-, -, -, keys⟩ := s.zeroiseRange_mce r
  rw [Dev.key, keys, Dev.key]

theorem Dev.under_zeroiseRange (id j : Nat) :
    ((s.zeroiseRange r).range j).under id = if j = r then false else (s.range j).under id := by
  obtain ⟨x, disabled, ranges, -⟩ := s.zeroiseRange_mce r
  rw [Dev.range, ranges, Map.get_set]
  split
  · simp [RangeSt.under, disabled]
  · rfl

/-- Every range under a key ID is zeroised (R290). That a range which a walk moves to the ID is one of them is the model's choice (log entry
141). -/
def Dev.zeroiseUnder (s : Dev) (id : Nat) : Dev := s.forN 16 (fun s r => if (s.range r).under id then s.zeroiseRange r else s)

variable (id : Nat)

theorem Dev.key_zeroiseUnder (k : Nat) : (s.zeroiseUnder id).key k = s.key k := by
  refine Dev.forN_keeps (p := fun d : Dev => d.key k) s (fun d r => ?_) 16
  split
  · exact d.key_zeroiseRange r k
  · rfl

/-- No range stands under the key ID any more. -/
theorem Dev.under_zeroiseUnder {r : Nat} (hr : r < 16) : ((s.zeroiseUnder id).range r).under id = false := by
  unfold Dev.zeroiseUnder Dev.forN
  refine foldl_brings (P := fun d : Dev => (d.range r).under id = false) (fun d => ?_) (fun d j hd => ?_) (List.mem_range.2 hr) s
  · split
    · rw [Dev.under_zeroiseRange, if_pos rfl]
    · next h => simpa using h
  · split
    · rw [Dev.under_zeroiseRange, hd, ite_self]
    · exact hd

/-- Where no range stands under the key ID there is none to zeroise. -/
theorem Dev.zeroiseUnder_none (h : ∀ r < 16, (s.range r).under id = false) : s.zeroiseUnder id = s := by
  unfold Dev.zeroiseUnder Dev.forN
  refine List.foldlRecOn (motive := fun d => d = s) (List.range 16) _ rfl fun d hd r hr => ?_
  subst hd
  simp [h r (List.mem_range.1 hr)]

variable {id}

/-- A RETIRED key whose generation can still count is FREE again (R290). -/
theorem Dev.keyZeroise_retired (hst : (s.key id).st = .retired) (hgen : (s.key id).gen ≠ 0xFFFF) :
    s.keyZeroise false id = ((s.zeroiseUnder id).setKey id { gen := (s.key id).gen }).finish B.MCE .ok := by
  have kept := s.key_zeroiseUnder id id
  unfold Dev.zeroiseUnder at kept ⊢
  simp [Dev.keyZeroise, hst, kept, hgen]

end

/-- Settles O20: each command by the equation of its case, read after it has ended. -/
theorem keyCommands : Obligations.KeyCommands := by
  intro s src data okay
  obtain ⟨gen, unwrap, retire, zeroise⟩ := s.dev.keyCmd_memory data
  have ended (d : Dev) (hmem : d.mem = s.dev.mem) : okay (d.finish B.MCE .ok).okReply.settle :=
    ⟨lastStatus_settle_finish _ _ _, (mem_settle_finish _ _ _).trans hmem⟩
  refine ⟨?gen, ?unwrap, ?retire, ?zeroise⟩
  case gen =>
    intro w id hw hl hst hrun
    have becomes := becomes_keyCmd (exec_keyGen src data s) hw
    rw [gen hl, Dev.keyGen_free _ hst hrun] at becomes
    refine becomes.completes ⟨?_, ended _ rfl⟩
    rw [key_settle_finish, Dev.keyDrawn, Dev.key_installKey]
    rfl
  case unwrap =>
    intro kek w id hw hl hst hkek
    have becomes := becomes_keyCmd (exec_keyUnwrap src data s) hw
    rw [unwrap hl] at becomes
    cases h : Aes.unwrap kek (s.dev.wrapped 72) with
    | none =>
      rw [Dev.keyUnwrap_fails _ hst hkek h] at becomes
      refine becomes.completes ⟨?_, reg_wrap_settle_finish (fun n hn => s.dev.reg_wrapCleared hn) _, ?_, lastStatus_settle_finish _ _ _⟩
      · rw [mem_settle_finish, Dev.wrapCleared_mem]
      · rw [key_settle_finish, Dev.key_of_mce (Dev.wrapCleared_mce _)]
    | some b =>
      rw [Dev.keyUnwrap_opens _ hst hkek h] at becomes
      refine becomes.completes ⟨?_, reg_wrap_settle_finish (fun n hn => ?_) _, ?_, lastStatus_settle_finish _ _ _⟩
      · rw [mem_settle_finish, Dev.installKey_mem, Dev.wrapCleared_mem]
      · rw [Dev.installKey_reg, s.dev.reg_wrapCleared hn]
      · rw [key_settle_finish, Dev.key_installKey, Dev.key_of_mce (Dev.wrapCleared_mce _)]
        rfl
  case retire =>
    intro w id hw hl hst
    have becomes := becomes_keyCmd (exec_keyRetire src data s) hw
    rw [retire hl, Dev.keyRetire_active _ hst] at becomes
    refine becomes.completes ⟨?_, ended _ rfl⟩
    rw [key_settle_finish, Dev.key_setKey_same]
  case zeroise =>
    intro w id hw hl hst hgen
    have becomes := becomes_keyCmd (exec_keyZeroise src data s) hw
    rw [zeroise hl, Dev.keyZeroise_retired _ hst hgen] at becomes
    refine becomes.completes ⟨?_, ?_, fun r hr => ?_, fun hnone => ended _ ?_⟩
    · rw [key_settle_finish, Dev.key_setKey_same]
    · rw [key_settle_finish, Dev.key_setKey_same]
    · rw [Dev.range_of_mce (mce_settle_finish _ _ _), Dev.range_setKey, Dev.under_zeroiseUnder _ _ hr]
    · rw [Dev.zeroiseUnder_none _ _ hnone, Dev.setKey_mem]

end Sys2Proof.Machine
end

section
/-! A metadata fetch that ends while a reset is under way (R302, R466). -/

namespace Sys2Proof.Machine

/-- A class F cause that arises while a reset is under way makes no change: the reset goes before it (R466). -/
theorem Dev.quarantine_resetting {s : Dev} (h : s.clk.phase = .selfRefresh) (cause addr blk evt synd : Nat) :
    s.quarantine cause addr blk evt synd = s := if_pos h

/-- A range in mode CTR_MAC, and a round that has read the counter block of its page 0. -/
def fetchedImg : RangeImg := { base := 1, size := 1, mode := 2, slot := 0, metaBase := 9, dataKey := 0, macKey := 0 }
def fetchedRound : FetchRound := { range := 0, page := 0, engine := 0, lines := [fetchedImg.metaAddr 0 0], todo := [] }

/-- A device in Moored with a reset under way, its external memory in self-refresh, and that round about to complete. -/
def fetchInReset : State :=
  { dev := ({ clk := { mainPower := true, phase := .selfRefresh },
              mce := { ranges := [(0, { st := .enabled, img := some fetchedImg })], rounds := [fetchedRound] } } : Dev).setFld B.LH
                F.LH_MODE_MODE Mode.moored.code }

/-- The round completes: with nothing to stop it, the engine drops it from its list. -/
theorem rounds_fetchInReset : (fetchInReset.dev.metaFetch 0 0 [⟨0, .badMac, .good⟩]).mce.rounds = [] := rfl

/-- Refutes O21: it asks that a metadata line whose MAC fails leave the device as the class F cause leaves it, whatever the phase of a reset;
while a reset is under way the cause has no effect (R466), and the fetch goes on to its end. -/
theorem not_cipherEvents : ¬ Obligations.CipherEvents := by
  intro h
  obtain ⟨-, -, -, fetch, -⟩ := h fetchInReset (by decide) (by decide)
  obtain ⟨-, -, badMac⟩ := fetch 0 0 [⟨0, .badMac, .good⟩] fetchedImg fetchedRound rfl (by decide) rfl
  have claimed := badMac 0 rfl (by decide)
  have ends := becomes_clocked (exec_metaFetch 0 0 [⟨0, .badMac, .good⟩] fetchInReset) (by decide) (by decide)
  have same := congrArg State.dev (Host.Outcome.next.inj (claimed.symm.trans ends))
  have rounds := congrArg (·.mce.rounds) same
  rw [Dev.quarantine_resetting rfl] at rounds
  simp only [settle_mce] at rounds
  exact absurd (rounds.trans rounds_fetchInReset) (by decide)

end Sys2Proof.Machine
end

section
/-! What stands in the registers of a causeway link, at the link and on the jetty lines after the updates that a row or a frame makes (R324, R326,
R362). -/

namespace Sys2Proof.Machine

variable (s : Dev) (n : Nat)

theorem cw_ne_lh : B.CW n ≠ B.LH := by simp only [B.CW, B.LH]; omega
theorem cw_ne_dbg : B.CW n ≠ B.DBG := by simp only [B.CW, B.DBG]; omega
theorem cw_ne_hn : B.HN ≠ B.CW n := by simp only [B.CW, B.HN]; omega

/-- A field of another register of the block. -/
theorem Dev.fld_setFld_off (b : Nat) {f g : Fld} (v : Nat) (h : g.off ≠ f.off) : (s.setFld b f v).fld b g = s.fld b g :=
  s.fld_setFld_ne _ _ _ _ _ fun e => h (Nat.add_left_cancel e)

/-- The registers of a link say nothing of where the device stands in the mesh (R213). -/
theorem Dev.linkPeer_setFld {f : Fld} (hf : f.off < blockBytes) (v : Nat) : (s.setFld (B.CW n) f v).linkPeer n = s.linkPeer n := by
  have apart {g : Fld} (hg : g.off < blockBytes) : blockBytes * B.HN + g.off ≠ blockBytes * B.CW n + f.off := fun e =>
    cw_ne_hn n (window_inj hg hf e).1
  have coord : (s.setFld (B.CW n) f v).coord = s.coord := by
    rw [Dev.coord, s.fld_setFld_ne _ _ _ _ _ (apart (by decide)), s.fld_setFld_ne _ _ _ _ _ (apart (by decide)), Dev.coord]
  rw [Dev.linkPeer, coord, Dev.linkPeer]

@[simp] theorem Dev.link_setFld (b : Nat) (f : Fld) (v k : Nat) : (s.setFld b f v).link k = s.link k := by
  rw [Dev.link, Dev.setFld_links, Dev.link]

/-! ### The jetty lines -/

/-- Every jetty line has the source that R362 gives it. -/
def Dev.LinesShow (s : Dev) : Prop := ∀ p, (s.port p).txSrc = s.portSource p

namespace Dev.LinesShow

variable {s : Dev} {n : Nat}

theorem setReg (h : s.LinesShow) {o : Nat} (ho : o < blockBytes) (w : Word) : (s.setReg (B.CW n) o w).LinesShow := fun p =>
  (h p).trans (Dev.portSource_congr rfl rfl rfl (s.mode_setReg (cw_ne_lh n) ho w).symm rfl)

theorem setFld (h : s.LinesShow) {f : Fld} (hf : f.off < blockBytes) (v : Nat) : (s.setFld (B.CW n) f v).LinesShow := h.setReg hf _

theorem setLink (h : s.LinesShow) (l : LinkSt) : (s.setLink n l).LinesShow := h

end Dev.LinesShow

/-! ### The row that a link shows in training -/

/-- The row on the pins is all that showing it changes (R323). -/
theorem Dev.trainRow_keeps {β : Type} {p : Dev → β} (h : ∀ l, p (s.setLink n l) = p s) : p (s.trainRow n) = p s := by
  unfold Dev.trainRow
  dsimp only
  split
  · exact h _
  · exact h _
  · exact h _
  · rfl

theorem Dev.link_trainRow {β : Type} {q : LinkSt → β} (h : ∀ l row, q { l with sent := row } = q l) :
    q ((s.trainRow n).link n) = q (s.link n) := by
  unfold Dev.trainRow
  dsimp only
  split
  · rw [Dev.link_setLink, h]
  · rw [Dev.link_setLink, h]
  · rw [Dev.link_setLink, h]
  · rfl

theorem Dev.LinesShow.trainRow {s : Dev} {n : Nat} (h : s.LinesShow) : (s.trainRow n).LinesShow := fun p => by
  rw [s.trainRow_keeps n (p := fun d => d.port p) fun _ => rfl, s.trainRow_keeps n (p := fun d => d.portSource p) fun _ => rfl, h p]

/-- A field of the link's block after the row is shown and the outputs have settled. -/
theorem fld_settle_trainRow (l : LinkSt) {f : Fld} (hf : f.off < blockBytes) (he : f.off ≠ O.EVT_STATUS) :
    ((s.setLink n l).trainRow n).settle.fld (B.CW n) f = s.fld (B.CW n) f := by
  rw [settle_fld _ _ _ hf he (.inl (cw_ne_dbg n)), Dev.trainRow_keeps _ _ (p := fun d => d.fld (B.CW n) f) fun _ => rfl, Dev.setLink_fld]

/-- What a link has beside its row after the row is shown and the outputs have settled. -/
theorem link_settle_trainRow {β : Type} {q : LinkSt → β} (h : s.LinesShow) (hq : ∀ l row, q { l with sent := row } = q l) (l : LinkSt) :
    q (((s.setLink n l).trainRow n).settle.link n) = q l := by
  rw [settle_link_of_sources _ (h.setLink l).trainRow, Dev.link_trainRow _ _ hq, Dev.link_setLink]

end Sys2Proof.Machine
end

section
/-! A row of TS1 or TS2 blocks that a link in training receives and agrees with (R323, R324, R325). -/

namespace Sys2Proof.Machine

variable (s : Dev) {n : Nat}

/-! ### TS1 -/

/-- The device with the skew and the polarity of the lanes, and the peer that a TS1 row names (R324). -/
def Dev.ts1Measured (s : Dev) (n : Nat) (blocks : List DWord) (skew pol : Nat) : Dev :=
  let b := (blocks.getD 0 0).toNat
  ((((s.setFld (B.CW n) F.CW_DELAY_SKEW (min skew 255)).setFld (B.CW n) F.CW_STATUS_LANE_POL pol).setFld (B.CW n) F.CW_PEER_DEV
    (nfield b 15 6)).setFld (B.CW n) F.CW_PEER_LINK (nfield b 11 4)).setFld (B.CW n) F.CW_PEER_VERSION (nfield b 24 8)

/-- A link after one more row in which ACCEPT has been both sent and received: the sixteenth takes it on to TS2 (R324). -/
def LinkSt.ts1Agreed (l : LinkSt) : LinkSt :=
  if 16 ≤ l.rows1 + 1 then { l with step := .ts2, ownAccept := false, rows1 := l.rows1 + 1, rows2 := 0 }
  else { l with ownAccept := true, rows1 := l.rows1 + 1 }

section
variable (blocks : List DWord) (skew pol : Nat)

theorem Dev.skew_ts1Measured (h : skew ≤ 128) : (s.ts1Measured n blocks skew pol).fld (B.CW n) F.CW_DELAY_SKEW = skew := by
  rw [Dev.ts1Measured, Dev.fld_setFld_off _ _ _ (by decide), Dev.fld_setFld_off _ _ _ (by decide), Dev.fld_setFld_off _ _ _ (by decide),
    Dev.fld_setFld_off _ _ _ (by decide), Dev.fld_setFld _ _ _ _ (by decide), F.CW_DELAY_SKEW]
  dsimp only
  omega

theorem Dev.lanePol_ts1Measured (pol : BitVec 8) :
    (s.ts1Measured n blocks skew pol.toNat).fld (B.CW n) F.CW_STATUS_LANE_POL = pol.toNat := by
  rw [Dev.ts1Measured, Dev.fld_setFld_off _ _ _ (by decide), Dev.fld_setFld_off _ _ _ (by decide), Dev.fld_setFld_off _ _ _ (by decide),
    Dev.fld_setFld _ _ _ _ (by decide)]
  exact Nat.mod_eq_of_lt pol.isLt

theorem Dev.linkState_ts1Measured : (s.ts1Measured n blocks skew pol).fld (B.CW n) F.CW_STATUS_STATE = s.linkState n := by
  rw [Dev.ts1Measured, Dev.fld_setFld_off _ _ _ (by decide), Dev.fld_setFld_off _ _ _ (by decide), Dev.fld_setFld_off _ _ _ (by decide),
    Dev.fld_setFld_field _ _ F.CW_STATUS_LANE_POL F.CW_STATUS_STATE _ (by decide) rfl (.inl (by decide)), Dev.fld_setFld_off _ _ _ (by decide),
    Dev.linkState]

theorem Dev.linkPeer_ts1Measured : (s.ts1Measured n blocks skew pol).linkPeer n = s.linkPeer n := by
  simp only [Dev.ts1Measured]
  repeat rw [Dev.linkPeer_setFld _ _ (by decide)]

theorem Dev.LinesShow.ts1Measured {s : Dev} (h : s.LinesShow) : (s.ts1Measured n blocks skew pol).LinesShow :=
  ((((h.setFld (by decide) _).setFld (by decide) _).setFld (by decide) _).setFld (by decide) _).setFld (by decide) _

end

variable {blocks : List DWord} {skew pol : Nat}

/-- A row that a link in step 3 of R324 agrees with: the lanes are aligned, and its eight blocks name the peer that the edge implies. -/
theorem Dev.ts1Good_of_blocks (hskew : skew ≤ 128) (hlen : blocks.length = 8)
    (hrow : ∀ k < 8, nfield (blocks.getD k 0).toNat 0 8 = 0x4B ∧ nfield (blocks.getD k 0).toNat 8 3 = k ∧
      nfield (blocks.getD k 0).toNat 11 4 = Nat.xor n 8 ∧ some (nfield (blocks.getD k 0).toNat 15 6) = s.linkPeer n ∧
      nfield (blocks.getD k 0).toNat 24 8 = 1) : s.ts1Good n blocks skew = true := by
  simpa only [Dev.ts1Good, Bool.and_eq_true, decide_eq_true_eq, List.all_eq_true, List.mem_range, beq_iff_eq, and_assoc] using
    ⟨hskew, hlen, hrow⟩

/-- A row whose every block carries ACCEPT (R323). -/
theorem all_accept_of_blocks (h : ∀ k < blocks.length, nbit (blocks.getD k 0).toNat 32 = true) :
    blocks.all (fun b => nbit b.toNat 32) = true := by
  refine List.all_eq_true.2 fun b hb => ?_
  obtain ⟨k, hk, rfl⟩ := List.getElem_of_mem hb
  have accept := h k hk
  rwa [List.getD_eq_getElem _ _ hk] at accept

theorem Dev.ts1Row_agreed (hst : s.linkState n = 1) (hstep : (s.link n).step = .ts1)
    (hgood : (s.ts1Measured n blocks skew pol).ts1Good n blocks skew = true) (hacc : blocks.all (fun b => nbit b.toNat 32) = true)
    (hown : (s.link n).ownAccept = true) :
    s.ts1Row n blocks skew pol = ((s.ts1Measured n blocks skew pol).setLink n (s.link n).ts1Agreed).trainRow n := by
  unfold Dev.ts1Measured at hgood ⊢
  simp only [Dev.ts1Row, hst, Dev.link_setFld, hstep, hgood, hacc, hown, LinkSt.ts1Agreed, ne_eq, not_true, Bool.not_true, Bool.and_self,
    Bool.false_eq_true, if_false, if_true]

/-! ### TS2 -/

/-- The device with the credits and the offers of the peer that a TS2 row carries (R324, R325). -/
def Dev.ts2Offered (s : Dev) (n : Nat) (w : DWord) : Dev :=
  let b := w.toNat
  (((s.setReg (B.CW n) O.CW_CREDIT (BitVec.ofNat 32 (b / 256))).setFlag (B.CW n) F.CW_STATUS_TIME_PEER (nbit b 41)).setFlag (B.CW n)
    F.CW_STATUS_FWD_PEER (nbit b 42)).setFlag (B.CW n) F.CW_STATUS_SHORT_CREDIT (decide (nfield b 8 8 < 64) || decide (nfield b 24 8 < 64))

section
variable (w : DWord)

theorem Dev.reg_ts2Offered_ne {o : Nat} (hs : o ≠ O.CW_STATUS) :
    (s.ts2Offered n w).reg (B.CW n) o = (s.setReg (B.CW n) O.CW_CREDIT (BitVec.ofNat 32 (w.toNat / 256))).reg (B.CW n) o := by
  have apart : blockBytes * B.CW n + o ≠ blockBytes * B.CW n + O.CW_STATUS := fun e => hs (Nat.add_left_cancel e)
  simp only [Dev.ts2Offered, Dev.setFlag]
  rw [Dev.reg_setFld_ne _ _ _ _ _ _ apart, Dev.reg_setFld_ne _ _ _ _ _ _ apart, Dev.reg_setFld_ne _ _ _ _ _ _ apart]

theorem Dev.credit_ts2Offered : (s.ts2Offered n w).reg (B.CW n) O.CW_CREDIT = BitVec.ofNat 32 (w.toNat / 256) := by
  rw [s.reg_ts2Offered_ne w (by decide), Dev.reg_setReg]

theorem Dev.flag_ts2Offered_keyCfg {f : Fld} (hf : f.off = O.CW_KEY_CFG) : (s.ts2Offered n w).flag (B.CW n) f = s.flag (B.CW n) f := by
  have apart : blockBytes * B.CW n + O.CW_KEY_CFG ≠ blockBytes * B.CW n + O.CW_CREDIT := fun e => absurd (Nat.add_left_cancel e) (by decide)
  rw [Dev.flag, Dev.fld, hf, s.reg_ts2Offered_ne w (by decide), s.reg_setReg_ne _ _ _ _ _ apart, ← hf, ← Dev.fld, ← Dev.flag]

theorem Dev.shortCredit_ts2Offered : (s.ts2Offered n w).flag (B.CW n) F.CW_STATUS_SHORT_CREDIT =
    (decide (nfield w.toNat 8 8 < 64) || decide (nfield w.toNat 24 8 < 64)) :=
  Dev.flag_setFlag _ _ _ _ (by decide) rfl

theorem Dev.LinesShow.ts2Offered {s : Dev} (h : s.LinesShow) : (s.ts2Offered n w).LinesShow :=
  (((h.setReg (by decide) _).setFld (by decide) _).setFld (by decide) _).setFld (by decide) _

end

/-- Where neither direction is encrypted the settings can be accepted if the peer sends no ciphertext (R311, R324). -/
theorem Dev.ts2Good_plain (hrx : s.flag (B.CW n) F.CW_KEY_CFG_RX_EN = false) (htx : s.flag (B.CW n) F.CW_KEY_CFG_TX_EN = false) :
    s.ts2Good n false = true := by
  simp [Dev.ts2Good, Dev.linkKeysActive, hrx, htx]

theorem Dev.ts2Row_agreed {w : DWord} (hst : s.linkState n = 1) (hstep : (s.link n).step = .ts2) (hid : nfield w.toNat 0 8 = 0x55)
    (hgood : (s.ts2Offered n w).ts2Good n (nbit w.toNat 40) = true) (hacc : nbit w.toNat 43 = true) (hown : (s.link n).ownAccept = true)
    (hrows : (s.link n).rows2 + 1 < 16) : s.ts2Row n w = ((s.ts2Offered n w).setLink n
      { s.link n with ownAccept := true, rows2 := (s.link n).rows2 + 1, peerTime := nbit w.toNat 41 }).trainRow n := by
  unfold Dev.ts2Offered at hgood ⊢
  simp [Dev.ts2Row, hst, hstep, hid, hgood, hacc, hown, Nat.not_le.2 hrows]

end Sys2Proof.Machine
end

section
/-! Frames that a link sends and receives: what goes next, a frame whose CRC fails, a frame in its turn (R310, R311, R326, R327). -/

namespace Sys2Proof.Machine

variable {s : Dev} {n : Nat}

/-! ### The next frame to go -/

section
variable (hflag : s.run.flagAt = none)
  (hst : s.linkState n = 2 ∨ s.linkState n = 1 ∧ ((s.link n).step = .sof ∨ (s.link n).step = .frames))
include hflag hst

/-- A link that sends frames, with no flag of a resumption due (R315, R511): the branches of what goes next. -/
theorem Dev.frameSend_sending : s.frameSend n =
    if s.flag (B.CW n) F.CW_STATUS_ENC_ON && decide (2 ^ 64 - 1 ≤ (s.link n).nextSeq) then s.event B.MCE 6
    else if s.flag (B.CW n) F.CW_STATUS_ENC_ON && !s.linkKeysActive n then s
    else match (s.link n).replayAt.bind (fun q => (s.link n).replay.find? (fun k => k.seq == q)) with
      | some k => s.frameAgain n k
      | none => s.frameNew n := by
  have nothing_due : s.flagDue = s := by rw [Dev.flagDue, hflag]
  have sends : (!(decide (s.linkState n = 2) || decide (s.linkState n = 1) &&
      (decide ((s.link n).step = .sof) || decide ((s.link n).step = .frames)))) = false := by
    simpa [or_iff_not_imp_left] using hst
  rw [Dev.frameSend, nothing_due, sends]
  rfl

/-- No encrypted frame goes once SEQ has saturated (R310). -/
theorem Dev.frameSend_exhausted (he : s.flag (B.CW n) F.CW_STATUS_ENC_ON = true) (hseq : 2 ^ 64 - 1 ≤ (s.link n).nextSeq) :
    s.frameSend n = s.event B.MCE 6 := by
  rw [Dev.frameSend_sending hflag hst, he, decide_eq_true hseq]
  rfl

/-- No encrypted frame goes while an enabled key is not ACTIVE (R311). -/
theorem Dev.frameSend_keyless (he : s.flag (B.CW n) F.CW_STATUS_ENC_ON = true) (hseq : (s.link n).nextSeq < 2 ^ 64 - 1)
    (hk : s.linkKeysActive n = false) : s.frameSend n = s := by
  rw [Dev.frameSend_sending hflag hst, he, decide_eq_false (Nat.not_le.2 hseq), hk]
  rfl

variable (free : s.flag (B.CW n) F.CW_STATUS_ENC_ON = true → (s.link n).nextSeq < 2 ^ 64 - 1 ∧ s.linkKeysActive n = true)
include free

/-- What encryption does not hold back is a replay, or a new frame (R326). -/
theorem Dev.frameSend_free : s.frameSend n =
    match (s.link n).replayAt.bind (fun q => (s.link n).replay.find? (fun k => k.seq == q)) with
    | some k => s.frameAgain n k
    | none => s.frameNew n := by
  rw [Dev.frameSend_sending hflag hst]
  cases he : s.flag (B.CW n) F.CW_STATUS_ENC_ON with
  | false => rfl
  | true =>
    obtain ⟨hseq, hk⟩ := free he
    rw [decide_eq_false (Nat.not_le.2 hseq), hk]
    rfl

theorem Dev.frameSend_replay {q : Nat} {k : KeptFrame} (hat : (s.link n).replayAt = some q)
    (hfind : (s.link n).replay.find? (fun k => k.seq == q) = some k) : s.frameSend n = s.frameAgain n k := by
  rw [Dev.frameSend_free hflag hst free, hat, Option.bind_some, hfind]

theorem Dev.frameSend_new (hat : (s.link n).replayAt = none) : s.frameSend n = s.frameNew n := by
  rw [Dev.frameSend_free hflag hst free, hat, Option.bind_none]

end

/-- A frame that goes again is on the pins bit for bit, and takes no new SEQ (R326). -/
theorem Dev.link_frameAgain (s : Dev) (n : Nat) (k : KeptFrame) :
    ((s.frameAgain n k).link n).sent = k.blocks ∧ ((s.frameAgain n k).link n).nextSeq = (s.link n).nextSeq := by
  rw [Dev.frameAgain, Dev.count, Dev.addFld, Dev.link_setFld, Dev.link_setLink]
  exact ⟨rfl, rfl⟩

theorem Dev.LinesShow.frameAgain (h : s.LinesShow) (k : KeptFrame) : (s.frameAgain n k).LinesShow :=
  Dev.LinesShow.setFld (f := F.CW_CNT0_RETRY_CNT) (h.setLink _) (by decide) _

/-! ### A frame that comes in -/

/-- The device after the five rows of a frame without an invalid sync header, none standing from before (R327). -/
def Dev.rowsCounted (s : Dev) (n : Nat) : Dev :=
  (s.setLink n { s.link n with rowsSeen := (s.link n).rowsSeen + 5, hdrBad := [] }).addFld (B.CW n) F.CW_CNT1_HDR_ERR_CNT 0

theorem Dev.headerErrors_none (hb : (s.link n).hdrBad = []) : s.headerErrors n [] = (s.rowsCounted n, false) := by
  simp [Dev.headerErrors, hb, Dev.rowsCounted]

theorem Dev.link_rowsCounted (s : Dev) (n : Nat) :
    (s.rowsCounted n).link n = { s.link n with rowsSeen := (s.link n).rowsSeen + 5, hdrBad := [] } := by
  rw [Dev.rowsCounted, Dev.addFld, Dev.link_setFld, Dev.link_setLink]

theorem Dev.linkState_rowsCounted (s : Dev) (n : Nat) : (s.rowsCounted n).linkState n = s.linkState n := by
  rw [Dev.linkState, Dev.rowsCounted, Dev.addFld, Dev.fld_setFld_off _ _ _ (by decide), Dev.setLink_fld, Dev.linkState]

theorem Dev.LinesShow.rowsCounted (h : s.LinesShow) : (s.rowsCounted n).LinesShow :=
  Dev.LinesShow.setFld (f := F.CW_CNT1_HDR_ERR_CNT) (h.setLink _) (by decide) _

section
variable {blocks : List DWord} (hst : s.linkState n = 2) (hb : (s.link n).hdrBad = [])
include hst hb

/-- A frame whose CRC fails is discarded (R326). That its CRC block is compared whole is the model's choice (log entry 94). -/
theorem Dev.frameReceive_noise (hcrc : blocks.getD 39 0 ≠ BitVec.ofNat 64 (frameCrc blocks)) :
    s.frameReceive n blocks [] = (s.rowsCounted n).frameBad n (blocks.getD 1 0).toNat := by
  simp only [Dev.frameReceive, hst, Dev.headerErrors_none hb, ne_eq, hcrc, not_false_eq_true, decide_true, Bool.or_true, Bool.true_or,
    Bool.not_true, Bool.false_and, Bool.false_eq_true, if_true, if_false]

/-- A frame that has passed its CRC, in its turn, is opened (R310, R326). -/
theorem Dev.frameReceive_awaited (hlen : blocks.length = 40) (hcrc : blocks.getD 39 0 = BitVec.ofNat 64 (frameCrc blocks))
    (hseq : (blocks.getD 1 0).toNat = (s.link n).expect) : s.frameReceive n blocks [] = (s.rowsCounted n).frameOpen n blocks := by
  have awaited : (blocks.getD 1 0).toNat = ((s.rowsCounted n).link n).expect := by rw [hseq, Dev.link_rowsCounted]
  simp only [Dev.frameReceive, hst, Dev.headerErrors_none hb, ne_eq, hcrc, hlen, awaited, not_true, decide_true, decide_false, Bool.or_self,
    Bool.and_false, Bool.true_or, Bool.not_true, Bool.false_and, Bool.false_eq_true, if_false]

end

/-- A link that has the next outgoing frame carry NAK, for the frame awaited has failed once (R326). -/
def LinkSt.nakDue (l : LinkSt) : LinkSt := { l with failed := some (l.expect, false), nak := true }

/-- The first failure of the frame awaited leaves a NAK to be sent (R326). -/
theorem Dev.frameBad_first (hst : s.linkState n = 2) (hf : (s.link n).failed = none) (seq : Nat) :
    s.frameBad n seq = s.setLink n (s.link n).nakDue := by
  simp [Dev.frameBad, hf, hst, LinkSt.nakDue]

/-- Settles O23: each row and each frame by the equation of its case; on a device whose lines keep their sources settling leaves the link. -/
theorem linkReception : Obligations.LinkReception := by
  refine ⟨fun s n hout hst => ⟨?ts1, ?ts2⟩, fun s n hout hflag hsends => ⟨?exhausted, ?keyless, fun free => ⟨?replay, ?new⟩⟩,
    fun s n hout hst => ⟨?noise, ?awaited⟩⟩
  case ts1 =>
    intro blocks skew pol hstep hskew hlen hrow hown
    have shows : (s.dev.ts1Measured n.val blocks skew pol.toNat).LinesShow := Dev.LinesShow.ts1Measured _ _ _ hout.ports
    have good : (s.dev.ts1Measured n.val blocks skew pol.toNat).ts1Good n.val blocks skew = true := by
      refine Dev.ts1Good_of_blocks _ hskew hlen fun k hk => ?_
      obtain ⟨id, index, link, peer, version, -⟩ := hrow k hk
      exact ⟨id, index, link, peer.trans (Dev.linkPeer_ts1Measured _ _ _ _).symm, version⟩
    have accepted : blocks.all (fun b => nbit b.toNat 32) = true := by
      refine all_accept_of_blocks fun k hk => ?_
      obtain ⟨-, -, -, -, -, accept⟩ := hrow k (hlen ▸ hk)
      exact accept
    have becomes : Becomes (.ts1Row n blocks skew pol) s (s.dev.ts1Row n.val blocks skew pol.toNat) := exec_ts1Row n blocks skew pol s
    rw [Dev.ts1Row_agreed _ hst hstep good accepted hown] at becomes
    have step := link_settle_trainRow _ n.val (q := LinkSt.step) shows (fun _ _ => rfl) (s.dev.link n.val).ts1Agreed
    have rows := link_settle_trainRow _ n.val (q := LinkSt.rows1) shows (fun _ _ => rfl) (s.dev.link n.val).ts1Agreed
    have accept := link_settle_trainRow _ n.val (q := LinkSt.ownAccept) shows (fun _ _ => rfl) (s.dev.link n.val).ts1Agreed
    refine becomes.completes ⟨fun few => ?_, fun enough => ?_, ?_, ?_, ?_⟩
    · rw [step, rows, accept, LinkSt.ts1Agreed, if_neg (Nat.not_le.2 few)]
      exact ⟨hstep, rfl, rfl⟩
    · rw [step, accept, LinkSt.ts1Agreed, if_pos enough]
      exact ⟨rfl, rfl⟩
    · rw [fld_settle_trainRow _ _ _ (by decide) (by decide), Dev.skew_ts1Measured _ _ _ _ hskew]
    · rw [fld_settle_trainRow _ _ _ (by decide) (by decide), Dev.lanePol_ts1Measured]
    · rw [Dev.linkState, fld_settle_trainRow _ _ _ (by decide) (by decide), Dev.linkState_ts1Measured, hst]
  case ts2 =>
    intro block hstep hid hacc hown hrows henc hrx htx
    have shows : (s.dev.ts2Offered n.val block).LinesShow := Dev.LinesShow.ts2Offered _ hout.ports
    have good : (s.dev.ts2Offered n.val block).ts2Good n.val (nbit block.toNat 40) = true := by
      rw [henc, hrx]
      exact Dev.ts2Good_plain _ ((s.dev.flag_ts2Offered_keyCfg _ rfl).trans hrx) ((s.dev.flag_ts2Offered_keyCfg _ rfl).trans htx)
    have becomes : Becomes (.ts2Row n block) s (s.dev.ts2Row n.val block) := exec_ts2Row n block s
    rw [Dev.ts2Row_agreed _ hst hstep hid good hacc hown hrows] at becomes
    refine becomes.completes ⟨?_, ?_, ?_, ?_⟩
    · rw [link_settle_trainRow _ _ (q := LinkSt.rows2) shows fun _ _ => rfl]
    · rw [link_settle_trainRow _ _ (q := LinkSt.step) shows fun _ _ => rfl]
      exact hstep
    · rw [settle_reg _ _ _ (by decide) (by decide) (.inr (by decide)),
        Dev.trainRow_keeps _ _ (p := fun d => d.reg (B.CW n.val) O.CW_CREDIT) fun _ => rfl, Dev.setLink_reg, Dev.credit_ts2Offered]
    · rw [Dev.flag, fld_settle_trainRow _ _ _ (by decide) (by decide), ← Dev.flag, Dev.shortCredit_ts2Offered]
  case exhausted =>
    intro he hseq
    rw [← Dev.frameSend_exhausted hflag hsends he hseq]
    exact exec_frameSend n s
  case keyless =>
    intro he hseq hk
    have becomes : Becomes (.frameSend n) s (s.dev.frameSend n.val) := exec_frameSend n s
    rwa [Dev.frameSend_keyless hflag hsends he hseq hk] at becomes
  case replay =>
    intro q k hat hfind
    have becomes : Becomes (.frameSend n) s (s.dev.frameSend n.val) := exec_frameSend n s
    rw [Dev.frameSend_replay hflag hsends free hat hfind] at becomes
    obtain ⟨sent, nextSeq⟩ := s.dev.link_frameAgain n.val k
    have link := settle_link_of_sources _ (Dev.LinesShow.frameAgain (n := n.val) hout.ports k) n.val
    exact becomes.completes ⟨(congrArg _ link).trans sent, (congrArg _ link).trans nextSeq, settle_mem _⟩
  case new =>
    intro hat
    rw [← Dev.frameSend_new hflag hsends free hat]
    exact exec_frameSend n s
  case noise =>
    rintro blocks bad hcrc rfl hb hf
    have becomes : Becomes (.frameReceive n blocks []) s (s.dev.frameReceive n.val blocks []) := exec_frameReceive n blocks [] s
    have failed : ((s.dev.rowsCounted n.val).link n.val).failed = none := by rw [Dev.link_rowsCounted, hf]
    rw [Dev.frameReceive_noise hst hb hcrc, Dev.frameBad_first ((Dev.linkState_rowsCounted _ _).trans hst) failed] at becomes
    have shows : (s.dev.rowsCounted n.val).LinesShow := Dev.LinesShow.rowsCounted hout.ports
    refine becomes.completes ?_
    rw [settle_link_of_sources _ (shows.setLink _), Dev.link_setLink, Dev.link_rowsCounted]
    exact ⟨rfl, rfl, rfl, rfl, settle_mem _⟩
  case awaited =>
    rintro blocks bad hlen hcrc hseq rfl hb
    rw [Dev.headerErrors_none hb, ← Dev.frameReceive_awaited hst hb hlen hcrc hseq]
    exact exec_frameReceive n blocks [] s

end Sys2Proof.Machine
end

section
/-! CW_CTRL of a causeway link: its register port, training that starts, and the switch of the transmit key (R322, R324, R328, R338). -/

namespace Sys2Proof.Machine

variable (s : Dev) {n : Nat}

/-! ### Training that starts -/

/-- The link and its row are all that the start of training changes (R324). -/
theorem Dev.trainStart_keeps {β : Type} {p : Dev → β} (h : ∀ (d : Dev) l, p (d.setLink n l) = p d) : p (s.trainStart n) = p s :=
  (Dev.trainRow_keeps _ _ (h _)).trans (h _ _)

/-- Training starts at step 1, with no row agreed yet (R324). -/
theorem Dev.link_trainStart : ((s.trainStart n).link n).step = .ts1 ∧ ((s.trainStart n).link n).rows1 = 0 := by
  rw [Dev.trainStart, Dev.link_trainRow _ _ (q := LinkSt.step) fun _ _ => rfl, Dev.link_trainRow _ _ (q := LinkSt.rows1) fun _ _ => rfl,
    Dev.link_setLink]
  exact ⟨rfl, rfl⟩

theorem Dev.fld_trainStart (b : Nat) (f : Fld) : (s.trainStart n).fld b f = s.fld b f :=
  s.trainStart_keeps (p := fun d => d.fld b f) fun _ _ => rfl

@[simp] theorem Dev.trainStart_mem : (s.trainStart n).mem = s.mem := s.trainStart_keeps (p := Dev.mem) fun _ _ => rfl

namespace Dev.LinesShow

variable {s : Dev} (h : s.LinesShow)
include h

theorem trainStart : (s.trainStart n).LinesShow := (h.setLink _).trainRow

theorem finish (st : Status) : (s.finish (B.CW n) st).LinesShow := fun p => by
  have port := s.finish_keeps (B.CW n) st (p := fun d => d.port p) fun _ _ => rfl
  rw [port, h p]
  exact Dev.portSource_congr (by rw [port]) (by rw [port]) (s.finish_keeps _ _ (p := Dev.clk) fun _ _ => rfl).symm
    (s.mode_finish (cw_ne_lh n) st).symm (s.finish_keeps _ _ (p := Dev.ergs) fun _ _ => rfl).symm

theorem okReply (v : Word) : (s.okReply v).LinesShow := h

end Dev.LinesShow

@[simp] theorem Dev.link_finish (b : Nat) (st : Status) (k : Nat) : (s.finish b st).link k = s.link k :=
  s.finish_keeps b st (p := fun d => d.link k) fun _ _ => rfl

@[simp] theorem Dev.link_okReply (v : Word) (k : Nat) : (s.okReply v).link k = s.link k := rfl

/-! ### After the answer is given and the outputs have settled -/

/-- A field of a link's block. -/
theorem fld_settle_cw {f : Fld} (hf : f.off < blockBytes) (he : f.off ≠ O.EVT_STATUS) :
    s.okReply.settle.fld (B.CW n) f = s.fld (B.CW n) f := by
  rw [settle_fld _ _ _ hf he (.inl (cw_ne_dbg n)), Dev.okReply_fld]

/-- The end of a command leaves the fields of a block outside BLK_STATUS. -/
theorem Dev.fld_finish_off (b : Nat) (st : Status) {f : Fld} (hf : f.off ≠ O.BLK_STATUS) : (s.finish b st).fld b f = s.fld b f := by
  rw [Dev.fld, s.reg_finish_ne _ _ _ _ fun h => hf (Nat.add_left_cancel h), Dev.fld]

/-! ### The register port -/

theorem blkKind_cw (n : Fin 16) : blkKind (B.CW n.val) = some .cw := by decide +revert

/-- A write to CW_CTRL is a command of its link (R343). -/
theorem becomes_cwCtrl {s : State} {c : Instr} {src : RegSrc} {n : Fin 16} {w : Word}
    (hc : exec c s = run (fun d => d.command src (B.CW n.val) O.CW_CTRL w) s) (hw : s.dev.writes src (B.CW n.val) O.CW_CTRL w) :
    Becomes c s (s.dev.cwCtrl n.val w).okReply := by
  have known : ∀ n : Fin 16, (regFind (B.CW n.val) O.CW_CTRL).isSome := by decide
  have becomes := becomes_command hc (by decide) hw
  have index : B.CW n.val - 0x18 = n.val := Nat.add_sub_cancel_left _ _
  rwa [Dev.writeReg_own _ _ _ (blkKind_cw n) (known n) (by decide), Dev.writeKind, blkKind_cw n, index] at becomes

/-! ### The commands -/

variable {s} {w : Word}

/-- EN at 0 takes the link OFF (R322). -/
theorem Dev.cwCtrl_off (hen : nbit w.toNat 0 = false) (hre : nbit w.toNat 1 = false) (hks : nbit w.toNat 2 = false) :
    s.cwCtrl n w = s.linkOff n := by
  simp [Dev.cwCtrl, Dev.linkEnable, hen, hre, hks]

/-- EN at 1 starts the training of a link that is OFF (R322, R324). -/
theorem Dev.cwCtrl_enable (hen : nbit w.toNat 0 = true) (hre : nbit w.toNat 1 = false) (hks : nbit w.toNat 2 = false)
    (hst : s.linkState n = 0) :
    s.cwCtrl n w = ((s.setFlag (B.CW n) F.CW_CTRL_EN true).setFld (B.CW n) F.CW_STATUS_STATE 1).trainStart n := by
  simp [Dev.cwCtrl, Dev.linkEnable, hen, hre, hks, hst]

/-- RETRAIN of a link that is not OFF, once EN is stored: the model's order of their effects (log entry 78). -/
theorem Dev.cwCtrl_retrain (hen : nbit w.toNat 0 = true) (hre : nbit w.toNat 1 = true) (hks : nbit w.toNat 2 = false)
    (hst : s.linkState n ≠ 0) : s.cwCtrl n w = (s.setFlag (B.CW n) F.CW_CTRL_EN true).retrain n := by
  simp [Dev.cwCtrl, Dev.linkEnable, hen, hre, hks, hst]

/-- KEY_SWITCH of a link that is not OFF, once EN is stored: the model's order of their effects (log entry 78). -/
theorem Dev.cwCtrl_keySwitch (hen : nbit w.toNat 0 = true) (hre : nbit w.toNat 1 = false) (hks : nbit w.toNat 2 = true)
    (hst : s.linkState n ≠ 0) : s.cwCtrl n w = (s.setFlag (B.CW n) F.CW_CTRL_EN true).keySwitch n := by
  simp [Dev.cwCtrl, Dev.linkEnable, hen, hre, hks, hst]

theorem Dev.retrain_training (hst : s.linkState n = 1) : s.retrain n = (s.trainStart n).finish (B.CW n) .ok := by
  simp [Dev.retrain, hst]

/-- RETRAIN of a link that is UP or in RELOCK drops it to TRAINING (R328). -/
theorem Dev.retrain_trained (hst : 2 ≤ s.linkState n) : s.retrain n = (s.linkFall n false).finish (B.CW n) .ok := by
  unfold Dev.retrain
  split
  · omega
  · omega
  · rfl

/-- The value of EN is not in the status of its link. -/
theorem Dev.linkState_setEn (b : Bool) : (s.setFlag (B.CW n) F.CW_CTRL_EN b).linkState n = s.linkState n := by
  rw [Dev.linkState, Dev.setFlag, Dev.fld_setFld_off _ _ _ (by decide), Dev.linkState]

/-- The device with link `n` sending under key `id` from the next frame, in the other key phase (R338). -/
def Dev.keySwitched (s : Dev) (n id : Nat) : Dev :=
  let d := (s.setFlag (B.CW n) F.CW_STATUS_KPH (!s.flag (B.CW n) F.CW_STATUS_KPH)).setFld (B.CW n) F.CW_KEY_CFG_TX_ID id
  d.setLink n { d.link n with lastTxId := some id }

/-- A switch of the key that nothing refuses (R338). -/
theorem Dev.keySwitch_switches {id : Nat} (hid : s.fld (B.CW n) F.CW_KEY_NEXT_TX_NEXT = id) (hk : s.linkKeyActive id = true)
    (hen : s.flag (B.CW n) F.CW_KEY_CFG_TX_EN = true) (hst : s.linkState n = 2) :
    s.keySwitch n = (s.keySwitched n id).finish (B.CW n) .ok := by
  simp only [Dev.keySwitch, hid, hk, hen, hst, Bool.not_true, ne_eq, not_true, decide_false, Bool.or_self, Bool.false_eq_true, if_false,
    Dev.keySwitched]

section
variable (s) (id : Nat)

theorem Dev.txId_keySwitched (h : id < 2 ^ F.CW_KEY_CFG_TX_ID.w) : (s.keySwitched n id).fld (B.CW n) F.CW_KEY_CFG_TX_ID = id := by
  rw [Dev.keySwitched, Dev.setLink_fld, Dev.fld_setFld _ _ _ _ (by decide), Nat.mod_eq_of_lt h]

theorem Dev.kph_keySwitched : (s.keySwitched n id).flag (B.CW n) F.CW_STATUS_KPH = !s.flag (B.CW n) F.CW_STATUS_KPH := by
  rw [Dev.flag, Dev.keySwitched, Dev.setLink_fld, Dev.fld_setFld_off _ _ _ (by decide), ← Dev.flag]
  exact Dev.flag_setFlag _ _ _ _ (by decide) rfl

theorem Dev.linkState_keySwitched : (s.keySwitched n id).linkState n = s.linkState n := by
  rw [Dev.linkState, Dev.keySwitched, Dev.setLink_fld, Dev.fld_setFld_off _ _ _ (by decide), Dev.setFlag,
    Dev.fld_setFld_field _ _ F.CW_STATUS_KPH F.CW_STATUS_STATE _ (by decide) rfl (.inl (by decide)), Dev.linkState]

theorem Dev.link_keySwitched : ((s.keySwitched n id).link n).lastTxId = some id := by rw [Dev.keySwitched, Dev.link_setLink]

theorem Dev.LinesShow.keySwitched {s : Dev} (h : s.LinesShow) : (s.keySwitched n id).LinesShow :=
  Dev.LinesShow.setLink (Dev.LinesShow.setFld (Dev.LinesShow.setFld (f := F.CW_STATUS_KPH) h (by decide) _) (by decide) _) _

end

end Sys2Proof.Machine
end

section
/-! The control of a causeway link (chapter 09), settled. -/

namespace Sys2Proof.Machine

variable {s : State} {src : RegSrc} {n : Fin 16} {data : Word}

/-- A link that is OFF is enabled, and trains from step 1 (R322, R324). -/
theorem completes_linkEnable (hlines : s.dev.LinesShow) (hw : s.dev.writes src (B.CW n.val) O.CW_CTRL data) (hen : nbit data.toNat 0 = true)
    (hre : nbit data.toNat 1 = false) (hks : nbit data.toNat 2 = false) (hst : s.dev.linkState n.val = 0) :
    Completes (.linkEnable src n data) s (fun d => d.linkState n.val = 1 ∧ d.flag (B.CW n.val) F.CW_CTRL_EN = true ∧
      (d.link n.val).step = .ts1 ∧ d.mem = s.dev.mem) := by
  have becomes := becomes_cwCtrl (exec_linkEnable src n data s) hw
  rw [Dev.cwCtrl_enable hen hre hks hst] at becomes
  have lines : ((s.dev.setFlag (B.CW n.val) F.CW_CTRL_EN true).setFld (B.CW n.val) F.CW_STATUS_STATE 1).LinesShow :=
    Dev.LinesShow.setFld (Dev.LinesShow.setFld (f := F.CW_CTRL_EN) hlines (by decide) _) (by decide) _
  refine becomes.completes ⟨?_, ?_, ?_, ?_⟩
  · rw [Dev.linkState, fld_settle_cw _ (by decide) (by decide), Dev.fld_trainStart, Dev.fld_setFld _ _ _ _ (by decide)]
    rfl
  · rw [Dev.flag, fld_settle_cw _ (by decide) (by decide), Dev.fld_trainStart, Dev.fld_setFld_off _ _ _ (by decide), ← Dev.flag]
    exact Dev.flag_setFlag _ _ _ _ (by decide) rfl
  · rw [settle_link_of_sources _ (lines.trainStart.okReply _), Dev.link_okReply]
    exact (Dev.link_trainStart _).1
  · rw [settle_mem, Dev.okReply_mem, Dev.trainStart_mem]
    rfl

/-- RETRAIN of a link in TRAINING starts its training again (R324). -/
theorem completes_retrain (hlines : s.dev.LinesShow) (hw : s.dev.writes src (B.CW n.val) O.CW_CTRL (withField data 1 1 1))
    (hen : nbit (withField data 1 1 1).toNat 0 = true) (hks : nbit (withField data 1 1 1).toNat 2 = false)
    (hst : s.dev.linkState n.val = 1) :
    Completes (.retrain src n data) s (fun d => d.linkState n.val = 1 ∧ (d.link n.val).step = .ts1 ∧ (d.link n.val).rows1 = 0 ∧
      d.fld (B.CW n.val) F.BLK_STATUS_LAST_STATUS = Status.ok.code) := by
  have becomes := becomes_cwCtrl (exec_retrain src n data s) hw
  rw [Dev.cwCtrl_retrain hen (nbit_withField data 1 1 (by decide)) hks (by omega),
    Dev.retrain_training ((Dev.linkState_setEn true).trans hst)] at becomes
  have lines : (s.dev.setFlag (B.CW n.val) F.CW_CTRL_EN true).LinesShow := Dev.LinesShow.setFld (f := F.CW_CTRL_EN) hlines (by decide) _
  obtain ⟨step, rows⟩ := (s.dev.setFlag (B.CW n.val) F.CW_CTRL_EN true).link_trainStart (n := n.val)
  have link := settle_link_of_sources _ (((lines.trainStart (n := n.val)).finish (n := n.val) .ok).okReply 0) n.val
  rw [Dev.link_okReply, Dev.link_finish] at link
  refine becomes.completes ⟨?_, link ▸ step, link ▸ rows, lastStatus_settle_finish _ _ _⟩
  rw [Dev.linkState, fld_settle_cw _ (by decide) (by decide), Dev.fld_finish_off _ _ _ (by decide), Dev.fld_trainStart, ← Dev.linkState,
    Dev.linkState_setEn, hst]

/-- KEY_SWITCH of a link that is UP, to a key that is ACTIVE (R338). -/
theorem completes_keySwitch (hlines : s.dev.LinesShow) (hw : s.dev.writes src (B.CW n.val) O.CW_CTRL (withField data 2 1 1))
    (hen : nbit (withField data 2 1 1).toNat 0 = true) (hre : nbit (withField data 2 1 1).toNat 1 = false)
    (hst : s.dev.linkState n.val = 2) {next : Nat}
    (hid : s.dev.fld (B.CW n.val) F.CW_KEY_NEXT_TX_NEXT = next) (hk : s.dev.linkKeyActive next = true)
    (htx : s.dev.flag (B.CW n.val) F.CW_KEY_CFG_TX_EN = true) :
    Completes (.keySwitch src n data) s (fun d => d.fld (B.CW n.val) F.CW_KEY_CFG_TX_ID = next ∧
      d.flag (B.CW n.val) F.CW_STATUS_KPH = (!s.dev.flag (B.CW n.val) F.CW_STATUS_KPH) ∧ (d.link n.val).lastTxId = some next ∧
      d.linkState n.val = 2 ∧ d.mem = s.dev.mem ∧ d.fld (B.CW n.val) F.BLK_STATUS_LAST_STATUS = Status.ok.code) := by
  have width : next < 2 ^ F.CW_KEY_CFG_TX_ID.w := hid ▸ s.dev.fld_lt (B.CW n.val) F.CW_KEY_NEXT_TX_NEXT
  have enabled {f : Fld} (hf : f.off ≠ O.CW_CTRL) :
      (s.dev.setFlag (B.CW n.val) F.CW_CTRL_EN true).fld (B.CW n.val) f = s.dev.fld (B.CW n.val) f := Dev.fld_setFld_off _ _ _ hf
  have becomes := becomes_cwCtrl (exec_keySwitch src n data s) hw
  rw [Dev.cwCtrl_keySwitch hen hre (nbit_withField data 2 1 (by decide)) (by omega), Dev.keySwitch_switches ((enabled (by decide)).trans hid) hk
    (by rw [Dev.flag, enabled (by decide), ← Dev.flag, htx]) ((Dev.linkState_setEn true).trans hst)] at becomes
  have lines : (s.dev.setFlag (B.CW n.val) F.CW_CTRL_EN true).LinesShow := Dev.LinesShow.setFld (f := F.CW_CTRL_EN) hlines (by decide) _
  refine becomes.completes ⟨?_, ?_, ?_, ?_, ?_, lastStatus_settle_finish _ _ _⟩
  · rw [fld_settle_cw _ (by decide) (by decide), Dev.fld_finish_off _ _ _ (by decide), Dev.txId_keySwitched _ _ width]
  · rw [Dev.flag, fld_settle_cw _ (by decide) (by decide), Dev.fld_finish_off _ _ _ (by decide), ← Dev.flag, Dev.kph_keySwitched, Dev.flag,
      enabled (by decide), ← Dev.flag]
  · rw [settle_link_of_sources _ (((lines.keySwitched next).finish .ok).okReply _), Dev.link_okReply, Dev.link_finish, Dev.link_keySwitched]
  · rw [Dev.linkState, fld_settle_cw _ (by decide) (by decide), Dev.fld_finish_off _ _ _ (by decide), ← Dev.linkState,
      Dev.linkState_keySwitched, Dev.linkState_setEn, hst]
  · rw [mem_settle_finish]
    rfl

/-- The row before the peer's first frame takes a link in step 6 on to frames (R324). -/
theorem Dev.sofRow_starts {d : Dev} {k : Nat} (hst : d.linkState k = 1) (hstep : (d.link k).step = .sof) :
    d.sofRow k = d.setLink k { d.link k with step := .frames } := by simp [Dev.sofRow, hst, hstep]

/-- Settles O22: each command by the equation of its case; on a device whose lines keep their sources settling leaves the link. -/
theorem linkControl : Obligations.LinkControl := by
  intro s src n data hout
  have hlines : s.dev.LinesShow := hout.ports
  refine ⟨fun hw hre hks => ⟨fun hen hst => completes_linkEnable hlines hw hen hre hks hst, fun hen => ?off⟩,
    fun hw hen hks => ⟨fun hst => completes_retrain hlines hw hen hks hst, fun hst => ?fall⟩,
    fun hw hen hre hk htx hst => completes_keySwitch hlines hw hen hre hst rfl hk htx,
    fun hst hstep => ?sof, fun hst => ?fail, fun hst => ?timeout⟩
  case off =>
    rw [← Dev.cwCtrl_off hen hre hks]
    exact becomes_cwCtrl (exec_linkEnable src n data s) hw
  case fall =>
    have trained : 2 ≤ (s.dev.setFlag (B.CW n.val) F.CW_CTRL_EN true).linkState n.val := (Dev.linkState_setEn true).symm ▸ hst
    rw [← Dev.retrain_trained trained, ← Dev.cwCtrl_retrain hen (nbit_withField data 1 1 (by decide)) hks (by omega)]
    exact becomes_cwCtrl (exec_retrain src n data s) hw
  case sof =>
    have becomes : Becomes (.sofRow n) s (s.dev.sofRow n.val) := exec_sofRow n s
    rw [Dev.sofRow_starts hst hstep] at becomes
    refine becomes.completes ⟨?_, ?_, settle_mem _⟩
    · rw [settle_link_of_sources _ (hlines.setLink _), Dev.link_setLink]
    · rw [Dev.linkState, settle_fld _ _ _ (by decide) (by decide) (.inl (cw_ne_dbg _)), Dev.setLink_fld, ← Dev.linkState, hst]
  case fail =>
    have becomes : Becomes (.trainFail n) s (s.dev.trainFail n.val) := exec_trainFail n s
    rwa [Dev.trainFail, if_neg (not_not.2 hst)] at becomes
  case timeout =>
    have becomes : Becomes (.relockTimeout n) s (s.dev.relockTimeout n.val) := exec_relockTimeout n s
    rwa [Dev.relockTimeout, if_neg (not_not.2 hst)] at becomes

end Sys2Proof.Machine
end

section
/-! The registers of the clocks: CLK_CMD, what its APPLY changes at once and at its end, the oscillator's code, the gates, the clock monitor
(R178, R451, R453, R454, R456, R458). -/

namespace Sys2Proof.Machine

variable (s : Dev)

/-! ### Fields of one register -/

/-- A field apart from the one that is stored, which may lie beyond the register. -/
theorem Dev.fld_setFld_apart (b : Nat) {f g : Fld} (v : Nat) (ho : g.off = f.off) (hg : g.lo + g.w ≤ 32)
    (hd : g.lo + g.w ≤ f.lo ∨ f.lo + f.w ≤ g.lo) : (s.setFld b f v).fld b g = s.fld b g := by
  have inWord (x : Nat) : nfield (x % 2 ^ 32) g.lo g.w = nfield x g.lo g.w := by
    apply Nat.eq_of_testBit_eq
    intro i
    rw [nfield_testBit, nfield_testBit, Nat.testBit_mod_two_pow]
    by_cases hi : i < g.w
    · simp [hi, show g.lo + i < 32 by omega]
    · simp [hi]
  rw [Dev.fld, Dev.setFld, ho, Dev.reg_setReg, BitVec.toNat_ofNat, inWord, nfield_putField_ne _ _ _ _ _ _ hd, Dev.fld, ho]

/-! ### The locks that CLK_STAT shows -/

/-- Showing locks writes CLK_STAT alone (R453). -/
theorem Dev.setPllLocks_keeps {β : Type} {p : Dev → β} (h : ∀ (d : Dev) w, p (d.setReg B.CLK O.CLK_STAT w) = p d) (ds : List Nat)
    (b : Bool) : p (s.setPllLocks ds b) = p s :=
  foldl_keeps _ _ (fun d _ _ => h d _) s

/-- A field of CLK_STAT apart from the locks shown. -/
theorem Dev.fld_setPllLocks_apart {ds : List Nat} {g : Fld} (ho : g.off = O.CLK_STAT) (hg : g.lo + g.w ≤ 32)
    (hd : ∀ d ∈ ds, g.lo + g.w ≤ 2 + d ∨ 2 + d + 1 ≤ g.lo) (b : Bool) : (s.setPllLocks ds b).fld B.CLK g = s.fld B.CLK g :=
  foldl_keeps (p := fun t : Dev => t.fld B.CLK g) _ _ (fun t d hm => t.fld_setFld_apart B.CLK _ ho hg (hd d hm)) s

/-- A lock that is among those shown, once or more often. -/
theorem Dev.flag_setPllLocks {ds : List Nat} {k : Nat} (hk : k < 4) (hm : k ∈ ds) (b : Bool) :
    (s.setPllLocks ds b).flag B.CLK ⟨O.CLK_STAT, 2 + k, 1⟩ = b := by
  induction ds generalizing s with
  | nil => cases hm
  | cons d ds ih =>
    have step : s.setPllLocks (d :: ds) b = (s.setFlag B.CLK ⟨O.CLK_STAT, 2 + d, 1⟩ b).setPllLocks ds b := rfl
    rw [step]
    by_cases hlater : k ∈ ds
    · exact ih _ hlater
    · obtain rfl : k = d := (List.mem_cons.1 hm).resolve_right hlater
      have apart : ∀ d ∈ ds, 2 + k + 1 ≤ 2 + d ∨ 2 + d + 1 ≤ 2 + k := by
        intro d hd
        have : d ≠ k := fun e => hlater (e ▸ hd)
        omega
      rw [Dev.flag, Dev.fld_setPllLocks_apart _ rfl (by dsimp only; omega) apart, ← Dev.flag,
        Dev.flag_setFlag _ _ _ _ (by dsimp only; omega) rfl]

/-! ### The bounds that the clocks give -/

/-- The bound terms stand in the registers of the controllers and of the engines (R269, R301). -/
theorem Dev.showBounds_keeps {β : Type} {p : Dev → β}
    (h : ∀ (d : Dev) b f v, b ≠ B.CLK → f.off < blockBytes → p (d.setFld b f v) = p d) : p s.showBounds = p s := by
  have dmc (k : Nat) : B.DMC k ≠ B.CLK := by simp only [B.DMC, B.CLK]; omega
  unfold Dev.showBounds
  dsimp only
  rw [h _ _ _ _ (by decide) (by decide), h _ _ _ _ (by decide) (by decide)]
  refine Dev.forN_keeps _ (fun d k => ?_) 8
  rw [h _ _ _ _ (dmc k) (by decide), h _ _ _ _ (dmc k) (by decide), h _ _ _ _ (dmc k) (by decide), h _ _ _ _ (dmc k) (by decide)]

/-- Another block than CLK has none of its fields. -/
theorem Dev.fld_setFld_clk {b : Nat} {f g : Fld} (v : Nat) (hb : b ≠ B.CLK) (hf : f.off < blockBytes) (hg : g.off < blockBytes) :
    (s.setFld b f v).fld B.CLK g = s.fld B.CLK g :=
  s.fld_setFld_ne _ _ _ _ _ fun e => hb (window_inj hg hf e).1.symm

theorem Dev.fld_showBounds {g : Fld} (hg : g.off < blockBytes) : s.showBounds.fld B.CLK g = s.fld B.CLK g :=
  s.showBounds_keeps (p := fun d => d.fld B.CLK g) fun d _ _ v hb hf => d.fld_setFld_clk v hb hf hg

/-! ### CLK_CMD.APPLY -/

/-- The first refusal of a command that meets STATE, and besides at most BUSY, is STATE (R557). -/
theorem firstRefusal_state {cs : List (Bool × Status)} (hs : (true, Status.state) ∈ cs) (h : ∀ c ∈ cs, c.2 = .state ∨ c.2 = .busy) :
    firstRefusal cs = some .state := by
  have none_before {st : Status} (h1 : st ≠ .state) (h2 : st ≠ .busy) : st ∉ (cs.filter (·.1)).map (·.2) := by
    intro hm
    obtain ⟨c, hc, rfl⟩ := List.mem_map.1 hm
    exact (h c (List.mem_of_mem_filter hc)).elim h1 h2
  have held : Status.state ∈ (cs.filter (·.1)).map (·.2) := List.mem_map.2 ⟨_, List.mem_filter.2 ⟨hs, rfl⟩, rfl⟩
  simp only [firstRefusal, List.find?, List.contains_eq_mem, none_before (st := .format) (by decide) (by decide),
    none_before (st := .range) (by decide) (by decide), none_before (st := .denied) (by decide) (by decide), held, decide_false, decide_true]

/-- APPLY in a mode other than Boot and Moored, or with a new MEM multiplier while a controller is not OFFLINE (R454). -/
theorem Dev.clkApply_refused (h : s.mode ≠ .boot ∧ s.mode ≠ .moored ∨
    s.clkDiffers 3 = true ∧ ∃ k < 8, s.fld (B.DMC k) F.DMC_STATE_STATE ≠ 0) : s.clkApply = s.finish B.CLK .state := by
  unfold Dev.clkApply Dev.guarded
  dsimp only
  rw [firstRefusal_state]
  · obtain ⟨hboot, hmoored⟩ | ⟨hmem, hdmc⟩ := h
    · exact List.mem_cons.2 (.inl (by simp [hboot, hmoored]))
    · exact List.mem_cons_of_mem _ (List.mem_cons.2 (.inl (by simpa [hmem] using hdmc)))
  · simp

section
variable (hm : s.mode = .moored) (ha : s.clk.applying = [])
include hm ha

/-- APPLY where every clock has its multiplier (R454). -/
theorem Dev.clkApply_same (hd : ∀ d < 4, s.clkDiffers d = false) : s.clkApply = s.finish B.CLK .ok := by
  have none : (List.range 4).filter s.clkDiffers = [] := List.filter_eq_nil_iff.2 fun d hr => by simp [hd d (List.mem_range.1 hr)]
  unfold Dev.clkApply
  dsimp only
  rw [none]
  exact (s.guarded_runs _ _ (by simp [hm, ha])).trans (if_pos rfl)

/-- The device whose HOLD clock has taken its multiplier and relocks. That ACTIVE and LOCK show it at once is the model's choice (log entry
52). -/
def Dev.holdRelocks (s : Dev) : Dev :=
  let d := s.setFld B.CLK F.CLK_HCLK_CFG_ACTIVE (s.fld B.CLK F.CLK_HCLK_CFG_MULT)
  (({ d with clk := { d.clk with applying := [1] } }.setFlag B.CLK F.CLK_STAT_BUSY true).setFlag B.CLK ⟨O.CLK_STAT, 3, 1⟩ false).showBounds

/-- APPLY where the HOLD clock alone is to have another multiplier (R454). -/
theorem Dev.clkApply_hold (h1 : s.clkDiffers 1 = true) (hd : ∀ d < 4, d ≠ 1 → s.clkDiffers d = false) : s.clkApply = s.holdRelocks := by
  have one : (List.range 4).filter s.clkDiffers = [1] := by
    simp [show List.range 4 = [0, 1, 2, 3] from rfl, List.filter, h1, hd 0, hd 2, hd 3]
  unfold Dev.clkApply
  dsimp only
  rw [one]
  refine (s.guarded_runs _ _ (by simp [hm, ha])).trans ?_
  rw [if_neg (by decide), if_neg (by decide), Dev.setPllLocks, Dev.each, List.foldl_cons, List.foldl_nil, Dev.each, List.foldl_cons,
    List.foldl_nil, Dev.holdRelocks]
  rfl

end

theorem Dev.clk_holdRelocks : s.holdRelocks.clk = { s.clk with applying := [1] } :=
  Dev.showBounds_keeps _ (p := Dev.clk) fun _ _ _ _ _ _ => rfl

theorem Dev.mem_holdRelocks : s.holdRelocks.mem = s.mem := Dev.showBounds_keeps _ (p := Dev.mem) fun _ _ _ _ _ _ => rfl

theorem Dev.hclk_holdRelocks : s.holdRelocks.fld B.CLK F.CLK_HCLK_CFG_ACTIVE = s.fld B.CLK F.CLK_HCLK_CFG_MULT := by
  rw [Dev.holdRelocks, Dev.fld_showBounds _ (by decide), Dev.setFlag, Dev.fld_setFld_off _ _ _ (by decide), Dev.setFlag,
    Dev.fld_setFld_off _ _ _ (by decide)]
  exact (s.fld_setFld _ _ _ (by decide)).trans (Nat.mod_eq_of_lt (s.fld_lt B.CLK F.CLK_HCLK_CFG_MULT))

theorem Dev.busy_holdRelocks : s.holdRelocks.flag B.CLK F.CLK_STAT_BUSY = true := by
  rw [Dev.flag, Dev.holdRelocks, Dev.fld_showBounds _ (by decide), Dev.setFlag,
    Dev.fld_setFld_apart (f := ⟨O.CLK_STAT, 3, 1⟩) (g := F.CLK_STAT_BUSY) _ _ _ rfl (by decide) (.inl (by decide)), ← Dev.flag]
  exact Dev.flag_setFlag _ _ _ _ (by decide) rfl

theorem Dev.lock_holdRelocks : s.holdRelocks.flag B.CLK ⟨O.CLK_STAT, 3, 1⟩ = false := by
  rw [Dev.flag, Dev.holdRelocks, Dev.fld_showBounds _ (by decide), ← Dev.flag]
  exact Dev.flag_setFlag _ _ _ _ (by decide) rfl

/-! ### The end of an APPLY -/

/-- The device whose relocked domains run again (R454). -/
def Dev.relocked (s : Dev) : Dev :=
  ({ s with clk := { s.clk with applying := [] } }.setFlag B.CLK F.CLK_STAT_BUSY false).setPllLocks s.clk.applying true

/-- The device with the pace of row commands in each of its hold blocks (R178). -/
def Dev.paced (s : Dev) (n : Nat) : Dev := s.forN n fun d k => d.setFld (B.HOLD k) F.HOLD_CFG_PACE d.paceOf

theorem Dev.applyDone_ends (h : s.clk.applying ≠ []) : s.applyDone = ((s.relocked.paced 8).finish B.CLK .ok).event B.CLK 0 := by
  rw [Dev.applyDone, if_neg (by simpa using h), Dev.relocked, Dev.paced]

theorem Dev.paced_keeps {β : Type} {p : Dev → β} (h : ∀ (d : Dev) k v, p (d.setFld (B.HOLD k) F.HOLD_CFG_PACE v) = p d) (n : Nat) :
    p (s.paced n) = p s := Dev.forN_keeps _ (fun d k => h d k _) n

theorem Dev.fld_paced (n : Nat) {g : Fld} (hg : g.off < blockBytes) : (s.paced n).fld B.CLK g = s.fld B.CLK g := by
  have hold (k : Nat) : B.HOLD k ≠ B.CLK := by simp only [B.HOLD, B.CLK]; omega
  exact s.paced_keeps (p := fun d => d.fld B.CLK g) (fun d k v => d.fld_setFld_clk v (hold k) (by decide) hg) n

/-- The pace depends on the multipliers in force alone (R178). -/
theorem Dev.paceOf_congr {s d : Dev} (h : ∀ g : Fld, g.off = O.CLK_TICK_CFG ∨ g.off = O.CLK_HCLK_CFG → d.fld B.CLK g = s.fld B.CLK g) :
    d.paceOf = s.paceOf := by
  rw [Dev.paceOf, h _ (.inl rfl), h _ (.inr rfl), Dev.paceOf]

theorem Dev.paceOf_paced (n : Nat) : (s.paced n).paceOf = s.paceOf :=
  Dev.paceOf_congr fun g hg => s.fld_paced n (by obtain h | h := hg <;> rw [h] <;> decide)

theorem Dev.paceOf_lt : s.paceOf < 2 ^ F.HOLD_CFG_PACE.w := by
  unfold Dev.paceOf
  split <;> decide

theorem Dev.pace_paced {n k : Nat} (hk : k < n) : (s.paced n).fld (B.HOLD k) F.HOLD_CFG_PACE = s.paceOf := by
  induction n with
  | zero => cases hk
  | succ n ih =>
    have step : s.paced (n + 1) = (s.paced n).setFld (B.HOLD n) F.HOLD_CFG_PACE (s.paced n).paceOf := by
      simp [Dev.paced, Dev.forN, List.range_succ]
    rw [step]
    obtain hlt | rfl := Nat.lt_succ_iff_lt_or_eq.1 hk
    · have apart : blockBytes * B.HOLD k + F.HOLD_CFG_PACE.off ≠ blockBytes * B.HOLD n + F.HOLD_CFG_PACE.off := by
        simp only [B.HOLD, blockBytes]; omega
      rw [Dev.fld_setFld_ne _ _ _ _ _ _ apart, ih hlt]
    · rw [Dev.fld_setFld _ _ _ _ (by decide), Dev.paceOf_paced, Nat.mod_eq_of_lt s.paceOf_lt]

theorem Dev.relocked_keeps {β : Type} {p : Dev → β} (h : ∀ (d : Dev) w, p (d.setReg B.CLK O.CLK_STAT w) = p d) :
    p s.relocked = p { s with clk := { s.clk with applying := [] } } :=
  (Dev.setPllLocks_keeps _ h _ _).trans (h _ _)

theorem Dev.busy_relocked : s.relocked.flag B.CLK F.CLK_STAT_BUSY = false := by
  rw [Dev.flag, Dev.relocked, Dev.fld_setPllLocks_apart (g := F.CLK_STAT_BUSY) _ rfl (by decide) fun d _ => .inl (Nat.le_add_right 2 d), ← Dev.flag]
  exact Dev.flag_setFlag _ _ _ _ (by decide) rfl

theorem Dev.lock_relocked {k : Nat} (hk : k < 4) (hm : k ∈ s.clk.applying) : s.relocked.flag B.CLK ⟨O.CLK_STAT, 2 + k, 1⟩ = true :=
  Dev.flag_setPllLocks _ hk hm _

theorem Dev.paceOf_relocked : s.relocked.paceOf = s.paceOf :=
  Dev.paceOf_congr fun g hg => s.relocked_keeps (p := fun d => d.fld B.CLK g) fun d w =>
    d.fld_setReg_ne _ _ _ _ _ fun e => by
      have same : g.off = O.CLK_STAT := Nat.add_left_cancel e
      rw [same] at hg
      exact absurd hg (by decide)

/-! ### The oscillator's code -/

/-- The code is staged in a register that says nothing of the mode (R451). -/
theorem Dev.mode_storeReg_oscCfg (w : Word) : (s.storeReg B.LH O.LH_OSC_CFG w).mode = s.mode :=
  s.storeReg_keeps (p := Dev.mode) (fun d v => congrArg Mode.ofCode (d.fld_setReg_ne _ _ _ _ _ (by decide)))
    fun d v => congrArg Mode.ofCode (d.fld_setReg_ne _ _ _ _ _ (by decide))

theorem Dev.nvRo_storeReg (b o : Nat) (w : Word) (k : Nat) : (s.storeReg b o w).nvRo k = s.nvRo k :=
  s.storeReg_keeps (p := fun d => d.nvRo k) (fun _ _ => rfl) fun _ _ => rfl

/-- COMMIT outside Moored. That it is STATE in modes that R451 does not name is the model's choice (log entry 42). -/
theorem Dev.oscCommit_refused (h : s.mode ≠ .moored) : s.oscCommit = s.finish B.LH .state := if_pos h

/-- The device with its oscillator's start-up code in island memory and in force (R451). -/
def Dev.oscCommitted (s : Dev) (code : Nat) : Dev :=
  let d := s.nvWrite 513 (leBytes 1 code)
  { d with clk := { d.clk with oscNv := code } }.setFld B.LH F.LH_OSC_CFG_ACTIVE code

theorem Dev.oscCommit_commits (hm : s.mode = .moored) (hro : s.nvRo 513 = false) :
    s.oscCommit = (s.oscCommitted (s.fld B.LH F.LH_OSC_CFG_CODE)).finish B.LH .ok := by
  simp only [Dev.oscCommit, hm, hro, ne_eq, not_true, Bool.false_eq_true, if_false, Dev.oscCommitted]

theorem Dev.active_oscCommitted {code : Nat} (h : code < 2 ^ F.LH_OSC_CFG_ACTIVE.w) :
    (s.oscCommitted code).fld B.LH F.LH_OSC_CFG_ACTIVE = code := by
  rw [Dev.oscCommitted, Dev.fld_setFld _ _ _ _ (by decide), Nat.mod_eq_of_lt h]

theorem Dev.mem_oscCommitted (code : Nat) : (s.oscCommitted code).mem = s.mem := s.nvWrite_mem _ _

/-! ### The register ports -/

variable {s : State} {src : RegSrc} {data : Word}

theorem becomes_clkApply (hw : s.dev.writes src B.CLK O.CLK_CMD (withField data 0 1 1)) :
    Becomes (.clkApply src data) s s.dev.clkApply.okReply := by
  have apply : nbit (withField data 0 1 1).toNat 0 = true := nbit_withField data 0 1 (by decide)
  have becomes := becomes_command (exec_clkApply src data s) (by decide) hw
  rwa [Dev.writeReg_own _ _ _ (k := .clk) rfl (by decide) (by decide), Dev.writeKind, show blkKind B.CLK = some .clk from rfl, Dev.writeCLK,
    if_pos rfl, if_pos apply] at becomes

theorem becomes_oscCommit (hw : s.dev.writes src B.LH O.LH_OSC_CFG (withField data 8 1 1)) :
    Becomes (.oscCommit src data) s (s.dev.storeReg B.LH O.LH_OSC_CFG (withField data 8 1 1)).oscCommit.okReply := by
  have commit : nbit (withField data 8 1 1).toNat 8 = true := nbit_withField data 8 1 (by decide)
  have becomes := becomes_command (exec_oscCommit src data s) (by decide) hw
  rwa [Dev.writeReg_own _ _ _ (k := .lh) rfl (by decide) (by decide), Dev.writeKind, show blkKind B.LH = some .lh from rfl, Dev.writeLH,
    if_neg (by decide), if_pos rfl, if_pos commit] at becomes

theorem becomes_clkEn {k : Fin 3} (hw : s.dev.writes src B.CLK (O.CLK_EN0 + 4 * k.val) data) :
    Becomes (.clkEn src k data) s ((s.dev.storeReg B.CLK (O.CLK_EN0 + 4 * k.val) data).clkEn k.val).okReply := by
  have place : ∀ k : Fin 3, O.CLK_EN0 + 4 * k.val < blockBytes ∧ (regFind B.CLK (O.CLK_EN0 + 4 * k.val)).isSome ∧
      O.CLK_EN0 + 4 * k.val ∉ [O.BLK_CTRL, O.BLK_FREEZE, O.EVT_FORCE, O.ECC_FLIP_LO] ∧ O.CLK_EN0 + 4 * k.val ≠ O.CLK_CMD ∧
      (decide (O.CLK_EN0 ≤ O.CLK_EN0 + 4 * k.val) && decide (O.CLK_EN0 + 4 * k.val ≤ O.CLK_EN2)) = true ∧
      (O.CLK_EN0 + 4 * k.val - O.CLK_EN0) / 4 = k.val := by decide
  obtain ⟨inBlock, known, own, notCmd, gates, index⟩ := place k
  have becomes := becomes_command (exec_clkEn src k data s) inBlock hw
  rwa [Dev.writeReg_own _ _ _ (k := .clk) rfl known own, Dev.writeKind, show blkKind B.CLK = some .clk from rfl, Dev.writeCLK,
    if_neg notCmd, if_pos gates, index] at becomes

theorem becomes_clkmonCfg (hw : s.dev.writes src B.CLK O.CLKMON_CFG data) :
    Becomes (.clkmonCfg src data) s (s.dev.clkmonCfg data fun d => d.storeReg B.CLK O.CLKMON_CFG data).okReply := by
  have becomes := becomes_command (exec_clkmonCfg src data s) (by decide) hw
  rwa [Dev.writeReg_own _ _ _ (k := .clk) rfl (by decide) (by decide), Dev.writeKind, show blkKind B.CLK = some .clk from rfl, Dev.writeCLK,
    if_neg (by decide), if_neg (by decide), if_pos rfl] at becomes

end Sys2Proof.Machine
end

section
/-! A class F cause, and the loss of a lock: the device goes into Quarantine, with its keys erased and the cause on record (R20, R304, R454,
R455, R538). -/

namespace Sys2Proof.Machine

variable (s : Dev)

/-! ### The fault log and the mode -/

section
variable {β : Type} {p : Dev → β} (o : Overlooks p fun _ => True)
include o

/-- An entry writes the log and LH_FLOG_STAT, and may raise an event (R535, R537). -/
theorem Dev.logError_keeps (hlog : ∀ (d : Dev) x, p { d with log := x } = p d)
    (hstat : ∀ (d : Dev) w, p (d.setReg B.LH F.LH_FLOG_STAT_UNREAD.off w) = p d) (cls : ErrClass) (st : Status)
    (blk evt addr coord synd info : Nat) : p (s.logError cls st blk evt addr coord synd info) = p s := by
  unfold Dev.logError
  dsimp only
  rw [apply_ite p, Dev.logPersist, hlog, ite_self, apply_ite p, event_keeps o _ _ _ (.inl trivial)]
  exact (congrArg (ite _ · _) (hstat _ _)).trans ((ite_self _).trans ((hstat _ _).trans (hlog _ _)))

/-- A mode change writes LH_MODE and raises an event (R466). -/
theorem Dev.setMode_keeps (hmode : ∀ (d : Dev) w, p (d.setReg B.LH F.LH_MODE_MODE.off w) = p d) (m : Mode) : p (s.setMode m) = p s := by
  unfold Dev.setMode
  split
  · rfl
  · exact (event_keeps o _ _ _ (.inl trivial)).trans ((hmode _ _).trans (hmode _ _))

end

theorem Dev.sec_setMode (m : Mode) : (s.setMode m).sec = s.sec := congrArg (·.sec) (s.setMode_core m)

/-! ### Keys and locks, while everything else is put aside -/

/-- The keys, and the locks that CLK_STAT shows. -/
def Dev.keysLocks (s : Dev) : Map KeySt × Word := (s.mce.keys, s.reg B.CLK O.CLK_STAT)

theorem Dev.keys_of_keysLocks {d : Dev} {x : Map KeySt × Word} (h : d.keysLocks = x) : d.mce.keys = x.1 := congrArg Prod.fst h
theorem Dev.locks_of_keysLocks {d : Dev} {x : Map KeySt × Word} (h : d.keysLocks = x) : d.reg B.CLK O.CLK_STAT = x.2 := congrArg Prod.snd h

theorem keysLocks_overlooks : Overlooks Dev.keysLocks fun _ => True :=
  have r := reg_overlooks B.CLK O.CLK_STAT (by decide) (by decide) (.inl (by decide)) fun _ => True
  ⟨fun s b w h => Prod.ext rfl (r.evt s b w h), fun s w => Prod.ext rfl (r.dbg s w), fun _ _ _ => rfl, fun _ _ => rfl, fun _ _ _ => rfl⟩

theorem Dev.keysLocks_event (b n : Nat) : (s.event b n).keysLocks = s.keysLocks := event_keeps keysLocks_overlooks s b n (.inl trivial)

theorem Dev.keysLocks_setFld {b : Nat} {f : Fld} (hb : b ≠ B.CLK) (hf : f.off < blockBytes) (v : Nat) :
    (s.setFld b f v).keysLocks = s.keysLocks :=
  Prod.ext rfl (s.reg_setFld_ne _ _ _ _ _ fun e => hb (window_inj (by decide) hf e).1.symm)

theorem Dev.keysLocks_setLink (n : Nat) (l : LinkSt) : (s.setLink n l).keysLocks = s.keysLocks := rfl

theorem Dev.keysLocks_logError (cls : ErrClass) (st : Status) (blk evt addr coord synd info : Nat) :
    (s.logError cls st blk evt addr coord synd info).keysLocks = s.keysLocks :=
  s.logError_keeps keysLocks_overlooks (fun _ _ => rfl) (fun d _ => Prod.ext rfl (d.reg_setReg_ne _ _ _ _ _ (by decide))) _ _ _ _ _ _ _ _

theorem Dev.keysLocks_setMode (m : Mode) : (s.setMode m).keysLocks = s.keysLocks :=
  s.setMode_keeps keysLocks_overlooks (fun d _ => Prod.ext rfl (d.reg_setReg_ne _ _ _ _ _ (by decide))) m

theorem Dev.keysLocks_wipeBond : s.wipeBond.keysLocks = s.keysLocks := by
  unfold Dev.wipeBond
  split
  · rfl
  · exact (Dev.keysLocks_event _ _ _).trans (Dev.keysLocks_setFld _ (by decide) (by decide) _)

theorem Dev.keysLocks_closeSessions : s.closeSessions.keysLocks = s.keysLocks :=
  s.forN_keeps (fun d i => by
    unfold Dev.closeSession
    dsimp only
    split
    · rfl
    · exact Dev.keysLocks_event _ _ _) 3

theorem Dev.keysLocks_linkDrop (n : Nat) (h : Hdr) : (s.linkDrop n h).keysLocks = s.keysLocks := by
  have logged : ((s.count B.HN F.HN_MISC_CNT_DROP_CNT).classU B.HN 3 .range n (nodeDev h.src)).keysLocks = s.keysLocks :=
    (Dev.keysLocks_logError _ _ _ _ _ _ _ _ _).trans ((Dev.keysLocks_event _ _ _).trans (s.keysLocks_setFld (by decide) (by decide) _))
  unfold Dev.linkDrop
  dsimp only
  split
  · exact logged
  · exact logged

theorem Dev.keysLocks_dropPacket (r b : Nat) : (s.dropPacket r b).keysLocks = s.keysLocks := by
  unfold Dev.dropPacket
  dsimp only
  split <;> rfl

theorem Dev.keysLocks_linkFlush (n : Nat) : (s.linkFlush n).keysLocks = s.keysLocks := by
  unfold Dev.linkFlush
  refine (foldl_keeps (p := Dev.keysLocks) _ _ (fun d c _ => ?_) _).trans rfl
  have dropped (l : List Flit) : (l.foldl (fun d f => d.linkDrop n (Hdr.dec f.body)) d).keysLocks = d.keysLocks :=
    foldl_keeps _ _ (fun d f _ => d.keysLocks_linkDrop n _) d
  dsimp only
  split
  · exact (Dev.keysLocks_dropPacket _ _ _).trans (dropped _)
  · exact dropped _

theorem Dev.keysLocks_linksOff : s.linksOff.keysLocks = s.keysLocks := by
  have cw (n : Nat) : B.CW n ≠ B.CLK := by simp only [B.CW, B.CLK]; omega
  refine s.forN_keeps (fun d n => ?_) 16
  rw [Dev.linkOff, Dev.keysLocks_setFld _ (f := F.CW_STATUS_STATE) (cw n) (by decide), Dev.setFlag,
    Dev.keysLocks_setFld _ (f := F.CW_CTRL_EN) (cw n) (by decide), Dev.keysLocks_setLink, Dev.keysLocks_linkFlush]

theorem Dev.keysLocks_selfRefresh : s.selfRefresh.keysLocks = s.keysLocks :=
  s.forN_keeps (fun d k => by dsimp only; split <;> rfl) 8

theorem Dev.keysLocks_dropRun : s.dropRun.keysLocks = s.keysLocks :=
  have dbg {f : Fld} (hf : f.off < blockBytes) (d : Dev) (v : Nat) : (d.setFld B.DBG f v).keysLocks = d.keysLocks :=
    d.keysLocks_setFld (by decide) hf v
  (dbg (by decide) _ _).trans ((dbg (by decide) _ _).trans ((dbg (by decide) _ _).trans (dbg (by decide) _ _)))

/-! ### A class F cause -/

/-- The device with its critical crossings forgotten (R538). -/
def Dev.cooled (s : Dev) : Dev := (s.setFlag B.THM F.THM_STAT_CRIT false).setFlag B.THM F.THM_STAT_CRIT_LOW false

/-- The device with its keys, the bonded region, sessions, links, external memory and run control put aside (R20, R538). -/
def Dev.putAside (s : Dev) : Dev := s.cooled.eraseKeys.wipeBond.closeSessions.linksOff.selfRefresh.dropRun

/-- The device as a class F cause leaves it before the cause is recorded (R20, R538). -/
def Dev.secured (s : Dev) : Dev :=
  { s.putAside with sec := { s.putAside.sec with keysUp := false },
                    tide := { s.putAside.tide with armed := none, started := false, stopAt := none } }

theorem Dev.keysLocks_cooled : s.cooled.keysLocks = s.keysLocks :=
  (Dev.keysLocks_setFld _ (by decide) (by decide) _).trans (Dev.keysLocks_setFld _ (by decide) (by decide) _)

theorem Dev.keysLocks_eraseKeys : s.eraseKeys.keysLocks = ([], s.reg B.CLK O.CLK_STAT) := rfl

theorem Dev.keysLocks_putAside : s.putAside.keysLocks = ([], s.reg B.CLK O.CLK_STAT) := by
  have locks : s.cooled.reg B.CLK O.CLK_STAT = s.reg B.CLK O.CLK_STAT := Dev.locks_of_keysLocks s.keysLocks_cooled
  rw [Dev.putAside, Dev.keysLocks_dropRun, Dev.keysLocks_selfRefresh, Dev.keysLocks_linksOff, Dev.keysLocks_closeSessions,
    Dev.keysLocks_wipeBond, Dev.keysLocks_eraseKeys, locks]

theorem Dev.keysLocks_secured : s.secured.keysLocks = ([], s.reg B.CLK O.CLK_STAT) := by
  have kept (d : Dev) (x : SecSt) (t : TideSt) : { d with sec := x, tide := t }.keysLocks = d.keysLocks := rfl
  rw [Dev.secured, kept, Dev.keysLocks_putAside]

theorem Dev.keysUp_secured : s.secured.sec.keysUp = false := rfl

variable (cause addr blk evt synd : Nat)

/-- The device with a class F cause on record and in the fault log (R536, R538). -/
def Dev.causeRecorded (s : Dev) (cause addr blk evt synd : Nat) : Dev :=
  ((s.setFld B.LH F.LH_QCAUSE_CAUSE (2 ^ cause)).count B.LH F.LH_QCAUSE_Q_CNT).logError .f .ok blk evt addr 0 synd (2 ^ cause)

/-- A class F cause in a mode and at a time that allow Quarantine (R465, R466, R538). -/
theorem Dev.quarantine_enters (hp : s.clk.phase ≠ .selfRefresh) (hb : s.mode ≠ .beacon) (hr : s.mode ≠ .reset) (hq : s.mode ≠ .quarantine) :
    s.quarantine cause addr blk evt synd = (s.secured.causeRecorded cause addr blk evt synd).setMode .quarantine := by
  unfold Dev.quarantine
  rw [if_neg hp]
  split
  · exact absurd ‹_› hb
  · exact absurd ‹_› hr
  · exact absurd ‹_› hq
  · unfold Dev.causeRecorded Dev.secured Dev.putAside Dev.cooled
    rfl

theorem Dev.keysLocks_causeRecorded : (s.causeRecorded cause addr blk evt synd).keysLocks = s.keysLocks :=
  (Dev.keysLocks_logError _ _ _ _ _ _ _ _ _).trans
    ((Dev.keysLocks_setFld _ (by decide) (by decide) _).trans (Dev.keysLocks_setFld _ (by decide) (by decide) _))

theorem Dev.sec_causeRecorded : (s.causeRecorded cause addr blk evt synd).sec = s.sec :=
  Dev.logError_keeps _ (p := Dev.sec) ⟨fun _ _ _ _ => rfl, fun _ _ => rfl, fun _ _ _ => rfl, fun _ _ => rfl, fun _ _ _ => rfl⟩
    (fun _ _ => rfl) (fun _ _ => rfl) _ _ _ _ _ _ _ _

theorem qcause_overlooks : Overlooks (fun d : Dev => d.fld B.LH F.LH_QCAUSE_CAUSE) fun _ => True where
  evt d b w _ := d.fld_setReg_ne _ _ _ _ _ fun e => absurd (window_inj (by decide) (by decide) e).2 (by decide)
  dbg d w := d.fld_setReg_ne _ _ _ _ _ (by decide)
  run _ _ _ := rfl
  flags _ _ := rfl
  link _ _ _ := rfl

theorem Dev.qcause_causeRecorded (h : cause < 11) :
    (s.causeRecorded cause addr blk evt synd).fld B.LH F.LH_QCAUSE_CAUSE = 2 ^ cause := by
  refine (Dev.logError_keeps _ (p := fun d => d.fld B.LH F.LH_QCAUSE_CAUSE) qcause_overlooks (fun _ _ => rfl)
    (fun d _ => d.fld_setReg_ne _ _ _ _ _ (by decide)) _ _ _ _ _ _ _ _).trans ?_
  rw [Dev.fld_count_field _ B.LH F.LH_QCAUSE_Q_CNT F.LH_QCAUSE_CAUSE (by decide) rfl (.inl (by decide)), Dev.fld_setFld _ _ _ _ (by decide)]
  exact Nat.mod_eq_of_lt (Nat.pow_lt_pow_right (by decide) h)

/-- What a class F cause leaves: Quarantine, the cause, no keys, and the clocks' locks as they were (R20, R304, R538). -/
structure Dev.Quarantined (d s : Dev) (cause : Nat) : Prop where
  mode : d.mode = .quarantine
  cause : d.fld B.LH F.LH_QCAUSE_CAUSE = 2 ^ cause
  keys : d.mce.keys = []
  keysUp : d.sec.keysUp = false
  locks : d.reg B.CLK O.CLK_STAT = s.reg B.CLK O.CLK_STAT

theorem Dev.quarantine_quarantined (hp : s.clk.phase ≠ .selfRefresh) (hb : s.mode ≠ .beacon) (hr : s.mode ≠ .reset)
    (hq : s.mode ≠ .quarantine) (hc : cause < 11) : (s.quarantine cause addr blk evt synd).Quarantined s cause := by
  rw [s.quarantine_enters cause addr blk evt synd hp hb hr hq]
  have kept : ((s.secured.causeRecorded cause addr blk evt synd).setMode .quarantine).keysLocks = ([], s.reg B.CLK O.CLK_STAT) := by
    rw [Dev.keysLocks_setMode, Dev.keysLocks_causeRecorded, Dev.keysLocks_secured]
  have sec : ((s.secured.causeRecorded cause addr blk evt synd).setMode .quarantine).sec = s.secured.sec := by
    rw [Dev.sec_setMode, Dev.sec_causeRecorded]
  exact {
    mode := Dev.mode_setMode _ _
    cause := (Dev.setMode_keeps _ (p := fun d => d.fld B.LH F.LH_QCAUSE_CAUSE) qcause_overlooks
      (fun d _ => d.fld_setReg_ne _ _ _ _ _ (by decide)) _).trans (Dev.qcause_causeRecorded _ _ _ _ _ _ hc)
    keys := Dev.keys_of_keysLocks kept
    keysUp := by rw [sec, Dev.keysUp_secured]
    locks := Dev.locks_of_keysLocks kept }

/-! ### The loss of a lock -/

/-- The device with the lock of a PLL shown as lost; the reference has no lock of its own (R453). -/
def Dev.unlocked (s : Dev) (pll : Option Nat) : Dev :=
  match pll with
  | some k => s.setPllLocks [k] false
  | none => s

theorem Dev.unlocked_keeps {β : Type} {p : Dev → β} (h : ∀ (d : Dev) w, p (d.setReg B.CLK O.CLK_STAT w) = p d) (pll : Option Nat) :
    p (s.unlocked pll) = p s := by
  cases pll with
  | none => rfl
  | some k => exact s.setPllLocks_keeps h [k] false

/-- A domain that an APPLY relocks has no lock to lose; another's loss is a class F cause (R455, R538). -/
theorem Dev.pllLockLost_lost {pll : Option Nat} (hpow : s.clk.mainPower = true) (hr : s.mode ≠ .reset) (hb : s.mode ≠ .beacon)
    (ha : ∀ k, pll = some k → ¬ k ∈ s.clk.applying) :
    s.pllLockLost pll = ((s.unlocked pll).event B.CLK 1).quarantine 4 (pll.getD 0) B.CLK 1 := by
  have free : pll.any s.clk.applying.contains = false := by
    cases pll with
    | none => rfl
    | some k => simpa using ha k rfl
  unfold Dev.pllLockLost
  rw [if_neg (by simp [hpow, hr, hb, free])]
  rfl

end Sys2Proof.Machine
end

section
/-! The clocks (chapter 14), and what a lost lock brings to links and ports, settled. -/

namespace Sys2Proof.Machine

@[simp] theorem Dev.event_clk (s : Dev) (b n : Nat) : (s.event b n).clk = s.clk := congrArg (·.clk) (s.event_core b n)
@[simp] theorem Dev.okReply_clk (s : Dev) (v : Word) : (s.okReply v).clk = s.clk := rfl
@[simp] theorem Dev.okReply_flag (s : Dev) (v : Word) (b : Nat) (f : Fld) : (s.okReply v).flag b f = s.flag b f := rfl

variable {s : State} {src : RegSrc} {data : Word}

/-- APPLY of a new multiplier of the HOLD clock alone (R454). -/
theorem completes_clkApplyHold (hw : s.dev.writes src B.CLK O.CLK_CMD (withField data 0 1 1)) (hm : s.dev.mode = .moored)
    (ha : s.dev.clk.applying = []) (h1 : s.dev.clkDiffers 1 = true) (hd : ∀ d < 4, d ≠ 1 → s.dev.clkDiffers d = false) :
    Completes (.clkApply src data) s (fun d => d.clk = { s.dev.clk with applying := [1] } ∧ d.flag B.CLK F.CLK_STAT_BUSY = true ∧
      d.fld B.CLK F.CLK_HCLK_CFG_ACTIVE = s.dev.fld B.CLK F.CLK_HCLK_CFG_MULT ∧ d.flag B.CLK ⟨O.CLK_STAT, 3, 1⟩ = false ∧
      d.mem = s.dev.mem) := by
  have becomes := becomes_clkApply hw
  rw [s.dev.clkApply_hold hm ha h1 hd] at becomes
  refine becomes.completes ⟨?_, ?_, ?_, ?_, ?_⟩
  · rw [settle_clk, Dev.okReply_clk, Dev.clk_holdRelocks]
  · rw [settle_flag _ _ _ (by decide) (by decide) (.inl (by decide)), Dev.okReply_flag, Dev.busy_holdRelocks]
  · rw [settle_fld _ _ _ (by decide) (by decide) (.inl (by decide)), Dev.okReply_fld, Dev.hclk_holdRelocks]
  · rw [settle_flag _ _ _ (by decide) (by decide) (.inl (by decide)), Dev.okReply_flag, Dev.lock_holdRelocks]
  · rw [settle_mem, Dev.okReply_mem, Dev.mem_holdRelocks]

/-- A field of CLK or of a hold block after the end of an APPLY. -/
theorem fld_applyDone_settled (d : Dev) {b : Nat} {f : Fld} (hf : f.off < blockBytes) (he : f.off ≠ O.EVT_STATUS) (hs : f.off ≠ O.BLK_STATUS)
    (hb : b ≠ B.DBG) : ((d.finish B.CLK .ok).event B.CLK 0).settle.fld b f = d.fld b f := by
  rw [settle_fld _ _ _ hf he (.inl hb), Dev.event_fld _ _ _ _ _ hf he (.inl hb), Dev.fld, Dev.reg_finish_ne, Dev.fld]
  exact fun e => hs (window_inj hf (by decide) e).2

/-- The relocked domains run again (R178, R454). -/
theorem completes_applyDone (ha : s.dev.clk.applying ≠ []) (hq : s.dev.mode ≠ .quarantine) :
    Completes .applyDone s (fun d => d.clk = { s.dev.clk with applying := [] } ∧ d.flag B.CLK F.CLK_STAT_BUSY = false ∧
      (∀ k ∈ s.dev.clk.applying, k < 4 → d.flag B.CLK ⟨O.CLK_STAT, 2 + k, 1⟩ = true) ∧
      (∀ k < 8, d.fld (B.HOLD k) F.HOLD_CFG_PACE = s.dev.paceOf) ∧
      d.fld B.CLK F.BLK_STATUS_LAST_STATUS = Status.ok.code ∧ d.mem = s.dev.mem) := by
  have becomes := becomes_live (exec_applyDone s) hq
  rw [s.dev.applyDone_ends ha] at becomes
  have stat (g : Fld) (hg : g.off = O.CLK_STAT) :
      (((s.dev.relocked.paced 8).finish B.CLK .ok).event B.CLK 0).settle.flag B.CLK g = s.dev.relocked.flag B.CLK g := by
    rw [Dev.flag, fld_applyDone_settled _ (hg ▸ by decide) (hg ▸ by decide) (hg ▸ by decide) (by decide),
      Dev.fld_paced _ _ (hg ▸ by decide), Dev.flag]
  have hold (k : Nat) : B.HOLD k ≠ B.DBG := by simp only [B.HOLD, B.DBG]; omega
  refine becomes.completes ⟨?_, ?_, fun k hk hk4 => ?_, fun k hk => ?_, ?_, ?_⟩
  · rw [settle_clk, Dev.event_clk, Dev.finish_keeps _ _ _ (p := Dev.clk) fun _ _ => rfl]
    exact (Dev.paced_keeps _ (p := Dev.clk) (fun _ _ _ => rfl) 8).trans (Dev.relocked_keeps _ (p := Dev.clk) fun _ _ => rfl)
  · rw [stat _ rfl, Dev.busy_relocked]
  · rw [stat _ rfl, Dev.lock_relocked _ hk4 hk]
  · rw [fld_applyDone_settled _ (by decide) (by decide) (by decide) (hold k), Dev.pace_paced _ hk, Dev.paceOf_relocked]
  · rw [settle_fld _ _ _ (by decide) (by decide) (.inl (by decide)), Dev.event_fld _ _ _ _ _ (by decide) (by decide) (.inl (by decide)),
      Dev.fld_finish]
  · rw [settle_mem, Dev.event_mem, Dev.finish_mem]
    exact (Dev.paced_keeps _ (p := Dev.mem) (fun _ _ _ => rfl) 8).trans (Dev.relocked_keeps _ (p := Dev.mem) fun _ _ => rfl)

/-- COMMIT in Moored, while the sector of the code can be written (R451). -/
theorem completes_oscCommit (hw : s.dev.writes src B.LH O.LH_OSC_CFG (withField data 8 1 1)) (hm : s.dev.mode = .moored)
    (hro : s.dev.nvRo 513 = false) {code : Nat}
    (hcode : (s.dev.storeReg B.LH O.LH_OSC_CFG (withField data 8 1 1)).fld B.LH F.LH_OSC_CFG_CODE = code) :
    Completes (.oscCommit src data) s (fun d => d.clk.oscNv = code ∧ d.fld B.LH F.LH_OSC_CFG_ACTIVE = code ∧
      d.fld B.LH F.BLK_STATUS_LAST_STATUS = Status.ok.code ∧ d.mem = s.dev.mem) := by
  have width : code < 2 ^ F.LH_OSC_CFG_ACTIVE.w := hcode ▸ Dev.fld_lt _ B.LH F.LH_OSC_CFG_CODE
  have becomes := becomes_oscCommit hw
  rw [Dev.oscCommit_commits _ ((Dev.mode_storeReg_oscCfg _ _).trans hm) ((Dev.nvRo_storeReg _ _ _ _ _).trans hro), hcode] at becomes
  refine becomes.completes ⟨?_, ?_, lastStatus_settle_finish _ _ _, ?_⟩
  · rw [settle_clk]
    exact congrArg ClkSt.oscNv (Dev.finish_keeps _ _ _ (p := Dev.clk) fun _ _ => rfl)
  · rw [settle_fld _ _ _ (by decide) (by decide) (.inl (by decide)), Dev.okReply_fld, Dev.fld_finish_off _ _ _ (by decide),
      Dev.active_oscCommitted _ width]
  · rw [mem_settle_finish, Dev.mem_oscCommitted, Dev.storeReg_mem]

/-- The loss of a PLL's lock, or of the reference, is a class F cause (R455, R538). -/
theorem completes_pllLockLost {pll : Option (Fin 4)} (hpow : s.dev.clk.mainPower = true) (hr : s.dev.mode ≠ .reset) (hb : s.dev.mode ≠ .beacon)
    (hq : s.dev.mode ≠ .quarantine) (hp : s.dev.clk.phase ≠ .selfRefresh) (ha : ∀ k, pll = some k → ¬ k.val ∈ s.dev.clk.applying) :
    Completes (.pllLockLost pll) s (fun d => d.mode = .quarantine ∧ d.fld B.LH F.LH_QCAUSE_CAUSE = 2 ^ 4 ∧ d.mce.keys = [] ∧
      d.sec.keysUp = false ∧ ∀ k, pll = some k → d.flag B.CLK ⟨O.CLK_STAT, 2 + k.val, 1⟩ = false) := by
  have kept : ∀ k, pll.map Fin.val = some k → ¬ k ∈ s.dev.clk.applying := by
    intro k hk
    obtain ⟨j, hj, rfl⟩ := Option.map_eq_some_iff.1 hk
    exact ha j hj
  have becomes : Becomes (.pllLockLost pll) s (s.dev.pllLockLost (pll.map Fin.val)) := exec_pllLockLost pll s
  rw [s.dev.pllLockLost_lost hpow hr hb kept] at becomes
  have mode : ((s.dev.unlocked (pll.map Fin.val)).event B.CLK 1).mode = s.dev.mode := by
    rw [Dev.mode_event, s.dev.unlocked_keeps (p := Dev.mode) fun d => d.mode_setReg (by decide) (by decide)]
  have phase : ((s.dev.unlocked (pll.map Fin.val)).event B.CLK 1).clk.phase = s.dev.clk.phase := by
    rw [Dev.event_clk, s.dev.unlocked_keeps (p := fun d => d.clk.phase) fun _ _ => rfl]
  have entered := ((s.dev.unlocked (pll.map Fin.val)).event B.CLK 1).quarantine_quarantined 4 ((pll.map Fin.val).getD 0) B.CLK 1 0
    (phase ▸ hp) (mode ▸ hb) (mode ▸ hr) (mode ▸ hq) (by decide)
  refine becomes.completes ⟨?_, ?_, ?_, ?_, ?_⟩
  · rw [settle_mode, entered.mode]
  · rw [settle_fld _ _ _ (by decide) (by decide) (.inl (by decide)), entered.cause]
  · rw [settle_mce, entered.keys]
  · rw [settle_sec, entered.keysUp]
  · rintro k rfl
    rw [settle_flag _ _ _ (by dsimp only; decide) (by dsimp only; decide) (.inl (by decide)), Dev.flag, Dev.fld, entered.locks,
      Dev.event_reg _ _ _ _ _ (by decide) (by decide) (.inl (by decide))]
    exact Dev.flag_setPllLocks _ k.isLt (List.mem_singleton.2 rfl) false

/-- A port of Ethernet whose transceiver has lost its lock goes down, and no other thing (R378, R455). -/
theorem completes_ethLockLost (p : Fin 4) : Completes (.serdesLockLost (.eth p)) s (fun d =>
    d.flag B.ETH (F.ETH_CFG_LINK_UP p.val) = false ∧ d.mode = s.dev.mode ∧ d.mem = s.dev.mem) := by
  have place : ∀ p : Fin 4, (F.ETH_CFG_LINK_UP p.val).off < blockBytes ∧ (F.ETH_CFG_LINK_UP p.val).off ≠ O.EVT_STATUS := by decide
  obtain ⟨inBlock, notEvent⟩ := place p
  have becomes : Becomes (.serdesLockLost (.eth p)) s (s.dev.ethLinkChg p.val false) := exec_serdesLockLost (.eth p) s
  refine becomes.completes ?_
  rw [settle_flag _ _ _ inBlock notEvent (.inl (by decide)), settle_mode, settle_mem, Dev.ethLinkChg]
  split
  · next down => exact ⟨down, rfl, rfl⟩
  · rw [Dev.flag, Dev.event_fld _ _ _ _ _ inBlock notEvent (.inl (by decide)), ← Dev.flag, Dev.mode_event, Dev.event_mem]
    exact ⟨Dev.flag_setFlag _ _ _ _ (by simp only [F.ETH_CFG_LINK_UP]; decide) rfl, Dev.mode_setFld _ (by decide) inBlock _,
      Dev.setFld_mem _ _ _ _⟩

/-- Settles O37: each register by the equation of its case; a lost lock by what a class F cause leaves, or by the port that goes down. -/
theorem clocks : Obligations.Clocks := by
  refine ⟨fun s src data => ⟨fun hw => ⟨fun hboot hmoored => ?elsewhere, fun hm ha hd => ?same,
      fun hm ha h1 hd => completes_clkApplyHold hw hm ha h1 hd, fun hm h3 hdmc => ?busyMemory⟩,
    fun ha hq => completes_applyDone ha hq, fun hw => ⟨fun hm => ?osc, fun hm hro => completes_oscCommit hw hm hro rfl⟩,
    fun k hw => becomes_clkEn hw, fun hw => ⟨fun fast => ?fast, fun slow => ?slow⟩⟩,
    fun s => ⟨fun pll hpow hr hb hq hp ha => completes_pllLockLost hpow hr hb hq hp ha, fun n hst => ?link, exec_serdesLockLost .pcie s,
      fun p => completes_ethLockLost p⟩⟩
  case elsewhere =>
    rw [← s.dev.clkApply_refused (.inl ⟨hboot, hmoored⟩)]
    exact becomes_clkApply hw
  case same =>
    rw [← s.dev.clkApply_same hm ha hd]
    exact becomes_clkApply hw
  case busyMemory =>
    rw [← s.dev.clkApply_refused (.inr ⟨h3, hdmc⟩)]
    exact becomes_clkApply hw
  case osc =>
    have elsewhere : (s.dev.storeReg B.LH O.LH_OSC_CFG (withField data 8 1 1)).mode ≠ .moored := (Dev.mode_storeReg_oscCfg _ _).trans_ne hm
    rw [← Dev.oscCommit_refused _ elsewhere]
    exact becomes_oscCommit hw
  case fast =>
    have becomes := becomes_clkmonCfg hw
    rwa [Dev.clkmonCfg, if_pos fast] at becomes
  case slow =>
    have becomes := becomes_clkmonCfg hw
    rwa [Dev.clkmonCfg, if_neg slow] at becomes
  case link =>
    have becomes : Becomes (.serdesLockLost (.causeway n)) s (s.dev.serdesLockLost (.causeway n)) := exec_serdesLockLost (.causeway n) s
    rwa [Dev.serdesLockLost, if_neg hst] at becomes

end Sys2Proof.Machine
end

section
/-! What a receiver of a jetty port makes of a frame, its SYNC and its HUNT, and the lock of the jetty PLL (R346, R358, R363). -/

namespace Sys2Proof.Machine

/-! ### A STATUS frame that carries 0xF (R19, R350) -/

theorem JFrame.noF_of_clean {f : JFrame} (h : f.type = 1 ∨ f.type = 3 ∧ f.payload.toNat % 16 ≠ 15) : f.noF = f := by
  rcases h with data | ⟨-, clean⟩
  · simp [JFrame.noF, data]
  · simp [JFrame.noF, clean]

section
variable {f : JFrame} (ht : f.type = 3) (hp : f.payload.toNat % 16 = 15)
include ht hp

/-- FORMAT, 0xC, stands in the place of 0xF. -/
theorem JFrame.noF_of_reserved : f.noF = { f with payload := f.payload - 3 } := by simp [JFrame.noF, ht, hp]

theorem JFrame.noF_ne_of_reserved : f.noF ≠ f := by
  rw [JFrame.noF_of_reserved ht hp]
  intro same
  have payload : f.payload - 3 = f.payload := congrArg JFrame.payload same
  bv_omega

end

/-! ### What a receiver in SYNC makes of what it decoded (R346, R358) -/

variable {s : Dev} {p : Nat}

theorem Dev.ergRuns_event (b n e : Nat) : (s.event b n).ergRuns e = s.ergRuns e := by
  have ergs : (s.event b n).ergs = s.ergs := congrArg (·.ergs) (s.event_core b n)
  rw [Dev.ergRuns, Dev.erg, ergs, Dev.ergRuns, Dev.erg]

theorem Dev.count_event (b n : Nat) : (s.event b n).tide.count = s.tide.count := congrArg (·.tide.count) (s.event_core b n)

/-- A receiver that hears: the port is enabled and clocked, the receiver in SYNC. -/
structure Dev.Hears (s : Dev) (p : Nat) : Prop where
  on : s.portOn p = true
  sync : (s.port p).sync = true

namespace Dev.Hears

variable {f : JFrame} (h : s.Hears p)
include h

theorem not_deaf : ¬ (!s.portOn p || !(s.port p).sync) = true := by simp [h.on, h.sync]

theorem jettyReceive_codeFault : s.jettyReceive p .codeFault =
    ((s.setPort p { s.port p with
      codeCnt := satAdd 16 (s.port p).codeCnt 1, faults := (s.port p).faults ++ [(s.tide.count, 3)] }).classC (portBlock p)).event (portBlock p) 0 :=
  if_neg h.not_deaf

theorem jettyReceive_badCrc {crc : BitVec 16} (hcrc : crc ≠ f.crc) : s.jettyReceive p (.frame f crc) =
    ((s.setPort p { s.port p with
      crcCnt := satAdd 16 (s.port p).crcCnt 1, faults := (s.port p).faults ++ [(s.tide.count, 2)] }).classC (portBlock p)).event (portBlock p) 0 :=
  (if_neg h.not_deaf).trans (if_pos hcrc)

theorem jettyReceive_badType (h1 : f.type ≠ 1) (h3 : f.type ≠ 3) : s.jettyReceive p (.frame f f.crc) =
    (s.setPort p { s.port p with
      formatCnt := satAdd 16 (s.port p).formatCnt 1, faults := (s.port p).faults ++ [(s.tide.count, 4)] }).event (portBlock p) 1 :=
  (if_neg h.not_deaf).trans ((if_neg (not_not.2 rfl)).trans (if_pos (by simpa using ⟨h1, h3⟩)))

/-- A valid frame: a STATUS of 0xF is reported, and then the frame waits for a receive slot or is discarded. -/
theorem jettyReceive_valid (ht : f.type = 1 ∨ f.type = 3) : s.jettyReceive p (.frame f f.crc) =
    let s1 := if f.noF = f then s else s.event (portBlock p) 1
    if !s1.ergRuns (p / 8) || (s.port p).rx.isEmpty then
      (s1.setPort p { s.port p with overrunCnt := satAdd 16 (s.port p).overrunCnt 1 }).event (portBlock p) 3
    else s1.setPort p { s.port p with fresh := (s.port p).fresh ++ [(s1.tide.count, f.noF)] } :=
  (if_neg h.not_deaf).trans ((if_neg (not_not.2 rfl)).trans (if_neg (by rcases ht with ht | ht <;> simp [ht])))

theorem jettyReceive_fresh (hr : s.ergRuns (p / 8) = true) (hx : (s.port p).rx ≠ [])
    (hf : f.type = 1 ∨ f.type = 3 ∧ f.payload.toNat % 16 ≠ 15) : s.jettyReceive p (.frame f f.crc) =
      s.setPort p { s.port p with fresh := (s.port p).fresh ++ [(s.tide.count, f)] } := by
  simp [h.jettyReceive_valid (hf.imp_right And.left), JFrame.noF_of_clean hf, hr, hx]

theorem jettyReceive_reserved (hr : s.ergRuns (p / 8) = true) (hx : (s.port p).rx ≠ []) (ht : f.type = 3)
    (hp : f.payload.toNat % 16 = 15) : s.jettyReceive p (.frame f f.crc) =
      (s.event (portBlock p) 1).setPort p
        { s.port p with fresh := (s.port p).fresh ++ [(s.tide.count, { f with payload := f.payload - 3 })] } := by
  rw [h.jettyReceive_valid (.inr ht), if_neg (JFrame.noF_ne_of_reserved ht hp)]
  dsimp only
  rw [Dev.ergRuns_event, Dev.count_event, JFrame.noF_of_reserved ht hp]
  exact if_neg (by simp [hr, hx])

/-- The count of such frames in OVERRUN_CNT is the model's choice (log entry 39). -/
theorem jettyReceive_discarded (hf : f.type = 1) (hd : s.ergRuns (p / 8) = false ∨ (s.port p).rx = []) :
    s.jettyReceive p (.frame f f.crc) =
      (s.setPort p { s.port p with overrunCnt := satAdd 16 (s.port p).overrunCnt 1 }).event (portBlock p) 3 := by
  have discards : (!s.ergRuns (p / 8) || (s.port p).rx.isEmpty) = true := by rcases hd with hd | hd <;> simp [hd]
  simp [h.jettyReceive_valid (.inl hf), JFrame.noF_of_clean (.inl hf), discards]

end Dev.Hears

/-! ### SYNC and HUNT (R346) -/

theorem Dev.rxSync_on (h : s.portOn p = true) : s.rxSync p = s.setPort p { s.port p with sync := true } := if_neg (by simp [h])

theorem Dev.syncLost_synced (h : (s.port p).sync = true) : s.syncLost p =
    (s.setPort p { s.port p with sync := false, syncLostCnt := satAdd 16 (s.port p).syncLostCnt 1 }).event (portBlock p) 2 :=
  if_neg (by simp [h])

/-- The other ports, after one is stored whose line keeps its source. -/
theorem settle_setPort_ne {x : PortSt} (h : s.LinesShow) (hm : x.moor = (s.port p).moor) (ht : x.tx = (s.port p).tx) {q : Nat} (hq : q ≠ p) :
    (s.setPort p x).settle.port q = s.port q :=
  settle_port_of_source (by rw [Dev.port_setPort, if_neg hq]) (by rw [Dev.portSource_setPort hm ht, h q])

/-! ### The lock of the jetty PLL (R362, R363) -/

theorem Dev.portSource_unlocked (h : s.clk.jettyLock = false) (q : Nat) : s.portSource q = .idle := by simp [Dev.portSource, h]

/-- The ports after every listed one has returned to HUNT. -/
theorem Dev.port_foldl_hunt (ps : List Nat) (s : Dev) (q : Nat) :
    (ps.foldl (fun s p => s.setPort p { s.port p with sync := false }) s).port q =
      if q ∈ ps then { s.port q with sync := false } else s.port q := by
  induction ps generalizing s with
  | nil => simp
  | cons a ps ih =>
    rw [List.foldl_cons, ih, Dev.port_setPort]
    by_cases ha : q = a
    · subst ha; simp
    · simp [ha]

/-- What storing a port leaves, the loss of the lock leaves too, but for the lock. -/
theorem Dev.jettyLockLost_keeps {β : Type} {g : Dev → β} (h : ∀ (d : Dev) k x, g (d.setPort k x) = g d) :
    g s.jettyLockLost = g { s with clk := { s.clk with jettyLock := false } } :=
  foldl_keeps _ _ (fun d _ _ => h d _ _) _

@[simp] theorem Dev.jettyLockLost_clk : s.jettyLockLost.clk = { s.clk with jettyLock := false } :=
  Dev.jettyLockLost_keeps (g := Dev.clk) fun _ _ _ => rfl

/-- A port that the table does not list is in HUNT as it is. -/
theorem Dev.port_jettyLockLost (q : Nat) : s.jettyLockLost.port q = { s.port q with sync := false } := by
  refine (Dev.port_foldl_hunt (s.ports.map (·.1)) { s with clk := { s.clk with jettyLock := false } } q).trans ?_
  split
  · rfl
  · next absent =>
    have unlisted : s.port q = {} := Map.get_of_not_mem _ _ _ absent
    refine unlisted.trans ?_
    rw [unlisted]

/-- Settles O25: what was decoded by its case; settling leaves a port whose line keeps its source, and gives every line its source once the
lock has changed. -/
theorem jettyReceivers : Obligations.JettyReceivers := by
  intro s p hout hq x blk
  have receives (r : JRecv) : Becomes (.jettyFrameReceive p r) s (s.dev.jettyReceive p.val r) := becomes_live (exec_jettyFrameReceive p r s) hq
  refine ⟨fun hon hsync => ?heard, fun hon => ?sync, ?locked, ?unlocked⟩
  case heard =>
    have hears : s.dev.Hears p.val := ⟨hon, hsync⟩
    refine ⟨?_, fun f crc hcrc => ?_, fun f h1 h3 => ?_, fun f hr hx hf => ?_, fun f hr hx ht hp => ?_, fun f hf hd => ?_, ?_⟩
    · exact hears.jettyReceive_codeFault ▸ receives .codeFault
    · exact hears.jettyReceive_badCrc hcrc ▸ receives (.frame f crc)
    · exact hears.jettyReceive_badType h1 h3 ▸ receives (.frame f f.crc)
    · have becomes := receives (.frame f f.crc)
      rw [hears.jettyReceive_fresh hr hx hf] at becomes
      exact becomes.completes (Dev.settle_setPort hout.ports rfl rfl rfl)
    · exact hears.jettyReceive_reserved hr hx ht hp ▸ receives (.frame f f.crc)
    · have becomes := receives (.frame f f.crc)
      rw [hears.jettyReceive_discarded hf hd] at becomes
      obtain ⟨fab, port, mem⟩ := Dev.settle_setPort_event (x := { x with overrunCnt := satAdd 16 x.overrunCnt 1 }) (hout.ports p.val)
        rfl rfl rfl False blk 3
      exact becomes.completes ⟨port, fab, mem⟩
    · exact Dev.syncLost_synced hsync ▸ becomes_live (exec_syncLost p s) hq
  case sync =>
    have becomes : Becomes (.rxSync p) s (s.dev.rxSync p.val) := becomes_live (exec_rxSync p s) hq
    rw [Dev.rxSync_on hon] at becomes
    have others := fun q => settle_setPort_ne (p := p.val) (x := { x with sync := true }) hout.ports rfl rfl (q := q)
    obtain ⟨port, regs, mem⟩ := Dev.settle_setPort (x := { x with sync := true }) hout.ports rfl rfl rfl
    exact becomes.completes ⟨port, others, regs, mem⟩
  case locked =>
    have becomes : Becomes .jettyPllLock s s.dev.jettyLocked := exec_jettyPllLock s
    refine becomes.completes ⟨settle_clk _, settle_mem _, fun q => ?_⟩
    rw [settle_port, settle_portSource]
    rfl
  case unlocked =>
    have becomes : Becomes .jettyPllLockLost s s.dev.jettyLockLost := exec_jettyPllLockLost s
    refine becomes.completes ⟨?_, ?_, fun q => ?_⟩
    · rw [settle_clk, Dev.jettyLockLost_clk]
    · rw [settle_mem, Dev.jettyLockLost_keeps (g := Dev.mem) fun _ _ _ => rfl]
    · rw [settle_port, Dev.port_jettyLockLost, Dev.portSource_unlocked (congrArg (·.jettyLock) Dev.jettyLockLost_clk)]

end Sys2Proof.Machine
end

section
/-! Station time: STEP, the reads that latch, the pulses (R383 to R386, R390). -/

namespace Sys2Proof.Machine

section
variable (s : Dev)

/-! ### What a command's end leaves of the Ethernet block's state -/

@[simp] theorem Dev.finish_eth (b : Nat) (st : Status) : (s.finish b st).eth = s.eth := s.finish_keeps b st (p := Dev.eth) fun _ _ => rfl

theorem eth_settle_finish (b : Nat) (st : Status) : (s.finish b st).okReply.settle.eth = s.eth :=
  (settle_eth _).trans (s.finish_eth b st)

theorem flag_settle_finish (b : Nat) (st : Status) {f : Fld} (hf : f.off < blockBytes) (he : f.off ≠ O.EVT_STATUS) (hs : f.off ≠ O.BLK_STATUS)
    (hd : b ≠ B.DBG ∨ f.off ≠ O.DBG_STAT) : (s.finish b st).okReply.settle.flag b f = s.flag b f := by
  rw [Dev.flag, Dev.fld, reg_settle_finish _ _ _ hf he hs hd, Dev.flag, Dev.fld]

/-- Station time in nanoseconds is a view of the Ethernet block's state. -/
theorem Dev.ns_of_eth {s d : Dev} (h : d.eth = s.eth) : d.ns = s.ns := by rw [Dev.ns, h, Dev.ns]

/-! ### Setting and moving the time (R385) -/

theorem Dev.reg64_lt (b lo hi : Nat) : s.reg64 b lo hi < 2 ^ 64 := by
  have low := (s.reg b lo).isLt
  have high := (s.reg b hi).isLt
  rw [Dev.reg64]
  omega

theorem Dev.ns_setTime {v : Nat} (hv : v < 2 ^ 64) : (s.setTime v).ns = v := by
  rw [Dev.ns, Dev.setTime, Dev.setFlag, Dev.setFld_eth]
  dsimp only
  omega

theorem Dev.valid_setTime (v : Nat) : (s.setTime v).flag B.ETH F.ST_STAT_VALID = true := Dev.flag_setFlag _ _ _ _ (by decide) rfl

theorem Dev.time_moveTime (d : Int) : ((s.moveTime d).eth.time : Int) = ((s.eth.time : Int) + d) % 2 ^ 96 :=
  Int.toNat_of_nonneg (Int.emod_nonneg _ (by decide))

/-! ### STEP (R385) -/

theorem Dev.stStep_refused (h : s.mode = .underway ∨ s.tide.armed.isSome) : s.stStep = s.finish B.ETH .state :=
  if_pos (by simpa using .inl h)

/-- STEP is not refused: no tides run, and no start of tides is armed or due. -/
structure Dev.MayStep (s : Dev) : Prop where
  mode : s.mode ≠ .underway
  armed : s.tide.armed = none
  started : s.tide.started = false

theorem Dev.MayStep.stStep_sets {s : Dev} (h : s.MayStep) (hv : s.flag B.ETH F.ST_STAT_VALID = false) :
    s.stStep = (s.setTime (s.reg64 B.ETH O.ST_STEP_LO O.ST_STEP_HI)).finish B.ETH .ok := by
  simp [Dev.stStep, h.mode, h.armed, h.started, hv]

theorem Dev.MayStep.stStep_adds {s : Dev} (h : s.MayStep) (hv : s.flag B.ETH F.ST_STAT_VALID = true) :
    s.stStep = (s.moveTime ((BitVec.ofNat 64 (s.reg64 B.ETH O.ST_STEP_LO O.ST_STEP_HI)).toInt * 2 ^ 32)).finish B.ETH .ok := by
  simp [Dev.stStep, h.mode, h.armed, h.started, hv]

/-! ### ST_CTRL (R384) -/

theorem Dev.writeReg_stCtrl (src : Src) (w : Word) : s.writeReg src B.ETH O.ST_CTRL w = s.stCtrl w := by
  rw [s.writeReg_own src w (k := .eth) rfl (by decide) (by decide)]
  rfl

/-- A write of ST_CTRL leaves the value of STEP. -/
theorem Dev.step_storeReg_stCtrl (w : Word) :
    (s.storeReg B.ETH O.ST_CTRL w).reg64 B.ETH O.ST_STEP_LO O.ST_STEP_HI = s.reg64 B.ETH O.ST_STEP_LO O.ST_STEP_HI := by
  rw [Dev.reg64, s.reg_storeReg_ne (by decide) (by decide), s.reg_storeReg_ne (by decide) (by decide), Dev.reg64]

/-- A write of ST_CTRL leaves ST_STAT. -/
theorem Dev.valid_storeReg_stCtrl (w : Word) :
    (s.storeReg B.ETH O.ST_CTRL w).flag B.ETH F.ST_STAT_VALID = s.flag B.ETH F.ST_STAT_VALID := by
  rw [Dev.flag, Dev.fld, s.reg_storeReg_ne (by decide) (by decide), Dev.flag, Dev.fld]

/-- A write of ST_CTRL leaves the mode and the tide. -/
theorem Dev.MayStep.storeReg_stCtrl {s : Dev} (h : s.MayStep) (w : Word) : (s.storeReg B.ETH O.ST_CTRL w).MayStep where
  mode := (s.mode_storeReg (by decide) (by decide) w).trans_ne h.mode
  armed := by rw [Dev.storeReg_tide, h.armed]
  started := by rw [Dev.storeReg_tide, h.started]

/-! ### PPS_IN (R386) -/

/-- A rising edge of PPS_IN: station time is captured, and the event raised. -/
def Dev.ppsCaptured (s : Dev) : Dev := { s with eth := { s.eth with ppsCap := s.ns } }.event B.ETH 8

theorem Dev.ppsIn_captures (hin : s.flag B.ETH F.ST_PPS_CFG_IN_EN = true) (hsrc : s.stSrc ≠ 2) : s.ppsIn = s.ppsCaptured := by
  simp [Dev.ppsIn, Dev.ppsCaptured, hin, hsrc]

/-- Less than half a second past a whole second, the reference lies behind this device by what has passed. -/
theorem Dev.ppsIn_disciplines (hin : s.flag B.ETH F.ST_PPS_CFG_IN_EN = true) (hsrc : s.stSrc = 2)
    (hpast : 2 * (s.eth.time % (1000000000 * 2 ^ 32)) < 1000000000 * 2 ^ 32) :
    s.ppsIn = s.ppsCaptured.servo (-((s.eth.time % (1000000000 * 2 ^ 32) : Nat) : Int)) 500000000 := by
  unfold Dev.ppsIn
  rw [if_neg (by simp [hin])]
  dsimp only
  rw [if_pos hsrc, if_pos hpast]
  rfl

end

/-! ### The commands -/

variable {s : State} {src : RegSrc} {data : Word} {peek : Bool}

theorem becomes_stStep (hw : s.dev.writes src B.ETH O.ST_CTRL (withField data 8 1 1)) :
    Becomes (.stStep src data) s (s.dev.storeReg B.ETH O.ST_CTRL (withField data 8 1 1)).stStep.okReply := by
  have becomes := becomes_command (exec_stStep src data s) (by decide) hw
  have step : nbit (withField data 8 1 1).toNat 8 = true := nbit_withField data 8 1 (by decide)
  rwa [Dev.writeReg_stCtrl, Dev.stCtrl, if_pos step] at becomes

/-- A read of a register of a block other than SEC that is no peek returns what the register shows, and acts (R505). -/
theorem becomes_read {c : Instr} {blk off : Nat} (hc : exec c s = run (fun d => d.readCommand src peek blk off) s) (ho : off < blockBytes)
    (hb : blk ≠ B.SEC) (hp : src.peeks peek = false) (hr : s.dev.reads src blk off) :
    Becomes c s ((s.dev.readActs src.src blk off false).okReply (s.dev.showReg src.src blk off false)) := by
  obtain ⟨hg, hd⟩ := hr
  rw [Becomes, hc, run, Dev.readCommand_open _ _ _ _ _ ho hg hd, hp, Dev.readReg, if_neg (by simp [hb]), Dev.okReply]

/-- Settles O30: STEP by its case, after the write of ST_CTRL, which leaves the time, VALID and the value of STEP; the reads by what their
registers show and latch; the pulses by what a rising edge does. -/
theorem stationTime : Obligations.StationTime := by
  intro s src data peek hp
  dsimp only
  refine ⟨fun hw => ⟨fun hr => ?refused, fun hm ha hs => ⟨fun hv => ?sets, fun hv => ?adds⟩⟩,
    fun hr => becomes_read (exec_stNowLoRead src peek s) (by decide) (by decide) hp hr,
    fun hr => becomes_read (exec_stPpsCapLoRead src peek s) (by decide) (by decide) hp hr,
    fun hin hsrc => ?captures, fun past hin hsrc hpast hhalf => ?disciplines, ?pulse⟩
  case refused =>
    have becomes := becomes_stStep hw
    rw [Dev.stStep_refused _ (by rwa [Dev.mode_storeReg _ (by decide) (by decide), Dev.storeReg_tide])] at becomes
    exact becomes.completes ⟨by rw [eth_settle_finish, Dev.storeReg_eth], lastStatus_settle_finish _ _ _,
      (mem_settle_finish _ _ _).trans (Dev.storeReg_mem _ _ _ _)⟩
  case sets =>
    have becomes := becomes_stStep hw
    have may : s.dev.MayStep := ⟨hm, ha, hs⟩
    rw [(may.storeReg_stCtrl _).stStep_sets (by rwa [Dev.valid_storeReg_stCtrl]), Dev.step_storeReg_stCtrl] at becomes
    refine becomes.completes ⟨?_, ?_, lastStatus_settle_finish _ _ _, (mem_settle_finish _ _ _).trans (Dev.storeReg_mem _ _ _ _)⟩
    · rw [Dev.ns_of_eth (eth_settle_finish _ _ _), Dev.ns_setTime _ (Dev.reg64_lt _ _ _ _)]
    · rw [flag_settle_finish _ _ _ (by decide) (by decide) (by decide) (.inl (by decide)), Dev.valid_setTime]
  case adds =>
    have becomes := becomes_stStep hw
    have may : s.dev.MayStep := ⟨hm, ha, hs⟩
    rw [(may.storeReg_stCtrl _).stStep_adds (by rwa [Dev.valid_storeReg_stCtrl]), Dev.step_storeReg_stCtrl] at becomes
    refine becomes.completes ⟨?_, lastStatus_settle_finish _ _ _, (mem_settle_finish _ _ _).trans (Dev.storeReg_mem _ _ _ _)⟩
    rw [eth_settle_finish, Dev.time_moveTime, Dev.storeReg_eth]
  case captures =>
    have becomes : Becomes .ppsIn s s.dev.ppsIn := exec_ppsIn s
    rwa [Dev.ppsIn_captures _ hin hsrc] at becomes
  case disciplines =>
    subst hpast
    have becomes : Becomes .ppsIn s s.dev.ppsIn := exec_ppsIn s
    rwa [Dev.ppsIn_disciplines _ hin hsrc hhalf] at becomes
  case pulse =>
    have becomes : Becomes .ppsOut s s.dev.ppsOut := exec_ppsOut s
    refine becomes.completes ?_
    rw [settle_eth, settle_mem]
    exact ⟨rfl, rfl, rfl⟩

end Sys2Proof.Machine
end

section
/-! Frames of an Ethernet port: received, and taken to the ring (R378, R380, R382). -/

namespace Sys2Proof.Machine

section
variable {s : Dev} {p : Nat} {f : List Byte}

/-- The frames that wait in a port's buffer. -/
def Dev.rxQueue (s : Dev) (p : Nat) : List EthFrame := Map.get (fun _ => []) s.eth.rx p

/-- The device with the frames that wait in a port's buffer replaced. -/
def Dev.setRxQueue (s : Dev) (p : Nat) (q : List EthFrame) : Dev :=
  { s with eth := { s.eth with rx := Map.set (fun _ => []) s.eth.rx p q } }

@[simp] theorem Dev.rxQueue_setRxQueue (q : List EthFrame) : (s.setRxQueue p q).rxQueue p = q := by
  simp [Dev.rxQueue, Dev.setRxQueue, Map.get_set]

/-- The device with a frame dropped: counted in FULL_CNT, with RX_DROP (R380). -/
def Dev.rxDropped (s : Dev) (p : Nat) : Dev := (s.count B.ETH (F.ETH_CNT_FULL_CNT p)).event B.ETH (4 + p)

/-! ### Reception (R378) -/

section
variable (hen : s.flag B.ETH (F.ETH_CFG_EN p) = true) (hg : s.gated B.ETH = false)
include hen hg

theorem Dev.ethFrameReceive_badFcs : s.ethFrameReceive p f false = s.count B.ETH (F.ETH_CNT_BAD_CNT p) := by
  simp [Dev.ethFrameReceive, hen, hg]

variable (hmin : 60 ≤ f.length) (hmax : f.length ≤ 9212) (ht : s.ethTakes p f = true)
include hmin hmax ht

/-- A frame beyond the 64 KiB of the buffer is counted in FULL_CNT with RX_DROP: the model's choice (log entry 97). -/
theorem Dev.ethFrameReceive_overflows (hfull : 65536 < ((s.rxQueue p).map (fun x => x.data.length)).sum + f.length) :
    s.ethFrameReceive p f true = s.rxDropped p := by
  simp only [Dev.rxQueue] at hfull
  simp [Dev.ethFrameReceive, Dev.rxDropped, hen, hg, ht, Nat.not_lt.2 hmin, Nat.not_lt.2 hmax, hfull]

theorem Dev.ethFrameReceive_keeps (hroom : ((s.rxQueue p).map (fun x => x.data.length)).sum + f.length ≤ 65536) :
    s.ethFrameReceive p f true =
      s.setRxQueue p (s.rxQueue p ++ [{ data := f, ptp := (ptpAt f).isSome, ns := s.ns, frac := s.eth.time % 2 ^ 32 }]) := by
  simp only [Dev.rxQueue] at hroom
  simp [Dev.ethFrameReceive, Dev.setRxQueue, Dev.rxQueue, hen, hg, ht, Nat.not_lt.2 hmin, Nat.not_lt.2 hmax, Nat.not_lt.2 hroom]

end

/-! ### Delivery to the ring (R380) -/

variable {n : Nat} {e : EthFrame} {rest : List EthFrame}

/-- The lighter of a port that may take the oldest frame of the port's buffer (R379, R380). -/
structure Dev.RxReady (s : Dev) (n p : Nat) (e : EthFrame) (rest : List EthFrame) : Prop where
  port : s.fld B.LGT (F.LGT_CFG_PORT n) = p
  state : s.lgtState n < 2
  enabled : s.flag B.LGT (F.LGT_CFG_EN n) = true
  mode : s.lgtMode n = 1
  phase : (s.lgt n).phase = .idle
  awake : s.halted B.LGT = false
  ungated : s.gated B.LGT = false
  queue : s.rxQueue p = e :: rest

/-- The lighter that takes a frame to the slot at its producer index, with the header that follows it (R379, R380, R382). -/
def Dev.rxBody (s : Dev) (n : Nat) (e : EthFrame) : LgtSt :=
  { s.lgt n with
    phase := .rxBody, src := 0, dst := s.lgtEntry n + 32, len := e.data.length, srcHost := true, dstHost := false, next := 0, pieces := [],
    bad := none, tag := none, head := e.data, slot := slotHeader e.data.length (1 + 2 * e.ptp.toNat) e.ns e.frac }

/-- The oldest frame leaves the buffer: dropped where the ring is full or the slot too short, else taken to the slot. -/
theorem Dev.RxReady.ethRxDeliver_eq (h : s.RxReady n p e rest) : s.ethRxDeliver n =
    if (s.lgtCons n + 1) % s.lgtRing n = s.lgtProd n ∨ 2 ^ s.fld B.LGT (F.LGT_CFG_SLOT_LOG2 n) < 32 + e.data.length then
      (s.setRxQueue p rest).rxDropped p
    else (((s.setRxQueue p rest).setLgtState n 1).setLgt n (s.rxBody n e)).lgtPump n := by
  obtain ⟨rfl, state, enabled, mode, phase, awake, ungated, queue⟩ := h
  unfold Dev.ethRxDeliver
  dsimp only
  rw [if_neg (by simp [Dev.lgtMay, state, enabled, mode, phase, awake, ungated]),
    show Map.get (fun _ => []) s.eth.rx (s.fld B.LGT (F.LGT_CFG_PORT n)) = e :: rest from queue]
  refine if_congr ?_ rfl rfl
  rw [Bool.or_eq_true, beq_iff_eq, decide_eq_true_eq]
  rfl

theorem Dev.RxReady.ethRxDeliver_full (h : s.RxReady n p e rest) (hfull : (s.lgtCons n + 1) % s.lgtRing n = s.lgtProd n) :
    s.ethRxDeliver n = (s.setRxQueue p rest).rxDropped p := by
  rw [h.ethRxDeliver_eq, if_pos (.inl hfull)]

theorem Dev.RxReady.ethRxDeliver_takes (h : s.RxReady n p e rest) (hroom : (s.lgtCons n + 1) % s.lgtRing n ≠ s.lgtProd n)
    (hslot : 32 + e.data.length ≤ 2 ^ s.fld B.LGT (F.LGT_CFG_SLOT_LOG2 n)) :
    s.ethRxDeliver n = (((s.setRxQueue p rest).setLgtState n 1).setLgt n (s.rxBody n e)).lgtPump n := by
  rw [h.ethRxDeliver_eq, if_neg (not_or.2 ⟨hroom, Nat.not_lt.2 hslot⟩)]

end

/-- Settles O29: a frame received, or taken to the ring, by its case; a frame that stays in the buffer changes neither registers nor lines. -/
theorem ethernetPorts : Obligations.EthernetPorts := by
  intro s p f hout hq q
  have receives (ok : Bool) : Becomes (.ethFrameReceive p f ok) s (s.dev.ethFrameReceive p.val f ok) :=
    becomes_live (exec_ethFrameReceive p f ok s) hq
  have delivers (n : Fin 16) : Becomes (.ethRxDeliver n) s (s.dev.ethRxDeliver n.val) := becomes_live (exec_ethRxDeliver n s) hq
  refine ⟨fun hen hg => ⟨?bad, fun hmin hmax ht => ⟨fun hfull => ?overflow, fun hroom => ?keep⟩⟩,
    fun n e rest hport hstate hen hmode hphase hhalt hgate hqueue hfull => ?full,
    fun n e rest hport hstate hen hmode hphase hhalt hgate hqueue hroom hslot => ?take,
    fun up => becomes_live (exec_linkChg p up s) hq⟩
  case bad => exact Dev.ethFrameReceive_badFcs hen hg ▸ receives false
  case overflow =>
    have becomes := receives true
    rwa [Dev.ethFrameReceive_overflows hen hg hmin hmax ht hfull] at becomes
  case keep =>
    have becomes := receives true
    rw [Dev.ethFrameReceive_keeps hen hg hmin hmax ht hroom] at becomes
    refine becomes.completes ⟨settle_regs_of_sources hout.ports, settle_mem _, ?_⟩
    rw [settle_eth]
    exact Dev.rxQueue_setRxQueue _
  case full =>
    have ready : s.dev.RxReady n.val p.val e rest := ⟨hport, hstate, hen, hmode, hphase, hhalt, hgate, hqueue⟩
    have becomes := delivers n
    rwa [ready.ethRxDeliver_full hfull] at becomes
  case take =>
    have ready : s.dev.RxReady n.val p.val e rest := ⟨hport, hstate, hen, hmode, hphase, hhalt, hgate, hqueue⟩
    have becomes := delivers n
    rwa [ready.ethRxDeliver_takes hroom hslot] at becomes

end Sys2Proof.Machine
end

section
/-! STOP of a lighter channel in ERROR, and a ring of more entries than the consumer index can count (R377, R390). -/

namespace Sys2Proof.Machine

section
variable (s : Dev) (n : Nat)

/-- The consumer index is a field of 12 bits: it moves on modulo the ring and modulo 4,096. -/
theorem Dev.lgtCons_lgtStep : (s.lgtStep n).lgtCons n = (s.lgtCons n + 1) % s.lgtRing n % 2 ^ 12 :=
  s.fld_setFld _ _ _ (by simp only [F.LGT_STAT_CONS]; decide)

/-- The state of a channel stands apart from its consumer index. -/
theorem Dev.lgtCons_setLgtState (v : Nat) : (s.setLgtState n v).lgtCons n = s.lgtCons n :=
  s.fld_setFld_field _ _ _ _ (by simp only [F.LGT_STAT_STATE]; decide) rfl (.inl (by simp only [F.LGT_STAT_CONS, F.LGT_STAT_STATE]; decide))

/-- STOP in ERROR skips the failed descriptor (R377). -/
theorem Dev.lgtStop_error (h : s.lgtState n = 2) : s.lgtStop n = ((s.lgtStep n).setLgtState n 3).finish B.LGT .ok := by
  simp only [Dev.lgtStop, h]

end

/-- A write of STOP to LGT_CMD (R390). -/
theorem Dev.writeReg_lgtStop (s : Dev) (src : Src) (n : Fin 16) {w : Word} (hop : w.toNat % 4 = 1) :
    s.writeReg src B.LGT (O.LGT_CMD n.val) w = s.lgtStop n.val := by
  have place : ∀ n : Fin 16, (regFind B.LGT (O.LGT_CMD n.val)).isSome ∧
      O.LGT_CMD n.val ∉ [O.BLK_CTRL, O.BLK_FREEZE, O.EVT_FORCE, O.ECC_FLIP_LO] ∧ (O.LGT_CMD n.val - 0x100) / 0x20 = n.val ∧
      ¬ O.LGT_CMD n.val < 0x100 ∧ ¬ 0x300 ≤ O.LGT_CMD n.val ∧ O.LGT_CMD n.val ≠ O.LGT_CFG n.val ∧
      O.LGT_CMD n.val ≠ O.LGT_PROD n.val := by decide
  obtain ⟨found, own, index, notBelow, notBeyond, notCfg, notProd⟩ := place n
  rw [s.writeReg_own src w (k := .lgt) rfl found own]
  show s.writeLGT _ w = _
  simp [Dev.writeLGT, index, notBelow, notBeyond, notCfg, notProd, hop]

/-- The consumer index after STOP in ERROR. -/
theorem completes_lgtStop_error {s : State} {src : RegSrc} {n : Fin 16} {data : Word}
    (hw : s.dev.writes src B.LGT (O.LGT_CMD n.val) (withField data 0 2 1)) (hst : s.dev.lgtState n.val = 2) :
    Completes (.lgtStop src n data) s fun d => d.lgtCons n.val = (s.dev.lgtCons n.val + 1) % s.dev.lgtRing n.val % 2 ^ 12 := by
  have place : ∀ n : Fin 16, O.LGT_CMD n.val < blockBytes ∧ (F.LGT_STAT_CONS n.val).off < blockBytes ∧
      (F.LGT_STAT_CONS n.val).off ≠ O.EVT_STATUS ∧ (F.LGT_STAT_CONS n.val).off ≠ O.BLK_STATUS := by decide
  obtain ⟨cmd, inBlock, notEvent, notStatus⟩ := place n
  have becomes := becomes_command (exec_lgtStop src n data s) cmd hw
  rw [Dev.writeReg_lgtStop _ _ _ (mod_four_withField 1 (by decide)), Dev.lgtStop_error _ _ hst] at becomes
  refine becomes.completes ?_
  rw [Dev.lgtCons, settle_fld _ _ _ inBlock notEvent (.inl (by decide)), Dev.okReply_fld, Dev.fld_finish_ne _ _ _ notStatus, ← Dev.lgtCons,
    Dev.lgtCons_setLgtState, Dev.lgtCons_lgtStep]

/-- A device in Moored whose channel 0 is in ERROR at entry 4,095 of a ring of 8,192, a size that LGT_CFG reserves (R390). -/
def wideRing : State :=
  { dev := ((({ clk := { mainPower := true, phase := .done } } : Dev).setFld B.LH F.LH_MODE_MODE Mode.moored.code).setFld B.LGT
      (F.LGT_CFG_RING_LOG2 0) 13).setReg B.LGT (O.LGT_STAT 0) 0x2FFF }

/-- Refutes O28: it asks that STOP in ERROR take the consumer index to the next entry of whatever ring LGT_CFG names, and with a RING_LOG2
above 12, which a write does not store but the statement does not exclude, the entry after 4,095 fits no CONS field: CONS becomes 0. -/
theorem not_lighters : ¬ Obligations.Lighters := by
  intro h
  have carried : wideRing.dev.writes .host B.LGT (O.LGT_CMD 0) (withField 0 0 2 1) := by unfold Dev.writes; decide
  have failed : wideRing.dev.lgtState 0 = 2 := by decide
  have next : (wideRing.dev.lgtCons 0 + 1) % wideRing.dev.lgtRing 0 = 4096 := by decide
  obtain ⟨commands, -⟩ := h
  obtain ⟨-, hstop, -⟩ := commands wideRing .host 0 0
  obtain ⟨-, -, herror⟩ := hstop carried
  obtain ⟨d, hd, -, hclaimed, -⟩ := herror failed
  obtain ⟨d', hd', hcons⟩ := completes_lgtStop_error (n := 0) carried failed
  have same : d = d' := congrArg State.dev (Host.Outcome.next.inj (hd.symm.trans hd'))
  have wraps : d.lgtCons 0 = 0 := by
    rw [same]
    exact hcons.trans (congrArg (· % 2 ^ 12) next)
  exact absurd (wraps.symm.trans (hclaimed.trans next)) (by decide)

end Sys2Proof.Machine
end

