-- ==== Sys2Proof/Proofs/AccessGates.lean ====
section
/-! SUPPORT. Proofs/AccessGates.lean: every command that is a register access goes through the one gate of the register window: what the
gate answers where it is not open (R435, R456, R463, R465, R557). -/

namespace Sys2Proof.Machine

variable (s : Dev)

/-- A write to a gated block: an answer of zeros, and no effect (R456). -/
theorem Dev.command_zero (r : RegSrc) (b o : Nat) (w : Word) (ho : o < blockBytes) (hg : s.gateOf r.src b o true = .zero) :
    s.command r b o w = { s with reply := some ⟨.ok, 0⟩ } := by
  simp [Dev.command, Dev.accessWrite, Dev.busWrite, window_blk _ _ ho, window_off _ _ ho, hg]

/-- A read in a mode in which nothing answers. -/
theorem Dev.readCommand_silent (r : RegSrc) (peek : Bool) (b o : Nat) (ho : o < blockBytes) (hg : s.gateOf r.src b o false = .silent) :
    s.readCommand r peek b o = { s with reply := none } := by
  simp [Dev.readCommand, Dev.accessRead, Dev.busRead, window_blk _ _ ho, window_off _ _ ho, hg]

/-- A read of a gated block: zeros, and no effect (R456). -/
theorem Dev.readCommand_zero (r : RegSrc) (peek : Bool) (b o : Nat) (ho : o < blockBytes) (hg : s.gateOf r.src b o false = .zero) :
    s.readCommand r peek b o = { s with reply := some ⟨.ok, 0⟩ } := by
  simp [Dev.readCommand, Dev.accessRead, Dev.busRead, window_blk _ _ ho, window_off _ _ ho, hg]

/-- A read without the right to it: DENIED, and no effect. -/
theorem Dev.readCommand_denied (r : RegSrc) (peek : Bool) (b o : Nat) (ho : o < blockBytes) (hg : s.gateOf r.src b o false = .open_)
    (hd : s.readDenied r.src b o = true) : s.readCommand r peek b o = { s with reply := some ⟨.denied, 0⟩ } := by
  simp [Dev.readCommand, Dev.accessRead, Dev.busRead, window_blk _ _ ho, window_off _ _ ho, hg, hd]

/-- A read in a mode that refuses it: DENIED where the sender has not the right to it either, else STATE, and no effect (R557). -/
theorem Dev.readCommand_refused (r : RegSrc) (peek : Bool) (b o : Nat) (ho : o < blockBytes) (hg : s.gateOf r.src b o false = .refused) :
    s.readCommand r peek b o = { s with reply := some ⟨if s.readDenied r.src b o then .denied else .state, 0⟩ } := by
  cases hd : s.readDenied r.src b o <;>
    simp [Dev.readCommand, Dev.accessRead, Dev.busRead, window_blk _ _ ho, window_off _ _ ho, hg, hd]

/-- A command that is a write of a register does no more than that write: every constructor by the equation of its `exec`. -/
theorem exec_access_write {c : Instr} {src : RegSrc} {blk off : Nat} {v : Word} (m : State)
    (h : c.access = some (src, blk, off, some v)) : exec c m = run (fun s => s.command src blk off v) m := by
  cases c
  case registerWrite => cases h; exact exec_registerWrite_command _ _ _ m
  all_goals
    simp only [Instr.access, Option.some.injEq, Prod.mk.injEq, reduceCtorEq, and_false] at h
  all_goals
    obtain ⟨rfl, rfl, rfl, rfl⟩ := h
    rfl

/-- A command that is a read of a register does no more than that read. -/
theorem exec_access_read {c : Instr} {src : RegSrc} {blk off : Nat} (m : State) (h : c.access = some (src, blk, off, none)) :
    ∃ peek, exec c m = run (fun s => s.readCommand src peek blk off) m := by
  cases c <;> cases h <;> exact ⟨_, rfl⟩

/-- Settles O49: the register accesses among the commands are writes and reads of the window, and the window's gate is the first thing
that either meets. -/
theorem accessGates : Obligations.AccessGates := by
  unfold Obligations.AccessGates Becomes
  intro c s src blk off w h ho
  cases w with
  | some v =>
    rw [exec_access_write s h]
    refine ⟨fun hg => ?_, fun hg => ?_, ?_, nofun, fun hg hd _ => ?_⟩
    · simp only [run, s.dev.command_silent _ _ _ _ ho hg]
    · simp only [run, s.dev.command_zero _ _ _ _ ho hg]
    · rintro _ ⟨rfl⟩ hd (hg | hg)
      · simp only [run, s.dev.command_denied _ _ _ _ ho hg hd]
      · simp only [run, s.dev.command_refused _ _ _ _ ho hg, hd, if_true]
    · simp only [run, s.dev.command_refused _ _ _ _ ho hg, hd v rfl, Bool.false_eq_true, if_false]
  | none =>
    obtain ⟨peek, hc⟩ := exec_access_read s h
    rw [hc]
    refine ⟨fun hg => ?_, fun hg => ?_, nofun, fun _ hd => ?_, fun hg _ hd => ?_⟩
    · simp only [run, s.dev.readCommand_silent _ _ _ _ ho hg]
    · simp only [run, s.dev.readCommand_zero _ _ _ _ ho hg]
    · rintro (hg | hg)
      · simp only [run, s.dev.readCommand_denied _ _ _ _ ho hg hd]
      · simp only [run, s.dev.readCommand_refused _ _ _ _ ho hg, hd, if_true]
    · simp only [run, s.dev.readCommand_refused _ _ _ _ ho hg, hd rfl, Bool.false_eq_true, if_false]

end Sys2Proof.Machine
end

