-- ==== Sys2Proof/Proofs/PeekReads.lean ====
section
/-! SUPPORT. Proofs/PeekReads.lean: a peek read of the wire shows the live register and leaves the device alone (R505, R506). -/

namespace Sys2Proof.Machine

/-- A peek read outside SEC acts on nothing. -/
theorem Dev.readActs_peek (s : Dev) (src : Src) {blk : Nat} (off : Nat) (hb : blk ≠ B.SEC) : s.readActs src blk off true = s := by
  rw [Dev.readActs, if_neg hb, if_pos rfl]

/-- Apart from the low word of the result queue, which it does not latch, the test engine shows a peek what it shows a read. -/
theorem Dev.bistView_peek (s : Dev) {off : Nat} (h : off ≠ O.BIST_RES_HI) (peek : Bool) : s.bistView off peek = s.bistView off false := by
  simp [Dev.bistView, h]

/-- A register that is no high word of a latched pair shows a peek what it shows a read. -/
theorem Dev.showReg_peek (s : Dev) (src : Src) {blk off : Nat} (hl : s.liveHigh blk off = none) (ho : off ≠ O.BIST_RES_HI) :
    s.showReg src blk off true = s.showReg src blk off false := by
  simp only [Dev.showReg, Dev.viewOf, hl, s.bistView_peek ho, if_true, Bool.false_eq_true, if_false]

/-- A peek read outside SEC returns what the register shows. -/
theorem Dev.readReg_peek (s : Dev) (src : Src) {blk : Nat} (off : Nat) (hb : blk ≠ B.SEC) :
    s.readReg src blk off true = (s.showReg src blk off true, s) := by
  simp [Dev.readReg, hb, s.readActs_peek src off hb]

/-- A peek read of the wire that is carried out outside SEC: the word the register shows, and no effect. -/
theorem becomes_peek {c : Instr} {s : State} {blk off : Nat} (hc : exec c s = run (fun d => d.readCommand .wire true blk off) s)
    (ho : off < blockBytes) (hb : blk ≠ B.SEC) (hr : s.dev.reads .wire blk off) :
    Becomes c s (s.dev.okReply (s.dev.showReg .wire blk off true)) := by
  obtain ⟨hg, hd⟩ := hr
  have hread := s.dev.readReg_peek RegSrc.wire.src off hb
  rw [Becomes, hc, run, Dev.readCommand_open _ _ _ _ _ ho hg hd, show RegSrc.wire.peeks true = true from rfl, hread]
  rfl

/-- A peek read of the mailbox moves no pointer and counts no refusal (R448, R505). -/
theorem Dev.mboxRead_peek (s : Dev) (i : Nat) : (s.mboxRead i true).2 = s ∧ (s.mboxRead i true).1 = (s.mboxRead i false).1 := by
  by_cases h : 8192 ≤ (s.iface i).ptr <;> simp [Dev.mboxRead, h]

/-- A peek read of the wire at the mailbox that is carried out. -/
theorem becomes_mboxPeek {s : State} (hr : s.dev.reads .wire B.SEC O.SEC_MBOX_DATA) :
    Becomes (.secMboxData .wire none true) s (s.dev.okReply (s.dev.mboxRead 2 true).1) := by
  obtain ⟨hg, hd⟩ := hr
  have hread : s.dev.readReg RegSrc.wire.src B.SEC O.SEC_MBOX_DATA true = ((s.dev.mboxRead 2 true).1, s.dev) := by
    rw [Dev.readReg, Dev.readActs, if_pos rfl, if_pos rfl]
    exact Prod.ext rfl (s.dev.mboxRead_peek 2).1
  rw [Becomes, exec_secMboxData, run, Dev.mboxAccess, Dev.readCommand_open _ _ _ _ _ (by decide) hg hd,
    show RegSrc.wire.peeks true = true from rfl, hread]
  rfl

/-- Settles O54: the registers that a read latches, clears or takes from, one by one, at the wire's peek read; then the mailbox. -/
theorem peekReads : Obligations.PeekReads := by
  refine ⟨fun c s blk off ha hc hr => ?_, fun s hr => ⟨becomes_mboxPeek hr, (s.dev.mboxRead_peek 2).2⟩⟩
  have latchless (hl : s.dev.liveHigh blk off = none) (ho : off ≠ O.BIST_RES_HI) (hb : blk ≠ B.SEC) (hlt : off < blockBytes)
      (hx : exec c s = run (fun d => d.readCommand .wire true blk off) s) :
      Becomes c s (s.dev.okReply (s.dev.showReg .wire blk off true)) ∧
        s.dev.showReg .wire blk off true = s.dev.showReg .wire blk off false :=
    ⟨becomes_peek hx hlt hb hr, Dev.showReg_peek _ _ hl ho⟩
  rcases hc with rfl | rfl | rfl | rfl | rfl | rfl | rfl | rfl | rfl | rfl | rfl | rfl | rfl <;> cases ha <;>
    exact latchless rfl (by decide) (by decide) (by decide) rfl

end Sys2Proof.Machine
end

