-- ==== Sys2Proof/Proofs/WholeMachine.lean ====
section
/-! SUPPORT. Proofs/WholeMachine.lean: a step of the machine: the command at the front of the queue, or a cycle of the time clock. -/

namespace Sys2Proof.Machine

/-- Settles O55: every command is a change of the device, and a step runs the one at the front. -/
theorem stepRunsFront : Obligations.StepRunsFront := by
  refine fun c rest d => ⟨rfl, ?_⟩
  obtain ⟨f, hf⟩ := exec_is_run c ⟨d, rest⟩
  exact ⟨_, hf⟩

variable (s : Dev)

/-- Registers, memory and the clocks' state are as they were. -/
structure Dev.KeepsClocks (s d : Dev) : Prop where
  clk : d.clk = s.clk
  regs : d.regs = s.regs
  mem : d.mem = s.mem

/-- The timers that a halt stops are those of the network. -/
theorem Dev.freezeTimers_keepsClocks : s.KeepsClocks s.freezeTimers := by
  unfold Dev.freezeTimers
  split <;> exact ⟨rfl, rfl, rfl⟩

/-- With main power a cycle advances the time clock, moves timers that no register shows, and counts at the watchdog at a microsecond. -/
theorem Dev.timeCycle_powered (hp : s.clk.mainPower = true) :
    ∃ d, Dev.KeepsClocks { s with clk := { s.clk with time := s.clk.time + 1 } } d ∧
      s.timeCycle = if d.clk.time % 500 = 0 then d.wdgMicro else d := by
  refine ⟨_, ?_, if_neg (by simp [hp])⟩
  obtain ⟨hclk, hregs, hmem⟩ := Dev.freezeTimers_keepsClocks { s with clk := { s.clk with time := s.clk.time + 1 } }
  split <;> split <;> exact ⟨hclk, hregs, hmem⟩

/-- The mode is a register's. -/
theorem Dev.mode_of_regs {s d : Dev} (h : d.regs = s.regs) : d.mode = s.mode := by
  simp only [Dev.mode, Dev.fld, Dev.reg, h]

/-- Settles O56: without main power nothing passes; with it the watchdog counts at a multiple of 500 cycles only. -/
theorem idleStep : Obligations.IdleStep := by
  refine fun d => ⟨rfl, fun hp => ?_, fun hp ht => ?_⟩
  · have stands : d.timeCycle = d := by simp [Dev.timeCycle, hp]
    exact congrArg (fun x : Dev => Host.Outcome.next (State.mk x.settle [])) stands
  · obtain ⟨x, ⟨hclk, hregs, hmem⟩, hcycle⟩ := d.timeCycle_powered hp
    rw [if_neg (by rw [hclk]; exact ht)] at hcycle
    rw [hcycle]
    exact ⟨by rw [hclk], by simp only [Dev.fld, Dev.reg, hregs], hmem, Dev.mode_of_regs hregs⟩

end Sys2Proof.Machine
end

