-- ==== Sys2Proof/Proofs/ImagePipeline.lean ====
section
/-! SUPPORT. Proofs/ImagePipeline.lean: the commands of CFG_CMD by the state of the pipeline, how an image ends, and the end of a
signature's verification (R397, R412 to R416, R421). -/

namespace Sys2Proof.Machine

/-- A device in which the ports, the clocks, the mode and the ergs are as they were drives every line from the same source. -/
theorem Dev.sources_of_same {s d : Dev} (h : ∀ p, (s.port p).txSrc = s.portSource p) (hports : d.ports = s.ports) (hclk : d.clk = s.clk)
    (hmode : d.mode = s.mode) (hergs : d.ergs = s.ergs) (p : Nat) : (d.port p).txSrc = d.portSource p := by
  have hport : d.port p = s.port p := by rw [Dev.port, hports, Dev.port]
  rw [hport, h p]
  exact Dev.portSource_congr (by rw [hport]) (by rw [hport]) hclk.symm hmode.symm hergs.symm

/-- Where a command leaves the ports, the clocks, the mode, the ergs and the tide alone, its end and the settling of the outputs leave every
port and the tide as they were. -/
theorem still_settle_finish {s d : Dev} (h : ∀ p, (s.port p).txSrc = s.portSource p) (b : Nat) (hports : d.ports = s.ports)
    (hclk : d.clk = s.clk) (hmode : d.mode = s.mode) (hergs : d.ergs = s.ergs) (htide : d.tide = s.tide) (hb : b ≠ B.LH) (st : Status) :
    (∀ p, (d.finish b st).okReply.settle.port p = s.port p) ∧ (d.finish b st).okReply.settle.tide = s.tide := by
  have keeps {β : Type} {f : Dev → β} (hf : ∀ (s : Dev) v, f (s.setReg b O.BLK_STATUS v) = f s) : f (d.finish b st) = f d :=
    d.finish_keeps b st hf
  have sources := Dev.sources_of_same (d := (d.finish b st).okReply) h ((keeps (f := Dev.ports) fun _ _ => rfl).trans hports)
    ((keeps (f := Dev.clk) fun _ _ => rfl).trans hclk) ((d.mode_finish hb st).trans hmode) ((keeps (f := Dev.ergs) fun _ _ => rfl).trans hergs)
  refine ⟨fun p => settle_port_of_source ?_ ?_, ?_⟩
  · exact congrArg (fun m => Map.get (fun _ => {}) m p) ((keeps (f := Dev.ports) fun _ _ => rfl).trans hports)
  · rw [← sources p]
    exact congrArg (fun m => (Map.get (fun _ => ({} : PortSt)) m p).txSrc) ((keeps (f := Dev.ports) fun _ _ => rfl).trans hports).symm
  · rw [settle_tide_of_sources _ sources]
    exact (keeps (f := Dev.tide) fun _ _ => rfl).trans htide

section
variable (s : Dev)

@[simp] theorem Dev.finish_cfg (b : Nat) (st : Status) : (s.finish b st).cfg = s.cfg := s.finish_keeps b st (p := Dev.cfg) fun _ _ => rfl
@[simp] theorem Dev.okReply_cfg (v : Word) : (s.okReply v).cfg = s.cfg := rfl

/-- The command of CFG is over and its answer given: what it left of the image pipeline stands. -/
theorem cfg_settle_finish (b : Nat) (st : Status) : (s.finish b st).okReply.settle.cfg = s.cfg := by
  rw [settle_cfg, Dev.okReply_cfg, Dev.finish_cfg]

theorem pipe_settle_finish (st : Status) : (s.finish B.CFG st).okReply.settle.pipe = s.pipe :=
  fld_settle_finish s B.CFG st (by decide) (by decide) (by decide) (.inl (by decide))

/-- The slots an image has claimed are freed one by one. -/
theorem Dev.dropSlots_keeps {β : Type} {p : Dev → β} (h : ∀ (s : Dev) e k, p (s.freeSlot e k true) = p s) (n : Nat) :
    p (s.dropSlots n) = p s := by
  unfold Dev.dropSlots Dev.overSlots
  split
  · rfl
  · refine Dev.forN_keeps _ (fun s e => Dev.forN_keeps _ (fun s k => ?_) 8) 32
    split
    · exact h s e k
    · rfl

@[simp] theorem Dev.dropSlots_mem (n : Nat) : (s.dropSlots n).mem = s.mem := s.dropSlots_keeps (p := Dev.mem) (fun _ _ _ => rfl) n

@[simp] theorem Dev.dropCommit_mem (slot : Nat) : (s.dropCommit slot).mem = s.mem := by
  unfold Dev.dropCommit
  split
  · rfl
  · exact s.nvWrite_mem _ _

/-! ### How an image ends -/

@[simp] theorem Dev.cfgResult_mem (st : Status) (stage record : Nat) : (s.cfgResult st stage record).mem = s.mem := by
  rw [Dev.cfgResult, Dev.setReg_mem]
@[simp] theorem Dev.cfgIdle_mem (st : Status) : (s.cfgIdle st).mem = s.mem := rfl

theorem Dev.reg_cfgIdle (st : Status) {o : Nat} (ho : blockBytes * B.CFG + o ≠ blockBytes * B.CFG + O.CFG_PIPE) :
    (s.cfgIdle st).reg B.CFG o = s.reg B.CFG o := Dev.reg_setReg_ne _ _ _ _ _ _ ho

/-- The pipeline holds no image and waits for a header. -/
structure Dev.PipeIdle (s : Dev) : Prop where
  pipe : s.pipe = 0
  commit : s.cfg.commit = none
  buf : s.cfg.buf = []

theorem Dev.cfgIdle_pipeIdle (st : Status) : (s.cfgIdle st).PipeIdle := by
  refine ⟨?_, rfl, rfl⟩
  rw [Dev.cfgIdle, Dev.pipe, Dev.fld, show F.CFG_PIPE_STATE.off = O.CFG_PIPE from rfl, Dev.reg_setReg]
  rfl

theorem Dev.refuseImage_pipeIdle (st : Status) (stage record : Nat) : (s.refuseImage st stage record).PipeIdle := by
  obtain ⟨hpipe, hcommit, hbuf⟩ := ((s.dropSlots s.cfg.coming.handle).cfgResult st stage record).cfgIdle_pipeIdle st
  refine ⟨?_, by rwa [Dev.refuseImage, Dev.event_cfg], by rwa [Dev.refuseImage, Dev.event_cfg]⟩
  rw [Dev.refuseImage, Dev.pipe, Dev.event_fld _ _ _ _ _ (by decide) (by decide) (.inl (by decide)), ← Dev.pipe, hpipe]

@[simp] theorem Dev.refuseImage_mem (st : Status) (stage record : Nat) : (s.refuseImage st stage record).mem = s.mem := by
  rw [Dev.refuseImage, Dev.event_mem, Dev.cfgIdle_mem, Dev.cfgResult_mem, Dev.dropSlots_mem]

theorem Dev.reg_cfgResult (st : Status) (stage record : Nat) : (s.cfgResult st stage record).reg B.CFG O.CFG_RESULT =
    BitVec.ofNat 32 (st.code + 16 * stage + 256 * (record % 2 ^ 17) + 2 ^ 31) := by rw [Dev.cfgResult, Dev.reg_setReg]

/-- CFG_RESULT after an image was refused is the word recorded for it. -/
theorem Dev.refuseImage_result (st : Status) (stage record : Nat) : (s.refuseImage st stage record).reg B.CFG O.CFG_RESULT =
    BitVec.ofNat 32 (st.code + 16 * stage + 256 * (record % 2 ^ 17) + 2 ^ 31) := by
  rw [Dev.refuseImage, Dev.event_reg _ _ _ _ _ (by decide) (by decide) (.inl (by decide)), Dev.reg_cfgIdle _ _ (by decide),
    Dev.reg_cfgResult]

theorem Status.code_lt (st : Status) : st.code < 16 := by cases st <;> decide

theorem Dev.refuseImage_status (st : Status) (stage record : Nat) :
    (s.refuseImage st stage record).fld B.CFG F.CFG_RESULT_STATUS = st.code := by
  have hlt := st.code_lt
  rw [Dev.fld, show F.CFG_RESULT_STATUS.off = O.CFG_RESULT from rfl, s.refuseImage_result st stage record, BitVec.toNat_ofNat]
  simp only [nfield, F.CFG_RESULT_STATUS]
  omega

theorem Dev.refuseImage_valid (st : Status) (stage record : Nat) (h : stage < 16) :
    (s.refuseImage st stage record).flag B.CFG F.CFG_RESULT_VALID = true := by
  have hlt := st.code_lt
  have hv : (s.refuseImage st stage record).fld B.CFG F.CFG_RESULT_VALID = 1 := by
    rw [Dev.fld, show F.CFG_RESULT_VALID.off = O.CFG_RESULT from rfl, s.refuseImage_result st stage record, BitVec.toNat_ofNat]
    simp only [nfield, F.CFG_RESULT_VALID]
    omega
  rw [Dev.flag, hv]
  rfl

theorem Dev.loadStage_lt : s.loadStage < 16 := by
  unfold Dev.loadStage
  split <;> try split
  all_goals decide

end

/-! ### The commands of CFG_CMD -/

section
variable {s : State} {src : RegSrc} {data : Word} {c : Instr}

theorem becomes_cfgCmd {w : Word} (hc : exec c s = run (fun d => d.command src B.CFG O.CFG_CMD w) s)
    (hw : s.dev.writes src B.CFG O.CFG_CMD w) : Becomes c s (s.dev.cfgCmd w).okReply := by
  have becomes := becomes_command hc (by decide) hw
  rw [Dev.writeReg_own _ _ _ (k := .cfg) rfl (by decide) (by decide)] at becomes
  exact becomes

theorem becomes_cfgAbort (hw : s.dev.writes src B.CFG O.CFG_CMD (withField data 0 3 1)) :
    Becomes (.cfgAbort src data) s s.dev.cfgAbort.okReply := by
  have becomes := becomes_cfgCmd (exec_cfgAbort src data s) hw
  rwa [Dev.cfgCmd, nfield_withField _ _ _ _ (by decide)] at becomes

theorem becomes_cfgActivate (hw : s.dev.writes src B.CFG O.CFG_CMD (withField data 0 3 2)) :
    Becomes (.cfgActivate src data) s s.dev.cfgActivate.okReply := by
  have becomes := becomes_cfgCmd (exec_cfgActivate src data s) hw
  rwa [Dev.cfgCmd, nfield_withField _ _ _ _ (by decide)] at becomes

theorem becomes_withdraw (hw : s.dev.writes src B.CFG O.CFG_CMD (withField data 0 3 3)) :
    Becomes (.withdraw src data) s s.dev.cfgWithdraw.okReply := by
  have becomes := becomes_cfgCmd (exec_withdraw src data s) hw
  rwa [Dev.cfgCmd, nfield_withField _ _ _ _ (by decide)] at becomes

theorem becomes_program (hw : s.dev.writes src B.CFG O.CFG_CMD (withField data 0 3 4)) :
    Becomes (.program src data) s (s.dev.cfgProgram (nfield (withField data 0 3 4).toNat 3 2)).okReply := by
  have becomes := becomes_cfgCmd (exec_program src data s) hw
  rwa [Dev.cfgCmd, nfield_withField _ _ _ _ (by decide)] at becomes

end

section
variable (s : Dev)

theorem Dev.cfgAbort_idle (h : s.pipe = 0) : s.cfgAbort = s.finish B.CFG .ok := by simp only [Dev.cfgAbort, h]
theorem Dev.cfgAbort_loading (h : s.pipe = 1) : s.cfgAbort = (s.refuseImage .state s.loadStage).finish B.CFG .ok := by
  simp only [Dev.cfgAbort, h]

/-- An ABORT while a slot is programmed takes the slot's commit word away; the pipeline is idle whether or not a stream had begun (R416,
R422). -/
theorem Dev.cfgAbort_programming (h : s.pipe = 5) : ∃ d : Dev, d.PipeIdle ∧ d.mem = s.mem ∧ s.cfgAbort = d.finish B.CFG .ok := by
  simp only [Dev.cfgAbort, h]
  split
  · exact ⟨_, Dev.refuseImage_pipeIdle _ _ _ _, (Dev.refuseImage_mem _ _ _ _).trans (s.dropCommit_mem _), rfl⟩
  · exact ⟨_, Dev.cfgIdle_pipeIdle _ _, s.dropCommit_mem _, rfl⟩

theorem Dev.cfgAbort_late (h : s.pipe = 2 ∨ s.pipe = 3 ∨ s.pipe = 4) : s.cfgAbort = s.finish B.CFG .state := by
  rcases h with h | h | h <;> simp only [Dev.cfgAbort, h]

/-- The device in which the next stream is bound for a slot (R421). -/
def Dev.programBegun (s : Dev) (slot : Nat) : Dev :=
  { s with cfg := { s.cfg with slot, written := [], bytesIn := 0 } }.setFld B.CFG F.CFG_PIPE_STATE 5

theorem Dev.cfgProgram_begins {slot : Nat} (hs : slot = 1 ∨ slot = 2) (hp : s.pipe = 0) (hm : s.mode = .moored ∨ s.mode = .underway) :
    s.cfgProgram slot = (s.programBegun slot).finish B.CFG .ok := by
  rcases hs with rfl | rfl <;> rcases hm with hm | hm <;> simp [Dev.cfgProgram, hp, hm, Dev.programBegun]

theorem Dev.cfgProgram_refused {slot : Nat} (hs : slot = 1 ∨ slot = 2) (h : s.pipe ≠ 0 ∨ (s.mode ≠ .moored ∧ s.mode ≠ .underway)) :
    s.cfgProgram slot = s.finish B.CFG .state := by
  rcases hs with rfl | rfl <;> rcases h with h | ⟨h1, h2⟩ <;> simp [Dev.cfgProgram, *]

theorem Dev.programBegun_pipe (slot : Nat) : (s.programBegun slot).pipe = 5 := Dev.fld_setFld _ _ _ _ (by decide)

/-- What is left idle stays so through the end of the command. -/
theorem idle_settle_finish {d : Dev} (h : d.PipeIdle) (st : Status) : (d.finish B.CFG st).okReply.settle.PipeIdle := by
  obtain ⟨hpipe, hcommit, hbuf⟩ := h
  exact ⟨(pipe_settle_finish _ _).trans hpipe, by rw [cfg_settle_finish, hcommit], by rw [cfg_settle_finish, hbuf]⟩

/-! ### The end of a verification -/

/-- A tree record that has not come waits. -/
theorem Dev.unitTree_empty (type target count : Nat) (good : List (List Byte) → Bool) (keep : Dev → List (List Byte) → Dev)
    (h : s.cfg.buf = []) : s.unitTree type target count good keep = .waits := by
  simp [Dev.unitTree, h]

/-- While the root record is awaited and nothing is in the buffer the pipeline stands. -/
theorem Dev.cfgRun_awaitsRoot (h : s.cfg.buf = []) (he : s.cfg.expect = .digest) (n : Nat) : (s.cfgRun n).1 = s := by
  cases n with
  | zero => rfl
  | succ n =>
    have waits : s.unit = .waits := by
      simp only [Dev.unit, he]
      exact s.unitTree_empty _ _ _ _ _ h
    simp [Dev.cfgRun, waits, Dev.unitEnd]

/-- The device in which the verification is over, and the root record of the tree comes next (R397). -/
def Dev.sigDone (s : Dev) : Dev := { s with cfg := { s.cfg with sigWait := none, expect := .digest } }

theorem Dev.signatureVerified_bad {g : List Byte} (hg : s.cfg.sigWait = some g) (hb : s.booting = false) (hq : s.mode ≠ .quarantine)
    (hbad : s.sigGood g = false) : s.signatureVerified = s.sigDone.imageFails .auth 3 0 := by
  simp [Dev.signatureVerified, hg, hb, hq, Dev.sigOutcome, hbad, Dev.unitEnd, Dev.sigDone]

theorem Dev.signatureVerified_good {g : List Byte} {h : Nat} (hg : s.cfg.sigWait = some g) (hb : s.booting = false)
    (hq : s.mode ≠ .quarantine) (hgood : s.sigGood g = true) (hp : s.programming = false) (hh : s.freeHandle = some h)
    (hn : s.cfg.coming.recordCount ≠ 0) (hbuf : s.cfg.buf = []) :
    s.signatureVerified = { s.sigDone with cfg := { s.sigDone.cfg with coming := { s.cfg.coming with handle := h } } } := by
  simp only [Dev.signatureVerified, hg, hb, Dev.sigOutcome, hgood, hp, hh, hn, Dev.unitEnd, Bool.false_or, beq_iff_eq, if_neg hq, Bool.not_true,
    Bool.false_eq_true, if_false, decide_false, Bool.false_and, if_true]
  exact Dev.cfgRun_awaitsRoot { s.sigDone with cfg := { s.sigDone.cfg with coming := { s.cfg.coming with handle := h } } } hbuf rfl _

end

/-- Settles O31: the stream's bytes by what streamData makes of them; each command of CFG_CMD by the state of the pipeline; a signature by
whether it is good, with an empty buffer that leaves the tree's root awaited. -/
theorem imagePipeline : Obligations.ImagePipeline := by
  refine ⟨fun s src data => ⟨?stream, fun hw => ?abort, fun hw => ?activate, fun hw => ?withdraw, fun hw hslot => ?program⟩,
    fun s g hg hb hq => ⟨fun hbad => ?bad, fun h hgood hp hh hn hbuf => ?good⟩⟩
  case stream =>
    intro aperture bytes last st d hh hd
    rw [Becomes, exec_streamData, run, Dev.streamCommand, if_neg (by simp [hh]), hd]
  case abort =>
    refine ⟨fun h => ?_, fun h => ?_, fun h => ?_, fun h => ?_⟩
    · exact s.dev.cfgAbort_idle h ▸ becomes_cfgAbort hw
    · have becomes := becomes_cfgAbort hw
      rw [Dev.cfgAbort_loading _ h] at becomes
      obtain ⟨hpipe, hcommit, hbuf⟩ := idle_settle_finish (s.dev.refuseImage_pipeIdle .state s.dev.loadStage 0) .ok
      refine becomes.completes ⟨⟨hpipe, hcommit, hbuf, lastStatus_settle_finish _ _ _⟩, ?_, ?_, ?_⟩
      · rw [fld_settle_finish _ _ _ (by decide) (by decide) (by decide) (.inl (by decide)), Dev.refuseImage_status]
      · rw [Dev.flag, fld_settle_finish _ _ _ (by decide) (by decide) (by decide) (.inl (by decide)), ← Dev.flag,
          Dev.refuseImage_valid _ _ _ _ s.dev.loadStage_lt]
      · rw [mem_settle_finish, Dev.refuseImage_mem]
    · have becomes := becomes_cfgAbort hw
      obtain ⟨d, hd, hmem, habort⟩ := s.dev.cfgAbort_programming h
      rw [habort] at becomes
      obtain ⟨hpipe, hcommit, hbuf⟩ := idle_settle_finish hd .ok
      exact becomes.completes ⟨⟨hpipe, hcommit, hbuf, lastStatus_settle_finish _ _ _⟩, (mem_settle_finish _ _ _).trans hmem⟩
    · exact s.dev.cfgAbort_late h ▸ becomes_cfgAbort hw
  case activate =>
    refine ⟨fun h st d hd => ?_, fun h => ?_⟩ <;> have becomes := becomes_cfgActivate hw
    · rwa [Dev.cfgActivate, if_neg (not_not_intro h), hd] at becomes
    · rwa [Dev.cfgActivate, if_pos h] at becomes
  case withdraw =>
    refine ⟨fun h => ?_, fun h => ?_⟩ <;> have becomes := becomes_withdraw hw
    · rw [Dev.cfgWithdraw, if_neg (not_not_intro h)] at becomes
      obtain ⟨hpipe, hcommit, hbuf⟩ := idle_settle_finish (s.dev.refuseImage_pipeIdle .state 8 0) .ok
      refine becomes.completes ⟨⟨hpipe, hcommit, hbuf, lastStatus_settle_finish _ _ _⟩, ?_, ?_⟩
      · rw [fld_settle_finish _ _ _ (by decide) (by decide) (by decide) (.inl (by decide)), Dev.refuseImage_status]
      · rw [mem_settle_finish, Dev.refuseImage_mem]
    · rwa [Dev.cfgWithdraw, if_pos h] at becomes
  case program =>
    have becomes := becomes_program hw
    refine ⟨fun hp hm => ?_, fun h => ?_⟩
    · rw [Dev.cfgProgram_begins _ hslot hp hm] at becomes
      refine becomes.completes ⟨?_, ?_, ?_, ?_, ?_, lastStatus_settle_finish _ _ _⟩
      · rw [pipe_settle_finish _, Dev.programBegun_pipe]
      · rw [cfg_settle_finish]; rfl
      · rw [cfg_settle_finish]; rfl
      · rw [settle_ergs]; exact Dev.finish_keeps _ _ _ (p := Dev.ergs) fun _ _ => rfl
      · rw [mem_settle_finish]; rfl
    · rwa [Dev.cfgProgram_refused _ hslot h] at becomes
  case bad =>
    have becomes := becomes_live (exec_signatureVerified s) hq
    rwa [Dev.signatureVerified_bad _ hg hb hq hbad] at becomes
  case good =>
    have becomes := becomes_live (exec_signatureVerified s) hq
    rw [Dev.signatureVerified_good _ hg hb hq hgood hp hh hn hbuf] at becomes
    exact becomes.completes ⟨by rw [settle_cfg], by rw [settle_cfg]; rfl, by rw [settle_cfg]; rfl, by rw [settle_mem]; rfl⟩

/-- Settles O53: PROGRAM stores the slot and the state of the pipeline; no line's source hangs on either. -/
theorem programSlot : Obligations.ProgramSlot := by
  intro s src data ho
  dsimp only
  intro hw hslot hp
  have becomes := becomes_program hw
  refine ⟨fun hm => ?_, fun h1 h2 => ?_⟩
  · rw [Dev.cfgProgram_begins _ hslot hp hm] at becomes
    obtain ⟨hports, htide⟩ := still_settle_finish ho.ports B.CFG (d := s.dev.programBegun _) rfl rfl (Dev.mode_setFld _ (by decide) (by decide) _)
      rfl rfl (by decide) .ok
    refine becomes.completes ⟨?_, ?_, ?_, lastStatus_settle_finish _ _ _, ?_, ?_, htide, hports, ?_, ?_⟩
    · rw [Dev.programming, cfg_settle_finish]
      rcases hslot with h | h <;> simp [Dev.programBegun, h]
    · rw [cfg_settle_finish]; rfl
    · rw [pipe_settle_finish, Dev.programBegun_pipe]
    · rw [settle_fab]; exact Dev.finish_keeps _ _ _ (p := Dev.fab) fun _ _ => rfl
    · rw [settle_ergs]; exact Dev.finish_keeps _ _ _ (p := Dev.ergs) fun _ _ => rfl
    · rw [cfg_settle_finish]; rfl
    · rw [mem_settle_finish]; rfl
  · rw [Dev.cfgProgram_refused _ hslot (.inr ⟨h1, h2⟩)] at becomes
    obtain ⟨hports, htide⟩ := still_settle_finish ho.ports B.CFG (d := s.dev) rfl rfl rfl rfl rfl (by decide) .state
    refine becomes.completes ⟨cfg_settle_finish _ _ _, (pipe_settle_finish _ _).trans hp, lastStatus_settle_finish _ _ _, ?_, ?_, htide, hports,
      ?_, mem_settle_finish _ _ _⟩
    · rw [settle_fab]; exact Dev.finish_keeps _ _ _ (p := Dev.fab) fun _ _ => rfl
    · rw [settle_ergs]; exact Dev.finish_keeps _ _ _ (p := Dev.ergs) fun _ _ => rfl
    · rw [cfg_settle_finish]

end Sys2Proof.Machine
end

