-- ==== Sys2Proof/Proofs/ResetRequests.lean ====
section
/-! SUPPORT. Proofs/ResetRequests.lean: a reset source in a mode that lets it act: what is latched, and that nothing but the island's
record, the devices' self-refresh and the phase changes where no DMC has a write to retire (R459, R461). -/

namespace Sys2Proof.Machine

variable (s : Dev) (cause : Nat)

/-- A fold whose every step leaves the state alone leaves it alone. -/
theorem foldl_still {α β : Type} {f : β → α → β} {b : β} {l : List α} (h : ∀ a ∈ l, f b a = b) : l.foldl f b = b := by
  induction l with
  | nil => rfl
  | cons a l ih => rw [List.foldl_cons, h a List.mem_cons_self, ih fun x hx => h x (List.mem_cons_of_mem _ hx)]

/-- With no write accepted there is nothing to retire (R461). -/
theorem Dev.retireAll_writesDone (h : s.writesDone) : s.retireAll = s := by
  refine foldl_still fun k hk => ?_
  obtain ⟨hgrant, hpieces⟩ := h k (List.mem_range.1 hk)
  have taken : s.dmcTake k = s := by rw [Dev.dmcTake, hgrant]
  have noneLeft : (s.dmc k).pieces.filter (·.write) = [] := List.filter_eq_nil_iff.2 fun p hp => by simp [hpieces p hp]
  dsimp only
  rw [taken, noneLeft]
  exact ite_self s

theorem Dev.writesDone_of {s d : Dev} (hnet : d.net = s.net) (hext : d.ext = s.ext) (h : s.writesDone) : d.writesDone := by
  intro k hk
  simpa only [Dev.arb, Dev.dmc, hnet, hext] using h k hk

/-! ### What the latch records -/

/-- A reset source is recorded in LH_RST_CAUSE and LH_RST_CNT, and nowhere else. -/
theorem Dev.resetLatch_keeps {β : Type} {p : Dev → β} (hcause : ∀ (s : Dev) w, p (s.setReg B.LH O.LH_RST_CAUSE w) = p s)
    (hcnt : ∀ (s : Dev) w, p (s.setReg B.LH O.LH_RST_CNT w) = p s) : p (s.resetLatch cause) = p s := by
  unfold Dev.resetLatch Dev.countCause
  split
  · exact (hcnt _ _).trans ((hcnt _ _).trans ((hcause _ _).trans (hcause _ _)))
  · exact (hcnt _ _).trans ((hcause _ _).trans (hcause _ _))

/-- The counters leave LH_RST_CAUSE alone. -/
theorem Dev.fld_countCause_cause {f : Fld} (hf : f.off = O.LH_RST_CAUSE) : (s.countCause cause).fld B.LH f = s.fld B.LH f := by
  unfold Dev.countCause
  split
  · exact s.fld_setFld_ne _ _ _ _ _ (by rw [hf]; decide)
  · rfl

theorem Dev.resetLatch_last (h : cause < 16) : (s.resetLatch cause).fld B.LH F.LH_RST_CAUSE_LAST = cause := by
  rw [Dev.resetLatch, Dev.fld_countCause_cause _ _ rfl, Dev.count, Dev.addFld, Dev.fld_setFld_ne _ _ _ _ _ _ (by decide),
    Dev.fld_setFld_field _ _ F.LH_RST_CAUSE_ALL F.LH_RST_CAUSE_LAST _ (by decide) rfl (.inl (by decide)),
    Dev.fld_setFld _ _ _ _ (by decide)]
  exact Nat.mod_eq_of_lt h

theorem Dev.resetLatch_all (h : cause ≤ 6) : (s.resetLatch cause).fld B.LH F.LH_RST_CAUSE_ALL = 2 ^ (cause - 1) := by
  rw [Dev.resetLatch, Dev.fld_countCause_cause _ _ rfl, Dev.count, Dev.addFld, Dev.fld_setFld_ne _ _ _ _ _ _ (by decide),
    Dev.fld_setFld _ _ _ _ (by decide)]
  exact Nat.mod_eq_of_lt (Nat.pow_lt_pow_right (by decide) (show cause - 1 < 6 by omega))

theorem Dev.resetLatch_total (h : cause ≠ 4) :
    (s.resetLatch cause).fld B.LH F.LH_RST_CNT_TOTAL = satAdd 16 (s.fld B.LH F.LH_RST_CNT_TOTAL) 1 := by
  rw [Dev.resetLatch, Dev.countCause, if_neg h, Dev.fld_count _ _ _ (by decide), Dev.fld_setFld_ne _ _ _ _ _ _ (by decide),
    Dev.fld_setFld_ne _ _ _ _ _ _ (by decide)]
  rfl

theorem Dev.resetLatch_wdg :
    (s.resetLatch 4).fld B.LH F.LH_RST_CNT_WDG = satAdd F.LH_RST_CNT_WDG.w (s.fld B.LH F.LH_RST_CNT_WDG) 1 := by
  rw [Dev.resetLatch, Dev.countCause, if_pos rfl, Dev.fld_count _ _ _ (by decide),
    Dev.fld_count_field _ _ F.LH_RST_CNT_TOTAL F.LH_RST_CNT_WDG (by decide) rfl (.inl (by decide)), Dev.fld_setFld_ne _ _ _ _ _ _ (by decide),
    Dev.fld_setFld_ne _ _ _ _ _ _ (by decide)]

/-! ### A reset that begins -/

/-- The device in which a reset with a cause has begun: steps 1 and 2 of R461. -/
def Dev.resetBegun (s : Dev) (cause : Nat) : Dev :=
  { (s.resetLatch cause).selfRefresh with clk := { s.clk with phase := .selfRefresh } }

theorem Dev.selfRefresh_keeps {β : Type} {p : Dev → β} (h : ∀ (s : Dev) k x, p (s.setDmc k x) = p s) : p s.selfRefresh = p s := by
  refine Dev.forN_keeps (p := p) s (fun s k => ?_) 8
  split
  · rfl
  · exact h _ _ _

theorem Dev.resetRequest_begins {cause : Nat} (hr : s.resetting = false) (ha : s.resetAllowed cause = true) (hw : s.writesDone) :
    s.resetRequest cause = s.resetBegun cause := by
  have done : (s.resetLatch cause).writesDone := by
    have hnet : (s.resetLatch cause).net = s.net := s.resetLatch_keeps cause (p := Dev.net) (fun _ _ => rfl) fun _ _ => rfl
    have hext : (s.resetLatch cause).ext = s.ext := s.resetLatch_keeps cause (p := Dev.ext) (fun _ _ => rfl) fun _ _ => rfl
    intro k hk
    simpa only [Dev.arb, Dev.dmc, hnet, hext] using hw k hk
  have hclk : (s.resetLatch cause).selfRefresh.clk = s.clk :=
    (Dev.selfRefresh_keeps _ (p := Dev.clk) fun _ _ _ => rfl).trans
      (s.resetLatch_keeps cause (p := Dev.clk) (fun _ _ => rfl) fun _ _ => rfl)
  rw [Dev.resetRequest, if_neg (by simp [hr]), if_neg (by simp [ha]), Dev.retireAll_writesDone _ done]
  dsimp only
  rw [hclk, Dev.resetBegun]

/-- Beside the record, the controllers' self-refresh and the phase a reset that begins leaves everything alone. -/
theorem Dev.resetBegun_keeps {β : Type} {p : Dev → β} (hcause : ∀ (s : Dev) w, p (s.setReg B.LH O.LH_RST_CAUSE w) = p s)
    (hcnt : ∀ (s : Dev) w, p (s.setReg B.LH O.LH_RST_CNT w) = p s) (hdmc : ∀ (s : Dev) k x, p (s.setDmc k x) = p s)
    (hclk : ∀ (s : Dev) x, p { s with clk := x } = p s) : p (s.resetBegun cause) = p s :=
  (hclk (s.resetLatch cause).selfRefresh { s.clk with phase := .selfRefresh }).trans
    ((Dev.selfRefresh_keeps _ (p := p) hdmc).trans (s.resetLatch_keeps cause (p := p) hcause hcnt))

/-- The registers after a reset has begun are those that the latch left. -/
theorem Dev.resetBegun_fld (b : Nat) (f : Fld) : (s.resetBegun cause).fld b f = (s.resetLatch cause).fld b f := by
  have hregs := (s.resetLatch cause).selfRefresh_keeps (p := Dev.regs) fun _ _ _ => rfl
  simp only [Dev.fld, Dev.reg, Dev.resetBegun, hregs]

@[simp] theorem Dev.resetBegun_mem : (s.resetBegun cause).mem = s.mem :=
  s.resetBegun_keeps cause (p := Dev.mem) (fun _ _ => rfl) (fun _ _ => rfl) (fun _ _ _ => rfl) fun _ _ => rfl
@[simp] theorem Dev.resetBegun_phase : (s.resetBegun cause).clk.phase = .selfRefresh := rfl
@[simp] theorem Dev.resetBegun_reply : (s.resetBegun cause).reply = s.reply :=
  s.resetBegun_keeps cause (p := Dev.reply) (fun _ _ => rfl) (fun _ _ => rfl) (fun _ _ _ => rfl) fun _ _ => rfl

/-- A field outside LH_RST_CAUSE and LH_RST_CNT. -/
theorem Dev.resetBegun_fld_ne (b : Nat) (f : Fld) (hcause : blockBytes * b + f.off ≠ blockBytes * B.LH + O.LH_RST_CAUSE)
    (hcnt : blockBytes * b + f.off ≠ blockBytes * B.LH + O.LH_RST_CNT) : (s.resetBegun cause).fld b f = s.fld b f :=
  s.resetBegun_keeps cause (p := fun d : Dev => d.fld b f) (fun d _ => d.fld_setReg_ne _ _ _ _ _ hcause)
    (fun d _ => d.fld_setReg_ne _ _ _ _ _ hcnt) (fun _ _ _ => rfl) fun _ _ => rfl

@[simp] theorem Dev.resetBegun_mode : (s.resetBegun cause).mode = s.mode :=
  congrArg Mode.ofCode (s.resetBegun_fld_ne cause _ _ (by decide) (by decide))

end Sys2Proof.Machine
end

