-- ==== Sys2Proof/Proofs/Watchdog.lean ====
section
/-! SUPPORT. Proofs/Watchdog.lean: the watchdog is fed, loaded and enabled, warns and expires (R467, R468). -/

namespace Sys2Proof.Machine

section
variable (s : Dev)

/-! ### Feeding -/

/-- The device in which no feed sequence has begun. -/
def Dev.feedOver (s : Dev) : Dev := { s with clk := { s.clk with feedAt := none } }

/-- A sequence is completed in time. -/
theorem Dev.wdgFeed_completes {t : Nat} (he : s.flag B.WDG F.WDG_CFG_EN = true) (hf : s.clk.feedAt = some t) (ht : s.clk.time ≤ t + 500) :
    s.wdgFeed 0x5AA5 = s.feedOver.wdgReload := by
  simp [Dev.wdgFeed, he, hf, ht, Dev.feedOver]

/-- A sequence begins. -/
theorem Dev.wdgFeed_begins (he : s.flag B.WDG F.WDG_CFG_EN = true) (hf : s.clk.feedAt = none) :
    s.wdgFeed 0xA55A = { s with clk := { s.clk with feedAt := some s.clk.time } } := by
  simp [Dev.wdgFeed, he, hf]

/-- The device in which a broken sequence has been counted (R468). -/
def Dev.badFeed (s : Dev) : Dev := (s.feedOver.count B.WDG F.WDG_BAD_FEED_BAD_FEED_CNT).event B.WDG 1

theorem Dev.fld_badFeed {f : Fld} (hf : f.off < blockBytes) (ho : f.off ≠ O.WDG_BAD_FEED) (he : f.off ≠ O.EVT_STATUS) (b : Nat) (hd : b ≠ B.DBG) :
    s.badFeed.fld b f = s.fld b f := by
  have apart : blockBytes * b + f.off ≠ blockBytes * B.WDG + O.WDG_BAD_FEED := fun h => ho (window_inj hf (by decide) h).2
  rw [Dev.badFeed, Dev.event_fld _ _ _ _ _ hf he (.inl hd), Dev.count, Dev.addFld, Dev.fld_setFld_ne _ _ _ _ _ _ apart]
  rfl

theorem Dev.badFeed_cnt : s.badFeed.fld B.WDG F.WDG_BAD_FEED_BAD_FEED_CNT = satAdd 16 (s.fld B.WDG F.WDG_BAD_FEED_BAD_FEED_CNT) 1 := by
  rw [Dev.badFeed, Dev.event_fld _ _ _ _ _ (by decide) (by decide) (.inl (by decide)), Dev.fld_count _ _ _ (by decide)]
  rfl

/-- A broken sequence is counted; under STRICT the watchdog expires (R468). -/
theorem Dev.wdgFeed_broken {w : Word} (he : s.flag B.WDG F.WDG_CFG_EN = true) (hf : s.clk.feedAt = none) (hw : w ≠ 0xA55A) :
    s.wdgFeed w = if s.flag B.WDG F.WDG_CFG_STRICT then s.badFeed.wdgExpire else s.badFeed := by
  have hn : w.toNat ≠ 0xA55A := fun h => hw (BitVec.eq_of_toNat_eq h)
  have strict : s.badFeed.flag B.WDG F.WDG_CFG_STRICT = s.flag B.WDG F.WDG_CFG_STRICT := by
    rw [Dev.flag, s.fld_badFeed (by decide) (by decide) (by decide) _ (by decide), Dev.flag]
  rw [← strict, Dev.wdgFeed, if_neg (by simp [he]), hf]
  exact (if_neg (by simp)).trans (if_neg (by simpa using hn))

/-! ### Expiry -/

theorem Dev.wdgExpire_begins (hr : s.resetting = false) (ha : s.resetAllowed 4 = true) (hw : s.writesDone) :
    s.wdgExpire = (s.setFld B.WDG F.WDG_COUNT_COUNT 0).resetBegun 4 := by
  refine Dev.resetRequest_begins _ hr ?_ hw
  rwa [Dev.resetAllowed, Dev.mode_setFld _ (by decide) (by decide), ← Dev.resetAllowed]

theorem Dev.wdgExpired_count : ((s.setFld B.WDG F.WDG_COUNT_COUNT 0).resetBegun 4).fld B.WDG F.WDG_COUNT_COUNT = 0 := by
  rw [Dev.resetBegun_fld_ne _ _ _ _ (by decide) (by decide), Dev.fld_setFld _ _ _ _ (by decide)]
  rfl

theorem Dev.resetBegun_last {cause : Nat} (h : cause < 16) : (s.resetBegun cause).fld B.LH F.LH_RST_CAUSE_LAST = cause := by
  rw [Dev.resetBegun_fld, s.resetLatch_last cause h]

/-- The modes in which the watchdog counts let its reset act (R465, R467). -/
theorem Dev.resetAllowed_of_wdgCounts (h : s.wdgCounts = true) : s.resetAllowed 4 = true := by
  unfold Dev.wdgCounts at h
  unfold Dev.resetAllowed
  cases hm : s.mode <;> simp_all

/-! ### Loading and enabling -/

theorem Dev.wdgLoad_field {w : Word} (hl : s.locked B.WDG = false) (hb : s.fieldBad B.WDG O.WDG_LOAD w.toNat 0 = false) :
    (s.storeReg B.WDG O.WDG_LOAD w).fld B.WDG F.WDG_LOAD_LOAD = nfield w.toNat 0 24 := by
  have stored := s.fld_storeReg (blk := B.WDG) (off := O.WDG_LOAD) (w := w) (f := ⟨0, 24, .rwl, 0xF4240⟩) rfl (by decide) (by decide)
  rwa [s.fieldStored_take (s.takesField_rwl rfl hl rfl) hb, Option.getD_some] at stored

theorem Dev.wdgEn_flag {w : Word} (h : nfield w.toNat 0 1 = 1) : (s.storeReg B.WDG O.WDG_CFG w).flag B.WDG F.WDG_CFG_EN = true := by
  have stored := s.fld_storeReg (blk := B.WDG) (off := O.WDG_CFG) (w := w) (f := ⟨0, 1, .w1s, 0x0⟩) rfl (by decide) (by decide)
  rw [s.fieldStored_w1s rfl, Option.getD_some, h] at stored
  refine bne_iff_ne.2 fun h0 => absurd (Nat.or_eq_zero_iff.1 (stored.symm.trans h0)).2 (by decide)

end

section
variable {s : State} {src : RegSrc} {data : Word}

theorem becomes_wdg {c : Instr} {off : Nat} {w : Word} (hc : exec c s = run (fun d => d.command src B.WDG off w) s) (ho : off < blockBytes)
    (hr : (regFind B.WDG off).isSome) (hn : off ∉ [O.BLK_CTRL, O.BLK_FREEZE, O.EVT_FORCE, O.ECC_FLIP_LO])
    (hw : s.dev.writes src B.WDG off w) : Becomes c s (s.dev.writeWDG off w).okReply := by
  have becomes := becomes_command hc ho hw
  rw [Dev.writeReg_own _ _ _ (k := .wdg) rfl hr hn] at becomes
  exact becomes

theorem becomes_wdgFeed (hw : s.dev.writes src B.WDG O.WDG_FEED data) : Becomes (.wdgFeed src data) s (s.dev.wdgFeed data).okReply :=
  becomes_wdg (exec_wdgFeed src data s) (by decide) (by decide) (by decide) hw

end

/-- A field that no port's event and no breakpoint touches, once a command is answered and the outputs have settled. -/
theorem fld_settle_okReply (d : Dev) (b : Nat) (f : Fld) (hf : f.off < blockBytes) (he : f.off ≠ O.EVT_STATUS)
    (hd : b ≠ B.DBG ∨ f.off ≠ O.DBG_STAT) : d.okReply.settle.fld b f = d.fld b f := by
  rw [settle_fld _ _ _ hf he hd, Dev.okReply_fld]

/-- Settles O40: each word of a feed by what has gone before; the loads and the enable as stores; an expiry as a reset that begins. -/
theorem watchdog : Obligations.Watchdog := by
  intro s src data
  dsimp only
  refine ⟨fun hw he => ⟨?completes, ?begins, ?broken, ?strict⟩, ?enables, ?loads, ?warns, ?expires⟩
  case completes =>
    rintro t hf ht rfl
    have becomes := becomes_wdgFeed hw
    rw [Dev.wdgFeed_completes _ he hf ht] at becomes
    refine becomes.completes ⟨?_, by rw [settle_clk]; rfl, ?_, mem_settle_okReply _⟩
    · rw [fld_settle_okReply _ _ _ (by decide) (by decide) (.inr (by decide)), Dev.wdgReload, Dev.fld_setFld _ _ _ _ (by decide)]
      exact Nat.mod_eq_of_lt (s.dev.fld_lt _ _)
    · rw [fld_settle_okReply _ _ _ (by decide) (by decide) (.inr (by decide)), Dev.wdgReload, Dev.fld_setFld_ne _ _ _ _ _ _ (by decide)]
      rfl
  case begins =>
    rintro hf rfl
    have becomes := becomes_wdgFeed hw
    rw [Dev.wdgFeed_begins _ he hf] at becomes
    refine becomes.completes ⟨by rw [settle_clk]; rfl, ?_, mem_settle_okReply _⟩
    rw [fld_settle_okReply _ _ _ (by decide) (by decide) (.inr (by decide))]
    rfl
  case broken =>
    intro hf hne hstrict
    have becomes := becomes_wdgFeed hw
    rw [Dev.wdgFeed_broken _ he hf hne, hstrict, if_neg Bool.false_ne_true] at becomes
    refine becomes.completes ⟨?_, ?_, ?_⟩
    · rw [fld_settle_okReply _ _ _ (by decide) (by decide) (.inr (by decide)), Dev.fld_badFeed _ (by decide) (by decide) (by decide) _ (by decide)]
    · rw [mem_settle_okReply, Dev.badFeed, Dev.event_mem]
      rfl
    · rw [fld_settle_okReply _ _ _ (by decide) (by decide) (.inr (by decide)), Dev.badFeed_cnt]
  case strict =>
    intro hf hne hstrict hr ha hdone
    have becomes := becomes_wdgFeed hw
    have core := (s.dev.feedOver.count B.WDG F.WDG_BAD_FEED_BAD_FEED_CNT).event_core B.WDG 1
    have mode : s.dev.badFeed.mode = s.dev.mode :=
      congrArg Mode.ofCode (s.dev.fld_badFeed (f := F.LH_MODE_MODE) (by decide) (by decide) (by decide) _ (by decide))
    rw [Dev.wdgFeed_broken _ he hf hne, hstrict, if_pos rfl, Dev.wdgExpire_begins _ ?resetting ?allowed ?done] at becomes
    case resetting =>
      have phase : s.dev.badFeed.clk.phase = s.dev.clk.phase := congrArg (·.clk.phase) core
      rwa [Dev.resetting, phase]
    case allowed => rwa [Dev.resetAllowed, mode]
    case done => exact Dev.writesDone_of (congrArg (·.net) core) (congrArg (·.ext) core) hdone
    refine becomes.completes ⟨by rw [settle_clk]; rfl, ?_, ?_⟩
    · rw [fld_settle_okReply _ _ _ (by decide) (by decide) (.inl (by decide)), Dev.resetBegun_last _ (by decide)]
    · rw [fld_settle_okReply _ _ _ (by decide) (by decide) (.inr (by decide)), Dev.wdgExpired_count]
  case enables =>
    intro hw hl
    have becomes : Becomes (.wdgEn src data) s (s.dev.storeReg B.WDG O.WDG_CFG (withField data 0 1 1)).okReply :=
      becomes_wdg (exec_wdgEn src data s) (by decide) (by decide) (by decide) hw
    refine becomes.completes ⟨?_, ?_⟩
    · rw [Dev.flag, fld_settle_okReply _ _ _ (by decide) (by decide) (.inr (by decide)), ← Dev.flag]
      exact s.dev.wdgEn_flag (nfield_withField _ _ _ _ (by decide))
    · rw [mem_settle_okReply, Dev.storeReg_mem]
  case loads =>
    intro hw hl hb
    have becomes := becomes_wdg (exec_wdgLoad src data s) (by decide) (by decide) (by decide) hw
    have reloads : s.dev.writeWDG O.WDG_LOAD data = (s.dev.storeReg B.WDG O.WDG_LOAD data).wdgReload := by
      simp [Dev.writeWDG, hl, hb, show O.WDG_LOAD ≠ O.WDG_FEED by decide]
    rw [reloads] at becomes
    refine becomes.completes ⟨?_, ?_, ?_⟩
    · rw [fld_settle_okReply _ _ _ (by decide) (by decide) (.inl (by decide)), Dev.wdgReload, Dev.fld_setFld_ne _ _ _ _ _ _ (by decide),
        Dev.wdgLoad_field _ hl hb]
      rfl
    · rw [fld_settle_okReply _ _ _ (by decide) (by decide) (.inr (by decide)), Dev.wdgReload, Dev.fld_setFld _ _ _ _ (by decide),
        Dev.wdgLoad_field _ hl hb]
      exact Nat.mod_eq_of_lt (nfield_lt _ _ _)
    · rw [mem_settle_okReply]
      exact Dev.storeReg_mem _ _ _ _
  case warns =>
    intro hc hn hle
    have warned : s.dev.wdgWarn = (s.dev.setFld B.WDG F.WDG_COUNT_COUNT (s.dev.fld B.WDG F.WDG_WARN_WARN)).event B.WDG 0 := by
      simp only [Dev.wdgWarn, hc]
      exact if_neg (by simpa using ⟨hn, hle⟩)
    rw [← warned]
    exact exec_warn s
  case expires =>
    intro hc hr hdone
    have expired : s.dev.watchdog = (s.dev.setFld B.WDG F.WDG_COUNT_COUNT 0).resetBegun 4 := by
      rw [Dev.watchdog, if_pos hc, Dev.wdgExpire_begins _ hr (s.dev.resetAllowed_of_wdgCounts hc) hdone]
    have becomes : Becomes .watchdog s ((s.dev.setFld B.WDG F.WDG_COUNT_COUNT 0).resetBegun 4) := expired ▸ exec_watchdog s
    refine becomes.completes ⟨?_, by rw [settle_clk]; rfl, ?_, ?_, ?_⟩
    · rw [settle_fld _ _ _ (by decide) (by decide) (.inr (by decide)), Dev.wdgExpired_count]
    · rw [settle_fld _ _ _ (by decide) (by decide) (.inl (by decide)), Dev.resetBegun_last _ (by decide)]
    · rw [settle_mode, Dev.resetBegun_mode, Dev.mode_setFld _ (by decide) (by decide)]
    · rw [settle_fld _ _ _ (by decide) (by decide) (.inl (by decide)), Dev.resetBegun_fld, Dev.resetLatch_wdg,
        Dev.fld_setFld_ne _ _ _ _ _ _ (by decide)]

end Sys2Proof.Machine
end

