-- ==== Sys2Proof/Proofs/Resets.lean ====
section
/-! SUPPORT. Proofs/Resets.lean: what every reset keeps of the island, the hold and non-volatile memory; power, the pin, the key of
LH_RST_CMD, entry and release (R449, R459 to R461, R466, R472). -/

namespace Sys2Proof.Machine

variable (s : Dev)

/-! ### The parts of a reset -/

/-- A word of the hold is stored in a spare or in the array. -/
theorem Dev.putHoldWord_keeps {β : Type} {p : Dev → β} (hspare : ∀ (s : Dev) x, p { s with hold := { s.hold with spares := x } } = p s)
    (harray : ∀ (s : Dev) wi x, p (s.putArrayWord wi x) = p s) (b row w : Nat) (x : Spare) : p (s.putHoldWord b row w x) = p s := by
  unfold Dev.putHoldWord
  split
  · exact hspare _ _
  · exact harray _ _ _

/-- What rows cut short leave alone (R182): beside the free choices they change words of the hold. -/
theorem Dev.cutRows_keeps {β : Type} {p : Dev → β} (hfree : ∀ (s : Dev) n, p { s with free := n } = p s)
    (hput : ∀ (s : Dev) b row w x, p (s.putHoldWord b row w x) = p s) : p s.cutRows = p s := by
  refine foldl_keeps _ _ (fun s e _ => foldl_keeps _ _ (fun s c _ => ?_) s) s
  unfold Dev.cutLower
  split
  · rfl
  · refine foldl_keeps _ _ (fun s w _ => ?_) s
    dsimp only
    split
    · exact (hput _ _ _ _ _).trans (hfree _ _)
    · exact hfree _ _

/-- No row command is under way where no bank differs from its reset. -/
theorem Dev.cutRows_idle (h : s.hold.banks = []) : s.cutRows = s := by rw [Dev.cutRows, h, Dev.each, List.foldl_nil]

theorem Dev.nvWrite_keeps {β : Type} {p : Dev → β} (o : Overlooks p fun _ => True) (hnv : ∀ (s : Dev) x, p { s with nv := x } = p s)
    (sec : Nat) (bytes : List Byte) : p (s.nvWrite sec bytes) = p s := by
  unfold Dev.nvWrite
  dsimp only
  split
  · rfl
  · split
    · exact (event_keeps o _ _ _ (.inl trivial)).trans (hnv _ _)
    · exact hnv _ _

/-- A reset takes the image pipeline away, and with a slot that is being programmed its commit word (R422). -/
theorem Dev.cfgReset_keeps {β : Type} {p : Dev → β} (o : Overlooks p fun _ => True) (hnv : ∀ (s : Dev) x, p { s with nv := x } = p s)
    (hcfg : ∀ (s : Dev) x, p { s with cfg := x } = p s) : p s.cfgReset = p s := by
  unfold Dev.cfgReset Dev.dropCommit
  dsimp only
  split
  · split
    · exact hcfg _ _
    · exact (hcfg _ _).trans (s.nvWrite_keeps o hnv _ _)
  · exact hcfg _ _

theorem Dev.cfgReset_idle (h : s.cfg.slot = 0) : s.cfgReset = { s with cfg := {} } := by simp [Dev.cfgReset, Dev.programming, h]

theorem Dev.resetRegs_keeps {β : Type} {p : Dev → β} (h : ∀ (s : Dev) x, p { s with regs := x } = p s) (moor : Bool) :
    p (s.resetRegs moor) = p s := by
  unfold Dev.resetRegs
  dsimp only
  split
  · exact (h _ _).trans ((h _ _).trans ((h _ _).trans ((h _ _).trans (h _ _))))
  · exact h _ _

/-- The island's registers live through a reset, and through the return of main power (R7). -/
theorem Dev.reg_resetRegs_lh {o : Nat} (ho : o < blockBytes) (moor : Bool) : (s.resetRegs moor).reg B.LH o = s.reg B.LH o := by
  have island : regDom (blockBytes * B.LH + o) = .isl := if_pos (window_blk _ _ ho)
  have cleared : Map.get regReset (Map.clear (fun o => regDom o == .full || (moor && regDom o == .moor)) s.regs) (blockBytes * B.LH + o) =
      s.reg B.LH o := by
    rw [Map.get_clear, island]
    cases moor <;> rfl
  have apart (f : Fld) (hf : f.off < blockBytes) : blockBytes * B.LH + o ≠ blockBytes * B.CLK + f.off := fun h =>
    absurd (window_inj ho hf h).1 (by decide)
  unfold Dev.resetRegs
  dsimp only
  split
  · rw [Dev.reg_setFld_ne _ _ _ _ _ _ (apart _ (by decide)), Dev.reg_setFld_ne _ _ _ _ _ _ (apart _ (by decide)),
      Dev.reg_setFld_ne _ _ _ _ _ _ (apart _ (by decide)), Dev.reg_setFld_ne _ _ _ _ _ _ (apart _ (by decide))]
    exact cleared
  · exact cleared

/-! ### Every reset -/

/-- A reset before it clears the rest of the state: rows cut, images and keys gone, registers at their reset values (R461, step 3). -/
def Dev.resetBase (s : Dev) : Dev := ((s.cutRows.cfgReset).eraseKeys.resetRegs false).setFld B.SEC F.SEC_LC_SCAN_OK 0

theorem Dev.resetBase_keeps {β : Type} {p : Dev → β} (hcut : p s.cutRows = p s) (hcfg : p s.cutRows.cfgReset = p s.cutRows)
    (herase : ∀ s : Dev, p s.eraseKeys = p s) (hregs : ∀ s : Dev, p ((s.resetRegs false).setFld B.SEC F.SEC_LC_SCAN_OK 0) = p s) :
    p s.resetBase = p s := (hregs _).trans ((herase _).trans (hcfg.trans hcut))

@[simp] theorem Dev.putHoldWord_clk (b row w : Nat) (x : Spare) : (s.putHoldWord b row w x).clk = s.clk :=
  s.putHoldWord_keeps (p := Dev.clk) (fun _ _ => rfl) (fun _ _ _ => rfl) b row w x

theorem clk_overlooks (ev : Nat → Prop) : Overlooks Dev.clk ev :=
  ⟨fun _ _ _ _ => rfl, fun _ _ => rfl, fun _ _ _ => rfl, fun _ _ => rfl, fun _ _ _ => rfl⟩

theorem Dev.resetBase_clk : s.resetBase.clk = s.clk :=
  s.resetBase_keeps (p := Dev.clk) (s.cutRows_keeps (fun _ _ => rfl) fun d => d.putHoldWord_clk)
    (Dev.cfgReset_keeps _ (clk_overlooks _) (fun _ _ => rfl) fun _ _ => rfl) (fun _ => rfl)
    fun d => d.resetRegs_keeps (p := Dev.clk) (fun _ _ => rfl) false

theorem Dev.resetBase_bond : s.resetBase.hold.bond = s.hold.bond := by
  have o : Overlooks (fun d : Dev => d.hold.bond) fun _ => True :=
    ⟨fun _ _ _ _ => rfl, fun _ _ => rfl, fun _ _ _ => rfl, fun _ _ => rfl, fun _ _ _ => rfl⟩
  refine s.resetBase_keeps (p := fun d => d.hold.bond) ?_ (Dev.cfgReset_keeps _ o (fun _ _ => rfl) fun _ _ => rfl) (fun _ => rfl)
    fun d => d.resetRegs_keeps (p := fun d => d.hold.bond) (fun _ _ => rfl) false
  exact s.cutRows_keeps (p := fun d => d.hold.bond) (fun _ _ => rfl)
    fun d => d.putHoldWord_keeps (p := fun d => d.hold.bond) (fun _ _ => rfl) fun _ _ _ => rfl

/-- Non-volatile memory stays where no slot is being programmed. -/
theorem Dev.resetBase_nv (h : s.cfg.slot = 0) : s.resetBase.nv = s.nv := by
  have slot : s.cutRows.cfg = s.cfg :=
    s.cutRows_keeps (p := Dev.cfg) (fun _ _ => rfl) fun d => d.putHoldWord_keeps (p := Dev.cfg) (fun _ _ => rfl) fun _ _ _ => rfl
  refine s.resetBase_keeps (p := Dev.nv) ?_ (by rw [Dev.cfgReset_idle _ (slot ▸ h)]) (fun _ => rfl)
    fun d => d.resetRegs_keeps (p := Dev.nv) (fun _ _ => rfl) false
  exact s.cutRows_keeps (p := Dev.nv) (fun _ _ => rfl) fun d => d.putHoldWord_keeps (p := Dev.nv) (fun _ _ => rfl) fun _ _ _ => rfl

/-- Memory stays where no row command is under way. -/
theorem Dev.resetBase_mem (h : s.hold.banks = []) : s.resetBase.mem = s.mem := by
  have o : Overlooks Dev.mem fun _ => True :=
    ⟨fun _ _ _ _ => rfl, fun _ _ => rfl, fun _ _ _ => rfl, fun _ _ => rfl, fun _ _ _ => rfl⟩
  exact s.resetBase_keeps (p := Dev.mem) (by rw [s.cutRows_idle h]) (Dev.cfgReset_keeps _ o (fun _ _ => rfl) fun _ _ => rfl) (fun _ => rfl)
    fun d => d.resetRegs_keeps (p := Dev.mem) (fun _ _ => rfl) false

/-- The island's registers stay. -/
theorem Dev.reg_resetBase_lh {o : Nat} (ho : o < blockBytes) (he : o ≠ O.EVT_STATUS) : s.resetBase.reg B.LH o = s.reg B.LH o := by
  refine s.resetBase_keeps (p := fun d => d.reg B.LH o) (s.cutRows_keeps (p := fun d => d.reg B.LH o) (fun _ _ => rfl)
      fun d => d.putHoldWord_keeps (p := fun d => d.reg B.LH o) (fun _ _ => rfl) fun _ _ _ => rfl)
    (Dev.cfgReset_keeps _ (reg_overlooks _ _ ho he (.inl (by decide)) _) (fun _ _ => rfl) fun _ _ => rfl) (fun _ => rfl) fun d => ?_
  rw [Dev.reg_setFld_ne _ _ _ _ _ _ fun h => absurd (window_inj ho (by decide) h).1 (by decide), d.reg_resetRegs_lh ho]

theorem Dev.resetAll_clk :
    s.resetAll.clk = { s.clk with applying := [], feedAt := none, slackFrom := .moored, criticalHeld := false } := by
  rw [← s.resetBase_clk]
  rfl

theorem Dev.resetAll_fld_lh {f : Fld} (hf : f.off < blockBytes) (he : f.off ≠ O.EVT_STATUS) : s.resetAll.fld B.LH f = s.fld B.LH f := by
  have hregs : s.resetAll.regs = s.resetBase.regs := rfl
  rw [Dev.fld, Dev.reg, hregs, ← Dev.reg, s.reg_resetBase_lh hf he, Dev.fld]

@[simp] theorem Dev.resetAll_mode : s.resetAll.mode = s.mode := congrArg Mode.ofCode (s.resetAll_fld_lh (by decide) (by decide))

/-- A mode change into a mode other than Underway leaves the tides alone (R510). -/
theorem Dev.setMode_tide {m : Mode} (h : m ≠ .underway) : (s.setMode m).tide = s.tide := by
  unfold Dev.setMode
  split
  · rfl
  · rw [Dev.event_tide]
    · rfl
    · rw [Dev.mode, Dev.fld_setFld _ _ _ _ (by decide), F.LH_MODE_MODE, Nat.mod_eq_of_lt m.code_lt, Mode.ofCode_code]
      exact h

/-- A mode change writes LH_MODE. -/
theorem Dev.setMode_fld_ne (m : Mode) (b : Nat) (f : Fld) (hf : f.off < blockBytes) (he : f.off ≠ O.EVT_STATUS)
    (hd : b ≠ B.DBG ∨ f.off ≠ O.DBG_STAT) (hm : b ≠ B.LH ∨ f.off ≠ O.LH_MODE) : (s.setMode m).fld b f = s.fld b f := by
  have apart : blockBytes * b + f.off ≠ blockBytes * B.LH + O.LH_MODE := fun h => by
    obtain ⟨hb, ho⟩ := window_inj hf (by decide) h
    exact hm.elim (· hb) (· ho)
  unfold Dev.setMode
  split
  · rfl
  · rw [Dev.event_fld _ _ _ _ _ hf he hd, Dev.fld_setFld_ne _ _ _ _ _ _ apart, Dev.fld_setFld_ne _ _ _ _ _ _ apart]

/-! ### Power on, entry and release -/

/-- The device that a reset under way leaves, before Reset is entered (R461, step 3). -/
def Dev.resetHeld (s : Dev) : Dev := { s.resetAll.showRef with clk := { s.resetAll.clk with phase := .held } }

theorem Dev.resetEntry_enters (h : s.clk.phase = .selfRefresh) : s.resetEntry = s.resetHeld.setMode .reset := by
  rw [Dev.resetEntry, if_neg (not_not_intro h)]
  rfl

theorem Dev.resetHeld_mode : s.resetHeld.mode = s.mode := by
  have shown : s.resetHeld.fld B.LH F.LH_MODE_MODE = s.resetAll.fld B.LH F.LH_MODE_MODE := Dev.fld_setFld_ne _ _ _ _ _ _ (by decide)
  rw [Dev.mode, shown, s.resetAll_fld_lh (by decide) (by decide), Dev.mode]

/-- The device once main power is up, before Reset is entered (R449, R472). -/
def Dev.powered (s : Dev) (refclk : Bool) : Dev :=
  { (s.resetLatch 1).resetAll with
    clk := { (s.resetLatch 1).resetAll.clk with mainPower := true, refXtal := !refclk, phase := .oscWait } }

theorem Dev.powerOn_powers {refclk : Bool} (hm : s.mode = .beacon) (hi : s.clk.island = true) (hp : s.clk.mainPower = false) :
    s.powerOn refclk = (s.powered refclk).showRef.setMode .reset := by
  simp only [Dev.powerOn, hm, hi, hp]
  rfl

theorem Dev.powered_fld_lh (refclk : Bool) {f : Fld} (hf : f.off < blockBytes) (he : f.off ≠ O.EVT_STATUS) :
    (s.powered refclk).showRef.fld B.LH f = (s.resetLatch 1).fld B.LH f := by
  rw [Dev.showRef, Dev.setFlag, Dev.fld_setFld_ne _ _ _ _ _ _ fun h => absurd (window_inj hf (by decide) h).1 (by decide),
    ← (s.resetLatch 1).resetAll_fld_lh hf he]
  rfl

theorem Dev.resetLatch_mode (cause : Nat) : (s.resetLatch cause).mode = s.mode :=
  congrArg Mode.ofCode (s.resetLatch_keeps cause (p := fun d => d.fld B.LH F.LH_MODE_MODE) (fun d _ => d.fld_setReg_ne _ _ _ _ _ (by decide))
    fun d _ => d.fld_setReg_ne _ _ _ _ _ (by decide))

/-! ### Main power is lost -/

theorem Dev.wearStore_clk : s.wearStore.clk = s.clk := by
  unfold Dev.wearStore
  dsimp only
  split
  · rfl
  · exact s.nvWrite_keeps (clk_overlooks _) (fun _ _ => rfl) _ _

/-- What the loss of main power leaves: the island as it stands, and nothing of what needs the supply (R472). -/
theorem Dev.mainPowerLoss_core (h : s.clk.mainPower = true) :
    ∃ d : Dev, s.mainPowerLoss true = d.setMode .beacon ∧ d.mem = [] ∧ d.fab = {} ∧ d.mce = {} ∧ d.clk.mainPower = false ∧
      d.clk.phase = .off ∧ d.clk.island = s.clk.island := by
  refine ⟨_, by rw [Dev.mainPowerLoss, if_neg (by simp [h]), if_pos rfl], rfl, rfl, rfl, rfl, rfl, ?_⟩
  have clk : (s.logPersist.wearStore.resetAll.resetRegs true).clk = s.logPersist.wearStore.resetAll.clk :=
    Dev.resetRegs_keeps _ (p := Dev.clk) (fun _ _ => rfl) true
  dsimp only
  rw [if_pos rfl, clk, Dev.resetAll_clk, Dev.wearStore_clk]
  rfl

/-! ### Sources that merge -/

/-- The device in which another source has merged into the reset under way: ALL takes it, LAST is the highest (R459, R461). -/
def Dev.causeMerged (s : Dev) (cause : Nat) : Dev :=
  ((s.setFld B.LH F.LH_RST_CAUSE_ALL (Nat.lor (s.fld B.LH F.LH_RST_CAUSE_ALL) (2 ^ (cause - 1)))).setFld B.LH F.LH_RST_CAUSE_LAST
    (min cause (s.fld B.LH F.LH_RST_CAUSE_LAST))).countCause cause

theorem Dev.resetRequest_merges {cause : Nat} (hr : s.resetting = true) (hall : nbit (s.fld B.LH F.LH_RST_CAUSE_ALL) (cause - 1) = false) :
    s.resetRequest cause = s.causeMerged cause := by
  simp [Dev.resetRequest, hr, Dev.resetMerge, hall, Dev.causeMerged]

theorem Dev.causeMerged_pin : nbit ((s.causeMerged 2).fld B.LH F.LH_RST_CAUSE_ALL) 1 = true := by
  have merged : (s.causeMerged 2).fld B.LH F.LH_RST_CAUSE_ALL = Nat.lor (s.fld B.LH F.LH_RST_CAUSE_ALL) 2 % 2 ^ 6 := by
    rw [Dev.causeMerged, Dev.fld_countCause_cause _ _ rfl,
      Dev.fld_setFld_field _ _ F.LH_RST_CAUSE_LAST F.LH_RST_CAUSE_ALL _ (by decide) rfl (.inr (by decide)), Dev.fld_setFld _ _ _ _ (by decide)]
    rfl
  have lor (n : Nat) : Nat.lor n 2 = n ||| 2 := rfl
  rw [merged, nbit_testBit, lor, Nat.testBit_mod_two_pow, Nat.testBit_or]
  simp [show Nat.testBit 2 1 = true from rfl]

theorem Dev.resetAllowed_hard {cause : Nat} (hc : cause = 2 ∨ cause = 3) (h : s.mode ≠ .beacon) : s.resetAllowed cause = true := by
  unfold Dev.resetAllowed
  rcases hc with rfl | rfl <;> cases hm : s.mode <;> simp_all

/-! ### LH_RST_CMD -/

@[simp] theorem Dev.okReply_mode (v : Word) : (s.okReply v).mode = s.mode := rfl

theorem Dev.mode_finish_lh (st : Status) : (s.finish B.LH st).mode = s.mode :=
  s.finish_keeps B.LH st (p := Dev.mode) fun d _ => congrArg Mode.ofCode (d.fld_setReg_ne _ _ _ _ _ (by decide))

/-- The key requests a reset with cause HOST once the command has ended (R460). -/
theorem Dev.hostReset_begins (hr : s.resetting = false) (ha : s.resetAllowed 5 = true) (hw : s.writesDone) :
    s.hostReset 0xA55A0F0F = (s.finish B.LH .ok).resetBegun 5 := by
  have key : ¬ (0xA55A0F0F : Word).toNat ≠ 0xA55A0F0F := by decide
  rw [Dev.hostReset, if_neg key, if_neg (by simp [ha])]
  refine Dev.resetRequest_begins _ ?_ ?_ (Dev.writesDone_of (s := s) ?_ ?_ hw)
  · exact (s.finish_keeps B.LH .ok (p := Dev.resetting) fun _ _ => rfl).trans hr
  · rwa [Dev.resetAllowed, Dev.mode_finish_lh]
  · exact s.finish_keeps B.LH .ok (p := Dev.net) fun _ _ => rfl
  · exact s.finish_keeps B.LH .ok (p := Dev.ext) fun _ _ => rfl

/-- The device whose straps are sampled, before Boot begins (R461, step 5). -/
def Dev.strapped (s : Dev) (x y csp : Nat) : Dev :=
  { (s.setFld B.HN F.HN_ID_DEVX x).setFld B.HN F.HN_ID_DEVY y with
    clk := { s.clk with phase := .plls, cspMode := csp % 4 }, bist := { s.bist with psFrom := s.clk.time } }

theorem Dev.resetRelease_boots {x y csp : Nat} (hp : s.clk.phase = .held) (hm : s.mode = .reset) :
    s.resetRelease x y csp = (s.strapped x y csp).setMode .boot := by
  simp only [Dev.resetRelease, hp, hm]
  rfl

theorem Dev.strapped_devX (x y csp : Nat) : (s.strapped x y csp).fld B.HN F.HN_ID_DEVX = x % 2 ^ F.HN_ID_DEVX.w :=
  (Dev.fld_setFld_field _ _ F.HN_ID_DEVY F.HN_ID_DEVX _ (by decide) rfl (.inl (by decide))).trans (Dev.fld_setFld _ _ _ _ (by decide))

theorem Dev.strapped_devY (x y csp : Nat) : (s.strapped x y csp).fld B.HN F.HN_ID_DEVY = y % 2 ^ F.HN_ID_DEVY.w :=
  Dev.fld_setFld _ _ _ _ (by decide)

/-- Settles O38: each step of a reset by the device that it leaves, and what the mode change that ends it does not touch. -/
theorem resets : Obligations.Resets := by
  intro s
  refine ⟨?powerOn, ?oscWait, ?powerLoss, ?pinBecomes, ?pin, ?merges, ?host, ?entry, ?release⟩
  case powerOn =>
    intro refclk hm hslot hbanks hi hp
    have becomes := exec_powerOn refclk s
    simp only [run, s.dev.powerOn_powers hm hi hp] at becomes
    have core := (s.dev.powered refclk).showRef.setMode_core .reset
    have mode : (s.dev.powered refclk).showRef.mode = .beacon := by
      rw [Dev.mode, Dev.powered_fld_lh _ _ (by decide) (by decide), ← Dev.mode, Dev.resetLatch_mode, hm]
    have kept {β : Type} (f : Dev → β) (hs : ∀ (s : Dev) b o w, f (s.setReg b o w) = f s) : f (s.dev.resetLatch 1) = f s.dev :=
      s.dev.resetLatch_keeps 1 (p := f) (fun _ _ => hs _ _ _ _) fun _ _ => hs _ _ _ _
    refine Becomes.completes (d := (s.dev.powered refclk).showRef.setMode .reset) becomes ⟨?_, ?_, ?_, ?_, ?_, ?_, ?_, ?_⟩
    · rw [settle_mode, Dev.mode_setMode]
    · rw [settle_clk]; exact congrArg (·.clk.mainPower) core
    · rw [settle_clk]; exact congrArg (·.clk.phase) core
    · rw [settle_clk]; exact congrArg (·.clk.refXtal) core
    · rw [settle_fld _ _ _ (by decide) (by decide) (.inl (by decide)),
        Dev.setMode_fld_ne _ _ _ _ (by decide) (by decide) (.inl (by decide)) (.inr (by decide)),
        Dev.powered_fld_lh _ _ (by decide) (by decide), Dev.resetLatch_last _ _ (by decide)]
    · rw [settle_fld _ _ _ (by decide) (by decide) (.inl (by decide)), Dev.prev_setMode _ (by rw [mode]; decide), mode]
    · rw [settle_nv]
      refine (congrArg (·.nv) core).trans ((Dev.resetBase_nv _ ?_).trans (kept Dev.nv fun _ _ _ _ => rfl))
      rw [kept Dev.cfg fun _ _ _ _ => rfl, hslot]
    · rw [settle_mem]
      refine (congrArg (·.mem) core).trans ((Dev.resetBase_mem _ ?_).trans (kept Dev.mem fun _ _ _ _ => rfl))
      rw [kept Dev.hold fun _ _ _ _ => rfl, hbanks]
  case oscWait =>
    intro hp ho
    have becomes : Becomes .oscWaitDone s { s.dev with clk := { s.dev.clk with phase := .held } } := by
      rw [Becomes, exec_oscWaitDone, run, Dev.oscWaitDone, if_pos hp]
    exact becomes.completes ⟨settle_clk _, settle_regs_of_sources ho.ports, settle_mem _⟩
  case powerLoss =>
    intro hp _
    obtain ⟨d, hd, hmem, hfab, hmce, hpower, hphase, hisland⟩ := s.dev.mainPowerLoss_core hp
    have becomes : Becomes (.mainPowerLoss true) s (d.setMode .beacon) := hd ▸ exec_mainPowerLoss true s
    have core := d.setMode_core .beacon
    refine becomes.completes ⟨?_, ?_, ?_, ?_, ?_, ?_, ?_⟩
    · rw [settle_mode, Dev.mode_setMode]
    · rw [settle_clk]; exact (congrArg (·.clk.mainPower) core).trans hpower
    · rw [settle_clk]; exact (congrArg (·.clk.phase) core).trans hphase
    · rw [settle_clk]; exact (congrArg (·.clk.island) core).trans hisland
    · rw [settle_mem]; exact (congrArg (·.mem) core).trans hmem
    · rw [settle_fab]; exact (congrArg (·.fab) core).trans hfab
    · rw [settle_mce]; exact (congrArg (·.mce.keys) core).trans (congrArg (·.keys) hmce)
  case pinBecomes =>
    intro hr hm
    rw [Becomes, exec_resetPin, run, Dev.resetRequest, if_neg (by simp [hr]), if_neg (by simp [s.dev.resetAllowed_hard (.inl rfl) hm])]
  case pin =>
    intro hr hm hw
    have becomes : Becomes .resetPin s (s.dev.resetBegun 2) :=
      s.dev.resetRequest_begins hr (s.dev.resetAllowed_hard (.inl rfl) hm) hw ▸ exec_resetPin s
    refine becomes.completes ⟨by rw [settle_clk]; rfl, by rw [settle_mode, Dev.resetBegun_mode], ?_, ?_, ?_, by rw [settle_mem, Dev.resetBegun_mem]⟩
    · rw [settle_fld _ _ _ (by decide) (by decide) (.inl (by decide)), Dev.resetBegun_last _ (by decide)]
    · rw [settle_fld _ _ _ (by decide) (by decide) (.inl (by decide)), Dev.resetBegun_fld, Dev.resetLatch_all _ _ (by decide)]
      rfl
    · rw [settle_fld _ _ _ (by decide) (by decide) (.inl (by decide)), Dev.resetBegun_fld, Dev.resetLatch_total _ _ (by decide)]
  case merges =>
    intro hp hall
    have resetting : s.dev.resetting = true := by rw [Dev.resetting, hp]
    have becomes : Becomes .resetPin s (s.dev.causeMerged 2) := s.dev.resetRequest_merges (cause := 2) resetting hall ▸ exec_resetPin s
    refine becomes.completes ⟨by rw [settle_clk]; rfl, ?_, ?_, by rw [settle_mem]; rfl⟩
    · rw [settle_fld _ _ _ (by decide) (by decide) (.inl (by decide)), Dev.causeMerged_pin]
    · rw [settle_mode]
      exact congrArg Mode.ofCode ((Dev.fld_setFld_ne _ _ _ _ _ _ (by decide)).trans (Dev.fld_setFld_ne _ _ _ _ _ _ (by decide)))
  case host =>
    intro src hw hr ha hdone
    have becomes := becomes_command (exec_hostReset src s) (by decide) hw
    rw [Dev.writeReg_own _ _ _ (k := .lh) rfl (by decide) (by decide),
      show ∀ d : Dev, d.writeKind src.src B.LH O.LH_RST_CMD 0xA55A0F0F = d.hostReset 0xA55A0F0F from fun _ => rfl,
      s.dev.hostReset_begins hr ha hdone] at becomes
    refine becomes.completes ⟨by rw [settle_clk]; rfl, ?_, ?_, by rw [settle_reply]; rfl, ?_⟩
    · rw [fld_settle_okReply _ _ _ (by decide) (by decide) (.inl (by decide)), Dev.resetBegun_last _ (by decide)]
    · rw [settle_mode, Dev.okReply_mode, Dev.resetBegun_mode, Dev.mode_finish_lh]
    · rw [mem_settle_okReply, Dev.resetBegun_mem, Dev.finish_mem]
  case entry =>
    intro hp hm hslot
    have becomes : Becomes .resetEntry s (s.dev.resetHeld.setMode .reset) := s.dev.resetEntry_enters hp ▸ exec_resetEntry s
    have core := s.dev.resetHeld.setMode_core .reset
    have held : (s.dev.resetHeld.setMode .reset).mode = .reset := Dev.mode_setMode _ _
    refine becomes.completes ⟨?_, ?_, ?_, ?_, ?_, ?_, ?_, ?_, ?_, ?_⟩
    · rw [settle_mode, held]
    · rw [settle_clk]; exact congrArg (·.clk.phase) core
    · rw [settle_fld _ _ _ (by decide) (by decide) (.inl (by decide)), Dev.prev_setMode _ (by rwa [Dev.resetHeld_mode]), Dev.resetHeld_mode]
    · rw [settle_net]; exact congrArg (·.net) core
    · rw [settle_cfg]; exact congrArg (·.cfg) core
    · rw [settle_mce]; exact congrArg (·.mce.keys) core
    · rw [settle_sec]; exact congrArg (·.sec.keysUp) core
    · rw [settle_tide _ (by rw [held]; decide), Dev.setMode_tide _ (by decide)]
      rfl
    · rw [settle_hold]; exact (congrArg (·.hold.bond) core).trans s.dev.resetBase_bond
    · rw [settle_nv]; exact (congrArg (·.nv) core).trans (s.dev.resetBase_nv hslot)
  case release =>
    intro x y csp hp hm
    have becomes : Becomes (.resetRelease x y csp) s ((s.dev.strapped x.val y.val csp.val).setMode .boot) :=
      s.dev.resetRelease_boots hp hm ▸ exec_resetRelease x y csp s
    have core := (s.dev.strapped x.val y.val csp.val).setMode_core .boot
    refine becomes.completes ⟨?_, ?_, ?_, ?_, ?_, ?_⟩
    · rw [settle_mode, Dev.mode_setMode]
    · rw [settle_clk]; exact congrArg (·.clk.phase) core
    · rw [settle_clk]; exact (congrArg (·.clk.cspMode) core).trans (Nat.mod_eq_of_lt csp.isLt)
    · rw [settle_fld _ _ _ (by decide) (by decide) (.inl (by decide)),
        Dev.setMode_fld_ne _ _ _ _ (by decide) (by decide) (.inl (by decide)) (.inl (by decide)), Dev.strapped_devX]
      exact Nat.mod_eq_of_lt x.isLt
    · rw [settle_fld _ _ _ (by decide) (by decide) (.inl (by decide)),
        Dev.setMode_fld_ne _ _ _ _ (by decide) (by decide) (.inl (by decide)) (.inl (by decide)), Dev.strapped_devY]
      exact Nat.mod_eq_of_lt y.isLt
    · rw [settle_mem]; exact congrArg (·.mem) core

end Sys2Proof.Machine
end

