-- ==== Sys2Proof/Proofs/Sessions.lean ====
section
/-! SUPPORT. Proofs/Sessions.lean: the commands of SEC_CMD that concern sessions and the identity key, each by what it leaves of the
interface that sent it (R434 to R440, R442, R443). -/

namespace Sys2Proof.Machine

/-! ### SEC_CMD -/

theorem mod_sixteen_withField (w : Word) {op : Nat} (h : op < 16) : (withField w 0 4 op).toNat % 16 = op := by
  have field := nfield_withField w 0 4 op (by decide)
  rw [nfield, Nat.shiftRight_zero] at field
  exact field.trans (Nat.mod_eq_of_lt h)

/-- The commands of SEC_CMD by their number (R448). -/
def Dev.secRun (s : Dev) (i : Nat) (w : Word) : Nat → Dev
  | 1 => s.secNonce i
  | 2 => s.openToken i (nbit w.toNat 7)
  | 3 => s.openPassword i
  | 4 => s.secClose i
  | 5 => s.attest i
  | 6 => s.getIdkey i
  | 7 => s.lcAdvance i (nfield w.toNat 4 3)
  | 8 => s.setPassword i
  | 9 => s.drydock i
  | 10 => s.bootcfg i
  | _ => s

theorem Dev.secCmd_op (s : Dev) (i : Nat) (data : Word) {op : Nat} (h : op ∈ List.range' 1 10) :
    s.secCmd i (withField data 0 4 op) = s.secRun i (withField data 0 4 op) op := by
  have lt : op < 16 := by have := List.mem_range'_1.1 h; omega
  have field := mod_sixteen_withField data lt
  simp only [List.range', List.mem_cons, List.not_mem_nil, or_false] at h
  rcases h with rfl | rfl | rfl | rfl | rfl | rfl | rfl | rfl | rfl | rfl <;> simp only [Dev.secCmd, field] <;> rfl

section
variable {s : State} {c : Instr} {src : RegSrc} {i : Nat}

/-- A write to SEC_CMD is a command from the sender's interface (R435, R448). -/
theorem becomes_secCmd {w : Word} (hc : exec c s = run (fun d => d.command src B.SEC O.SEC_CMD w) s) (hi : src.src.iface = some i)
    (hw : s.dev.writes src B.SEC O.SEC_CMD w) : Becomes c s (s.dev.secCmd i w).okReply := by
  have becomes := becomes_command hc (by decide) hw
  rw [Dev.writeReg_own _ _ _ (k := .sec) rfl (by decide) (by decide), Dev.writeKind, show blkKind B.SEC = some .sec from rfl] at becomes
  simpa only [Dev.writeSEC, if_true, hi, Option.getD_some] using becomes

theorem becomes_secRun {data : Word} {op : Nat} (hc : exec c s = run (fun d => d.command src B.SEC O.SEC_CMD (withField data 0 4 op)) s)
    (hi : src.src.iface = some i) (h : op ∈ List.range' 1 10) (hw : s.dev.writes src B.SEC O.SEC_CMD (withField data 0 4 op)) :
    Becomes c s (s.dev.secRun i (withField data 0 4 op) op).okReply :=
  s.dev.secCmd_op i data h ▸ becomes_secCmd hc hi hw

end

/-! ### An interface after a command -/

section
variable (s : Dev) (i : Nat)

theorem Dev.iface_of_sec {s d : Dev} (h : d.sec = s.sec) (i : Nat) : d.iface i = s.iface i := by rw [Dev.iface, h, Dev.iface]

@[simp] theorem Dev.event_sec (b n : Nat) : (s.event b n).sec = s.sec := congrArg (·.sec) (s.event_core b n)
@[simp] theorem Dev.finish_sec (b : Nat) (st : Status) : (s.finish b st).sec = s.sec := s.finish_keeps b st (p := Dev.sec) fun _ _ => rfl
@[simp] theorem Dev.okReply_sec (v : Word) : (s.okReply v).sec = s.sec := rfl

theorem Dev.iface_setIface (x : IfaceSt) (j : Nat) : (s.setIface i x).iface j = if j = i then x else s.iface j := by
  rw [Dev.iface, Dev.setIface, Map.get_set]
  rfl

@[simp] theorem Dev.iface_setIface_same (x : IfaceSt) : (s.setIface i x).iface i = x := by rw [Dev.iface_setIface, if_pos rfl]

variable {s i}

/-- A device that differs from another in interface `i`, which is `x` now, and in nothing of memory. -/
structure Dev.IfaceIs (s d : Dev) (i : Nat) (x : IfaceSt) : Prop where
  iface : d.iface i = x
  mem : d.mem = s.mem
  ext : d.ext = s.ext

variable {d : Dev} {x y : IfaceSt}

theorem Dev.IfaceIs.refl (s : Dev) (i : Nat) : s.IfaceIs s i (s.iface i) := ⟨rfl, rfl, rfl⟩

theorem Dev.IfaceIs.setIface (h : s.IfaceIs d i x) (y : IfaceSt) : s.IfaceIs (d.setIface i y) i y :=
  ⟨d.iface_setIface_same i y, h.mem, h.ext⟩

theorem Dev.IfaceIs.event (h : s.IfaceIs d i x) (b n : Nat) : s.IfaceIs (d.event b n) i x :=
  ⟨(Dev.iface_of_sec (d.event_sec b n) i).trans h.iface, (d.event_mem b n).trans h.mem, (d.event_ext b n).trans h.ext⟩

/-- The session is closed, if one was open (R440). -/
theorem Dev.IfaceIs.closeSession (h : s.IfaceIs d i x) : s.IfaceIs (d.closeSession i) i { x with sess := 0 } := by
  unfold Dev.closeSession
  dsimp only
  rw [h.iface]
  split
  · next closed =>
    refine ⟨h.iface.trans ?_, h.mem, h.ext⟩
    rw [← closed]
  · exact (h.setIface _).event _ _

/-- The end of a command of SEC, as it finds interface `i` and leaves it. -/
structure Dev.IfaceEnds (s d : Dev) (i : Nat) (x : IfaceSt) (st : Status) : Prop where
  is : s.IfaceIs d i x
  last : d.fld B.SEC F.BLK_STATUS_LAST_STATUS = st.code

variable {st : Status}

theorem Dev.IfaceIs.finish (h : s.IfaceIs d i x) (st : Status) : s.IfaceEnds (d.finish B.SEC st) i x st :=
  ⟨⟨(Dev.iface_of_sec (d.finish_sec _ _) i).trans h.iface, (d.finish_mem _ _).trans h.mem, (d.finish_ext _ _).trans h.ext⟩,
    d.fld_finish _ _⟩

/-- The mailbox is zeroed after the command (R438). -/
theorem Dev.IfaceEnds.mboxZero (h : s.IfaceEnds d i x st) : s.IfaceEnds (d.mboxZero i) i { x with mbox := [] } st := by
  obtain ⟨hx, hlast⟩ := h
  refine ⟨?_, hlast⟩
  rw [← hx.iface]
  exact hx.setIface _

/-- What the answer and the settling of the outputs leave of it. -/
theorem Dev.IfaceEnds.settled (h : s.IfaceEnds d i x st) :
    d.okReply.settle.iface i = x ∧ d.okReply.settle.fld B.SEC F.BLK_STATUS_LAST_STATUS = st.code ∧ d.okReply.settle.mem = s.mem ∧
      d.okReply.settle.ext = s.ext := by
  obtain ⟨⟨hiface, hmem, hext⟩, hlast⟩ := h
  refine ⟨(Dev.iface_of_sec ((settle_sec _).trans (d.okReply_sec _)) i).trans hiface, ?_, (mem_settle_okReply d).trans hmem,
    (settle_ext _).trans hext⟩
  rw [fld_settle_okReply _ _ _ (by decide) (by decide) (.inl (by decide)), hlast]

/-- An open that completes with AUTH, at an interface that is not locked (R439). -/
theorem Dev.IfaceIs.authFails (h : s.IfaceIs d i x) (hl : x.locked = false) :
    s.IfaceEnds (d.authFails i) i { x with failConsec := min (x.failConsec + 1) 8, authFail := satAdd 16 x.authFail 1,
                                           locked := decide (8 ≤ x.failConsec + 1) } .auth := by
  simp only [Dev.authFails, h.iface, hl, Bool.false_or]
  split
  · exact (((h.setIface _).event _ _).event _ _).finish _
  · exact ((h.setIface _).event _ _).finish _

/-- A session opens (R435, R439). -/
theorem Dev.IfaceIs.sessOpens (h : s.IfaceIs d i x) (kind : Nat) :
    s.IfaceEnds (d.sessOpens i kind) i { x with sess := kind, failConsec := 0 } .ok := by
  rw [Dev.sessOpens, h.iface]
  exact ((h.setIface _).event _ _).finish _

end

/-! ### Each command where nothing refuses it -/

section
variable (s : Dev) (i : Nat)

theorem Dev.secNonce_draws (h : s.rngRuns = true) :
    s.secNonce i = (s.draw.2.setIface i { s.iface i with nonce := Config.drbg s.sec.draws, fresh := true }).finish B.SEC .ok := by
  simp only [Dev.secNonce, h, Bool.not_true, Bool.false_eq_true, if_false]
  rfl

/-- The states of the life cycle in which a token of a kind opens a session (R437). -/
def Dev.tokenLegal (s : Dev) (vendor : Bool) : Bool :=
  if vendor then s.life == .test || s.life == .returned else s.life == .provisioned || s.life == .sealed

theorem Dev.tokenLegal_iff (vendor : Bool) : s.tokenLegal vendor = true ↔
    if vendor then s.life = .test ∨ s.life = .returned else s.life = .provisioned ∨ s.life = .sealed := by
  cases vendor <;> simp [Dev.tokenLegal]

theorem Dev.openToken_refused {vendor : Bool} (hlen : (s.iface i).len = 3312)
    (h : s.tokenLegal vendor = false ∨ (s.iface i).fresh = false ∨ (s.iface i).locked = true) : s.openToken i vendor = s.finish B.SEC .state := by
  have refuses : (!s.tokenLegal vendor || !(s.iface i).fresh || (s.iface i).locked) = true := by rcases h with h | h | h <;> simp [h]
  have first : firstRefusal [((s.iface i).len != 3312, Status.format),
      (!s.tokenLegal vendor || !(s.iface i).fresh || (s.iface i).locked, .state)] = some .state := by
    rw [refuses, hlen]
    rfl
  unfold Dev.tokenLegal at first
  simp only [Dev.openToken, Dev.guarded, first]

/-- The device in which the session is closed and the nonce used, once a token is judged (R436, R437). -/
def Dev.tokenUsed (s : Dev) (i : Nat) : Dev := (s.closeSession i).setIface i { (s.closeSession i).iface i with fresh := false }

theorem Dev.openToken_judges {vendor : Bool} (hlen : (s.iface i).len = 3312) (hl : s.tokenLegal vendor = true)
    (hf : (s.iface i).fresh = true) (hk : (s.iface i).locked = false) :
    s.openToken i vendor = if (((s.iface i).bytes 3309 3).all (· == 0) &&
        Config.mldsaVerify (s.tokenKey vendor) (s.tokenMessage i vendor) ((s.iface i).bytes 0 3309)) = true
      then (s.tokenUsed i).sessOpens i (if vendor then 3 else 2) else (s.tokenUsed i).authFails i := by
  unfold Dev.tokenLegal at hl
  unfold Dev.openToken
  dsimp only
  rw [Dev.guarded_runs]
  · rfl
  · simp [hlen, hl, hf, hk]

theorem Dev.openPassword_judges (hlen : (s.iface i).len = 32) (hl : s.life = .provisioned) (he : s.sec.owner.any (·.passwordEn) = true)
    (hk : (s.iface i).locked = false) :
    s.openPassword i = (if s.sec.owner.any (fun o => o.passwordHash == shakeNum ((s.iface i).bytes 0 32)) = true
      then (s.closeSession i).sessOpens i 1 else (s.closeSession i).authFails i).mboxZero i := by
  unfold Dev.openPassword
  dsimp only
  rw [Dev.guarded_runs]
  simp [hlen, hl, he, hk]

theorem Dev.attest_signs (hlen : (s.iface i).len = 32) (hk : s.sec.keysUp = true) (hr : s.rngRuns = true) :
    let m := s.report ((s.iface i).bytes 0 32)
    s.attest i = ({ s with sec := { s.sec with draws := s.sec.draws + 1 } }.setIface i ((s.iface i).fill
      (m ++ (List.range 3309).map (Config.mldsaSign s.life.code m s.sec.draws) ++ [0, 0, 0]))).finish B.SEC .ok := by
  dsimp only
  unfold Dev.attest
  dsimp only
  rw [Dev.guarded_runs]
  simp [hlen, hk, hr]

theorem Dev.attest_format (hlen : (s.iface i).len ≠ 32) : s.attest i = s.finish B.SEC .format := by
  simp [Dev.attest, Dev.guarded, firstRefusal, hlen]

theorem Dev.getIdkey_shows (hl : s.life ≠ .test) (hk : s.sec.keysUp = true) :
    s.getIdkey i = (s.setIface i ((s.iface i).fill ((List.range 1952).map (Config.identityKey s.life.code) ++
      (List.range 3309).map (Config.identityCert s.life.code) ++ [0, 0, 0]))).finish B.SEC .ok := by
  simp [Dev.getIdkey, hl, hk]

theorem Dev.getIdkey_test (hl : s.life = .test) : s.getIdkey i = s.finish B.SEC .state := by simp [Dev.getIdkey, hl]

end

/-- Settles O34: every command by what it makes of the sender's interface; a token and a password by whether they verify. -/
theorem sessionCommands : Obligations.SessionCommands := by
  intro s src i data hi
  dsimp only
  have start := Dev.IfaceIs.refl s.dev i
  refine ⟨fun hw hr => ?nonce, fun hw hr => ?busy, fun hw hlen => ⟨fun h => ?refused, fun hl hf hk => ?token⟩,
    fun hw hlen hl he hk => ?password, fun hw => ?close, fun hw hlen hk hr => ?attest, fun hw hlen => ?format,
    fun hw hl hk => ?idkey, fun hw hl => ?test⟩
  case nonce =>
    have becomes := becomes_secRun (exec_nonce src data s) hi (by decide) hw
    rw [Dev.secRun, Dev.secNonce_draws _ _ hr] at becomes
    have drawn : s.dev.IfaceIs s.dev.draw.2 i (s.dev.iface i) := ⟨rfl, rfl, rfl⟩
    obtain ⟨hiface, hlast, hmem, hext⟩ :=
      ((drawn.setIface { s.dev.iface i with nonce := Config.drbg s.dev.sec.draws, fresh := true }).finish .ok).settled
    refine becomes.completes ⟨hiface, ?_, hlast, hmem, hext⟩
    rw [settle_sec, Dev.okReply_sec, Dev.finish_sec]
    rfl
  case busy =>
    have becomes := becomes_secRun (exec_nonce src data s) hi (by decide) hw
    rwa [Dev.secRun, Dev.secNonce, if_pos (by simp [hr])] at becomes
  case refused =>
    have becomes := becomes_secRun (exec_openToken src data s) hi (by decide) hw
    rwa [Dev.secRun, Dev.openToken_refused _ _ hlen] at becomes
    rwa [← s.dev.tokenLegal_iff, Bool.not_eq_true] at h
  case token =>
    have becomes := becomes_secRun (exec_openToken src data s) hi (by decide) hw
    rw [Dev.secRun, Dev.openToken_judges _ _ hlen ((s.dev.tokenLegal_iff _).2 hl) hf hk] at becomes
    have used : s.dev.IfaceIs (s.dev.tokenUsed i) i { s.dev.iface i with sess := 0, fresh := false } := by
      rw [Dev.tokenUsed, start.closeSession.iface]
      exact start.closeSession.setIface _
    refine ⟨fun hg => ?_, fun hg => ?_⟩
    · rw [if_pos hg] at becomes
      exact becomes.completes (used.sessOpens _).settled
    · rw [if_neg (by rw [hg]; decide)] at becomes
      exact becomes.completes (used.authFails hk).settled
  case password =>
    have becomes := becomes_secRun (exec_openPassword src data s) hi (by decide) hw
    rw [Dev.secRun, Dev.openPassword_judges _ _ hlen hl he hk] at becomes
    refine ⟨fun hg => ?_, fun hg => ?_⟩
    · rw [if_pos hg] at becomes
      exact becomes.completes (start.closeSession.sessOpens _).mboxZero.settled
    · rw [if_neg (by rw [hg]; decide)] at becomes
      exact becomes.completes (start.closeSession.authFails hk).mboxZero.settled
  case close =>
    have becomes := becomes_secRun (exec_close src data s) hi (by decide) hw
    rw [Dev.secRun, Dev.secClose] at becomes
    exact becomes.completes (start.closeSession.finish .ok).settled
  case attest =>
    have becomes := becomes_secRun (exec_attest src data s) hi (by decide) hw
    rw [Dev.secRun, Dev.attest_signs _ _ hlen hk hr] at becomes
    have drawn : s.dev.IfaceIs { s.dev with sec := { s.dev.sec with draws := s.dev.sec.draws + 1 } } i (s.dev.iface i) := ⟨rfl, rfl, rfl⟩
    exact becomes.completes ((drawn.setIface _).finish .ok).settled
  case format =>
    have becomes := becomes_secRun (exec_attest src data s) hi (by decide) hw
    rwa [Dev.secRun, Dev.attest_format _ _ hlen] at becomes
  case idkey =>
    have becomes := becomes_secRun (exec_getIdkey src data s) hi (by decide) hw
    rw [Dev.secRun, Dev.getIdkey_shows _ _ hl hk] at becomes
    exact becomes.completes ((start.setIface _).finish .ok).settled
  case test =>
    have becomes := becomes_secRun (exec_getIdkey src data s) hi (by decide) hw
    rwa [Dev.secRun, Dev.getIdkey_test _ _ hl] at becomes

end Sys2Proof.Machine
end

