-- ==== Sys2Proof/Proofs/Custody.lean ====
section
/-! SUPPORT. Proofs/Custody.lean: what leaving normal service puts aside, and what it leaves to the security block: the steps that Quarantine
and Dry dock share change no session, no key and no tamper record but by the steps that name them (R20, R440, R447, R538). -/

namespace Sys2Proof.Machine

/-- What the security block holds, the keys, the ergs and the tides: `lc` is SEC_LC, `stat` is SEC_TAMPER_STAT. -/
@[ext] structure Custody where
  sec : SecSt
  mce : MceSt
  ergs : Map ErgSt
  tide : TideSt
  lc : Word
  stat : Word

def Dev.custody (s : Dev) : Custody :=
  ⟨s.sec, s.mce, s.ergs, { s.tide with flags := [] }, s.reg B.SEC F.SEC_LC_STATE.off, s.reg B.SEC F.SEC_TAMPER_STAT_LAST_SRC.off⟩

section
variable {d : Dev} {c : Custody}

theorem Dev.sec_of_custody (h : d.custody = c) : d.sec = c.sec := congrArg Custody.sec h
theorem Dev.mce_of_custody (h : d.custody = c) : d.mce = c.mce := congrArg Custody.mce h
theorem Dev.ergs_of_custody (h : d.custody = c) : d.ergs = c.ergs := congrArg Custody.ergs h
theorem Dev.activated_of_custody (h : d.custody = c) : d.tide.activated = c.tide.activated := congrArg (·.tide.activated) h
theorem Dev.started_of_custody (h : d.custody = c) : d.tide.started = c.tide.started := congrArg (·.tide.started) h

theorem Dev.fld_lc_of_custody {d e : Dev} (h : d.custody = e.custody) {f : Fld} (hf : f.off = F.SEC_LC_STATE.off) :
    d.fld B.SEC f = e.fld B.SEC f := by
  rw [Dev.fld, Dev.fld, hf]
  exact congrArg (fun c : Custody => nfield c.lc.toNat f.lo f.w) h

theorem Dev.fld_stat_of_custody {d e : Dev} (h : d.custody = e.custody) {f : Fld} (hf : f.off = F.SEC_TAMPER_STAT_LAST_SRC.off) :
    d.fld B.SEC f = e.fld B.SEC f := by
  rw [Dev.fld, Dev.fld, hf]
  exact congrArg (fun c : Custody => nfield c.stat.toNat f.lo f.w) h

end

variable (s : Dev)

/-- A register of another place is no part of it. -/
theorem Dev.custody_setReg {b o : Nat} (ho : o < blockBytes) (w : Word)
    (h : b ≠ B.SEC ∨ o ≠ F.SEC_LC_STATE.off ∧ o ≠ F.SEC_TAMPER_STAT_LAST_SRC.off) : (s.setReg b o w).custody = s.custody := by
  have apart {o' : Nat} (ho' : o' < blockBytes) (h : b ≠ B.SEC ∨ o ≠ o') : (s.setReg b o w).reg B.SEC o' = s.reg B.SEC o' :=
    s.reg_setReg_ne _ _ _ _ _ fun e => h.elim (· (window_inj ho' ho e).1.symm) (· (window_inj ho' ho e).2.symm)
  exact Custody.ext rfl rfl rfl rfl (apart (by decide) (h.imp_right (·.1))) (apart (by decide) (h.imp_right (·.2)))

theorem Dev.custody_setFld {b : Nat} {f : Fld} (hf : f.off < blockBytes) (v : Nat) (hb : b ≠ B.SEC) :
    (s.setFld b f v).custody = s.custody := s.custody_setReg hf _ (.inl hb)

theorem custody_overlooks : Overlooks Dev.custody fun _ => True where
  evt s b w _ := s.custody_setReg (b := b) (by decide) w (.inr (by decide))
  dbg s w := s.custody_setReg (by decide) w (.inl (by decide))
  run _ _ _ := rfl
  flags _ _ := rfl
  link _ _ _ := rfl

@[simp] theorem Dev.custody_event (b n : Nat) : (s.event b n).custody = s.custody := event_keeps custody_overlooks s b n (.inl trivial)

@[simp] theorem Dev.custody_setMode (m : Mode) : (s.setMode m).custody = s.custody :=
  s.setMode_keeps custody_overlooks (fun d w => d.custody_setReg (by decide) w (.inl (by decide))) m

@[simp] theorem Dev.custody_logError (cls : ErrClass) (st : Status) (blk evt addr coord synd info : Nat) :
    (s.logError cls st blk evt addr coord synd info).custody = s.custody :=
  s.logError_keeps custody_overlooks (fun _ _ => rfl) (fun d w => d.custody_setReg (by decide) w (.inl (by decide))) _ _ _ _ _ _ _ _

@[simp] theorem Dev.custody_finish (b : Nat) (st : Status) : (s.finish b st).custody = s.custody :=
  s.finish_keeps b st (p := Dev.custody) fun d v => d.custody_setReg (by decide) v (.inr (by decide))

@[simp] theorem Dev.custody_okReply (v : Word) : (s.okReply v).custody = s.custody := rfl

@[simp] theorem custody_settle : s.settle.custody = s.custody :=
  settle_keeps ⟨⟨fun s b w _ => custody_overlooks.evt s b w (.inl trivial), custody_overlooks.dbg, fun _ _ _ => rfl, fun _ _ => rfl, fun _ _ _ => rfl⟩,
    fun _ _ => rfl, fun _ _ _ _ => rfl⟩ s

/-! ### Links, external memory, run control -/

theorem Dev.custody_setLink (n : Nat) (l : LinkSt) : (s.setLink n l).custody = s.custody := rfl
theorem Dev.custody_setDmc (k : Nat) (x : DmcSt) : (s.setDmc k x).custody = s.custody := rfl

theorem Dev.custody_linkDrop (n : Nat) (h : Hdr) : (s.linkDrop n h).custody = s.custody := by
  have logged : ((s.count B.HN F.HN_MISC_CNT_DROP_CNT).classU B.HN 3 .range n (nodeDev h.src)).custody = s.custody := by
    rw [Dev.classU, Dev.custody_logError, Dev.custody_event]
    exact s.custody_setFld (by decide) _ (by decide)
  unfold Dev.linkDrop
  dsimp only
  split
  · exact logged
  · exact logged

theorem Dev.custody_dropPacket (r b : Nat) : (s.dropPacket r b).custody = s.custody := by
  unfold Dev.dropPacket
  dsimp only
  split <;> rfl

theorem Dev.custody_linkFlush (n : Nat) : (s.linkFlush n).custody = s.custody := by
  unfold Dev.linkFlush
  refine (foldl_keeps (p := Dev.custody) _ _ (fun d c _ => ?_) _).trans rfl
  have dropped (l : List Flit) : (l.foldl (fun d f => d.linkDrop n (Hdr.dec f.body)) d).custody = d.custody :=
    foldl_keeps _ _ (fun d f _ => d.custody_linkDrop n _) d
  dsimp only
  split
  · exact (Dev.custody_dropPacket _ _ _).trans (dropped _)
  · exact dropped _

@[simp] theorem Dev.custody_linksOff : s.linksOff.custody = s.custody := by
  have cw (n : Nat) : B.CW n ≠ B.SEC := by simp only [B.CW, B.SEC]; omega
  refine s.forN_keeps (fun d n => ?_) 16
  rw [Dev.linkOff, Dev.custody_setFld _ (f := F.CW_STATUS_STATE) (by decide) _ (cw n), Dev.setFlag,
    Dev.custody_setFld _ (f := F.CW_CTRL_EN) (by decide) _ (cw n), Dev.custody_setLink, Dev.custody_linkFlush]

@[simp] theorem Dev.custody_selfRefresh : s.selfRefresh.custody = s.custody := s.selfRefresh_keeps (p := Dev.custody) fun _ _ _ => rfl

@[simp] theorem Dev.custody_dropRun : s.dropRun.custody = s.custody :=
  have dbg {f : Fld} (hf : f.off < blockBytes) (d : Dev) (v : Nat) : (d.setFld B.DBG f v).custody = d.custody :=
    d.custody_setFld hf v (by decide)
  (dbg (by decide) _ _).trans ((dbg (by decide) _ _).trans ((dbg (by decide) _ _).trans (dbg (by decide) _ _)))

@[simp] theorem Dev.custody_wipeNow (es : List Nat) : (s.wipeNow es).custody = s.custody :=
  (Dev.custody_event _ _ _).trans (Dev.custody_setFld _ (by decide) _ (by decide))

@[simp] theorem Dev.custody_wipeBond : s.wipeBond.custody = s.custody := by
  unfold Dev.wipeBond
  split
  · rfl
  · exact s.custody_wipeNow _

@[simp] theorem Dev.custody_cachesEmpty : s.cachesEmpty.custody = s.custody := 
  s.forN_keeps (fun d k => d.custody_setDmc k _) 8

@[simp] theorem Dev.custody_cfgReset : s.cfgReset.custody = s.custody := s.cfgReset_keeps custody_overlooks (fun _ _ => rfl) fun _ _ => rfl

/-! ### Sessions -/

theorem Dev.iface_closeSession (i j : Nat) : (s.closeSession i).iface j = if j = i then { s.iface j with sess := 0 } else s.iface j := by
  unfold Dev.closeSession
  dsimp only
  by_cases h : j = i
  · subst h
    rw [if_pos rfl]
    split
    · next closed => rw [← closed]
    · rw [Dev.iface_of_sec (Dev.event_sec _ _ _), Dev.iface_setIface, if_pos rfl]
  · rw [if_neg h]
    split
    · rfl
    · rw [Dev.iface_of_sec (Dev.event_sec _ _ _), Dev.iface_setIface, if_neg h]

/-- No session is open. -/
def SecSt.allClosed (x : SecSt) : Prop := ∀ i < 3, (Map.get (fun _ => {}) x.ifaces i).sess = 0

theorem SecSt.allClosed.keysDown {x : SecSt} (h : x.allClosed) : { x with keysUp := false }.allClosed := h

theorem Dev.closeSessions_allClosed : s.closeSessions.sec.allClosed := by
  intro i hi
  have closed : (((s.closeSession 0).closeSession 1).closeSession 2).iface i = { s.iface i with sess := 0 } := by
    simp only [Dev.iface_closeSession]
    obtain rfl | rfl | rfl : i = 0 ∨ i = 1 ∨ i = 2 := by omega
    · rfl
    · rfl
    · rfl
  exact congrArg IfaceSt.sess closed

/-- What is not of the security block's own is as it was. -/
theorem Dev.custody_closeSessions : s.closeSessions.custody = { s.custody with sec := s.closeSessions.sec } := by
  have others (x : SecSt) : { s.closeSessions.custody with sec := x } = { s.custody with sec := x } := by
    refine s.forN_keeps (p := fun d => { d.custody with sec := x }) (fun d i => ?_) 3
    unfold Dev.closeSession
    dsimp only
    split
    · rfl
    · rw [Dev.custody_event]
      rfl
  exact others s.closeSessions.sec

/-! ### The mode -/

theorem mode_overlooks : Overlooks Dev.mode fun _ => True where
  evt s b w _ := congrArg Mode.ofCode (s.fld_setReg_ne _ _ _ _ _ fun e => absurd (window_inj (by decide) (by decide) e).2 (by decide))
  dbg s w := s.mode_setReg (by decide) (by decide) w
  run _ _ _ := rfl
  flags _ _ := rfl
  link _ _ _ := rfl

/-! ### Steering that waits -/

/-- Steering takes effect in the bundles, the summary, the shoal map and the events of BIST (R25 to R31). -/
theorem Dev.steerBundle_keeps {β : Type} {p : Dev → β} (o : Overlooks p fun _ => True) (hstack : ∀ (s : Dev) x, p { s with stack := x } = p s)
    (hsum : ∀ (s : Dev) w, p (s.setReg B.BIST O.STK_SUMMARY w) = p s) (id cause : Nat) : p (s.steerBundle id cause) = p s := by
  have event (d : Dev) (n : Nat) : p (d.event B.BIST n) = p d := event_keeps o d _ _ (.inl trivial)
  have added (d : Dev) : p (d.shoalAdd 6 id cause) = p d := by
    unfold Dev.shoalAdd
    dsimp only
    split
    · rfl
    · split
      · exact (event _ _).trans (hstack _ _)
      · split
        · exact (event _ _).trans (hstack _ _)
        · exact (hstack _ _).trans (hstack _ _)
  unfold Dev.steerBundle
  dsimp only
  split
  · rfl
  · have steered : p ((s.setBundle id { s.bundle id with steered := (s.bundle id).steered ++ (s.bundle id).waiting, waiting := [] }).addFld B.BIST
        F.STK_SUMMARY_STEERED (s.bundle id).waiting.length) = p s := (hsum _ _).trans (hstack _ _)
    split
    · exact (event _ _).trans ((hsum _ _).trans ((added _).trans steered))
    · exact steered

theorem Dev.steerAll_keeps {β : Type} {p : Dev → β} (o : Overlooks p fun _ => True) (hstack : ∀ (s : Dev) x, p { s with stack := x } = p s)
    (hsum : ∀ (s : Dev) w, p (s.setReg B.BIST O.STK_SUMMARY w) = p s) : p s.steerAll = p s :=
  foldl_keeps _ _ (fun d _ _ => d.steerBundle_keeps o hstack hsum _ _) s

@[simp] theorem Dev.custody_steerAll : s.steerAll.custody = s.custody :=
  s.steerAll_keeps custody_overlooks (fun _ _ => rfl) fun d w => d.custody_setReg (by decide) w (.inl (by decide))

@[simp] theorem Dev.mode_steerAll : s.steerAll.mode = s.mode :=
  s.steerAll_keeps mode_overlooks (fun _ _ => rfl) fun d w => d.mode_setReg (by decide) (by decide) w

end Sys2Proof.Machine
end

