-- ==== Sys2Proof/Proofs/LifeCycle.lean ====
section
/-! SUPPORT. Proofs/LifeCycle.lean: the commands of SEC_CMD for the life cycle, the password, dry dock and the boot configuration, and the
mailbox (R429 to R431, R438, R440, R447, R448). -/

namespace Sys2Proof.Machine

variable (s : Dev) (i : Nat)

/-! ### Life cycle -/

theorem Life.ofCode_code (l : Life) : Life.ofCode l.code = l := by cases l <;> rfl
theorem Life.code_legal (l : Life) : ¬ 5 ≤ l.code := by cases l <;> decide

theorem lcNeed_provision : lcNeed .blank .provisioned = some .open_ := rfl
theorem lcNeed_seal : lcNeed .provisioned .sealed = some .token := rfl

/-- The first transition, with a well-formed owner record (R429, R431). -/
theorem Dev.lcAdvance_provisions {o : Owner} (hm : s.mode = .moored) (hl : s.life = .blank)
    (ho : ownerOf ((s.iface i).bytes 0 (s.iface i).len) = some o) (hc : s.ownerCopy.isSome) :
    s.lcAdvance i Life.provisioned.code = (s.lcRun .provisioned (some o)).mboxZero i := by
  unfold Dev.lcAdvance
  dsimp only
  rw [Dev.guarded_runs]
  · rw [Option.isSome_iff_ne_none] at hc
    simp [ho, hc, lcSectors, Life.ofCode_code]
  · simp [hm, hl, ho, lcNeed_provision, Life.ofCode_code, Life.code_legal]

/-- The seal, under a token's session (R429). -/
theorem Dev.lcAdvance_seals (hm : s.mode = .moored) (hl : s.life = .provisioned) (hs : (s.iface i).sess = 2) :
    s.lcAdvance i Life.sealed.code = (s.lcRun .sealed none).mboxZero i := by
  unfold Dev.lcAdvance
  dsimp only
  rw [Dev.guarded_runs]
  · simp [lcSectors, Life.ofCode_code]
  · simp [hm, hl, hs, lcNeed_seal, Life.ofCode_code, Life.code_legal]

/-- The seal needs a token's session (R429, R440). -/
theorem Dev.lcAdvance_denied (hl : s.life = .provisioned) (hs : (s.iface i).sess ≠ 2) :
    s.lcAdvance i Life.sealed.code = (s.finish B.SEC .denied).mboxZero i := by
  have first (b : Bool) : firstRefusal [(false, Status.format), (true, .denied), (b, .state)] = some .denied := by cases b <;> rfl
  simp [Dev.lcAdvance, Dev.guarded, hl, bne_iff_ne.2 hs, lcNeed_seal, Life.ofCode_code, Life.code_legal, first,
    show (Life.provisioned == Life.blank) = false from rfl]

/-! ### The owner record -/

variable {s i}

theorem Dev.IfaceIs.ownerWrite {d : Dev} {x : IfaceSt} (h : s.IfaceIs d i x) (c : Nat) (o : Owner) :
    s.IfaceIs (d.ownerWrite c o) i x := by
  have kept : (fun e : Dev => (e.sec, e.mem, e.ext)) (d.nvWrite (394 + c) (leBytes 4 0x524F5A41)) = (d.sec, d.mem, d.ext) :=
    d.nvWrite_keeps (p := fun e => (e.sec, e.mem, e.ext))
      ⟨fun _ _ _ _ => rfl, fun _ _ => rfl, fun _ _ _ => rfl, fun _ _ => rfl, fun _ _ _ => rfl⟩ (fun _ _ => rfl) _ _
  obtain ⟨hsec, hmem, hext⟩ : _ ∧ _ ∧ _ := ⟨congrArg (·.1) kept, congrArg (·.2.1) kept, congrArg (·.2.2) kept⟩
  exact ⟨(Dev.iface_of_sec hsec i).trans h.iface, hmem.trans h.mem, hext.trans h.ext⟩

variable (s i)

/-- The owner record with a password, or with none where the mailbox is empty (R438). -/
def Dev.ownerWithPassword (s : Dev) (i : Nat) (o : Owner) : Owner :=
  if (s.iface i).len = 0 then { o with passwordEn := false, passwordHash := 0 } else { o with passwordHash := shakeNum ((s.iface i).bytes 0 32) }

theorem Dev.setPassword_writes {o : Owner} {c : Nat} (hlen : (s.iface i).len = 32 ∨ (s.iface i).len = 0) (hl : s.life = .provisioned)
    (hs : (s.iface i).sess = 2) (ho : s.sec.owner = some o) (hc : s.ownerCopy = some c) :
    s.setPassword i = ((s.ownerWrite c (s.ownerWithPassword i o)).finish B.SEC .ok).mboxZero i := by
  unfold Dev.setPassword
  dsimp only
  rw [Dev.guarded_runs]
  · rw [ho, hc]
    rfl
  · rcases hlen with hlen | hlen <;> simp [hlen, Dev.mayDo, needOf, hl, hs]

/-- What SET_PASSWORD leaves: the record, the interface, OK (R438). -/
theorem becomes_setPassword_ends {st : State} {c : Instr} {k : Nat} {o o' : Owner}
    (becomes : Becomes c st (((st.dev.ownerWrite k o').finish B.SEC .ok).mboxZero i).okReply) (h : o' = o) :
    Completes c st (fun d => d.sec.owner = some o ∧ d.iface i = { st.dev.iface i with mbox := [] } ∧
      d.fld B.SEC F.BLK_STATUS_LAST_STATUS = Status.ok.code ∧ d.mem = st.dev.mem) := by
  obtain ⟨hiface, hlast, hmem, -⟩ := (((Dev.IfaceIs.refl st.dev i).ownerWrite k o').finish .ok).mboxZero.settled
  refine becomes.completes ⟨?_, hiface, hlast, hmem⟩
  rw [settle_sec, Dev.okReply_sec, ← h]
  exact congrArg SecSt.owner ((st.dev.ownerWrite k o').finish_sec B.SEC .ok)

/-! ### Dry dock -/

/-- The device that Dry dock begins with: tides have stopped, sessions are closed (R447). -/
def Dev.dockStart (s : Dev) : Dev := (if s.mode = .underway then s.tidesEnd else s).closeSessions

/-- Keys, banks, links, caches, images and run control are put aside (R447). -/
def Dev.dockClear (s : Dev) : Dev :=
  ({ s.eraseKeys with fab := loseRows s.eraseKeys.fab }.wipeNow (List.range 32)).linksOff.cachesEmpty.cfgReset.dropRun

/-- The ergs and the tides of Dry dock (R447). -/
def Dev.dockStill (s : Dev) : Dev :=
  { s with
    sec := { s.sec with keysUp := false }, ergs := [], stack := { s.stack with fences := [] },
    tide := { s.tide with armed := none, started := false, stopAt := none, activated := false, decls := [], bounds := [], gates := [], transfers := [] },
    pwr := { s.pwr with sleepAt := none }, thm := { s.thm with critAt := none } }

/-- The device of Dry dock before its mode is set and steering takes effect (R447). -/
def Dev.dockReady (s : Dev) : Dev := s.dockStart.dockClear.dockStill.setFlag B.SEC F.SEC_LC_SCAN_OK true

theorem Dev.dockEnter_eq : s.dockEnter = (s.dockReady.setMode .dryDock).steerAll := by
  unfold Dev.dockEnter Dev.dockReady Dev.dockStill Dev.dockClear Dev.dockStart
  rfl

theorem Dev.custody_dockClear : s.dockClear.custody = { s.custody with mce := s.eraseKeys.mce } := by
  have erased : { s.eraseKeys with fab := loseRows s.eraseKeys.fab }.custody = { s.custody with mce := s.eraseKeys.mce } := rfl
  rw [Dev.dockClear, Dev.custody_dropRun, Dev.custody_cfgReset, Dev.custody_cachesEmpty, Dev.custody_linksOff, Dev.custody_wipeNow, erased]

theorem Dev.sec_dockClear : s.dockClear.sec = s.sec := Dev.sec_of_custody s.custody_dockClear
theorem Dev.keys_dockClear : s.dockClear.mce.keys = [] := congrArg MceSt.keys (Dev.mce_of_custody s.custody_dockClear)

theorem Dev.dockStart_allClosed : s.dockStart.sec.allClosed := Dev.closeSessions_allClosed _

/-- What Dry dock leaves of sessions, keys, ergs and tides (R447). -/
structure Dev.Docked (d : Dev) : Prop where
  closed : d.sec.allClosed
  keys : d.mce.keys = []
  ergs : d.ergs = []
  activated : d.tide.activated = false
  scanOk : d.flag B.SEC F.SEC_LC_SCAN_OK = true

section
variable {d e : Dev}

theorem Dev.dockStill_docked (hs : d.sec.allClosed) (hk : d.mce.keys = []) : (d.dockStill.setFlag B.SEC F.SEC_LC_SCAN_OK true).Docked :=
  ⟨hs.keysDown, hk, rfl, rfl, Dev.flag_setFlag _ _ _ _ (by decide) rfl⟩

theorem Dev.Docked.of_custody (h : e.Docked) (hc : d.custody = e.custody) : d.Docked := by
  have sec : d.sec = e.sec := Dev.sec_of_custody hc
  have mce : d.mce = e.mce := Dev.mce_of_custody hc
  have ergs : d.ergs = e.ergs := Dev.ergs_of_custody hc
  have activated : d.tide.activated = e.tide.activated := Dev.activated_of_custody hc
  have scanOk : d.fld B.SEC F.SEC_LC_SCAN_OK = e.fld B.SEC F.SEC_LC_SCAN_OK := Dev.fld_lc_of_custody hc rfl
  obtain ⟨closed, keys, noErgs, stopped, shown⟩ := h
  exact ⟨sec ▸ closed, by rw [mce, keys], by rw [ergs, noErgs], by rw [activated, stopped], by rwa [Dev.flag, scanOk, ← Dev.flag]⟩

end

theorem Dev.dockReady_docked : s.dockReady.Docked := by
  rw [Dev.dockReady]
  refine Dev.dockStill_docked (d := s.dockStart.dockClear) ?_ s.dockStart.keys_dockClear
  rw [Dev.sec_dockClear]
  exact s.dockStart_allClosed

theorem Dev.dockEnter_docked : s.dockEnter.Docked :=
  s.dockReady_docked.of_custody (by rw [Dev.dockEnter_eq, Dev.custody_steerAll, Dev.custody_setMode])

theorem Dev.mode_dockEnter : s.dockEnter.mode = .dryDock := by rw [Dev.dockEnter_eq, Dev.mode_steerAll, Dev.mode_setMode]

theorem Dev.drydock_enters (hd : s.mayDo (some i) .drydock = true) (hm : s.mode = .moored ∨ s.mode = .underway) :
    s.drydock i = s.dockEnter.finish B.SEC .ok := by
  rw [Dev.drydock, Dev.guarded_runs]
  rcases hm with hm | hm <;> simp [hd, hm]

theorem Dev.drydock_refused {st : Status} (h : firstRefusal [(!s.mayDo (some i) .drydock, .denied),
    (!(s.mode == .moored || s.mode == .underway), .state)] = some st) : s.drydock i = s.finish B.SEC st := by
  rw [Dev.drydock, Dev.guarded, h]

/-! ### Boot configuration -/

theorem Dev.bootcfg_writes (hlen : (s.iface i).len = 4) (hv : ofLeBytes ((s.iface i).bytes 0 4) < 2) (hd : s.mayDo (some i) .bootcfg = true)
    (hro : s.nvRo 396 = false) : s.bootcfg i = (s.nvWrite 396 (leBytes 4 (ofLeBytes ((s.iface i).bytes 0 4)))).finish B.SEC .ok := by
  unfold Dev.bootcfg
  dsimp only
  rw [Dev.guarded_runs]
  · rw [hro]
    rfl
  · simp [hlen, hv, hd]

/-! ### The mailbox -/

/-- The mailbox with a word moved in at the pointer (R448). -/
def IfaceSt.moveIn (x : IfaceSt) (w : Word) : IfaceSt :=
  { x with mbox := (List.range 4).foldl (fun m k => Map.set (fun _ => 0) m (x.ptr + k) (BitVec.ofNat 8 (w.toNat >>> (8 * k)))) x.mbox,
           ptr := x.ptr + 4 }

theorem IfaceSt.get_moveIn (x : IfaceSt) (w : Word) (a : Nat) : Map.get (fun _ => 0) (x.moveIn w).mbox a =
    if x.ptr ≤ a ∧ a < x.ptr + 4 then BitVec.ofNat 8 (w.toNat >>> (8 * (a - x.ptr))) else Map.get (fun _ => 0) x.mbox a := by
  simp only [IfaceSt.moveIn, List.range_eq_range', List.range', List.foldl_cons, List.foldl_nil, Map.get_set]
  by_cases h : x.ptr ≤ a ∧ a < x.ptr + 4
  · obtain ⟨k, rfl⟩ := Nat.exists_eq_add_of_le h.1
    have lt : k < 4 := by omega
    rw [if_pos h, Nat.add_sub_cancel_left]
    obtain rfl | rfl | rfl | rfl : k = 0 ∨ k = 1 ∨ k = 2 ∨ k = 3 := by omega
    all_goals simp
  · rw [if_neg h, if_neg (by omega), if_neg (by omega), if_neg (by omega), if_neg (by omega)]

theorem IfaceSt.bytes_moveIn_other (x : IfaceSt) (w : Word) {k : Nat} (h : k < x.ptr ∨ x.ptr + 4 ≤ k) :
    (x.moveIn w).bytes k 1 = x.bytes k 1 := by
  simp only [IfaceSt.bytes, List.range_one, List.map_cons, List.map_nil, Nat.add_zero, IfaceSt.get_moveIn]
  rw [if_neg (by omega)]

/-- The word can be read back where it was moved in. -/
theorem IfaceSt.word_moveIn (x : IfaceSt) (w : Word) : ofLeBytes ((x.moveIn w).bytes x.ptr 4) = w.toNat := by
  have bytes : (x.moveIn w).bytes x.ptr 4 = leBytes 4 w.toNat := by
    simp only [IfaceSt.bytes, List.range_eq_range', List.range', List.map_cons, List.map_nil, IfaceSt.get_moveIn, leBytes,
      Nat.div_div_eq_div_mul, Nat.shiftRight_eq_div_pow]
    simp
  rw [bytes, ofLeBytes_leBytes]
  exact Nat.mod_eq_of_lt w.isLt

theorem Dev.mboxRead_within (h : (s.iface i).ptr < 8192) : s.mboxRead i false =
    (BitVec.ofNat 32 (ofLeBytes ((s.iface i).bytes (s.iface i).ptr 4)), s.setIface i { s.iface i with ptr := (s.iface i).ptr + 4 }) :=
  if_neg (by omega)

theorem Dev.mboxRead_beyond (h : 8192 ≤ (s.iface i).ptr) : s.mboxRead i false = (0, s.done B.SEC .range) := if_pos h

/-- A read of the mailbox that is carried out: the word at the pointer (R448). -/
theorem becomes_mboxRead {st : State} {src : RegSrc} {peek : Bool} {k : Nat} (hi : src.src.iface = some k)
    (hr : st.dev.reads src B.SEC O.SEC_MBOX_DATA) (hp : src.peeks peek = false) :
    Becomes (.secMboxData src none peek) st ((st.dev.mboxRead k false).2.okReply (st.dev.mboxRead k false).1) := by
  obtain ⟨hg, hd⟩ := hr
  have hread : st.dev.readReg src.src B.SEC O.SEC_MBOX_DATA false = ((st.dev.mboxRead k false).1, (st.dev.mboxRead k false).2) := by
    simp [Dev.readReg, Dev.readActs, hi]
  rw [Becomes, exec_secMboxData, run, Dev.mboxAccess, Dev.readCommand_open _ _ _ _ _ (by decide) hg hd, hp, hread]
  rfl

/-- A write of the mailbox that is carried out. -/
theorem becomes_mboxWrite {st : State} {src : RegSrc} {peek : Bool} {k : Nat} {w : Word} (hi : src.src.iface = some k)
    (hw : st.dev.writes src B.SEC O.SEC_MBOX_DATA w) : Becomes (.secMboxData src (some w) peek) st (st.dev.mboxWrite k w).okReply := by
  have becomes := becomes_command (c := .secMboxData src (some w) peek) rfl (by decide) hw
  rw [Dev.writeReg_own _ _ _ (k := .sec) rfl (by decide) (by decide), Dev.writeKind, show blkKind B.SEC = some .sec from rfl] at becomes
  simpa only [Dev.writeSEC, if_neg (show O.SEC_MBOX_DATA ≠ O.SEC_CMD by decide),
    if_neg (show O.SEC_MBOX_DATA ≠ O.SEC_MBOX_CTRL by decide), if_true, hi, Option.getD_some] using becomes

/-- Settles O35: the transitions and the record by what nothing refuses; Dry dock by what its parts leave to the security block; the mailbox
by the bytes of a word moved in or out. -/
theorem lifeCycleCommands : Obligations.LifeCycleCommands := by
  intro s src i data peek hi
  dsimp only
  have start := Dev.IfaceIs.refl s.dev i
  refine ⟨fun hw => ⟨fun o hm hl ht ho hc => ?provisions, fun hm hl ht hs => ?seals, fun hl ht hs => ?denied⟩,
    fun o c hw hl hs ho hc => ⟨fun hlen => ?password, fun hlen => ?noPassword⟩,
    fun hw => ⟨fun hd => ?dockDenied, fun hd hm => ?dock, fun hd hm hu => ?dockState⟩,
    fun hw hlen hv hd hro => ?bootcfg, fun w hw hp => ?moveIn, fun hr hp hk => ?moveOut, fun hr hp hk => ?beyond⟩
  case provisions =>
    have becomes := becomes_secRun (exec_lcAdvance src data s) hi (by decide) hw
    rwa [Dev.secRun, ht, Dev.lcAdvance_provisions _ _ hm hl ho hc] at becomes
  case seals =>
    have becomes := becomes_secRun (exec_lcAdvance src data s) hi (by decide) hw
    rwa [Dev.secRun, ht, Dev.lcAdvance_seals _ _ hm hl hs] at becomes
  case denied =>
    have becomes := becomes_secRun (exec_lcAdvance src data s) hi (by decide) hw
    rw [Dev.secRun, ht, Dev.lcAdvance_denied _ _ hl hs] at becomes
    obtain ⟨hiface, hlast, hmem, -⟩ := (start.finish .denied).mboxZero.settled
    refine becomes.completes ⟨?_, hiface, hlast, hmem⟩
    have kept : (s.dev.finish B.SEC .denied).life = s.dev.life :=
      congrArg Life.ofCode (Dev.fld_lc_of_custody (f := F.SEC_LC_STATE) (s.dev.custody_finish B.SEC .denied) rfl)
    rw [Dev.life, fld_settle_okReply _ _ _ (by decide) (by decide) (.inl (by decide))]
    exact kept.trans hl
  case password =>
    have becomes := becomes_secRun (exec_setPassword src data s) hi (by decide) hw
    rw [Dev.secRun, Dev.setPassword_writes _ _ (.inl hlen) hl hs ho hc] at becomes
    exact becomes_setPassword_ends _ becomes (if_neg (by omega))
  case noPassword =>
    have becomes := becomes_secRun (exec_setPassword src data s) hi (by decide) hw
    rw [Dev.secRun, Dev.setPassword_writes _ _ (.inr hlen) hl hs ho hc] at becomes
    exact becomes_setPassword_ends _ becomes (if_pos hlen)
  case dockDenied =>
    have becomes := becomes_secRun (exec_drydock src data s) hi (by decide) hw
    rwa [Dev.secRun, Dev.drydock_refused _ _ (st := .denied)] at becomes
    rw [hd]
    generalize (!(s.dev.mode == .moored || s.dev.mode == .underway)) = b
    cases b <;> rfl
  case dock =>
    have becomes := becomes_secRun (exec_drydock src data s) hi (by decide) hw
    rw [Dev.secRun, Dev.drydock_enters _ _ hd hm] at becomes
    have docked : (s.dev.dockEnter.finish B.SEC .ok).okReply.settle.Docked :=
      s.dev.dockEnter_docked.of_custody ((custody_settle _).trans ((Dev.custody_okReply _ _).trans (Dev.custody_finish _ _ _)))
    refine becomes.completes ⟨?_, docked.closed, docked.keys, docked.ergs, docked.activated, docked.scanOk, ?_⟩
    · rw [settle_mode, Dev.okReply_mode, Dev.mode_finish _ (by decide), Dev.mode_dockEnter]
    · rw [fld_settle_okReply _ _ _ (by decide) (by decide) (.inl (by decide)), Dev.fld_finish]
  case dockState =>
    have becomes := becomes_secRun (exec_drydock src data s) hi (by decide) hw
    rwa [Dev.secRun, Dev.drydock_refused _ _ (st := .state)] at becomes
    simp [hd, hm, hu, firstRefusal]
  case bootcfg =>
    have becomes := becomes_secRun (exec_bootcfg src data s) hi (by decide) hw
    rwa [Dev.secRun, Dev.bootcfg_writes _ _ hlen hv hd hro] at becomes
  case moveIn =>
    have becomes := becomes_mboxWrite (peek := peek) hi hw
    rw [Dev.mboxWrite, if_neg (by omega)] at becomes
    have moved := start.setIface ((s.dev.iface i).moveIn w)
    have settled : ((s.dev.setIface i ((s.dev.iface i).moveIn w)).okReply.settle).iface i = (s.dev.iface i).moveIn w :=
      (Dev.iface_of_sec (settle_sec _) i).trans moved.iface
    refine becomes.completes ?_
    exact ⟨congrArg IfaceSt.ptr settled, (congrArg (fun x => ofLeBytes (x.bytes (s.dev.iface i).ptr 4)) settled).trans (IfaceSt.word_moveIn _ w),
      mem_settle_okReply _, fun k hk => (congrArg (fun x => x.bytes k 1) settled).trans (IfaceSt.bytes_moveIn_other _ w hk)⟩
  case moveOut =>
    have becomes := becomes_mboxRead (peek := peek) hi hr hk
    rw [Dev.mboxRead_within _ _ hp] at becomes
    refine becomes.completes ⟨settle_reply _, ?_, settle_mem _⟩
    exact (Dev.iface_of_sec (settle_sec _) i).trans (start.setIface _).iface
  case beyond =>
    have becomes := becomes_mboxRead (peek := peek) hi hr hk
    rw [Dev.mboxRead_beyond _ _ hp] at becomes
    refine becomes.completes ⟨settle_reply _, ?_, settle_mem _⟩
    exact (settle_fld _ _ _ (by decide) (by decide) (.inl (by decide))).trans (s.dev.fld_setFld _ _ _ (by decide))

end Sys2Proof.Machine
end

