-- ==== Sys2Proof/Proofs/TamperSources.lean ====
section
/-! SUPPORT. Proofs/TamperSources.lean: an armed tamper source and the Quarantine it leads to; the random number generator's health
(R434, R444 to R446, R538). -/

namespace Sys2Proof.Machine

/-! ### Sessions and the tamper record through Quarantine -/

/-- Two devices with the same registers of the life cycle and of tamper. -/
structure Dev.SameRecord (d s : Dev) : Prop where
  lc : d.custody.lc = s.custody.lc
  stat : d.custody.stat = s.custody.stat

section
variable {d e s : Dev}

theorem Dev.SameRecord.trans (h : d.SameRecord e) (h' : e.SameRecord s) : d.SameRecord s := ⟨h.lc.trans h'.lc, h.stat.trans h'.stat⟩
theorem Dev.SameRecord.of_custody (h : d.custody = s.custody) : d.SameRecord s := ⟨congrArg Custody.lc h, congrArg Custody.stat h⟩

theorem Dev.SameRecord.fld_lc (h : d.SameRecord s) {f : Fld} (hf : f.off = F.SEC_LC_STATE.off) : d.fld B.SEC f = s.fld B.SEC f := by
  rw [Dev.fld, Dev.fld, hf]
  exact congrArg (fun w : Word => nfield w.toNat f.lo f.w) h.lc

theorem Dev.SameRecord.fld_stat (h : d.SameRecord s) {f : Fld} (hf : f.off = F.SEC_TAMPER_STAT_LAST_SRC.off) :
    d.fld B.SEC f = s.fld B.SEC f := by
  rw [Dev.fld, Dev.fld, hf]
  exact congrArg (fun w : Word => nfield w.toNat f.lo f.w) h.stat

end

variable (s : Dev)

theorem Dev.custody_cooled : s.cooled.custody = s.custody :=
  (Dev.custody_setFld _ (f := F.THM_STAT_CRIT_LOW) (by decide) _ (by decide)).trans
    (s.custody_setFld (f := F.THM_STAT_CRIT) (by decide) _ (by decide))

theorem Dev.custody_putAside : s.putAside.custody = s.cooled.eraseKeys.wipeBond.closeSessions.custody := by
  rw [Dev.putAside, Dev.custody_dropRun, Dev.custody_selfRefresh, Dev.custody_linksOff]

/-- Erasing keys, wiping and closing leave the record. -/
theorem Dev.closeSessions_sameRecord : s.closeSessions.SameRecord s :=
  ⟨(congrArg Custody.lc s.custody_closeSessions :), (congrArg Custody.stat s.custody_closeSessions :)⟩

theorem Dev.eraseKeys_sameRecord : s.eraseKeys.SameRecord s := ⟨rfl, rfl⟩

theorem Dev.putAside_sameRecord : s.putAside.SameRecord s :=
  (Dev.SameRecord.of_custody s.custody_putAside).trans ((Dev.closeSessions_sameRecord _).trans
    ((Dev.SameRecord.of_custody (Dev.custody_wipeBond _)).trans ((Dev.eraseKeys_sameRecord _).trans (Dev.SameRecord.of_custody s.custody_cooled))))

theorem Dev.putAside_allClosed : s.putAside.sec.allClosed := by
  rw [Dev.sec_of_custody s.custody_putAside]
  exact Dev.closeSessions_allClosed _

theorem Dev.secured_sameRecord : s.secured.SameRecord s := by
  have same (d : Dev) (x : SecSt) (t : TideSt) : { d with sec := x, tide := t }.SameRecord d := ⟨rfl, rfl⟩
  rw [Dev.secured]
  exact (same _ _ _).trans s.putAside_sameRecord

theorem Dev.custody_causeRecorded (cause addr blk evt synd : Nat) : (s.causeRecorded cause addr blk evt synd).custody = s.custody := by
  rw [Dev.causeRecorded, Dev.custody_logError]
  exact (Dev.custody_setFld _ (f := F.LH_QCAUSE_Q_CNT) (by decide) _ (by decide)).trans
    (s.custody_setFld (f := F.LH_QCAUSE_CAUSE) (by decide) _ (by decide))

/-- What a class F cause leaves of sessions, tides and the tamper record (R440, R538). -/
structure Dev.PutAway (d s : Dev) : Prop where
  closed : d.sec.allClosed
  started : d.tide.started = false
  record : d.SameRecord s

theorem Dev.PutAway.of_custody {d e s : Dev} (h : e.PutAway s) (hc : d.custody = e.custody) : d.PutAway s where
  closed := by
    rw [Dev.sec_of_custody hc]
    exact h.closed
  started := (Dev.started_of_custody hc).trans h.started
  record := (Dev.SameRecord.of_custody hc).trans h.record

theorem Dev.secured_putAway : s.secured.PutAway s := ⟨s.putAside_allClosed.keysDown, rfl, s.secured_sameRecord⟩

theorem Dev.quarantine_putAway (cause addr blk evt synd : Nat) (hp : s.clk.phase ≠ .selfRefresh) (hb : s.mode ≠ .beacon)
    (hr : s.mode ≠ .reset) (hq : s.mode ≠ .quarantine) : (s.quarantine cause addr blk evt synd).PutAway s := by
  refine s.secured_putAway.of_custody ?_
  rw [s.quarantine_enters cause addr blk evt synd hp hb hr hq, Dev.custody_setMode, Dev.custody_causeRecorded]

/-! ### The tamper response -/

/-- The device with a source on record, before the response (R445). -/
def Dev.tamperSeen (s : Dev) (src : Nat) : Dev :=
  ((s.setFld B.SEC F.SEC_TAMPER_STAT_LAST_SRC src).setFlag B.SEC F.SEC_LC_TAMPER_SEEN true).count B.SEC F.SEC_TAMPER_STAT_TAMPER_CNT

theorem Dev.tamper_responds (cause src place : Nat) (hp : s.clk.phase ≠ .selfRefresh) (hb : s.mode ≠ .beacon) (hr : s.mode ≠ .reset)
    (hq : s.mode ≠ .quarantine) : s.tamper cause src place = (s.tamperSeen src).quarantine cause place B.SEC 0 := by
  unfold Dev.tamper
  dsimp only
  rw [if_neg (by simp [hp, hb, hr]), if_neg hq]
  rfl

theorem Dev.mode_tamperSeen (src : Nat) : (s.tamperSeen src).mode = s.mode :=
  (Dev.mode_setFld _ (by decide) (by decide) _).trans ((Dev.mode_setFld _ (by decide) (by decide) _).trans
    (s.mode_setFld (by decide) (by decide) _))

theorem Dev.fld_tamperSeen_src {src : Nat} (h : src < 16) : (s.tamperSeen src).fld B.SEC F.SEC_TAMPER_STAT_LAST_SRC = src := by
  rw [Dev.tamperSeen, Dev.fld_count_field _ _ F.SEC_TAMPER_STAT_TAMPER_CNT F.SEC_TAMPER_STAT_LAST_SRC (by decide) rfl (.inl (by decide)), Dev.setFlag,
    Dev.fld_setFld_ne _ _ _ _ _ _ (by decide), Dev.fld_setFld _ _ _ _ (by decide)]
  exact Nat.mod_eq_of_lt h

theorem Dev.flag_tamperSeen (src : Nat) : (s.tamperSeen src).flag B.SEC F.SEC_LC_TAMPER_SEEN = true := by
  rw [Dev.tamperSeen, Dev.flag, Dev.count, Dev.addFld, Dev.fld_setFld_ne _ _ _ _ _ _ (by decide), ← Dev.flag,
    Dev.flag_setFlag _ _ _ _ (by decide) rfl]

/-- What the tamper response leaves, its outputs settled (R445, R538). -/
theorem completes_tamper {st : State} {c : Instr} {cause src place : Nat} (hc : exec c st = run (fun d => d.tamper cause src place) st)
    (hp : st.dev.clk.phase ≠ .selfRefresh) (hm : st.dev.mode ≠ .beacon ∧ st.dev.mode ≠ .reset ∧ st.dev.mode ≠ .quarantine)
    (hcause : cause < 11) (hsrc : src < 16) :
    Completes c st (fun d => d.mode = .quarantine ∧ d.mce.keys = [] ∧ d.sec.keysUp = false ∧ (∀ i < 3, (d.iface i).sess = 0) ∧
      d.fld B.SEC F.SEC_TAMPER_STAT_LAST_SRC = src ∧ d.flag B.SEC F.SEC_LC_TAMPER_SEEN = true ∧ d.fld B.LH F.LH_QCAUSE_CAUSE = 2 ^ cause ∧
      d.tide.started = false) := by
  obtain ⟨hb, hr, hq⟩ := hm
  have seen := st.dev.mode_tamperSeen src
  have becomes : Becomes c st ((st.dev.tamperSeen src).quarantine cause place B.SEC 0) := by
    rw [Becomes, hc, run, st.dev.tamper_responds cause src place hp hb hr hq]
  have phase : (st.dev.tamperSeen src).clk.phase ≠ .selfRefresh := hp
  rw [← seen] at hb hr hq
  have quarantined := (st.dev.tamperSeen src).quarantine_quarantined cause place B.SEC 0 0 phase hb hr hq hcause
  have away := ((st.dev.tamperSeen src).quarantine_putAway cause place B.SEC 0 0 phase hb hr hq).of_custody (custody_settle _)
  refine becomes.completes ⟨?_, ?_, ?_, away.closed, ?_, ?_, ?_, away.started⟩
  · rw [settle_mode, quarantined.mode]
  · rw [settle_mce, quarantined.keys]
  · rw [settle_sec, quarantined.keysUp]
  · rw [away.record.fld_stat rfl, Dev.fld_tamperSeen_src _ hsrc]
  · rw [Dev.flag, away.record.fld_lc (f := F.SEC_LC_TAMPER_SEEN) rfl, ← Dev.flag, Dev.flag_tamperSeen]
  · rw [settle_fld _ _ _ (by decide) (by decide) (.inl (by decide)), quarantined.cause]

/-- Settles O36: an armed source is a tamper response; the others by the fields that they set. -/
theorem tamperSources : Obligations.TamperSources := by
  intro s hp
  dsimp only
  refine ⟨fun k hm ha => ?input, fun r hm ha => ?voltage, fun c hm ha => ?glitch, fun hm hi => ?beacon, fun hm => ?fails, fun hm => ?restarts⟩
  case input =>
    refine completes_tamper (place := k.val) ?_ hp hm (by decide) (by omega)
    rw [exec_tamperInput, run, run, Dev.tamperInput, if_pos ha]
  case voltage =>
    refine completes_tamper (place := r.val) ?_ hp hm (by decide) (by decide)
    rw [exec_voltageMonitor, run, run, Dev.voltageMonitor, if_pos (by simp [ha, r.isLt])]
  case glitch =>
    refine completes_tamper (place := c.val) ?_ hp hm (by decide) (by decide)
    rw [exec_clockGlitch, run, run, Dev.clockGlitch, if_pos ha]
  case beacon =>
    have becomes : Becomes .tamperBeacon s s.dev.tamperBeacon := exec_tamperBeacon s
    rw [Dev.tamperBeacon, if_neg (by simp [hm, hi])] at becomes
    refine becomes.completes ⟨?_, ?_, ?_, settle_mce _, settle_mem _⟩
    · exact (settle_mode _).trans ((s.dev.mode_setFld (f := F.SEC_LC_TAMPER_SEEN) (by decide) (by decide) _).trans hm)
    · rw [Dev.flag, settle_fld _ _ _ (by decide) (by decide) (.inl (by decide))]
      exact s.dev.flag_setFlag _ _ _ (by decide) rfl
    · rw [settle_sec]
  case fails =>
    obtain ⟨hb, hr, hq⟩ := hm
    have becomes := becomes_live (exec_rngFail s) hq
    rwa [Dev.rngFail, if_neg (by simp [hb, hr])] at becomes
  case restarts =>
    obtain ⟨hb, hr, hq⟩ := hm
    have becomes := becomes_live (exec_rngRestart s) hq
    rw [Dev.rngRestart, if_neg (by simp [hb, hr])] at becomes
    refine becomes.completes ⟨?_, settle_sec _, settle_mem _⟩
    rw [Dev.rngRuns, Dev.flag, settle_fld _ _ _ (by decide) (by decide) (.inl (by decide)), ← Dev.flag, Dev.flag_setFlag _ _ _ _ (by decide) rfl]

end Sys2Proof.Machine
end

