-- ==== Sys2Proof/Proofs/Attachment.lean ====
section
/-! SUPPORT. Proofs/Attachment.lean: what shows that a debugger is attached, and what the end of an attachment does (R504, R517). -/

namespace Sys2Proof.Machine

variable (s : Dev)

/-! ### ATTACHED through events and the settling of the outputs -/

theorem Dev.attached_setReg {b o : Nat} (ho : o < blockBytes) (h : b ≠ B.DBG ∨ o ≠ O.DBG_STAT) (w : Word) :
    (s.setReg b o w).attached = s.attached := by
  rw [Dev.attached, Dev.flag, Dev.fld_setReg_ne, ← Dev.flag, ← Dev.attached]
  exact fun e => h.elim (· (window_inj (o := O.DBG_STAT) (by decide) ho e).1.symm) (· (window_inj (o := O.DBG_STAT) (by decide) ho e).2.symm)

/-- Another field of DBG_STAT, above bit 0. -/
theorem Dev.attached_setFld {f : Fld} (hf : f.lo + f.w ≤ 32) (ho : f.off = O.DBG_STAT) (hl : 1 ≤ f.lo) (v : Nat) :
    (s.setFld B.DBG f v).attached = s.attached := by
  rw [Dev.attached, Dev.flag, Dev.fld_setFld_field _ _ f F.DBG_STAT_ATTACHED _ hf ho.symm (.inl hl)]
  rfl

theorem Dev.attached_raiseBit (b n : Nat) : (s.raiseBit b n).attached = s.attached := by
  unfold Dev.raiseBit
  split
  · rfl
  · exact s.attached_setReg (by decide) (.inr (by decide)) _

theorem Dev.attached_sendFlag (code target coord : Nat) (from_ : Option Nat) : (s.sendFlag code target coord from_).attached = s.attached := by
  unfold Dev.sendFlag
  refine (foldl_keeps (p := Dev.attached) _ _ (fun d n _ => ?_) _).trans rfl
  dsimp only
  split
  · exact Dev.attached_raiseBit _ _ _
  · rfl

theorem Dev.attached_haltAt (t : Nat) (l : Bool) (c : Nat) : (s.haltAt t l c).attached = s.attached := by
  unfold Dev.haltAt
  split
  · rfl
  · split
    · split
      · rfl
      · split <;> rfl
    · exact s.attached_setFld (f := F.DBG_STAT_PENDING) (by decide) rfl (by decide) _

theorem Dev.attached_haltRequest (l : Bool) (c : Nat) : (s.haltRequest l c).attached = s.attached := by
  unfold Dev.haltRequest
  split
  · rfl
  · split
    · dsimp only
      rw [apply_ite Dev.attached, Dev.attached_sendFlag, Dev.attached_haltAt, ite_self]
    · exact s.attached_haltAt _ _ _

@[simp] theorem Dev.attached_event (b n : Nat) : (s.event b n).attached = s.attached := by
  unfold Dev.event
  dsimp only
  split
  · rw [Dev.attached_haltRequest, Dev.attached_raiseBit]
  · exact s.attached_raiseBit _ _

@[simp] theorem settle_attached : s.settle.attached = s.attached := by
  show s.settlePorts.attached = s.attached
  unfold Dev.settlePorts
  exact (foldl_keeps (p := Dev.attached) _ _ (fun d _ _ => d.attached_event _ _) _).trans rfl

/-! ### The end of an attachment -/

/-- The wire without its debugger: its operations are abandoned (R504). -/
def Dev.wireAbandoned (s : Dev) : Dev :=
  let d := (s.setFlag B.DBG F.DBG_STAT_ATTACHED false).forN 4 (fun s t => if (s.wireOp t).pending then s.dropOut .wire t else s)
  { d with wire := { d.wire with ops := [] } }

/-- An emulated Slack becomes real, unless the device is waking from it (R517). -/
def Dev.emulationEnds (s : Dev) : Dev :=
  let d := s.forN 32 Dev.slackReal
  if d.mode = .slack && !d.pwr.waking then (d.selfRefresh.setFlag B.LH F.LH_MODE_EMULATED false).hldRetRise else d

theorem Dev.attachEnds_attached (h : s.attached = true) :
    s.attachEnds = ((s.wireAbandoned.closeSession 2).event B.DBG 4).emulationEnds := by
  unfold Dev.attachEnds Dev.wireAbandoned Dev.emulationEnds
  rw [if_neg (by simp [h])]

theorem Dev.attachEnds_detached (h : s.attached = false) : s.attachEnds = s := if_pos (by simp [h])

section
variable {β : Type} {p : Dev → β}

theorem Dev.wireAbandoned_keeps (hstat : ∀ (d : Dev) w, p (d.setReg B.DBG O.DBG_STAT w) = p d)
    (houts : ∀ (d : Dev) x, p { d with net := { d.net with outs := x } } = p d) (hwire : ∀ (d : Dev) x, p { d with wire := x } = p d) :
    p s.wireAbandoned = p s := by
  refine (hwire _ _).trans ((Dev.forN_keeps _ (p := p) (fun d t => ?_) 4).trans (hstat _ _))
  split
  · exact houts _ _
  · rfl

theorem Dev.hldRetRise_keeps (hpins : ∀ (d : Dev) x, p { d with pins := x } = p d) : p s.hldRetRise = p s := by
  unfold Dev.hldRetRise
  split
  · exact hpins _ _
  · rfl

theorem Dev.bankRetention_keeps (hbank : ∀ (d : Dev) b x, p (d.setBank b x) = p d) (hpins : ∀ (d : Dev) x, p { d with pins := x } = p d)
    (e : Nat) : p (s.bankRetention e) = p s := by
  unfold Dev.bankRetention
  dsimp only
  split
  · rfl
  · split
    · rfl
    · exact (Dev.hldRetRise_keeps _ hpins).trans (foldl_keeps _ _ (fun d b _ => hbank d b _) s)

theorem Dev.emulationEnds_keeps (hfab : ∀ (d : Dev) x, p { d with fab := x } = p d) (hbank : ∀ (d : Dev) b x, p (d.setBank b x) = p d)
    (hpins : ∀ (d : Dev) x, p { d with pins := x } = p d) (hself : ∀ d : Dev, p d.selfRefresh = p d)
    (hmode : ∀ d : Dev, p (d.setFlag B.LH F.LH_MODE_EMULATED false) = p d) : p s.emulationEnds = p s := by
  have slept : p (s.forN 32 Dev.slackReal) = p s := by
    refine Dev.forN_keeps _ (p := p) (fun d e => ?_) 32
    unfold Dev.slackReal
    split
    · exact (Dev.bankRetention_keeps _ hbank hpins e).trans (hfab _ _)
    · exact (Dev.bankRetention_keeps _ hbank hpins e).trans (hfab _ _)
    · rfl
  unfold Dev.emulationEnds
  dsimp only
  split
  · exact (Dev.hldRetRise_keeps _ hpins).trans ((hmode _).trans ((hself _).trans slept))
  · exact slept

/-- What the end of an attachment leaves alone. -/
theorem Dev.attachEnds_keeps (o : Overlooks p fun _ => True) (houts : ∀ (d : Dev) x, p { d with net := { d.net with outs := x } } = p d)
    (hwire : ∀ (d : Dev) x, p { d with wire := x } = p d) (hiface : ∀ (d : Dev) i x, p (d.setIface i x) = p d)
    (hfab : ∀ (d : Dev) x, p { d with fab := x } = p d) (hbank : ∀ (d : Dev) b x, p (d.setBank b x) = p d)
    (hpins : ∀ (d : Dev) x, p { d with pins := x } = p d) (hself : ∀ d : Dev, p d.selfRefresh = p d)
    (hmode : ∀ d : Dev, p (d.setFlag B.LH F.LH_MODE_EMULATED false) = p d) : p s.attachEnds = p s := by
  cases h : s.attached with
  | false => rw [s.attachEnds_detached h]
  | true =>
    have closed (d : Dev) : p (d.closeSession 2) = p d := by
      unfold Dev.closeSession
      dsimp only
      split
      · rfl
      · exact (event_keeps o _ _ _ (.inl trivial)).trans (hiface _ _ _)
    rw [s.attachEnds_attached h, Dev.emulationEnds_keeps _ hfab hbank hpins hself hmode, event_keeps o _ _ _ (.inl trivial), closed,
      Dev.wireAbandoned_keeps _ o.dbg houts hwire]

end

/-- EMULATED is a field of LH_MODE beside the mode. -/
theorem Dev.mode_setEmulated (b : Bool) : (s.setFlag B.LH F.LH_MODE_EMULATED b).mode = s.mode :=
  congrArg Mode.ofCode (Dev.fld_setFld_field _ _ F.LH_MODE_EMULATED F.LH_MODE_MODE _ (by decide) rfl (.inl (by decide)))

@[simp] theorem Dev.attachEnds_mode : s.attachEnds.mode = s.mode :=
  s.attachEnds_keeps mode_overlooks (fun _ _ => rfl) (fun _ _ => rfl) (fun _ _ _ => rfl) (fun _ _ => rfl) (fun _ _ _ => rfl) (fun _ _ => rfl)
    (fun d => d.selfRefresh_keeps (p := Dev.mode) fun _ _ _ => rfl) fun d => d.mode_setEmulated false

@[simp] theorem Dev.attachEnds_clk : s.attachEnds.clk = s.clk :=
  s.attachEnds_keeps (clk_overlooks _) (fun _ _ => rfl) (fun _ _ => rfl) (fun _ _ _ => rfl) (fun _ _ => rfl) (fun _ _ _ => rfl) (fun _ _ => rfl)
    (fun d => d.selfRefresh_keeps (p := Dev.clk) fun _ _ _ => rfl) fun _ => rfl

/-- No debugger is attached (R504). -/
theorem Dev.attachEnds_ends : s.attachEnds.attached = false := by
  cases h : s.attached with
  | false => rw [s.attachEnds_detached h, h]
  | true =>
    have closed (d : Dev) : (d.closeSession 2).attached = d.attached := by
      unfold Dev.closeSession
      dsimp only
      split
      · rfl
      · exact Dev.attached_event _ _ _
    rw [s.attachEnds_attached h, Dev.emulationEnds_keeps _ (p := Dev.attached) (fun _ _ => rfl) (fun _ _ _ => rfl) (fun _ _ => rfl)
      (fun d => d.selfRefresh_keeps (p := Dev.attached) fun _ _ _ => rfl) (fun d => d.attached_setReg (by decide) (.inl (by decide)) _),
      Dev.attached_event, closed]
    refine (Dev.forN_keeps (s.setFlag B.DBG F.DBG_STAT_ATTACHED false) (p := Dev.attached) (fun d t => ?_) 4).trans
      (s.flag_setFlag _ _ _ (by decide) rfl)
    split <;> rfl

@[simp] theorem Dev.event_wire (b n : Nat) : (s.event b n).wire = s.wire := congrArg (·.wire) (s.event_core b n)

/-- The wire's operations are gone and its session is closed (R504). -/
theorem Dev.attachEnds_wire (h : s.attached = true) : s.attachEnds.wire.ops = [] ∧ (s.attachEnds.iface 2).sess = 0 := by
  have kept := Dev.emulationEnds_keeps ((s.wireAbandoned.closeSession 2).event B.DBG 4) (p := fun d => (d.wire, d.sec)) (fun _ _ => rfl)
    (fun _ _ _ => rfl) (fun _ _ => rfl) (fun d => d.selfRefresh_keeps (p := fun d => (d.wire, d.sec)) fun _ _ _ => rfl) fun _ => rfl
  have wire := congrArg Prod.fst kept
  have sec := congrArg Prod.snd kept
  dsimp only at wire sec
  rw [s.attachEnds_attached h]
  refine ⟨?_, ?_⟩
  · have closed : (s.wireAbandoned.closeSession 2).wire = s.wireAbandoned.wire := by
      unfold Dev.closeSession
      dsimp only
      split
      · rfl
      · exact Dev.event_wire _ _ _
    rw [wire, Dev.event_wire, closed]
    rfl
  · rw [Dev.iface_of_sec (sec.trans (Dev.event_sec _ _ _)), Dev.iface_closeSession, if_pos rfl]

/-- The pieces at the controllers and the arbiters' grants stay (R267, R517). -/
theorem Dev.attachEnds_writesDone (h : s.writesDone) : s.attachEnds.writesDone := by
  have piece (k : Nat) : (s.attachEnds.dmc k).pieces = (s.dmc k).pieces := by
    refine s.attachEnds_keeps (p := fun d : Dev => (d.dmc k).pieces)
      ⟨fun _ _ _ _ => rfl, fun _ _ => rfl, fun _ _ _ => rfl, fun _ _ => rfl, fun _ _ _ => rfl⟩
      (fun _ _ => rfl) (fun _ _ => rfl) (fun _ _ _ => rfl) (fun _ _ => rfl) (fun _ _ _ => rfl) (fun _ _ => rfl) (fun d => ?_) fun _ => rfl
    refine d.forN_keeps (p := fun d : Dev => (d.dmc k).pieces) (fun d j => ?_) 8
    dsimp only
    split
    · rfl
    · rw [Dev.dmc, Dev.setDmc, Map.get_set]
      split
      · next same => rw [same]
      · rfl
  have grants : s.attachEnds.net.arbs = s.net.arbs :=
    s.attachEnds_keeps (p := fun d : Dev => d.net.arbs)
      ⟨fun _ _ _ _ => rfl, fun _ _ => rfl, fun _ _ _ => rfl, fun _ _ => rfl, fun _ _ _ => rfl⟩
      (fun _ _ => rfl) (fun _ _ => rfl) (fun _ _ _ => rfl) (fun _ _ => rfl) (fun _ _ _ => rfl) (fun _ _ => rfl)
      (fun d => d.selfRefresh_keeps (p := fun d : Dev => d.net.arbs) fun _ _ _ => rfl) fun _ => rfl
  intro k hk
  obtain ⟨grant, writes⟩ := h k hk
  refine ⟨?_, ?_⟩
  · rw [Dev.arb, grants]
    exact grant
  · rw [piece k]
    exact writes

end Sys2Proof.Machine
end

