-- ==== Sys2Proof/Proofs/WireLine.lean ====
section
/-! SUPPORT. Proofs/WireLine.lean: the line of the wire, its requests and their replies (R496 to R505). -/

namespace Sys2Proof.Machine

variable (s : Dev)

/-! ### Hearing and replying -/

/-- The device that has heard a request (R504). -/
def Dev.heard (s : Dev) : Dev := { s with wire := { s.wire with lastRequest := s.clk.time, waitBreak := false } }

theorem Dev.wireHears_heard (f : Dev → Dev) (h : s.clk.island = true) : s.wireHears f = f s.heard := if_neg (by simp [h])

theorem Dev.mode_heard : s.heard.mode = s.mode := rfl

section
variable {s} {d : Dev}

/-- A reply in the mode that the request was sent in says what it holds. -/
theorem Dev.wireReply_says (hm : d.mode = s.mode) (st : Status) (tag : Nat) (pending : Bool) (data : List Byte) :
    wireSays s (d.wireReply st tag pending data).settle st tag pending data := by
  rw [wireSays, settle_replyBytes, wireStatus, ← hm]
  rfl

theorem Dev.wireReply_settle_mem (st : Status) (tag : Nat) (pending : Bool) (data : List Byte) :
    (d.wireReply st tag pending data).settle.mem = d.mem := settle_mem _

theorem Dev.wireReply_settle_wire (st : Status) (tag : Nat) (pending : Bool) (data : List Byte) :
    (d.wireReply st tag pending data).settle.wire = d.wire := settle_wire _

theorem Dev.wireReply_settle_attached (st : Status) (tag : Nat) (pending : Bool) (data : List Byte) :
    (d.wireReply st tag pending data).settle.attached = d.attached := settle_attached _

end

/-- The device whose request is discarded after a framing error (R496). -/
def Dev.wireCut (s : Dev) : Dev := { s with wire := { s.wire with waitBreak := true }, replyBytes := [] }

/-- The device whose wire waits for no break. -/
def Dev.wireRested (s : Dev) : Dev := { s with wire := { s.wire with waitBreak := false } }

theorem Dev.mode_wireCut : s.wireCut.mode = s.mode := rfl
theorem Dev.fld_wireCut (b : Nat) (f : Fld) : s.wireCut.fld b f = s.fld b f := rfl
theorem Dev.mem_wireCut : s.wireCut.mem = s.mem := rfl
theorem Dev.mode_wireRested : s.wireRested.mode = s.mode := rfl
theorem Dev.fld_wireRested (b : Nat) (f : Fld) : s.wireRested.fld b f = s.fld b f := rfl
theorem Dev.mem_wireRested : s.wireRested.mem = s.mem := rfl

theorem Dev.wireErr_counts (h : s.clk.island = true) : s.wireErr = s.wireCut.wireErrCount F.DBG_WIRE_CNT_FRAME_CNT := if_neg (by simp [h])

theorem Dev.wireMalformed_crc (h : s.clk.island = true) :
    s.wireMalformed .crc = (s.wireRested.wireErrCount F.DBG_WIRE_CNT_CRC_CNT).wireReply .format 0 false [] := if_neg (by simp [h])

theorem Dev.wireMalformed_format (t : Fin 4) (h : s.clk.island = true) :
    s.wireMalformed (.format t) = s.heard.wireReply .format t.val false [] := by
  rw [Dev.wireMalformed, s.wireHears_heard _ h]

/-- A wire error outside Beacon (R465, R518). -/
theorem Dev.wireErrCount_counts (f : Fld) (h : s.mode ≠ .beacon) : s.wireErrCount f = (s.count B.DBG f).event B.DBG 3 := if_neg h

section
variable {f : Fld} (hf : f.off < blockBytes)
include hf

theorem Dev.wireErrCount_mode : (s.wireErrCount f).mode = s.mode := by
  unfold Dev.wireErrCount
  split
  · rfl
  · rw [Dev.mode_event]
    exact s.mode_setFld (by decide) hf _

theorem Dev.wireErrCount_fld (h : s.mode ≠ .beacon) (ho : f.off ≠ O.EVT_STATUS) (hd : f.off ≠ O.DBG_STAT) (hw : f.lo + f.w ≤ 32) :
    (s.wireErrCount f).fld B.DBG f = satAdd f.w (s.fld B.DBG f) 1 := by
  rw [s.wireErrCount_counts f h, Dev.event_fld _ _ _ _ _ hf ho (.inr hd), Dev.fld_count _ _ _ hw]

end

theorem Dev.wireErrCount_wire (f : Fld) : (s.wireErrCount f).wire = s.wire := by
  unfold Dev.wireErrCount
  split
  · rfl
  · exact Dev.event_wire _ _ _

theorem Dev.wireErrCount_mem (f : Fld) : (s.wireErrCount f).mem = s.mem := by
  unfold Dev.wireErrCount
  split
  · rfl
  · exact Dev.event_mem _ _ _

theorem Dev.wireErrCount_replyBytes (f : Fld) : (s.wireErrCount f).replyBytes = s.replyBytes := by
  unfold Dev.wireErrCount
  split
  · rfl
  · exact congrArg (·.replyBytes) (Dev.event_core _ _ _)

/-- Settles O43: pulses and errors by what they write; a reset and a timeout by what the end of the attachment leaves. -/
theorem wireLine : Obligations.WireLine := by
  intro s hi
  have awake : (!s.dev.clk.island) ≠ true := by simp [hi]
  refine ⟨?break_, fun hm => ?error, fun hm => ?crc, fun t => ?format, fun hm hr hw => ?reset, fun ht hm => ?timeout, fun ht => ?early⟩
  case break_ =>
    have becomes : Becomes .wireBreak s s.dev.wireBreak := exec_wireBreak s
    rw [Dev.wireBreak, if_neg awake] at becomes
    exact becomes.completes ⟨settle_wire _, settle_replyBytes _, settle_mem _⟩
  case error =>
    have becomes : Becomes .wireErr s s.dev.wireErr := exec_wireErr s
    rw [s.dev.wireErr_counts hi] at becomes
    refine becomes.completes ⟨?_, ?_, ?_, ?_⟩
    · rw [settle_wire, Dev.wireErrCount_wire, Dev.wireCut]
    · rw [settle_replyBytes, Dev.wireErrCount_replyBytes, Dev.wireCut]
    · rw [settle_fld _ _ _ (by decide) (by decide) (.inr (by decide)), Dev.wireErrCount_fld s.dev.wireCut (f := F.DBG_WIRE_CNT_FRAME_CNT)
        (by decide) (s.dev.mode_wireCut ▸ hm) (by decide) (by decide) (by decide), Dev.fld_wireCut]
    · rw [settle_mem, Dev.wireErrCount_mem, Dev.mem_wireCut]
  case crc =>
    have becomes : Becomes (.wireRequestMalformed .crc) s (s.dev.wireMalformed .crc) := exec_wireRequestMalformed _ s
    rw [s.dev.wireMalformed_crc hi] at becomes
    have mode := (Dev.wireErrCount_mode s.dev.wireRested (f := F.DBG_WIRE_CNT_CRC_CNT) (by decide)).trans s.dev.mode_wireRested
    refine becomes.completes ⟨Dev.wireReply_says mode _ _ _ _, ?_, ?_, ?_⟩
    · rw [settle_fld _ _ _ (by decide) (by decide) (.inr (by decide)), ← s.dev.fld_wireRested,
        ← Dev.wireErrCount_fld s.dev.wireRested (f := F.DBG_WIRE_CNT_CRC_CNT) (by decide) (s.dev.mode_wireRested ▸ hm) (by decide) (by decide)
          (by decide)]
      rfl
    · rw [Dev.wireReply_settle_wire, Dev.wireErrCount_wire, Dev.wireRested]
    · rw [Dev.wireReply_settle_mem, Dev.wireErrCount_mem, Dev.mem_wireRested]
  case format =>
    have becomes : Becomes (.wireRequestMalformed (.format t)) s (s.dev.wireMalformed (.format t)) := exec_wireRequestMalformed _ s
    rw [s.dev.wireMalformed_format t hi] at becomes
    refine becomes.completes ⟨Dev.wireReply_says s.dev.mode_heard _ _ _ _, ?_, ?_⟩
    · rw [Dev.wireReply_settle_wire, Dev.heard]
    · rw [Dev.wireReply_settle_mem, Dev.heard]
  case reset =>
    have becomes : Becomes .wireReset s s.dev.wireReset := exec_wireReset s
    have running : s.dev.attachEnds.resetting = false := by rw [Dev.resetting, Dev.attachEnds_clk, ← Dev.resetting, hr]
    have allowed := Dev.resetAllowed_hard (s := s.dev.attachEnds) (.inr rfl) (by rwa [Dev.attachEnds_mode])
    rw [Dev.wireReset, if_neg hm, Dev.resetRequest_begins _ running allowed (s.dev.attachEnds_writesDone hw)] at becomes
    refine becomes.completes ⟨?_, ?_, ?_⟩
    · rw [settle_clk, Dev.resetBegun_phase]
    · rw [settle_fld _ _ _ (by decide) (by decide) (.inl (by decide)), Dev.resetBegun_last _ (by decide)]
    · rw [settle_attached, Dev.attached, Dev.flag, Dev.resetBegun_fld_ne _ _ _ _ (by decide) (by decide)]
      exact s.dev.attachEnds_ends
  case timeout =>
    have becomes : Becomes .attachTimeout s s.dev.attachTimeout := exec_attachTimeout s
    rw [Dev.attachTimeout, if_pos ht] at becomes
    refine becomes.completes ⟨?_, ?_⟩
    · rw [settle_attached, Dev.attachEnds_ends]
    · rw [settle_mode, Dev.attachEnds_mode]
  case early =>
    have becomes : Becomes .attachTimeout s s.dev.attachTimeout := exec_attachTimeout s
    rwa [Dev.attachTimeout, if_neg (by omega)] at becomes

/-! ### Requests -/

/-- A read of the log leaves the mode (R537). -/
theorem Dev.mode_flogRead : s.flogRead.mode = s.mode := by
  have status (d : Dev) {f : Fld} (v : Nat) (ho : blockBytes * B.LH + F.LH_MODE_MODE.off ≠ blockBytes * B.LH + f.off) :
      (d.setFld B.LH f v).mode = d.mode := congrArg Mode.ofCode (d.fld_setFld_ne _ _ _ _ _ ho)
  unfold Dev.flogRead
  split
  · exact status _ _ (by decide)
  · split
    · rfl
    · exact status _ _ (by decide)

/-- A read of the island space leaves the mode. -/
theorem Dev.mode_islandRead (off : Nat) : (s.islandRead off).2.mode = s.mode := by
  have dbg (o : Nat) (ho : o < blockBytes) (w : Word) : (s.setReg B.DBG o w).mode = s.mode := s.mode_setReg (by decide) ho w
  unfold Dev.islandRead
  dsimp only
  split
  · show (s.readActs .wire B.LH _ false).mode = s.mode
    rw [Dev.readActs, if_neg (by decide), if_neg (by decide), if_pos rfl]
    split
    · exact s.mode_flogRead
    · rfl
  · split
    · rfl
    · show (s.readActs .wire B.DBG _ false).mode = s.mode
      rw [Dev.readActs, if_neg (by decide), if_neg (by decide), if_neg (by decide), if_neg (by decide), if_neg (by decide), if_pos rfl]
      split
      · exact dbg _ (by decide) _
      · split
        · exact dbg _ (by decide) _
        · rfl
  · rfl
  · rfl

section
variable {s} (hi : s.clk.island = true)
include hi

theorem Dev.wireId_says (t : Nat) : s.wireId t = s.heard.wireReply .ok t false (leBytes 1 0xA2 ++ leBytes 2 0x8192 ++
    leBytes 1 (s.fld B.SEC F.SEC_LC_STATE) ++ leBytes 1 (s.fld B.LH F.LH_MODE_MODE) ++ leBytes 1 s.attached.toNat) := by
  rw [Dev.wireId, s.wireHears_heard _ hi]
  rfl

/-- The device whose debugger attaches (R504). -/
def Dev.wireAttaches (s : Dev) : Dev := ({ s with wire := { s.wire with ops := [] } }.setFlag B.DBG F.DBG_STAT_ATTACHED true).event B.DBG 4

theorem Dev.wireAttach_attaches (t : Nat) (hm : s.mode ≠ .beacon) (ha : s.attached = false) :
    s.wireAttach t = s.heard.wireAttaches.wireReply .ok t false [] := by
  have detached : s.heard.attached ≠ true := ne_of_eq_of_ne ha (by decide)
  rw [Dev.wireAttach, s.wireHears_heard _ hi, if_neg (s.mode_heard ▸ hm), if_neg detached, Dev.wireAttaches]

theorem Dev.wireAttach_beacon (t : Nat) (hm : s.mode = .beacon) : s.wireAttach t = s.heard.wireReply .state t false [] := by
  rw [Dev.wireAttach, s.wireHears_heard _ hi, if_pos (s.mode_heard ▸ hm)]

theorem Dev.wireIrd_reads (t : Nat) {off : Nat} (h : islandHas off = true) :
    s.wireIrd t off = (s.heard.islandRead off).2.wireReply .ok t false (leBytes 4 (s.heard.islandRead off).1.toNat) := by
  rw [Dev.wireIrd, s.wireHears_heard _ hi, if_neg (by simp [h])]

theorem Dev.wireIrd_range (t : Nat) {off : Nat} (h : islandHas off = false) :
    s.wireIrd t off = s.heard.wireReply .range t false (leBytes 4 0) := by
  rw [Dev.wireIrd, s.wireHears_heard _ hi, if_pos (by simp [h])]

section
variable (t : Nat) {off : Nat} (w : Word)

theorem Dev.wireIwr_range (h : islandHas off = false) : s.wireIwr t off w = s.heard.wireReply .range t false [] := by
  rw [Dev.wireIwr, s.wireHears_heard _ hi]
  dsimp only
  rw [if_pos (by simp [h])]

variable (hh : islandHas off = true)
include hh

theorem Dev.wireIwr_lh (hm : s.mode ≠ .beacon) (hr : off / 16384 = 0) :
    s.wireIwr t off w = (s.heard.writeReg .wire B.LH (off % 16384) w).wireReply .ok t false [] := by
  rw [Dev.wireIwr, s.wireHears_heard _ hi]
  dsimp only
  rw [if_neg (by simp [hh]), hr, if_neg (by simp), if_neg (s.mode_heard ▸ hm)]
  rfl

theorem Dev.wireIwr_dbg (hm : s.mode ≠ .beacon) (hr : off / 16384 = 1) (hd : s.mayDo (some 2) .debug = true) :
    s.wireIwr t off w = (s.heard.writeReg .wire B.DBG (off % 16384) w).wireReply .ok t false [] := by
  have allowed : s.heard.mayDo (some 2) .debug = true := hd
  rw [Dev.wireIwr, s.wireHears_heard _ hi]
  dsimp only
  rw [if_neg (by simp [hh]), hr, if_neg (by simp [allowed]), if_neg (s.mode_heard ▸ hm)]
  rfl

theorem Dev.wireIwr_denied (hr : off / 16384 = 1) (hd : s.mayDo (some 2) .debug = false) :
    s.wireIwr t off w = s.heard.wireReply .denied t false [] := by
  have refused : s.heard.mayDo (some 2) .debug = false := hd
  rw [Dev.wireIwr, s.wireHears_heard _ hi]
  dsimp only
  rw [if_neg (by simp [hh]), if_pos (by simp [hr, refused])]

theorem Dev.wireIwr_beacon (hm : s.mode = .beacon) (hr : off / 16384 ≠ 1) (hlt : off < 65536) :
    s.wireIwr t off w = s.heard.wireReply .state t false [] := by
  rw [Dev.wireIwr, s.wireHears_heard _ hi]
  dsimp only
  have region : off / 16384 % 4 ≠ 1 := by omega
  rw [if_neg (by simp [hh]), if_neg (by simp [region]), if_pos (s.mode_heard ▸ hm)]

end

theorem Dev.wirePoll_pending (t : Nat) (hm : s.mode ≠ .beacon) (hu : (s.wireOp t).used = true) (hp : (s.wireOp t).pending = true) :
    s.wirePoll t = s.heard.wireReply .ok t true (leBytes 4 0) := by
  have same : s.heard.wireOp t = s.wireOp t := rfl
  rw [Dev.wirePoll, s.wireHears_heard _ hi, same, s.mode_heard]
  dsimp only
  rw [if_neg (by simp [hm, hu]), if_pos hp]

theorem Dev.wirePoll_finished (t : Nat) (hm : s.mode ≠ .beacon) (hu : (s.wireOp t).used = true) (hp : (s.wireOp t).pending = false)
    (hr : (s.wireOp t).isRead = true) :
    s.wirePoll t = s.heard.wireReply (s.wireOp t).status t false (leBytes 4 (s.wireOp t).data.toNat) := by
  have same : s.heard.wireOp t = s.wireOp t := rfl
  rw [Dev.wirePoll, s.wireHears_heard _ hi, same, s.mode_heard]
  dsimp only
  rw [if_neg (by simp [hm, hu]), if_neg (by simp [hp]), if_pos hr]

end

/-- The device with what an RD or WR that is refused for its address leaves on its tag (R502). -/
theorem completes_wireRange {st : State} {c : Instr} {t op a : Nat} {data : List Byte} {peek : Bool}
    (hc : exec c st = run (fun d => d.wireIssue t op a data peek) st) (hi : st.dev.clk.island = true) (ha : a % 4 ≠ 0 ∨ addrBad a 4 = true) :
    Completes c st (fun d => wireSays st.dev d .range t false [] ∧ d.net = st.dev.net ∧ d.mem = st.dev.mem) := by
  have becomes : Becomes c st (st.dev.wireIssue t op a data peek) := hc
  rw [Dev.wireIssue, st.dev.wireHears_heard _ hi] at becomes
  dsimp only at becomes
  rw [if_pos (by simpa using ha)] at becomes
  split at becomes
  · exact becomes.completes ⟨Dev.wireReply_says rfl _ _ _ _, settle_net _, settle_mem _⟩
  · exact becomes.completes ⟨Dev.wireReply_says rfl _ _ _ _, settle_net _, settle_mem _⟩

/-- An RD or WR that nothing refuses is a request of the wire initiator (R502). -/
theorem becomes_wireIssue {st : State} {c : Instr} {t op a : Nat} {data : List Byte} {peek : Bool}
    (hc : exec c st = run (fun d => d.wireIssue t op a data peek) st) (hi : st.dev.clk.island = true) (hn : st.dev.wireCarries a = true)
    (hp : (st.dev.wireOp t).pending = false) (ha : a % 4 = 0) (hb : addrBad a 4 = false) :
    Becomes c st (((st.dev.heard.setWireOp t { used := true, pending := true, isRead := op == 1 }).request
      { src := .wire, tag := t, op, addr := a, len := 4, data, dst := st.dev.destNode a, peek }).wireReply .ok t true []) := by
  have becomes : Becomes c st (st.dev.wireIssue t op a data peek) := hc
  have carries : st.dev.heard.wireCarries a = true := hn
  have free : (st.dev.heard.wireOp t).pending = false := hp
  rw [Dev.wireIssue, st.dev.wireHears_heard _ hi] at becomes
  dsimp only at becomes
  rwa [if_neg (by simp [ha, hb]), carries, free, if_neg (by decide)] at becomes

/-- Settles O44: every request by the reply of the device that has heard it. -/
theorem wireRequests : Obligations.WireRequests := by
  intro s t hi
  have heard := s.dev.mode_heard
  refine ⟨?id, fun hm ha => ?attach, fun hm => ?noAttach, fun hm => ?detach, fun off h => ?ird, fun off h => ?noIrd, fun off w h => ?noIwr,
    fun off w h => ⟨fun hm hr => ?lh, fun hm hr hd => ?dbg, fun hr hd => ?denied, fun hr hm => ?beacon⟩,
    fun a peek w h => ⟨completes_wireRange (exec_rd t a peek s) hi h, completes_wireRange (exec_wr t a w s) hi h⟩,
    fun a peek w hn hp ha hb => ⟨becomes_wireIssue (exec_rd t a peek s) hi hn hp ha hb, becomes_wireIssue (exec_wr t a w s) hi hn hp ha hb⟩,
    fun hm hu => ⟨fun hp => ?pending, fun hp hr => ?finished⟩⟩
  case id =>
    have becomes : Becomes (.wireId t) s (s.dev.wireId t.val) := exec_wireId t s
    rw [Dev.wireId_says hi] at becomes
    exact becomes.completes (Dev.wireReply_says heard _ _ _ _)
  case attach =>
    have becomes : Becomes (.attach t) s (s.dev.wireAttach t.val) := exec_attach t s
    rw [Dev.wireAttach_attaches hi _ hm ha] at becomes
    have mode : s.dev.heard.wireAttaches.mode = s.dev.mode := by
      rw [Dev.wireAttaches, Dev.mode_event]
      exact Dev.mode_setFld _ (by decide) (by decide) _
    refine becomes.completes ⟨Dev.wireReply_says mode _ _ _ _, ?_, ?_, ?_⟩
    · rw [Dev.wireReply_settle_attached, Dev.wireAttaches, Dev.attached_event]
      exact Dev.flag_setFlag _ _ _ _ (by decide) rfl
    · rw [Dev.wireReply_settle_wire, Dev.wireAttaches, Dev.event_wire]
      rfl
    · rw [Dev.wireReply_settle_mem, Dev.wireAttaches, Dev.event_mem]
      rfl
  case noAttach =>
    have becomes : Becomes (.attach t) s (s.dev.wireAttach t.val) := exec_attach t s
    rw [Dev.wireAttach_beacon hi _ hm] at becomes
    exact becomes.completes ⟨Dev.wireReply_says heard _ _ _ _, Dev.wireReply_settle_attached _ _ _ _, Dev.wireReply_settle_mem _ _ _ _⟩
  case detach =>
    have becomes : Becomes (.detach t) s (s.dev.wireDetach t.val) := exec_detach t s
    rw [Dev.wireDetach, s.dev.wireHears_heard _ hi] at becomes
    refine becomes.completes ⟨Dev.wireReply_says ((Dev.attachEnds_mode _).trans heard) _ _ _ _, ?_, fun ha => ?_⟩
    · rw [Dev.wireReply_settle_attached, Dev.attachEnds_ends]
    · obtain ⟨ops, closed⟩ := s.dev.heard.attachEnds_wire ha
      refine ⟨?_, ?_⟩
      · rw [Dev.wireReply_settle_wire, ops]
      · rw [Dev.iface_of_sec (settle_sec _)]
        exact closed
  case ird =>
    have becomes : Becomes (.ird t off) s (s.dev.wireIrd t.val off.toNat) := exec_ird t off s
    rw [Dev.wireIrd_reads hi _ h] at becomes
    exact becomes.completes (Dev.wireReply_says ((Dev.mode_islandRead _ _).trans heard) _ _ _ _)
  case noIrd =>
    have becomes : Becomes (.ird t off) s (s.dev.wireIrd t.val off.toNat) := exec_ird t off s
    rw [Dev.wireIrd_range hi _ h] at becomes
    exact becomes.completes ⟨Dev.wireReply_says heard _ _ _ _, Dev.wireReply_settle_mem _ _ _ _⟩
  case noIwr =>
    have becomes : Becomes (.iwr t off w) s (s.dev.wireIwr t.val off.toNat w) := exec_iwr t off w s
    rw [Dev.wireIwr_range hi _ _ h] at becomes
    exact becomes.completes ⟨Dev.wireReply_says heard _ _ _ _, Dev.wireReply_settle_mem _ _ _ _⟩
  case lh =>
    have becomes : Becomes (.iwr t off w) s (s.dev.wireIwr t.val off.toNat w) := exec_iwr t off w s
    rwa [Dev.wireIwr_lh hi _ _ h hm hr] at becomes
  case dbg =>
    have becomes : Becomes (.iwr t off w) s (s.dev.wireIwr t.val off.toNat w) := exec_iwr t off w s
    rwa [Dev.wireIwr_dbg hi _ _ h hm hr hd] at becomes
  case denied =>
    have becomes : Becomes (.iwr t off w) s (s.dev.wireIwr t.val off.toNat w) := exec_iwr t off w s
    rw [Dev.wireIwr_denied hi _ _ h hr hd] at becomes
    exact becomes.completes ⟨Dev.wireReply_says heard _ _ _ _, Dev.wireReply_settle_mem _ _ _ _⟩
  case beacon =>
    have becomes : Becomes (.iwr t off w) s (s.dev.wireIwr t.val off.toNat w) := exec_iwr t off w s
    rw [Dev.wireIwr_beacon hi _ _ h hm hr off.isLt] at becomes
    exact becomes.completes ⟨Dev.wireReply_says heard _ _ _ _, Dev.wireReply_settle_mem _ _ _ _⟩
  case pending =>
    have becomes : Becomes (.poll t) s (s.dev.wirePoll t.val) := exec_poll t s
    rw [Dev.wirePoll_pending hi _ hm hu hp] at becomes
    exact becomes.completes ⟨Dev.wireReply_says heard _ _ _ _, (congrArg WireSt.ops (Dev.wireReply_settle_wire _ _ _ _) :),
      Dev.wireReply_settle_mem _ _ _ _⟩
  case finished =>
    have becomes : Becomes (.poll t) s (s.dev.wirePoll t.val) := exec_poll t s
    rw [Dev.wirePoll_finished hi _ hm hu hp hr] at becomes
    exact becomes.completes ⟨Dev.wireReply_says heard _ _ _ _, (congrArg WireSt.ops (Dev.wireReply_settle_wire _ _ _ _) :),
      Dev.wireReply_settle_mem _ _ _ _⟩

end Sys2Proof.Machine
end

