-- ==== Sys2Proof/Proofs/RunControl.lean ====
section
/-! SUPPORT. Proofs/RunControl.lean: DBG_CTRL's commands and the resume instant (R507, R509, R511 to R513, R518). -/

namespace Sys2Proof.Machine

variable (s : Dev)

/-! ### DBG_CTRL -/

/-- DBG_CTRL's commands by their number (R518). -/
def Dev.dbgRun (s : Dev) (lockstep : Bool) : Nat → Dev
  | 1 => s.dbgHalt lockstep
  | 2 => s.dbgResume lockstep
  | 3 => s.dbgStep lockstep
  | _ => s

theorem Dev.dbgCtrl_op (data : Word) {op : Nat} (h : op ∈ [1, 2, 3]) :
    s.dbgCtrl (withField data 0 2 op) = s.dbgRun (nbit (withField data 0 2 op).toNat 2) op := by
  have lt : op < 4 := by simp only [List.mem_cons, List.not_mem_nil, or_false] at h; omega
  have field : (withField data 0 2 op).toNat % 4 = op := by
    have field := nfield_withField data 0 2 op (by decide)
    rw [nfield, Nat.shiftRight_zero] at field
    exact field.trans (Nat.mod_eq_of_lt lt)
  simp only [List.mem_cons, List.not_mem_nil, or_false] at h
  rcases h with rfl | rfl | rfl <;> simp only [Dev.dbgCtrl, field, Dev.dbgRun]

/-- A write to DBG_CTRL is a command of run control (R518). -/
theorem becomes_dbgRun {st : State} {c : Instr} {src : RegSrc} {data : Word} {op : Nat}
    (hc : exec c st = run (fun d => d.command src B.DBG O.DBG_CTRL (withField data 0 2 op)) st) (h : op ∈ [1, 2, 3])
    (hw : st.dev.writes src B.DBG O.DBG_CTRL (withField data 0 2 op)) :
    Becomes c st (st.dev.dbgRun (nbit (withField data 0 2 op).toNat 2) op).okReply := by
  have becomes := becomes_command hc (by decide) hw
  rwa [Dev.writeReg_own _ _ _ (k := .dbg) rfl (by decide) (by decide), Dev.writeKind, show blkKind B.DBG = some .dbg from rfl, Dev.writeDBG,
    if_pos rfl, Dev.dbgCtrl_op _ _ h] at becomes

/-! ### A device whose lines stay as they are -/

section
variable {s} {d : Dev}

/-- A device with the ports, the clocks, the mode and the ergs of another, and so the same sources of its lines (R362). -/
structure Dev.SameLines (d s : Dev) : Prop where
  ports : d.ports = s.ports
  clk : d.clk = s.clk
  mode : d.mode = s.mode
  ergs : d.ergs = s.ergs

/-- What the end of a command of DBG and the settling of the outputs leave of a device whose lines show. -/
structure Dev.RunEnds (e d : Dev) (st : Status) : Prop where
  run : e.run = d.run
  tide : e.tide = d.tide
  mode : e.mode = d.mode
  mem : e.mem = d.mem
  last : e.fld B.DBG F.BLK_STATUS_LAST_STATUS = st.code
  fld : ∀ f : Fld, f.off ≠ O.BLK_STATUS → e.fld B.DBG f = d.fld B.DBG f

theorem Dev.SameLines.finish (h : d.SameLines s) (st : Status) : (d.finish B.DBG st).SameLines s where
  ports := (d.finish_keeps B.DBG st (p := Dev.ports) fun _ _ => rfl).trans h.ports
  clk := (d.finish_keeps B.DBG st (p := Dev.clk) fun _ _ => rfl).trans h.clk
  mode := (d.mode_finish (by decide) st).trans h.mode
  ergs := (d.finish_keeps B.DBG st (p := Dev.ergs) fun _ _ => rfl).trans h.ergs

theorem Dev.SameLines.runEnds (h : d.SameLines s) (hl : s.LinesShow) (st : Status) : (d.finish B.DBG st).okReply.settle.RunEnds d st := by
  obtain ⟨hports, hclk, hmode, hergs⟩ := h.finish st
  have sources := Dev.sources_of_same (d := (d.finish B.DBG st).okReply) hl hports hclk hmode hergs
  have regs : (d.finish B.DBG st).okReply.settle.regs = (d.finish B.DBG st).regs := settle_regs_of_sources sources
  have shown (f : Fld) : (d.finish B.DBG st).okReply.settle.fld B.DBG f = (d.finish B.DBG st).fld B.DBG f := by
    rw [Dev.fld, Dev.reg, regs, ← Dev.reg, ← Dev.fld]
  exact {
    run := by
      rw [settle_of_sources _ sources]
      exact d.finish_keeps B.DBG st (p := Dev.run) fun _ _ => rfl
    tide := (settle_tide_of_sources _ sources).trans (d.finish_tide _ _)
    mode := (settle_mode _).trans (hmode.trans h.mode.symm)
    mem := (settle_mem _).trans (d.finish_mem _ _)
    last := (shown _).trans (d.fld_finish _ _)
    fld := fun f hf => (shown f).trans (d.fld_finish_off _ _ hf) }

theorem Dev.SameLines.refl (s : Dev) : s.SameLines s := ⟨rfl, rfl, rfl, rfl⟩

theorem Dev.SameLines.withRun (h : d.SameLines s) (x : RunSt) : { d with run := x }.SameLines s := ⟨h.ports, h.clk, h.mode, h.ergs⟩

theorem Dev.SameLines.setFld (h : d.SameLines s) {f : Fld} (hf : f.off < blockBytes) (v : Nat) : (d.setFld B.DBG f v).SameLines s :=
  ⟨h.ports, h.clk, (d.mode_setFld (by decide) hf v).trans h.mode, h.ergs⟩

end

/-! ### Halting -/

/-- The device that is to halt at the turn into the next tide (R507). -/
def Dev.haltSet (s : Dev) : Dev :=
  { s.setFlag B.DBG F.DBG_STAT_PENDING true with run := { s.run with haltAt := some (s.tide.num + 1, false, 1), haltTide := s.tide.num + 1 } }

theorem Dev.dbgHalt_underway (hm : s.mode = .underway) (hh : s.run.haltAt = none) : s.dbgHalt false = s.haltSet.finish B.DBG .ok := by
  simp only [Dev.dbgHalt, hm, Dev.haltRequest, Dev.haltAt, hh, ne_eq, not_true_eq_false, if_false, Bool.false_eq_true]
  rfl

theorem Dev.dbgHalt_anchored (lockstep : Bool) (hm : s.mode = .anchored) (hr : s.run.resumeAt = none) :
    s.dbgHalt lockstep = s.finish B.DBG .ok := by simp [Dev.dbgHalt, hm, hr]

theorem Dev.dbgHalt_moored (lockstep : Bool) (hm : s.mode = .moored) : s.dbgHalt lockstep = s.finish B.DBG .state := by simp [Dev.dbgHalt, hm]

theorem Dev.haltSet_sameLines : s.haltSet.SameLines s :=
  ((Dev.SameLines.refl s).setFld (f := F.DBG_STAT_PENDING) (by decide) _).withRun _

/-! ### Resuming -/

/-- A RESUME that is not in lockstep (R511). -/
theorem Dev.resumeFrom_single : s.resumeFrom false = s.resumeSoon ((s.eth.time + resumeGrid * 2 ^ 32 - 1) / (resumeGrid * 2 ^ 32) * resumeGrid) := by
  unfold Dev.resumeFrom
  exact if_neg (by decide)

/-- The first instant of the resume grid at or after now (R511). -/
def Dev.gridNow (s : Dev) : Nat := (s.eth.time + resumeGrid * 2 ^ 32 - 1) / (resumeGrid * 2 ^ 32) * resumeGrid

theorem Dev.dbgResume_anchored (hm : s.mode = .anchored) (hr : s.run.resumeAt = none) :
    s.dbgResume false = (s.resumeSoon s.gridNow).finish B.DBG .ok := by
  rw [Dev.gridNow, ← Dev.resumeFrom_single]
  simp [Dev.dbgResume, hm, hr]

theorem Dev.dbgResume_state (lockstep : Bool) (hm : s.mode ≠ .anchored) : s.dbgResume lockstep = s.finish B.DBG .state := by
  unfold Dev.dbgResume
  split
  · next h => exact absurd h hm
  · rfl

theorem Dev.resumeSoon_sameLines (g : Nat) : (s.resumeSoon g).SameLines s :=
  ((Dev.SameLines.refl s).withRun _).setFld (f := F.DBG_STAT_RESUMING) (by decide) _

theorem Dev.resumeSoon_run (g : Nat) : (s.resumeSoon g).run = { s.run with resumeAt := some (g + resumeGrid), resumeShown := g + resumeGrid } := rfl

theorem Dev.resumeSoon_shows (g : Nat) : (s.resumeSoon g).flag B.DBG F.DBG_STAT_RESUMING = true := Dev.flag_setFlag _ _ _ _ (by decide) rfl

/-! ### Stepping -/

/-- The device that is to step `n` tides from the next instant of the grid (R512). -/
def Dev.stepSet (s : Dev) (n : Nat) : Dev :=
  { (s.resumeSoon s.gridNow).setFld B.DBG F.DBG_STAT_STEP_LEFT n with
    run := { (s.resumeSoon s.gridNow).run with stepping := true, stepLockstep := false } }

theorem Dev.dbgStep_none (lockstep : Bool) (hm : s.mode = .anchored) (hr : s.run.resumeAt = none) (hn : s.fld B.DBG F.DBG_STEP_COUNT = 0) :
    s.dbgStep lockstep = s.finish B.DBG .ok := by simp [Dev.dbgStep, hm, hr, hn]

theorem Dev.dbgStep_steps (hm : s.mode = .anchored) (hr : s.run.resumeAt = none) (hn : s.fld B.DBG F.DBG_STEP_COUNT ≠ 0) :
    s.dbgStep false = (s.stepSet (s.fld B.DBG F.DBG_STEP_COUNT)).finish B.DBG .ok := by
  rw [Dev.stepSet, Dev.gridNow, ← Dev.resumeFrom_single]
  simp [Dev.dbgStep, hm, hr, hn]

theorem Dev.dbgStep_state (lockstep : Bool) (hm : s.mode ≠ .anchored) : s.dbgStep lockstep = s.finish B.DBG .state := by
  unfold Dev.dbgStep
  dsimp only
  split
  · next h => exact absurd h hm
  · rfl

theorem Dev.stepSet_sameLines (n : Nat) : (s.stepSet n).SameLines s :=
  ((s.resumeSoon_sameLines _).setFld (f := F.DBG_STAT_STEP_LEFT) (by decide) _).withRun _

theorem Dev.stepSet_run (n : Nat) : (s.stepSet n).run =
    { s.run with resumeAt := some (s.gridNow + resumeGrid), resumeShown := s.gridNow + resumeGrid, stepping := true, stepLockstep := false } := rfl

theorem Dev.stepSet_left (n : Nat) : (s.stepSet n).fld B.DBG F.DBG_STAT_STEP_LEFT = n % 2 ^ F.DBG_STAT_STEP_LEFT.w :=
  Dev.fld_setFld _ _ _ _ (by decide)

/-! ### The resume instant -/

/-- The device whose halted tide starts (R511). -/
def Dev.haltEnds (s : Dev) : Dev :=
  (({ s with run := { s.run with resumeAt := none } }.setFlag B.DBG F.DBG_STAT_RESUMING false).setFlag B.DBG
    F.DBG_STAT_HALTED false).tidesGoOn.event B.DBG 1

theorem Dev.resumed_due {g : Nat} (hg : s.run.resumeAt = some g) (hm : s.mode = .anchored) (hn : g ≤ s.ns) :
    s.resumed = if (!s.run.haltLockstep) = true then s.flagDue.haltEnds.breach 6 0 0 else s.flagDue.haltEnds := by
  have now : ¬ (decide (s.mode ≠ .anchored) || decide (s.ns < g)) = true := by simp [hm, hn]
  unfold Dev.resumed Dev.haltEnds
  rw [hg]
  exact if_neg now

/-- Tides resume where no RESUME flag waits to go out (R509, R511). -/
theorem becomes_resumed {st : State} {g : Nat} (hg : st.dev.run.resumeAt = some g) (hm : st.dev.mode = .anchored) (hn : g ≤ st.dev.ns)
    (hf : st.dev.run.flagAt = none) :
    Becomes .resumed st (if (!st.dev.run.haltLockstep) = true then st.dev.haltEnds.breach 6 0 0 else st.dev.haltEnds) := by
  have due : st.dev.flagDue = st.dev := by rw [Dev.flagDue, hf]
  have becomes : Becomes .resumed st st.dev.resumed := exec_resumed st
  rwa [st.dev.resumed_due hg hm hn, due] at becomes

/-- Settles O45: each command by what it makes of run control; the device's lines stay, so the outputs settle without an event. -/
theorem runControl : Obligations.RunControl := by
  intro s src data peek hout
  have still := Dev.SameLines.refl s.dev
  refine ⟨fun hw => ⟨fun hm hl hh => ?halts, fun hm hr => ?halted, fun hm => ?noHalt⟩,
    fun hw => ⟨fun hm hr hl => ?resumes, fun hm => ?noResume⟩,
    fun hw => ⟨fun hm hr hn => ?noSteps, fun hm hr hn hl => ?steps, fun hm => ?noStep⟩,
    fun g hg hm hn hf hl => ?lockstep, fun g hg hm hn hf hl => ?single, fun hp hr => ?haltTide, fun hp hr => ?resumeAt⟩
  case halts =>
    have becomes := becomes_dbgRun (exec_dbgHalt src data s) (by decide) hw
    rw [hl, Dev.dbgRun, s.dev.dbgHalt_underway hm hh] at becomes
    have ends := s.dev.haltSet_sameLines.runEnds hout.ports .ok
    exact becomes.completes ⟨congrArg RunSt.haltAt ends.run, ends.mode.trans (s.dev.haltSet_sameLines.mode.trans hm), ends.tide, ends.last, ends.mem⟩
  case halted =>
    have becomes := becomes_dbgRun (exec_dbgHalt src data s) (by decide) hw
    rw [Dev.dbgRun, s.dev.dbgHalt_anchored _ hm hr] at becomes
    have ends := still.runEnds hout.ports .ok
    exact becomes.completes ⟨ends.mode.trans hm, ends.run, ends.last, ends.mem⟩
  case noHalt =>
    have becomes := becomes_dbgRun (exec_dbgHalt src data s) (by decide) hw
    rwa [Dev.dbgRun, s.dev.dbgHalt_moored _ hm] at becomes
  case resumes =>
    have becomes := becomes_dbgRun (exec_dbgResume src data s) (by decide) hw
    rw [hl, Dev.dbgRun, s.dev.dbgResume_anchored hm hr] at becomes
    have same := s.dev.resumeSoon_sameLines s.dev.gridNow
    have ends := same.runEnds hout.ports .ok
    refine becomes.completes ⟨ends.run.trans (s.dev.resumeSoon_run _), ?_, ends.mode.trans (same.mode.trans hm), ends.last, ends.mem⟩
    rw [Dev.flag, ends.fld F.DBG_STAT_RESUMING (by decide), ← Dev.flag, Dev.resumeSoon_shows]
  case noResume =>
    have becomes := becomes_dbgRun (exec_dbgResume src data s) (by decide) hw
    rwa [Dev.dbgRun, s.dev.dbgResume_state _ hm] at becomes
  case noSteps =>
    have becomes := becomes_dbgRun (exec_dbgStep src data s) (by decide) hw
    rw [Dev.dbgRun, s.dev.dbgStep_none _ hm hr hn] at becomes
    have ends := still.runEnds hout.ports .ok
    exact becomes.completes ⟨ends.run, ends.last, ends.mem⟩
  case steps =>
    have becomes := becomes_dbgRun (exec_dbgStep src data s) (by decide) hw
    rw [hl, Dev.dbgRun, s.dev.dbgStep_steps hm hr hn] at becomes
    have ends := (s.dev.stepSet_sameLines (s.dev.fld B.DBG F.DBG_STEP_COUNT)).runEnds hout.ports .ok
    exact becomes.completes ⟨ends.run.trans (s.dev.stepSet_run _), (ends.fld _ (by decide)).trans (s.dev.stepSet_left _), ends.last, ends.mem⟩
  case noStep =>
    have becomes := becomes_dbgRun (exec_dbgStep src data s) (by decide) hw
    rwa [Dev.dbgRun, s.dev.dbgStep_state _ hm] at becomes
  case lockstep =>
    have becomes := becomes_resumed hg hm hn hf
    rwa [if_neg (by simp [hl])] at becomes
  case single =>
    have becomes := becomes_resumed hg hm hn hf
    rwa [if_pos (by simp [hl])] at becomes
  case haltTide => exact becomes_read (exec_dbgHaltTideLoRead src peek s) (by decide) (by decide) hp hr
  case resumeAt => exact becomes_read (exec_dbgResumeAtLoRead src peek s) (by decide) (by decide) hp hr

end Sys2Proof.Machine
end

