-- ==== Sys2Proof/Proofs/TestRuns.lean ====
section
/-! SUPPORT. Proofs/TestRuns.lean: slots of dry dock, the patterns of FABRIC slices and runs in Dry dock (R521 to R528). -/

namespace Sys2Proof.Machine

variable (s : Dev)

/-! ### Slots and patterns -/

/-- The device that has served a slot in this tide (R524). -/
def Dev.slotServed (s : Dev) (e stamp : Nat) : Dev :=
  { s with bist := { s.bist with served := Map.set (fun _ => 0) s.bist.served e stamp } }

theorem Dev.drydockSlot_serves {e : Nat} {d : DockSlot} (finds : List TestFind) (hd : s.slotEnded e = some d) (hm : s.mode = .underway)
    (hs : Map.get (fun _ => 0) s.bist.served e ≠ s.tide.num * 65536 + d.tick + 1) :
    s.drydockSlot e finds = if (s.slotServed e (s.tide.num * 65536 + d.tick + 1)).sliceRuns e d.kind = true
      then (s.slotServed e (s.tide.num * 65536 + d.tick + 1)).testSlice e d.kind finds true
      else (s.slotServed e (s.tide.num * 65536 + d.tick + 1)).setLap e d.kind
        { s.lap e d.kind with skips := satAdd 16 (s.lap e d.kind).skips 1 } := by
  unfold Dev.drydockSlot
  rw [hd]
  dsimp only
  rw [if_neg (by simp [hm, hs])]
  rfl

/-- Whether a slice runs does not depend on the slots served. -/
theorem Dev.sliceRuns_slotServed (e stamp e' kind : Nat) : (s.slotServed e stamp).sliceRuns e' kind = s.sliceRuns e' kind := rfl

theorem Dev.lap_setLap (e kind : Nat) (x : LapSt) : (s.setLap e kind x).lap e kind = x := by
  rw [Dev.lap, Dev.setLap, Map.get_set, if_pos rfl]

theorem Dev.lap_of_bist {d e : Dev} (h : d.bist = e.bist) (n kind : Nat) : d.lap n kind = e.lap n kind := by rw [Dev.lap, h, Dev.lap]

/-- A mask that is taken leaves all but the arming and the mask's registers (R530). -/
theorem Dev.takeFlip_keeps {β : Type} {p : Dev → β} (harm : ∀ (d : Dev) x, p { d with flipArmed := x } = p d)
    (hreg : ∀ (d : Dev) b o w, p (d.setReg b o w) = p d) (blk : Nat) : p (s.takeFlip blk).2 = p s := by
  unfold Dev.takeFlip
  split
  · exact (hreg _ _ _ _).trans ((hreg _ _ _ _).trans (harm _ _))
  · rfl

/-- The patterns of a slice stand in plane 7, and nothing else changes but that plane and the mask (R523, R530). -/
theorem Dev.patternWrite_writes {e : Nat} (hl : (s.slot e 7).st = .lent) (hg : s.gated B.BIST = false) (hh : s.halted B.BIST = false)
    (hd : s.inDock e = none) : (e, (s.lap e 0).slice) ∈ (s.patternWrite e).bist.patterns ∧
      ((s.patternWrite e).ergs, (s.patternWrite e).mem) = (s.ergs, s.mem) := by
  have writes : ¬ (decide ((s.slot e 7).st ≠ .lent) || s.gated B.BIST || s.halted B.BIST || (s.inDock e).isSome) = true := by
    simp [hl, hg, hh, hd]
  unfold Dev.patternWrite
  dsimp only
  rw [if_neg writes]
  dsimp only
  refine ⟨List.mem_append_right _ (List.mem_singleton_self _), ?_⟩
  refine s.forN_keeps (p := fun d => (d.ergs, d.mem)) (fun d x => ?_) 16
  dsimp only
  exact d.takeFlip_keeps (p := fun d => (d.ergs, d.mem)) (fun _ _ => rfl) (fun _ _ _ _ => rfl) B.SCRB

/-! ### Runs -/

/-- BIST_DD_CMD's commands (R528). -/
theorem becomes_ddCmd {st : State} {c : Instr} {src : RegSrc} {w : Word} (hc : exec c st = run (fun d => d.command src B.BIST O.BIST_DD_CMD w) st)
    (hw : st.dev.writes src B.BIST O.BIST_DD_CMD w) : Becomes c st (st.dev.ddCmd w).okReply := by
  have becomes := becomes_command hc (by decide) hw
  rwa [Dev.writeReg_own _ _ _ (k := .bist) rfl (by decide) (by decide), Dev.writeKind, show blkKind B.BIST = some .bist from rfl, Dev.writeBIST,
    if_neg (by decide), if_neg (by decide), if_neg (by decide), if_pos rfl] at becomes

section
variable {s} {w : Word} (hop : w.toNat % 4 = 1)
include hop

theorem Dev.ddCmd_run : s.ddCmd w = s.guarded B.BIST [(decide (nfield w.toNat 7 5 < nfield w.toNat 2 5), .range), (s.mode != .dryDock, .state),
    (s.bist.ddRun.isSome || s.bist.march.isSome, .busy)]
      (fun s => { s with bist := { s.bist with ddRun := some (nfield w.toNat 2 5, nfield w.toNat 7 5), ddAborting := false } }) := by
  simp only [Dev.ddCmd, hop]

theorem Dev.ddCmd_range (h : nfield w.toNat 7 5 < nfield w.toNat 2 5) : s.ddCmd w = s.finish B.BIST .range := by
  have first (a b : Bool) : firstRefusal [(true, Status.range), (a, .state), (b, .busy)] = some .range := by cases a <;> cases b <;> rfl
  rw [Dev.ddCmd_run hop, Dev.guarded, decide_eq_true h, first]

variable (h : nfield w.toNat 2 5 ≤ nfield w.toNat 7 5)
include h

theorem Dev.ddCmd_state (hm : s.mode ≠ .dryDock) : s.ddCmd w = s.finish B.BIST .state := by
  have first (b : Bool) : firstRefusal [(false, Status.range), (true, .state), (b, .busy)] = some .state := by cases b <;> rfl
  rw [Dev.ddCmd_run hop, Dev.guarded, decide_eq_false (Nat.not_lt.2 h), bne_iff_ne.2 hm, first]

theorem Dev.ddCmd_busy (hm : s.mode = .dryDock) (hb : s.bist.march.isSome = true) : s.ddCmd w = s.finish B.BIST .busy := by
  rw [Dev.ddCmd_run hop, Dev.guarded, decide_eq_false (Nat.not_lt.2 h), hm, hb, Bool.or_true]
  rfl

theorem Dev.ddCmd_starts (hm : s.mode = .dryDock) (hr : s.bist.ddRun = none) (hb : s.bist.march = none) :
    s.ddCmd w = { s with bist := { s.bist with ddRun := some (nfield w.toNat 2 5, nfield w.toNat 7 5), ddAborting := false } } := by
  rw [Dev.ddCmd_run hop, Dev.guarded_runs]
  simp [h, hm, hr, hb]

end

theorem Dev.ddCmd_abort {w : Word} (hop : w.toNat % 4 = 2) (h : s.bist.ddRun.isSome = true) :
    s.ddCmd w = { s with bist := { s.bist with ddAborting := true } } := by
  simp only [Dev.ddCmd, hop, h, if_true]

/-- A run that ABORT stopped before its first slice (R528). -/
theorem Dev.ddRunDone_unbegun {first last : Nat} (fs : List (Fin 32 × TestFind)) (hr : s.bist.ddRun = some (first, last))
    (ha : s.bist.ddAborting = true) :
    s.ddRunDone fs 0 = { s with bist := { s.bist with ddRun := none, ddAborting := false } }.finish B.BIST .ok := by
  unfold Dev.ddRunDone
  rw [hr]
  dsimp only
  rw [if_pos ha, List.take_zero]
  rfl

/-- Settles O46: slots and runs by what nothing refuses, refusals by the first that stands. -/
theorem testRuns : Obligations.TestRuns := by
  intro s src e finds data
  dsimp only
  refine ⟨fun d hd hm hs => ⟨fun hr => ?slotRuns, fun hr => ?slotSkips⟩, fun hq hl hg hh hd => ?patterns,
    fun hw => ⟨fun h => ?range, fun h hm => ?state, fun h hm hr hb => ?starts, fun h hm hb => ?busy⟩, fun hw hr => ?aborts,
    fun fs slices first last hr hg hh hq ha hz => ?done⟩
  case slotRuns =>
    have becomes := becomes_live (exec_drydockSlot e finds s) (hm.trans_ne (by decide))
    rwa [s.dev.drydockSlot_serves finds hd hm hs, Dev.sliceRuns_slotServed, if_pos hr] at becomes
  case slotSkips =>
    have becomes := becomes_live (exec_drydockSlot e finds s) (hm.trans_ne (by decide))
    rw [s.dev.drydockSlot_serves finds hd hm hs, Dev.sliceRuns_slotServed, if_neg (by simp [hr])] at becomes
    exact becomes.completes ⟨(Dev.lap_of_bist (settle_bist _) _ _).trans (Dev.lap_setLap _ _ _ _), settle_mem _, settle_stack _⟩
  case patterns =>
    have becomes := becomes_live (exec_fabricPatternWrite e s) hq
    obtain ⟨stand, kept⟩ := s.dev.patternWrite_writes hl hg hh hd
    obtain ⟨ergs, mem⟩ := Prod.mk.inj kept
    refine becomes.completes ⟨?_, (settle_ergs _).trans ergs, (settle_mem _).trans mem⟩
    rwa [settle_bist]
  case range =>
    have becomes := becomes_ddCmd (exec_ddRun src data s) hw
    rwa [Dev.ddCmd_range (mod_four_withField _ (by decide)) h] at becomes
  case state =>
    have becomes := becomes_ddCmd (exec_ddRun src data s) hw
    rwa [Dev.ddCmd_state (mod_four_withField _ (by decide)) h hm] at becomes
  case starts =>
    have becomes := becomes_ddCmd (exec_ddRun src data s) hw
    rw [Dev.ddCmd_starts (mod_four_withField _ (by decide)) h hm hr hb] at becomes
    exact becomes.completes ⟨settle_bist _, settle_mem _⟩
  case busy =>
    have becomes := becomes_ddCmd (exec_ddRun src data s) hw
    rwa [Dev.ddCmd_busy (mod_four_withField _ (by decide)) h hm hb] at becomes
  case aborts =>
    have becomes := becomes_ddCmd (exec_ddAbort src data s) hw
    rw [s.dev.ddCmd_abort (mod_four_withField _ (by decide)) hr] at becomes
    exact becomes.completes ⟨settle_bist _, settle_mem _⟩
  case done =>
    have becomes : Becomes (.ddRunDone fs slices) s (s.dev.unlessStopped B.BIST fun d => d.ddRunDone fs slices) := exec_ddRunDone fs slices s
    rw [s.dev.unlessStopped_open _ _ hg hh hq, hz, s.dev.ddRunDone_unbegun fs hr ha] at becomes
    refine hz ▸ becomes.completes ⟨?_, ?_, ?_⟩
    · rw [settle_bist]
      exact Dev.finish_keeps _ _ _ (p := Dev.bist) fun _ _ => rfl
    · rw [settle_fld _ _ _ (by decide) (by decide) (.inl (by decide)), Dev.fld_finish]
    · rw [settle_mem, Dev.finish_mem]

end Sys2Proof.Machine
end

