-- ==== Sys2Proof/Proofs/TestReadsAndScrubbers.lean ====
section
/-! SUPPORT. Proofs/TestReadsAndScrubbers.lean: the reads of the result queue and of the fault log, the scan register, and the plane-store
scrubbers (R525, R529 to R533, R537, R540). -/

namespace Sys2Proof.Machine

variable (s : Dev)

/-! ### The result queue and the scan register -/

section
variable {st : State} {src : RegSrc} {peek : Bool} (hp : src.peeks peek = false)
include hp

/-- A read of BIST_RES_LO that is carried out (R540). -/
theorem becomes_resLo (hr : st.dev.reads src B.BIST O.BIST_RES_LO) :
    Becomes (.bistResLoRead src peek) st (st.dev.resLoRead.okReply (match st.dev.bist.results with | r :: _ => r.lo | [] => 0)) :=
  becomes_read (exec_bistResLoRead src peek st) (by decide) (by decide) hp hr

/-- A read of LH_FLOG_PORT that is carried out (R537). -/
theorem becomes_flogPort (hr : st.dev.reads src B.LH O.LH_FLOG_PORT) :
    Becomes (.lhFlogPortRead src peek) st (st.dev.flogRead.okReply st.dev.flogWord) :=
  becomes_read (exec_lhFlogPortRead src peek st) (by decide) (by decide) hp hr

end

theorem Dev.resLoRead_takes {r : ResultRec} {rest : List ResultRec} (h : s.bist.results = r :: rest) :
    s.resLoRead = { s with bist := { s.bist with results := rest } }.setReg B.BIST O.BIST_RES_HI r.hi := by rw [Dev.resLoRead, h]

theorem Dev.resLoRead_none (h : s.bist.results = []) : s.resLoRead = s.done B.BIST .range := by rw [Dev.resLoRead, h]

theorem becomes_scanData {st : State} {src : RegSrc} {data : Word} (hw : st.dev.writes src B.BIST O.BIST_SCAN_DATA data) :
    Becomes (.bistScanData src data) st st.dev.scanShift.okReply := by
  have becomes := becomes_command (exec_bistScanData src data st) (by decide) hw
  rwa [Dev.writeReg_own _ _ _ (k := .bist) rfl (by decide) (by decide), Dev.writeKind, show blkKind B.BIST = some .bist from rfl, Dev.writeBIST,
    if_neg (by decide), if_neg (by decide), if_neg (by decide), if_neg (by decide), if_pos rfl] at becomes

/-! ### The port of the fault log -/

theorem Dev.flogWord_unread (h : s.log.unread ≠ 0) :
    s.flogWord = (Map.get (fun _ => 0) s.log.ring s.log.rd).extractLsb' (32 * s.log.word) 32 := if_neg h

theorem Dev.flogRead_within (h : s.log.unread ≠ 0) (hw : s.log.word < 7) :
    s.flogRead = { s with log := { s.log with word := s.log.word + 1 } } := by rw [Dev.flogRead, if_neg h, if_pos hw]

theorem Dev.flogRead_last (h : s.log.unread ≠ 0) (hw : s.log.word = 7) :
    s.flogRead = { s with log := { s.log with word := 0, rd := (s.log.rd + 1) % 512, unread := s.log.unread - 1 } }.setFld B.LH
      F.LH_FLOG_STAT_UNREAD (s.log.unread - 1) := by rw [Dev.flogRead, if_neg h, if_neg (by omega)]

/-! ### The plane-store scrubbers -/

theorem Dev.planeScrub_stops {e bad : Nat} (hr : s.psRuns = true) (hs : (s.ps e).stopped = false) (hb : 2 ≤ bad) :
    s.planeScrub e bad = s.setPs e { s.ps e with stopped := true } := by
  rw [Dev.planeScrub, if_neg (by simp [hr, hs]), if_pos hb]

/-- The scrubber with its copies' vote counted (R530). -/
def Dev.voted (s : Dev) (bad : Nat) : Dev := if bad = 1 then (s.count B.SCRB F.SCRB_PS_CNT_VOTE_FIX).classC B.SCRB else s

theorem Dev.voted_agreed : s.voted 0 = s := rfl

/-- The next read of a scrubber's walk, at place `k`; where none is left in the lap, the lap ends (R531). -/
def Dev.psWalk (s : Dev) (e : Nat) : Option Nat → Dev
  | none => s.psLap e
  | some k =>
    let d := (s.setPs e { s.ps e with place := k + 1 }).psRead e k
    if (d.psNext e (k + 1)).isNone then d.psLap e else d

/-- The scrubber reads the word that is queued first, or the next of its walk (R531, R532). -/
def Dev.psStep (s : Dev) (e : Nat) : List Nat → Dev
  | q :: rest => (s.setPs e { s.ps e with queue := rest }).psRead e q
  | [] => s.psWalk e (s.psNext e (s.ps e).place)

theorem Dev.planeScrub_reads {e bad : Nat} (hr : s.psRuns = true) (hs : (s.ps e).stopped = false) (hb : bad < 2) :
    s.planeScrub e bad = (s.voted bad).psStep e ((s.voted bad).ps e).queue := by
  unfold Dev.voted
  rw [Dev.planeScrub, if_neg (by simp [hr, hs]), if_neg (by omega)]
  dsimp only
  generalize (if bad = 1 then (s.count B.SCRB F.SCRB_PS_CNT_VOTE_FIX).classC B.SCRB else s) = d
  split
  · next q rest queued => rw [queued, Dev.psStep]
  · next queued =>
    refine Eq.trans ?_ (congrArg (d.psStep e) queued).symm
    rw [Dev.psStep]
    generalize d.psNext e (d.ps e).place = next
    cases next with
    | none => rfl
    | some k => rw [Dev.psWalk]

/-- A class C error of the scrubbers writes their bucket and may raise C_OVF (R12). -/
theorem Dev.classC_keeps {β : Type} {p : Dev → β} (o : Overlooks p fun _ => True) {b : Nat}
    (hlevel : ∀ (d : Dev) w, p (d.setReg b F.EVT_BUCKET_LEVEL.off w) = p d) : p (s.classC b) = p s := by
  unfold Dev.classC
  dsimp only
  split
  · exact (event_keeps o _ _ _ (.inl trivial)).trans (hlevel _ _)
  · exact hlevel _ _

theorem Dev.voted_keeps {β : Type} {p : Dev → β} (o : Overlooks p fun _ => True)
    (hcnt : ∀ (d : Dev) w, p (d.setReg B.SCRB F.SCRB_PS_CNT_VOTE_FIX.off w) = p d)
    (hlevel : ∀ (d : Dev) w, p (d.setReg B.SCRB F.EVT_BUCKET_LEVEL.off w) = p d) (bad : Nat) : p (s.voted bad) = p s := by
  unfold Dev.voted
  split
  · exact (Dev.classC_keeps _ o hlevel).trans (hcnt _ _)
  · rfl

theorem Dev.voted_same (bad : Nat) : (s.voted bad).bist = s.bist ∧ (s.voted bad).fab = s.fab ∧ (s.voted bad).mem = s.mem := by
  have kept := s.voted_keeps (p := fun d => (d.bist, d.fab, d.mem))
    ⟨fun _ _ _ _ => rfl, fun _ _ => rfl, fun _ _ _ => rfl, fun _ _ => rfl, fun _ _ _ => rfl⟩ (fun _ _ => rfl) (fun _ _ => rfl) bad
  exact ⟨congrArg (·.1) kept, congrArg (·.2.1) kept, congrArg (·.2.2) kept⟩

theorem Dev.voted_counts : (s.voted 1).fld B.SCRB F.SCRB_PS_CNT_VOTE_FIX =
    satAdd F.SCRB_PS_CNT_VOTE_FIX.w (s.fld B.SCRB F.SCRB_PS_CNT_VOTE_FIX) 1 := by
  have bucket := Dev.classC_keeps (s.count B.SCRB F.SCRB_PS_CNT_VOTE_FIX) (p := fun d => d.fld B.SCRB F.SCRB_PS_CNT_VOTE_FIX) (b := B.SCRB)
    ⟨fun d b w _ => d.fld_setReg_ne _ _ _ _ _ fun e => absurd (window_inj (by decide) (by decide) e).2 (by decide),
      fun d w => d.fld_setReg_ne _ _ _ _ _ (by decide), fun _ _ _ => rfl, fun _ _ => rfl, fun _ _ _ => rfl⟩
    fun d w => d.fld_setReg_ne _ _ _ _ _ (by decide)
  exact bucket.trans (s.fld_count _ _ (by decide))

theorem Dev.ps_of_bist {d e : Dev} (h : d.bist = e.bist) (n : Nat) : d.ps n = e.ps n := by rw [Dev.ps, h, Dev.ps]
theorem Dev.psNext_of_fab {d e : Dev} (h : d.fab = e.fab) (n k : Nat) : d.psNext n k = e.psNext n k := by
  delta Dev.psNext
  rw [h]

theorem Dev.ps_setPs (e : Nat) (x : PsScrub) : (s.setPs e x).ps e = x := by rw [Dev.ps, Dev.setPs, Map.get_set, if_pos rfl]

theorem Dev.psRuns_modes (h : s.psRuns = true) : s.mode ≠ .beacon ∧ s.mode ≠ .reset := by
  simp only [Dev.psRuns, Bool.and_eq_true, bne_iff_ne] at h
  exact h.1

/-- Settles O47: reads by what the register shows and moves; a scrubber's read by its queue and its walk; a stall by Quarantine. -/
theorem testReadsAndScrubbers : Obligations.TestReadsAndScrubbers := by
  refine ⟨fun s src peek data hp => ⟨fun r rest h hr => ?takes, fun h hr => ?none_, fun hw => ⟨fun he => ?scans, fun he => ?still⟩,
    fun hr h => ⟨fun hw => ?within, fun hw => ?lastWord⟩, fun hr h => ?read⟩,
    fun s e bad hr hq => ⟨fun hs => ⟨fun hb => ?stops, fun hb q rest hqueue => ?queued, fun hb hqueue hn => ?laps, fun hb hqueue hn => ?votes⟩,
      fun hlate hph => ?stalls, fun hsoon => ?beats⟩⟩
  case takes =>
    have becomes := becomes_resLo hp hr
    rw [s.dev.resLoRead_takes h, h] at becomes
    refine becomes.completes ⟨settle_reply _, ?_, settle_bist _, settle_mem _⟩
    rw [settle_reg _ _ _ (by decide) (by decide) (.inl (by decide))]
    exact Dev.reg_setReg _ _ _ _
  case none_ =>
    have becomes := becomes_resLo hp hr
    rw [s.dev.resLoRead_none h, h] at becomes
    refine becomes.completes ⟨settle_reply _, ?_, settle_bist _, settle_mem _⟩
    rw [settle_fld _ _ _ (by decide) (by decide) (.inl (by decide))]
    exact s.dev.fld_setFld _ _ _ (by decide)
  case scans =>
    have becomes := becomes_scanData hw
    rw [Dev.scanShift, if_neg (by simp [he])] at becomes
    exact becomes.completes ⟨settle_bist _, settle_free _, settle_mem _⟩
  case still =>
    have becomes := becomes_scanData hw
    rwa [Dev.scanShift, if_pos (by simp [he])] at becomes
  case within =>
    have becomes := becomes_flogPort hp hr
    rw [s.dev.flogRead_within h hw, s.dev.flogWord_unread h] at becomes
    exact becomes.completes ⟨settle_reply _, settle_log _, settle_mem _⟩
  case lastWord =>
    have becomes := becomes_flogPort hp hr
    rw [s.dev.flogRead_last h hw, s.dev.flogWord_unread h] at becomes
    refine becomes.completes ⟨settle_reply _, settle_log _, ?_, settle_mem _⟩
    rw [settle_fld _ _ _ (by decide) (by decide) (.inl (by decide))]
    exact Dev.fld_setFld _ _ _ _ (by decide)
  case read =>
    have becomes := becomes_flogPort hp hr
    rw [Dev.flogRead, if_pos h, Dev.flogWord, if_pos h] at becomes
    refine becomes.completes ⟨settle_reply _, ?_, settle_log _, settle_mem _⟩
    rw [settle_fld _ _ _ (by decide) (by decide) (.inl (by decide))]
    exact s.dev.fld_setFld _ _ _ (by decide)
  case stops =>
    have becomes := becomes_live (exec_planeScrubRead e bad s) hq
    rw [s.dev.planeScrub_stops hr hs hb] at becomes
    refine becomes.completes ⟨?_, settle_fab _, settle_mem _⟩
    rw [Dev.ps_of_bist (settle_bist _), Dev.ps_setPs]
  case queued =>
    subst hb
    have becomes := becomes_live (exec_planeScrubRead e 0 s) hq
    rwa [s.dev.planeScrub_reads hr hs (by decide), Dev.voted_agreed, hqueue] at becomes
  case laps =>
    subst hb
    have becomes := becomes_live (exec_planeScrubRead e 0 s) hq
    rwa [s.dev.planeScrub_reads hr hs (by decide), Dev.voted_agreed, hqueue, Dev.psStep, hn] at becomes
  case votes =>
    subst hb
    obtain ⟨bist, fab, mem⟩ := s.dev.voted_same 1
    have becomes := becomes_live (exec_planeScrubRead e 1 s) hq
    have place : (s.dev.voted 1).psNext e.val ((s.dev.voted 1).ps e.val).place = none := by
      rw [Dev.psNext_of_fab fab, Dev.ps_of_bist bist]
      exact hn
    rw [s.dev.planeScrub_reads hr hs (by decide),
      (congrArg PsScrub.queue (Dev.ps_of_bist bist _)).trans hqueue, Dev.psStep, place] at becomes
    refine becomes.completes ⟨?_, (settle_mem _).trans mem⟩
    rw [settle_fld _ _ _ (by decide) (by decide) (.inl (by decide))]
    exact s.dev.voted_counts
  case stalls =>
    have becomes := becomes_live (exec_scrubStall e s) hq
    rw [Dev.scrubStall, if_neg (by simp [hr, hlate])] at becomes
    obtain ⟨hb, hres⟩ := s.dev.psRuns_modes hr
    have quarantined := s.dev.quarantine_quarantined 6 e.val B.SCRB 0 0 hph hb hres hq (by decide)
    refine becomes.completes ⟨?_, ?_, ?_, ?_⟩
    · rw [settle_mode, quarantined.mode]
    · rw [settle_fld _ _ _ (by decide) (by decide) (.inl (by decide)), quarantined.cause]
    · rw [settle_mce, quarantined.keys]
    · rw [settle_sec, quarantined.keysUp]
  case beats =>
    have becomes := becomes_live (exec_scrubStall e s) hq
    rwa [Dev.scrubStall, if_pos (by simp [hsoon])] at becomes

end Sys2Proof.Machine
end

