-- ==== Sys2Proof/Proofs/Slack.lean ====
section
/-! SUPPORT. Proofs/Slack.lean: Slack of single ergs: PWR_SLEEP_CMD's SLEEP_ERGS and WAKE_ERGS, what an erg's entry to Slack and its return leave
unchanged (R249, R475 to R477). -/

namespace Sys2Proof.Machine

variable (s : Dev)

/-! ### PWR_SLEEP_CMD -/

/-- The commands of PWR_SLEEP_CMD by their number (R495). -/
def Dev.sleepRun (s : Dev) : Nat → Dev
  | 1 => s.sleepErgs
  | 2 => s.wakeErgs
  | 3 => s.sleepDevice
  | 4 => s.wakeDevice
  | _ => s

theorem Dev.sleepCmd_op (data : Word) {op : Nat} (h : op ∈ [1, 2, 3, 4]) : s.sleepCmd (withField data 0 3 op) = s.sleepRun op := by
  simp only [List.mem_cons, List.not_mem_nil, or_false] at h
  have field := mod_eight_withField (data := data) op (by omega)
  rcases h with rfl | rfl | rfl | rfl <;> simp only [Dev.sleepCmd, field, Dev.sleepRun]

/-- A write to PWR_SLEEP_CMD is a command of Slack (R495). -/
theorem becomes_sleepRun {st : State} {c : Instr} {src : RegSrc} {data : Word} {op : Nat}
    (hc : exec c st = run (fun d => d.command src B.PWR O.PWR_SLEEP_CMD (withField data 0 3 op)) st) (h : op ∈ [1, 2, 3, 4])
    (hw : st.dev.writes src B.PWR O.PWR_SLEEP_CMD (withField data 0 3 op)) : Becomes c st (st.dev.sleepRun op).okReply := by
  have becomes := becomes_command hc (by decide) hw
  rwa [Dev.writeReg_own _ _ _ (k := .pwr) rfl (by decide) (by decide), Dev.writeKind, show blkKind B.PWR = some .pwr from rfl, Dev.writePWR,
    if_pos rfl, Dev.sleepCmd_op _ _ h] at becomes

/-! ### A pass over ergs -/

/-- A pass over distinct entries, each of which changes what is seen of its own entry alone. -/
theorem foldl_seen {γ : Type} {P : Dev → Prop} {seen : Dev → Nat → γ} {g : γ → γ} {f : Dev → Nat → Dev}
    (step : ∀ d, P d → ∀ e, P (f d e) ∧ ∀ k, seen (f d e) k = if k = e then g (seen d e) else seen d k) :
    ∀ {l : List Nat}, l.Nodup → ∀ {d}, P d → P (l.foldl f d) ∧ ∀ k, seen (l.foldl f d) k = if k ∈ l then g (seen d k) else seen d k := by
  intro l
  induction l with
  | nil => exact fun _ d hd => ⟨hd, fun k => by simp⟩
  | cons e l ih =>
    intro nodup d hd
    obtain ⟨out, nodup⟩ := List.nodup_cons.mp nodup
    obtain ⟨kept, one⟩ := step d hd e
    obtain ⟨holds, rest⟩ := ih nodup kept
    refine ⟨holds, fun k => ?_⟩
    rw [List.foldl_cons, rest, one]
    by_cases hk : k = e
    · rw [if_pos hk, hk, if_neg out, if_pos List.mem_cons_self]
    · simp only [List.mem_cons, hk, false_or, if_false]

theorem Dev.erg_setErg_eq (e : Nat) (x : ErgSt) (k : Nat) : (s.setErg e x).erg k = if k = e then x else s.erg k :=
  Map.get_set _ _ _ _ _

theorem Dev.erg_of_ergs {s d : Dev} (h : d.ergs = s.ergs) (e : Nat) : d.erg e = s.erg e := by
  rw [Dev.erg, h, Dev.erg]

/-- The ergs that PWR_ERG_MASK names (R475). -/
def Dev.maskedErgs (s : Dev) : List Nat := (List.range 32).filter (fun e => nbit (s.reg B.PWR O.PWR_ERG_MASK).toNat e)

variable {s}

theorem Dev.maskedErgs_nodup : s.maskedErgs.Nodup := List.nodup_range.filter _

theorem Dev.mem_maskedErgs {e : Nat} : e ∈ s.maskedErgs ↔ e < 32 ∧ nbit (s.reg B.PWR O.PWR_ERG_MASK).toNat e = true := by
  rw [Dev.maskedErgs, List.mem_filter, List.mem_range]

/-- A device that differs from another in its ergs alone. -/
def Dev.SleepsLike (s d : Dev) : Prop := d = { s with ergs := d.ergs }

theorem Dev.SleepsLike.setErg {d : Dev} (h : s.SleepsLike d) (e : Nat) (x : ErgSt) : s.SleepsLike (d.setErg e x) := by
  rw [Dev.SleepsLike] at h ⊢
  rw [h]
  rfl

theorem Dev.SleepsLike.keeps {d : Dev} (h : s.SleepsLike d) {β : Type} (p : Dev → β) (hp : ∀ m, p { s with ergs := m } = p s) : p d = p s := by
  rw [h]
  exact hp _

/-! ### SLEEP_ERGS and WAKE_ERGS -/

/-- SLEEP_ERGS is refused for an erg whose image may not sleep, and for one with a pending change (R475). -/
theorem Dev.sleepErgs_refused {e : Nat} (he : e < 32) (hm : nbit (s.reg B.PWR O.PWR_ERG_MASK).toNat e = true)
    (h : ((s.erg e).mode = .running ∧ maySleep (s.useMap e) = false) ∨ s.pendOf e ≠ .none) : s.sleepErgs = s.finish B.PWR .state := by
  have bad : s.maskedErgs.any (fun e => ((s.erg e).mode == .running && !maySleep (s.useMap e)) || s.pendOf e != .none) = true :=
    List.any_eq_true.mpr ⟨e, Dev.mem_maskedErgs.mpr ⟨he, hm⟩, by rcases h with ⟨hr, hs⟩ | hp <;> simp [*]⟩
  exact if_pos (by rw [← Dev.maskedErgs, bad, Bool.or_true])

/-- What SLEEP_ERGS in Underway makes of an erg: one that is awake is due at the turn of the commit (R475). -/
def ErgSt.dueToSleep (due : Nat) (x : ErgSt) : ErgSt := if x.slack ≠ .awake then x else { x with slack := .dueIn due }

/-- SLEEP_ERGS at one erg, due at a turn (R475). -/
def Dev.sleepErg (due : Nat) (s : Dev) (e : Nat) : Dev :=
  if (s.erg e).slack ≠ .awake then s
  else if s.mode = .moored then s.slackEnter e s.emulated
  else s.setErg e { s.erg e with slack := .dueIn due }

theorem Dev.sleepErg_underway (hm : s.mode = .underway) (due e : Nat) : s.sleepErg due e = s.setErg e ((s.erg e).dueToSleep due) ∨
    (s.sleepErg due e = s ∧ (s.erg e).dueToSleep due = s.erg e) := by
  unfold Dev.sleepErg ErgSt.dueToSleep
  split
  · exact .inr ⟨rfl, rfl⟩
  · rw [if_neg (by rw [hm]; decide)]
    exact .inl rfl

/-- SLEEP_ERGS in Underway for ergs that may sleep and have no pending change (R475). -/
theorem Dev.sleepErgs_underway (hm : s.mode = .underway)
    (h : ∀ e < 32, nbit (s.reg B.PWR O.PWR_ERG_MASK).toNat e = true →
      s.pendOf e = .none ∧ ((s.erg e).mode = .running → maySleep (s.useMap e) = true)) :
    s.sleepErgs = (s.maskedErgs.foldl (Dev.sleepErg s.commitTurn) s).finish B.PWR .ok := by
  have good : s.maskedErgs.any (fun e => ((s.erg e).mode == .running && !maySleep (s.useMap e)) || s.pendOf e != .none) = false := by
    refine List.any_eq_false.mpr fun e he => ?_
    obtain ⟨none, sleeps⟩ := h e (Dev.mem_maskedErgs.mp he).1 (Dev.mem_maskedErgs.mp he).2
    by_cases hr : (s.erg e).mode = .running
    · simp [none, sleeps hr]
    · simp [none, hr]
  unfold Dev.sleepErgs
  dsimp only
  rw [← Dev.maskedErgs, good, hm, if_neg (by decide), if_neg (by decide)]
  rfl

theorem Dev.sleepErg_seen (hm : s.mode = .underway) {due : Nat} :
    s.SleepsLike (s.maskedErgs.foldl (Dev.sleepErg due) s) ∧ ∀ k, (s.maskedErgs.foldl (Dev.sleepErg due) s).erg k =
      if k ∈ s.maskedErgs then (s.erg k).dueToSleep due else s.erg k := by
  refine foldl_seen (P := s.SleepsLike) (seen := Dev.erg) (fun d hd e => ?_) Dev.maskedErgs_nodup rfl
  rcases Dev.sleepErg_underway ((hd.keeps Dev.mode fun _ => rfl).trans hm) due e with sets | ⟨stays, same⟩
  · rw [sets]
    exact ⟨hd.setErg _ _, d.erg_setErg_eq _ _⟩
  · rw [stays, same]
    exact ⟨hd, fun k => by split <;> simp [*]⟩

/-- What WAKE_ERGS in Underway makes of an erg: one in Slack is asked to wake at its turn (R477). -/
def ErgSt.askedToWake (x : ErgSt) : ErgSt := if x.slack = .entering ∨ x.slack = .down then { x with wakeAsked := true } else x

theorem Dev.wakeErg_underway (hm : s.mode = .underway) (e : Nat) : s.wakeErg e = s.setErg e (s.erg e).askedToWake ∨
    (s.wakeErg e = s ∧ (s.erg e).askedToWake = s.erg e) := by
  by_cases entering : (s.erg e).slack = .entering
  · exact .inl (by simp only [Dev.wakeErg, ErgSt.askedToWake, entering, true_or, if_true])
  by_cases down : (s.erg e).slack = .down
  · exact .inl (by simp only [Dev.wakeErg, ErgSt.askedToWake, down, hm, or_true, if_true])
  · refine .inr ⟨?_, if_neg (not_or.mpr ⟨entering, down⟩)⟩
    unfold Dev.wakeErg
    split
    · contradiction
    · contradiction
    · rfl

theorem Dev.wakeErg_seen (hm : s.mode = .underway) : s.SleepsLike (s.maskedErgs.foldl Dev.wakeErg s) ∧
    ∀ k, (s.maskedErgs.foldl Dev.wakeErg s).erg k = if k ∈ s.maskedErgs then (s.erg k).askedToWake else s.erg k := by
  refine foldl_seen (P := s.SleepsLike) (seen := Dev.erg) (fun d hd e => ?_) Dev.maskedErgs_nodup rfl
  rcases Dev.wakeErg_underway ((hd.keeps Dev.mode fun _ => rfl).trans hm) e with sets | ⟨stays, same⟩
  · rw [sets]
    exact ⟨hd.setErg _ _, d.erg_setErg_eq _ _⟩
  · rw [stays, same]
    exact ⟨hd, fun k => by split <;> simp [*]⟩

theorem Dev.wakeErgs_underway (hm : s.mode = .underway) : s.wakeErgs = (s.maskedErgs.foldl Dev.wakeErg s).finish B.PWR .ok := by
  unfold Dev.wakeErgs
  rw [hm, if_neg (by decide)]
  rfl

/-! ### An erg enters Slack -/

/-- An erg whose work has come to nothing enters Slack (R476). -/
def Dev.ergEnters (s : Dev) (e : Nat) : Dev :=
  let s1 := ((s.ergDrop e .state).dropLanding e).latchCodes e
  s1.setErg e { s1.erg e with slack := .entering, wakeAsked := false }

/-- An erg that runs enters Slack; what its fabric loses then, an emulated Slack keeps (R476, R516). -/
theorem Dev.slackEnter_of {P : Dev → Prop} {s : Dev} {e : Nat} (emu : Bool) (still : (s.erg e).slack.runs = false → P s)
    (enters : ∀ f, P { (s.ergEnters e).hoistsDrop e with fab := f }) : P (s.slackEnter e emu) := by
  unfold Dev.slackEnter
  split
  case isTrue out => exact still ((Bool.not_eq_true' _).mp out)
  case isFalse =>
    extract_lets s1 x s2
    have entered : (s.ergEnters e).hoistsDrop e = s2 := rfl
    clear_value s2
    rw [entered] at enters
    split
    · exact enters s2.fab
    · exact enters _

theorem Dev.runs_ergEnters (s : Dev) (e : Nat) : ((s.ergEnters e).erg e).slack.runs = false := by
  unfold Dev.ergEnters
  dsimp only
  rw [Dev.erg_setErg]
  rfl

section
variable {β : Type} {p : Dev → β} (hnet : ∀ (s : Dev) x, p { s with net := x } = p s) (hberth : ∀ (s : Dev) b x, p (s.setBerth b x) = p s)
include hnet hberth

/-- Work in flight at an erg goes through the network and the berths (R160). -/
theorem Dev.ergDrop_keeps (e : Nat) (st : Status) : p (s.ergDrop e st) = p s := by
  refine foldl_keeps _ _ (fun s i _ => ?_) s
  dsimp only
  exact (hnet _ _).trans ((hberth _ _ _).trans (foldl_keeps _ _ (fun s q _ => hnet _ _) s))

variable {e : Nat} (htide : ∀ (s : Dev) x, p { s with tide := x } = p s)
include htide

omit hberth in
/-- A request's answer, its lock and its way to a bank go through the network (R60, R239). -/
theorem Dev.enterBank_keeps (m : Msg) : p (s.enterBank m) = p s := by
  have crosses (s : Dev) (q : Nat) (i : XItem) (m : Msg) : p (s.crossMsg q i m) = p s := (htide _ _).trans (hnet _ _)
  unfold Dev.enterBank
  split
  · exact hnet _ _
  · unfold Dev.lockEnter
    dsimp only
    split_ifs
    · exact hnet _ _
    · exact crosses _ _ _ _
    · unfold Dev.lockGate Dev.lockWait
      dsimp only
      split_ifs
      · exact crosses _ _ _ _
      · exact hnet _ _
      · exact crosses _ _ _ _

variable (hbank : ∀ (s : Dev) b x, p (s.setBank b x) = p s) (hfab : ∀ (s : Dev) x, p { s with fab := x } = p s)
include hbank

omit hnet hberth htide in
/-- The hoists that end with an erg's Slack are those of its banks. -/
theorem Dev.hoistsDrop_keeps (e : Nat) : p (s.hoistsDrop e) = p s := by
  refine foldl_keeps _ _ (fun s b _ => ?_) s
  dsimp only
  split
  · rfl
  · exact hbank _ _ _

include hfab

/-- An erg's entry to Slack changes the erg, its berths and banks, the network, what the tides carry and the fabric (R476). -/
theorem Dev.slackEnter_keeps (herg : ∀ (s : Dev) x, p (s.setErg e x) = p s) (emu : Bool) : p (s.slackEnter e emu) = p s := by
  have enters : p ((s.ergEnters e).hoistsDrop e) = p s := by
    rw [Dev.hoistsDrop_keeps hbank, Dev.ergEnters, herg, Dev.latchCodes, herg, Dev.dropLanding, htide, Dev.ergDrop_keeps hnet hberth]
  exact Dev.slackEnter_of (P := fun d => p d = p s) emu (fun _ => rfl) fun _ => (hfab _ _).trans enters

end

/-- After its entry to Slack no erg runs, and the others are as they were (R476). -/
theorem Dev.runs_slackEnter (s : Dev) (e : Nat) (emu : Bool) (k : Nat) :
    ((s.slackEnter e emu).erg k).slack.runs = if k = e then false else (s.erg k).slack.runs := by
  split
  case isTrue same =>
    subst same
    have drops (d : Dev) : (d.hoistsDrop k).erg k = d.erg k := Dev.hoistsDrop_keeps (p := fun d => d.erg k) (fun _ _ _ => rfl) k
    refine Dev.slackEnter_of (P := fun d => (d.erg k).slack.runs = false) emu id fun f => ?_
    have fabric (d : Dev) : ({ d with fab := f }).erg k = d.erg k := rfl
    rw [fabric, drops, Dev.runs_ergEnters]
  case isFalse other =>
    exact congrArg (·.slack.runs) (Dev.slackEnter_keeps (p := fun d => d.erg k) (fun _ _ => rfl) (fun _ _ _ => rfl) (fun _ _ => rfl)
      (fun _ _ _ => rfl) (fun _ _ => rfl) (fun d x => (d.erg_setErg_eq e x k).trans (if_neg other)) emu)

/-! ### The device enters Slack -/

/-- An erg's entry to Slack that the device's own brings (R478). -/
def Dev.ergsSleep (s : Dev) : Dev := s.forN 32 (fun d e => d.slackEnter e s.emulated)

/-- The DMCs that are ONLINE go to self-refresh with the device's Slack, unless it is emulated (R478, R516). -/
def Dev.dmcsSleep (s : Dev) (emu : Bool) : Dev :=
  if emu then s
  else s.forN 8 (fun s k => if s.fld (B.DMC k) F.DMC_STATE_STATE = 2 then s.setDmc k { s.dmc k with selfRefresh := true } else s)

/-- The device notes the mode it sleeps from (R478). -/
def Dev.sleepsFrom (s : Dev) (m : Mode) : Dev := { s with clk := { s.clk with slackFrom := m }, pwr := { s.pwr with sleepAt := none } }

theorem Dev.enterSlack_eq (s : Dev) : s.enterSlack =
    ((((s.ergsSleep.dmcsSleep s.emulated).sleepsFrom s.mode).dropRun).setFlag B.LH F.LH_MODE_EMULATED s.emulated).setMode .slack := rfl

theorem Dev.setEmulated_core (s : Dev) (b : Bool) : (s.setFlag B.LH F.LH_MODE_EMULATED b).core = s.core := rfl

/-- A pending halt that is discarded leaves its traces in the run record and in DBG_STAT (R466). -/
theorem Dev.dropRun_keeps {β : Type} {p : Dev → β} (hrun : ∀ (s : Dev) x, p { s with run := x } = p s)
    (hreg : ∀ (s : Dev) f v, p (s.setFld B.DBG f v) = p s) (s : Dev) : p s.dropRun = p s :=
  (hreg _ _ _).trans ((hreg _ _ _).trans ((hreg _ _ _).trans ((hreg _ _ _).trans (hrun _ _))))

theorem Dev.dropRun_ergs (s : Dev) : s.dropRun.ergs = s.ergs := Dev.dropRun_keeps (fun _ _ => rfl) (fun _ _ _ => rfl) s
theorem Dev.dropRun_mem (s : Dev) : s.dropRun.mem = s.mem := Dev.dropRun_keeps (fun _ _ => rfl) (fun _ _ _ => rfl) s
theorem Dev.dropRun_clk (s : Dev) : s.dropRun.clk = s.clk := Dev.dropRun_keeps (fun _ _ => rfl) (fun _ _ _ => rfl) s

/-- The switch to a mode changes none of what lies behind the registers and the outputs. -/
theorem Dev.setMode_behind {β : Type} {p : Dev → β} (h : ∀ d : Dev, p d.core = p d) (s : Dev) (b : Bool) (m : Mode) :
    p ((s.setFlag B.LH F.LH_MODE_EMULATED b).setMode m) = p s := by
  rw [← h, Dev.setMode_core, Dev.setEmulated_core, h]

theorem Dev.dmcsSleep_keeps {β : Type} {p : Dev → β} (h : ∀ (d : Dev) k x, p (d.setDmc k x) = p d) (s : Dev) (emu : Bool) :
    p (s.dmcsSleep emu) = p s := by
  unfold Dev.dmcsSleep
  split
  · rfl
  · refine Dev.forN_keeps _ (fun d k => ?_) 8
    split
    · exact h _ _ _
    · rfl

theorem Dev.runs_ergsSleep (s : Dev) {e : Nat} (he : e < 32) : (s.ergsSleep.erg e).slack.runs = false := by
  have slept := (foldl_seen (P := fun _ => True) (seen := fun d k => (d.erg k).slack.runs) (g := fun _ => false) (d := s)
    (fun d _ e => ⟨trivial, Dev.runs_slackEnter d e s.emulated⟩) (List.nodup_range (n := 32)) trivial).2 e
  rwa [if_pos (List.mem_range.mpr he)] at slept

/-- The ergs, the memory and the mode that a device sleeps from (R478). -/
theorem Dev.enterSlack_sleeps (s : Dev) : s.enterSlack.mode = .slack ∧ s.enterSlack.clk.slackFrom = s.mode ∧ s.enterSlack.mem = s.mem ∧
    ∀ e < 32, (s.enterSlack.erg e).slack.runs = false := by
  have asleep : s.ergsSleep.mem = s.mem := Dev.forN_keeps _ (fun d e => Dev.slackEnter_keeps (fun _ _ => rfl) (fun _ _ _ => rfl)
    (fun _ _ => rfl) (fun _ _ _ => rfl) (fun _ _ => rfl) (fun _ _ => rfl) _) 32
  have mem : (s.ergsSleep.dmcsSleep s.emulated).mem = s.mem := (Dev.dmcsSleep_keeps (fun _ _ _ => rfl) _ _).trans asleep
  have ergs : (s.ergsSleep.dmcsSleep s.emulated).ergs = s.ergsSleep.ergs := Dev.dmcsSleep_keeps (fun _ _ _ => rfl) _ _
  rw [Dev.enterSlack_eq]
  generalize s.ergsSleep.dmcsSleep s.emulated = d at mem ergs ⊢
  have behind : (d.sleepsFrom s.mode).mem = d.mem ∧ (d.sleepsFrom s.mode).ergs = d.ergs ∧ (d.sleepsFrom s.mode).clk.slackFrom = s.mode :=
    ⟨rfl, rfl, rfl⟩
  generalize d.sleepsFrom s.mode = d' at behind ⊢
  obtain ⟨mem', ergs', slept⟩ := behind
  refine ⟨Dev.mode_setMode _ _, ?_, ?_, fun e he => ?_⟩
  · rw [Dev.setMode_behind (p := Dev.clk) fun _ => rfl, Dev.dropRun_clk, slept]
  · rw [Dev.setMode_behind (p := Dev.mem) fun _ => rfl, Dev.dropRun_mem, mem', mem]
  · have same := (Dev.setMode_behind (p := Dev.ergs) (fun _ => rfl) d'.dropRun s.emulated .slack).trans
      ((Dev.dropRun_ergs _).trans (ergs'.trans ergs))
    rw [Dev.erg_of_ergs same]
    exact s.runs_ergsSleep he

end Sys2Proof.Machine
end

