-- ==== Sys2Proof/Proofs/SlackOfErgs.lean ====
section
/-! SUPPORT. Proofs/SlackOfErgs.lean: Slack of the device, and how ergs and the device leave it (R248, R477 to R480). -/

namespace Sys2Proof.Machine

variable {s : Dev}

/-! ### SLEEP_DEVICE -/

/-- SLEEP_DEVICE is refused while a part of the tides' voyage is armed and while the image pipeline is in use (R478). -/
theorem Dev.sleepDevice_refused (h : s.flag B.TIDE F.TIDE_CTRL_MASTER = true ∨ s.pipe ≠ 0) : s.sleepDevice = s.finish B.PWR .state := by
  refine if_pos ?_
  rcases h with master | pipe
  · simp [master]
  · simp [pipe]

/-- Nothing stands in the way of SLEEP_DEVICE: the tides have no master, the pipeline is idle, every DMC is at rest (R478). -/
structure Dev.AtRest (s : Dev) : Prop where
  master : s.flag B.TIDE F.TIDE_CTRL_MASTER = false
  follow : s.flag B.TIDE F.TIDE_CTRL_FOLLOW = false
  pipe : s.pipe = 0
  dmcs : ∀ k < 8, (s.fld (B.DMC k) F.DMC_STATE_STATE = 0 ∨ s.fld (B.DMC k) F.DMC_STATE_STATE = 2) ∧ (s.dmc k).window = .none

theorem Dev.AtRest.dmcsQuiet (h : s.AtRest) : (List.range 8).any (fun k => s.fld (B.DMC k) F.DMC_STATE_STATE == 1 ||
    s.fld (B.DMC k) F.DMC_STATE_STATE == 3 || (s.dmc k).window != .none) = false := by
  refine List.any_eq_false.mpr fun k hk => ?_
  obtain ⟨state, window⟩ := h.dmcs k (List.mem_range.mp hk)
  rcases state with state | state <;> simp [state, window]

theorem Dev.sleepDevice_moored (h : s.AtRest) (hm : s.mode = .moored) : s.sleepDevice = s.enterSlack.finish B.PWR .ok := by
  unfold Dev.sleepDevice
  dsimp only
  rw [h.dmcsQuiet, h.master, h.follow, h.pipe, hm, if_neg (by simp), if_pos rfl]

theorem Dev.sleepDevice_underway (h : s.AtRest) (hm : s.mode = .underway)
    (sleeps : ∀ e < 32, (s.erg e).mode = .running → maySleep (s.useMap e) = true) :
    s.sleepDevice = { s with pwr := { s.pwr with sleepAt := some s.commitTurn } }.finish B.PWR .ok := by
  have ergs : (List.range 32).any (fun e => (s.erg e).mode == .running && !maySleep (s.useMap e)) = false := by
    refine List.any_eq_false.mpr fun e he => ?_
    by_cases runs : (s.erg e).mode = .running
    · simp [sleeps e (List.mem_range.mp he) runs]
    · simp [runs]
  unfold Dev.sleepDevice
  dsimp only
  rw [ergs, h.dmcsQuiet, h.master, h.follow, h.pipe, hm, if_neg (by decide), if_neg (by decide)]

/-! ### An erg runs on -/

/-- A request for a berth while no tides stand is answered at once (R248). -/
theorem Dev.berthTakes_still (b : Nat) (m : Msg) (h : s.tidesStand = false) : ∃ st, s.berthTakes b m = s.respond m.h st := by
  unfold Dev.berthTakes
  dsimp only
  split
  · exact ⟨_, rfl⟩
  split
  · exact ⟨_, rfl⟩
  split
  · exact ⟨_, rfl⟩
  · exact ⟨_, if_pos (by rw [h]; rfl)⟩

theorem Dev.showChange_cases (s : Dev) (e : Nat) :
    s.showChange e = s ∨ ∃ b, s.showChange e = s.setErg e { s.erg e with changePending := b } := by
  unfold Dev.showChange
  extract_lets b
  split
  · exact .inl rfl
  · exact .inr ⟨b, rfl⟩

/-- An erg that runs on, before its held requests do (R163). -/
def Dev.woken (s : Dev) (e : Nat) : Dev := ((s.setErg e { s.erg e with slack := .awake, wakeAsked := false }).initPlanes e).showChange e

section
variable {β : Type} {p : Dev → β} (hnet : ∀ (s : Dev) x, p { s with net := x } = p s) (htide : ∀ (s : Dev) x, p { s with tide := x } = p s)
include hnet htide

/-- Held requests that go on while no tides stand are answered, or meet the locks of their banks (R248, R249). -/
theorem Dev.heldGoOn_keeps (e : Nat) (h : s.tidesStand = false) : p (s.heldGoOn e) = p s ∧ (s.heldGoOn e).tidesStand = false := by
  refine List.foldlRecOn (motive := fun d => p d = p s ∧ d.tidesStand = false) _ _ ⟨hnet _ _, h⟩ fun d hd m _ => ?_
  obtain ⟨kept, stands⟩ := hd
  split
  · exact ⟨(d.enterBank_keeps hnet htide m).trans kept,
      (d.enterBank_keeps (p := Dev.tidesStand) (fun _ _ => rfl) (fun _ _ => rfl) m).trans stands⟩
  · obtain ⟨st, takes⟩ := d.berthTakes_still (m.h.addr / 0x100000 % 512) m stands
    rw [takes]
    exact ⟨(hnet _ _).trans kept, stands⟩

variable (hfab : ∀ (s : Dev) x, p { s with fab := x } = p s)
include hfab

omit hnet htide in
/-- The initial pairs of an erg's LIVE planes lie in the fabric (R163). -/
theorem Dev.initPlanes_keeps (s : Dev) (e : Nat) : p (s.initPlanes e) = p s := by
  refine Dev.forN_keeps _ (fun d k => ?_) 8
  split
  · rfl
  · exact hfab _ _

omit hnet htide hfab in
/-- The turn at which a change is due shows at the erg (R155). -/
theorem Dev.showChange_keeps {e : Nat} (herg : ∀ (s : Dev) x, p (s.setErg e x) = p s) (s : Dev) : p (s.showChange e) = p s := by
  rcases s.showChange_cases e with same | ⟨b, sets⟩
  · rw [same]
  · rw [sets, herg]

omit hnet htide hfab in
theorem Dev.tidesStand_woken (s : Dev) (e : Nat) : (s.woken e).tidesStand = s.tidesStand := by
  rw [Dev.woken, Dev.showChange_keeps (p := Dev.tidesStand) fun _ _ => rfl, Dev.initPlanes_keeps (p := Dev.tidesStand) fun _ _ => rfl]
  rfl

/-- An erg runs on while no tides stand (R163, R248). -/
theorem Dev.ergResume_keeps {e : Nat} (herg : ∀ (s : Dev) x, p (s.setErg e x) = p s) (h : s.tidesStand = false) :
    p (s.ergResume e) = p s ∧ (s.ergResume e).tidesStand = false := by
  obtain ⟨kept, still⟩ := Dev.heldGoOn_keeps hnet htide e ((Dev.tidesStand_woken s e).trans h)
  refine ⟨kept.trans ?_, still⟩
  rw [Dev.woken, Dev.showChange_keeps herg, Dev.initPlanes_keeps hfab, herg]

end

theorem Dev.slack_showChange (s : Dev) (e : Nat) : ((s.showChange e).erg e).slack = (s.erg e).slack := by
  rcases s.showChange_cases e with same | ⟨b, sets⟩
  · rw [same]
  · rw [sets, Dev.erg_setErg]

theorem Dev.slack_woken (s : Dev) (e : Nat) : ((s.woken e).erg e).slack = .awake := by
  rw [Dev.woken, Dev.slack_showChange, Dev.initPlanes_keeps (p := fun d => d.erg e) fun _ _ => rfl, Dev.erg_setErg]

/-- The erg that runs on is awake, and the others are as they were (R477). -/
theorem Dev.slack_ergResume (h : s.tidesStand = false) (e k : Nat) :
    ((s.ergResume e).erg k).slack = if k = e then .awake else (s.erg k).slack := by
  split
  case isTrue same =>
    subst same
    have held := Dev.heldGoOn_keeps (p := fun d => d.erg k) (fun _ _ => rfl) (fun _ _ => rfl) k ((Dev.tidesStand_woken s k).trans h)
    exact (congrArg (·.slack) held.1).trans (s.slack_woken k)
  case isFalse other =>
    exact congrArg (·.slack) (Dev.ergResume_keeps (p := fun d => d.erg k) (fun _ _ => rfl) (fun _ _ => rfl) (fun _ _ => rfl)
      (fun d x => (d.erg_setErg_eq e x k).trans (if_neg other)) h).1

/-! ### The device wakes -/

/-- A bank's wake changes the bank, and with the requests held for it the network and its queues (R196). -/
theorem Dev.bankWake_keeps {β : Type} {p : Dev → β} (hnet : ∀ (s : Dev) x, p { s with net := x } = p s)
    (htide : ∀ (s : Dev) x, p { s with tide := x } = p s) (hbank : ∀ (s : Dev) b x, p (s.setBank b x) = p s) (s : Dev) (b : Nat) :
    p (s.bankWake b) = p s := by
  unfold Dev.bankWake
  split
  · rfl
  · exact (foldl_keeps Dev.enterBank _ (fun d m _ => d.enterBank_keeps hnet htide m) _).trans ((hnet _ _).trans (hbank _ _ _))

/-- Every bank that wakes is awake, every erg runs on and says so (R477, R480). -/
def Dev.ergsAwake (s : Dev) : Dev := (s.forN 8192 Dev.bankWake).forN 32 (fun s e => (s.ergResume e).event B.PWR 3)

/-- The device's wake is over, and no Slack is emulated any more (R480, R516). -/
def Dev.wakeOver (s : Dev) : Dev := { s with pwr := { s.pwr with waking := false } }.setFlag B.LH F.LH_MODE_EMULATED false

theorem Dev.erg_event (s : Dev) (b n k : Nat) : (s.event b n).erg k = s.erg k :=
  Dev.erg_of_ergs (s := s) (congrArg (·.ergs) (s.event_core b n)) k

theorem Dev.erg_setMode (s : Dev) (m : Mode) (k : Nat) : (s.setMode m).erg k = s.erg k :=
  Dev.erg_of_ergs (s := s) (congrArg (·.ergs) (s.setMode_core m)) k

theorem Dev.slackFrom_event (b n : Nat) : (s.event b n).clk.slackFrom = s.clk.slackFrom := congrArg (·.clk.slackFrom) (s.event_core b n)

theorem Dev.tidesStand_event (b n : Nat) : (s.event b n).tidesStand = s.tidesStand := by
  rw [Dev.tidesStand, Dev.mode_event, Dev.slackFrom_event, Dev.tidesStand]

/-- Where no tides stand, the wake of ergs and banks leaves the device where it came from, and every erg awake (R477, R480). -/
theorem Dev.ergsAwake_wakes (h : s.tidesStand = false) : s.ergsAwake.clk.slackFrom = s.clk.slackFrom ∧ ∀ k < 32, (s.ergsAwake.erg k).slack = .awake := by
  have banks {β : Type} {p : Dev → β} (hnet : ∀ (s : Dev) x, p { s with net := x } = p s) (htide : ∀ (s : Dev) x, p { s with tide := x } = p s)
      (hbank : ∀ (s : Dev) b x, p (s.setBank b x) = p s) : p (s.forN 8192 Dev.bankWake) = p s :=
    Dev.forN_keeps _ (Dev.bankWake_keeps hnet htide hbank) 8192
  have banksAwake : (s.forN 8192 Dev.bankWake).clk.slackFrom = s.clk.slackFrom ∧ (s.forN 8192 Dev.bankWake).tidesStand = false :=
    ⟨banks (p := fun d => d.clk.slackFrom) (fun _ _ => rfl) (fun _ _ => rfl) (fun _ _ _ => rfl),
      (banks (p := Dev.tidesStand) (fun _ _ => rfl) (fun _ _ => rfl) (fun _ _ _ => rfl)).trans h⟩
  unfold Dev.ergsAwake
  generalize s.forN 8192 Dev.bankWake = d0 at banksAwake ⊢
  have wake := foldl_seen (P := fun d => d.clk.slackFrom = s.clk.slackFrom ∧ d.tidesStand = false) (seen := fun d k => (d.erg k).slack)
    (g := fun _ => .awake) (f := fun d e => (d.ergResume e).event B.PWR 3) ?step (List.nodup_range (n := 32)) banksAwake
  · exact ⟨wake.1.1, fun k hk => (wake.2 k).trans (if_pos (List.mem_range.mpr hk))⟩
  · rintro d ⟨hfrom, stands⟩ e
    have resumed := Dev.ergResume_keeps (e := e) (p := fun d => d.clk.slackFrom) (fun _ _ => rfl) (fun _ _ => rfl) (fun _ _ => rfl) (fun _ _ => rfl) stands
    refine ⟨⟨(Dev.slackFrom_event _ _).trans (resumed.1.trans hfrom), (Dev.tidesStand_event _ _).trans resumed.2⟩, fun k => ?_⟩
    rw [Dev.erg_event]
    exact Dev.slack_ergResume stands e k

/-- DEV_WAKE of a device that slept in Moored (R480). -/
theorem Dev.devWake_moored (hm : s.mode = .slack) (hw : s.pwr.waking = true) (hf : s.clk.slackFrom = .moored) :
    s.devWake = (s.ergsAwake.wakeOver.setMode .moored).event B.PWR 4 := by
  have stands : s.tidesStand = false := by simp [Dev.tidesStand, hm, hf]
  have notTides : s.ergsAwake.wakeOver.clk.slackFrom ≠ .underway := by
    have ends (d : Dev) : d.wakeOver.clk.slackFrom = d.clk.slackFrom := rfl
    rw [ends, (Dev.ergsAwake_wakes stands).1, hf]
    decide
  have wakes : s.devWake = ((if s.ergsAwake.wakeOver.clk.slackFrom = .underway then s.ergsAwake.wakeOver.tidesGoOn
      else s.ergsAwake.wakeOver.setMode .moored).event B.PWR 4) := by
    refine if_neg ?_
    simp [hm, hw]
  rw [wakes, if_neg notTides]

/-- The switch to a mode leaves the mark of an emulated Slack (R516). -/
theorem Dev.emulated_setMode (s : Dev) (m : Mode) : (s.setMode m).flag B.LH F.LH_MODE_EMULATED = s.flag B.LH F.LH_MODE_EMULATED := by
  unfold Dev.setMode
  split
  · rfl
  · rw [Dev.flag, Dev.event_fld _ _ _ _ _ (by decide) (by decide) (.inl (by decide)),
      Dev.fld_setFld_field _ _ F.LH_MODE_MODE F.LH_MODE_EMULATED _ (by decide) rfl (.inr (by decide)),
      Dev.fld_setFld_field _ _ F.LH_MODE_PREV F.LH_MODE_EMULATED _ (by decide) rfl (.inr (by decide)), Dev.flag]

/-- An event of the power controller shows once the outputs have settled: its block has no clock gate (R8, R456). -/
theorem nbit_settle_event_pwr (s : Dev) {n : Nat} (hn : n < 32) : nbit ((s.event B.PWR n).settle.reg B.PWR O.EVT_STATUS).toNat n = true := by
  rw [settle_evt _ _ (by unfold isJp; decide) (by unfold isCw; decide)]
  exact s.nbit_event hn rfl (by unfold isCw; decide)

/-- A device back from Slack, its outputs settled (R480). -/
theorem Dev.wakeOver_settles (s : Dev) :
    let d := ((s.wakeOver.setMode .moored).event B.PWR 4).settle
    d.mode = .moored ∧ d.pwr.waking = false ∧ d.flag B.LH F.LH_MODE_EMULATED = false ∧ nbit (d.reg B.PWR O.EVT_STATUS).toNat 4 = true ∧
      ∀ k, d.erg k = s.erg k := by
  have done : s.wakeOver.pwr.waking = false ∧ s.wakeOver.flag B.LH F.LH_MODE_EMULATED = false ∧ ∀ k, s.wakeOver.erg k = s.erg k :=
    ⟨rfl, Dev.flag_setFlag _ _ _ _ (by decide) rfl, fun _ => rfl⟩
  generalize s.wakeOver = d at done ⊢
  obtain ⟨waking, emulated, erg⟩ := done
  have core := (Dev.event_core (d.setMode .moored) B.PWR 4).trans (d.setMode_core .moored)
  refine ⟨?_, ?_, ?_, nbit_settle_event_pwr _ (by decide), fun k => ?_⟩
  · rw [settle_mode, Dev.mode_event, Dev.mode_setMode]
  · rw [settle_pwr]
    exact (congrArg (·.pwr.waking) core).trans waking
  · rw [Dev.flag, settle_fld _ _ _ (by decide) (by decide) (.inl (by decide)),
      Dev.event_fld _ _ _ _ _ (by decide) (by decide) (.inl (by decide)), ← Dev.flag, Dev.emulated_setMode, emulated]
  · rw [settle_erg, Dev.erg_event, Dev.erg_setMode, erg]

/-- Settles O41: SLEEP_ERGS and WAKE_ERGS as passes over the ergs that the mask names, SLEEP_DEVICE and DEV_WAKE by what their parts leave
unchanged. -/
theorem slackOfErgs : Obligations.SlackOfErgs := by
  unfold Obligations.SlackOfErgs
  refine ⟨fun s src data => ⟨fun hw => ⟨?image, ?pending, ?sleeps⟩, ?wakes, fun hw => ⟨?master, ?pipe, ?device⟩, fun hw => ⟨?slack, ?other⟩⟩,
    fun s e => ⟨?down, ?up, ?back⟩⟩
  case image =>
    rintro ⟨e, he, hm, hr, hs⟩
    have becomes := becomes_sleepRun (exec_sleepErgs src data s) (by decide) hw
    rwa [Dev.sleepRun, Dev.sleepErgs_refused he hm (.inl ⟨hr, hs⟩)] at becomes
  case pending =>
    rintro ⟨e, he, hm, hp⟩
    have becomes := becomes_sleepRun (exec_sleepErgs src data s) (by decide) hw
    rwa [Dev.sleepRun, Dev.sleepErgs_refused he hm (.inr hp)] at becomes
  case sleeps =>
    intro hm h
    have becomes := becomes_sleepRun (exec_sleepErgs src data s) (by decide) hw
    rw [Dev.sleepRun, Dev.sleepErgs_underway hm fun e he mask => ⟨(h e he mask).1, (h e he mask).2.2⟩] at becomes
    obtain ⟨like, erg⟩ := Dev.sleepErg_seen hm (due := s.dev.commitTurn)
    refine becomes.completes ⟨⟨lastStatus_settle_finish _ _ _, ?_⟩, fun e he mask => ?_, fun e he mask => ?_⟩
    · rw [mem_settle_okReply, Dev.finish_mem]
      exact like.keeps Dev.mem fun _ => rfl
    · rw [settle_erg]
      refine (Dev.finish_erg _ _ _ _).trans ((erg e).trans ?_)
      rw [if_pos (Dev.mem_maskedErgs.mpr ⟨he, mask⟩), ErgSt.dueToSleep, if_neg (not_not_intro (h e he mask).2.1)]
    · rw [settle_erg]
      refine (Dev.finish_erg _ _ _ _).trans ((erg e).trans (if_neg fun mem => ?_))
      exact Bool.false_ne_true (mask.symm.trans (Dev.mem_maskedErgs.mp mem).2)
  case wakes =>
    intro hw hm
    have becomes := becomes_sleepRun (exec_wakeErgs src data s) (by decide) hw
    rw [Dev.sleepRun, Dev.wakeErgs_underway hm] at becomes
    obtain ⟨like, erg⟩ := Dev.wakeErg_seen hm
    refine becomes.completes ⟨⟨lastStatus_settle_finish _ _ _, ?_⟩, fun e he mask down => ?_, fun e he mask => ?_⟩
    · rw [mem_settle_okReply, Dev.finish_mem]
      exact like.keeps Dev.mem fun _ => rfl
    · rw [settle_erg]
      refine (Dev.finish_erg _ _ _ _).trans ((erg e).trans ?_)
      rw [if_pos (Dev.mem_maskedErgs.mpr ⟨he, mask⟩), ErgSt.askedToWake, if_pos (.inr down)]
    · rw [settle_erg]
      refine (Dev.finish_erg _ _ _ _).trans ((erg e).trans (if_neg fun mem => ?_))
      exact Bool.false_ne_true (mask.symm.trans (Dev.mem_maskedErgs.mp mem).2)
  case master =>
    intro h
    have becomes := becomes_sleepRun (exec_sleepDevice src data s) (by decide) hw
    rwa [Dev.sleepRun, Dev.sleepDevice_refused (.inl h)] at becomes
  case pipe =>
    intro h
    have becomes := becomes_sleepRun (exec_sleepDevice src data s) (by decide) hw
    rwa [Dev.sleepRun, Dev.sleepDevice_refused (.inr h)] at becomes
  case device =>
    intro master follow pipe dmcs
    have rest : s.dev.AtRest := ⟨master, follow, pipe, dmcs⟩
    have becomes := becomes_sleepRun (exec_sleepDevice src data s) (by decide) hw
    refine ⟨fun hm => ?_, fun hm sleeps => ?_⟩
    · rw [Dev.sleepRun, Dev.sleepDevice_moored rest hm] at becomes
      obtain ⟨mode, slackFrom, mem, ergs⟩ := s.dev.enterSlack_sleeps
      generalize s.dev.enterSlack = d at becomes mode slackFrom mem ergs
      refine becomes.completes ⟨?_, ?_, ⟨lastStatus_settle_finish _ _ _, ?_⟩, fun e he => ?_⟩
      · exact (settle_mode _).trans ((d.mode_finish (by decide) .ok).trans mode)
      · rw [settle_clk]
        exact (d.finish_keeps _ _ (p := fun d => d.clk.slackFrom) fun _ _ => rfl).trans (slackFrom.trans hm)
      · rw [mem_settle_okReply, Dev.finish_mem, mem]
      · rw [settle_erg]
        exact (congrArg (·.slack.runs) (d.finish_erg _ _ e)).trans (ergs e he)
    · rw [Dev.sleepRun, Dev.sleepDevice_underway rest hm sleeps] at becomes
      refine becomes.completes ⟨?_, ?_, lastStatus_settle_finish _ _ _, ?_⟩
      · rw [settle_pwr]
        exact Dev.finish_keeps _ _ _ (p := Dev.pwr) fun _ _ => rfl
      · exact (settle_mode _).trans ((Dev.mode_finish _ (by decide) .ok).trans hm)
      · rw [mem_settle_okReply, Dev.finish_mem]
  case slack =>
    intro hm
    have becomes := becomes_sleepRun (exec_wakeDevice src data s) (by decide) hw
    rwa [Dev.sleepRun, Dev.wakeDevice, if_neg (not_not_intro hm)] at becomes
  case other =>
    intro hm
    have becomes := becomes_sleepRun (exec_wakeDevice src data s) (by decide) hw
    rwa [Dev.sleepRun, Dev.wakeDevice, if_pos hm] at becomes
  case down =>
    intro entering asked hq
    have becomes := becomes_live (exec_ergDown e s) hq
    have down : s.dev.ergDown e.val = (s.dev.setErg e.val { s.dev.erg e.val with slack := .down }).event B.PWR 2 := by
      unfold Dev.ergDown
      rw [if_neg (not_not_intro entering), asked]
      rfl
    rw [down] at becomes
    refine becomes.completes ⟨?_, nbit_settle_event_pwr _ (by decide), ?_, ?_⟩
    · rw [settle_erg, Dev.erg_event, Dev.erg_setErg]
    · rw [settle_mode, Dev.mode_event]
      rfl
    · rw [settle_mem, Dev.event_mem]
      rfl
  case up =>
    intro waking may
    have hq : s.dev.mode ≠ .quarantine := by
      rcases may with hm | ⟨hm, -⟩ <;> rw [hm] <;> decide
    have becomes := becomes_live (exec_ergUp e s) hq
    have up : s.dev.ergUp e.val = (s.dev.ergResume e.val).event B.PWR 3 := by
      refine if_neg ?_
      rcases may with hm | ⟨hm, tick⟩ <;> simp [*]
    rwa [up] at becomes
  case back =>
    intro hm waking slept
    have becomes := becomes_live (exec_devWake s) (by rw [hm]; decide)
    rw [Dev.devWake_moored hm waking slept] at becomes
    obtain ⟨-, ergs⟩ := Dev.ergsAwake_wakes (s := s.dev) (by simp [Dev.tidesStand, hm, slept])
    obtain ⟨mode, waking, emulated, event, erg⟩ := s.dev.ergsAwake.wakeOver_settles
    exact becomes.completes ⟨mode, waking, emulated, event, fun k hk => (congrArg (·.slack) (erg k)).trans (ergs k hk)⟩

end Sys2Proof.Machine
end

