-- ==== Sys2Proof/Proofs/Sensors.lean ====
section
/-! SUPPORT. Proofs/Sensors.lean: the power monitor's maps, the words of THM_LIMn and THM_SEL (R473, R474, R485, R495). -/

namespace Sys2Proof.Machine

variable (s : Dev)

/-! ### The power monitor -/

/-- A map filled for the entries of a list. -/
def Map.fill {α : Type} [DecidableEq α] (d : Nat → α) (f : Nat → α) (l : List Nat) : Map α := l.foldl (fun m k => Map.set d m k (f k)) []

theorem Map.get_fill {α : Type} [DecidableEq α] (d : Nat → α) (f : Nat → α) (l : List Nat) (k : Nat) :
    Map.get d (Map.fill d f l) k = if k ∈ l then f k else d k := by
  have filled (m : Map α) : Map.get d (l.foldl (fun m k => Map.set d m k (f k)) m) k = if k ∈ l then f k else Map.get d m k := by
    induction l generalizing m with
    | nil => simp
    | cons e l ih =>
      rw [List.foldl_cons, ih, Map.get_set]
      by_cases hk : k = e
      · simp [hk]
      · simp [hk]
  exact filled []

theorem Map.get_fill_range {α : Type} [DecidableEq α] (d : Nat → α) (f : Nat → α) {n k : Nat} (hk : k < n) :
    Map.get d (Map.fill d f (List.range n)) k = f k := by
  rw [Map.get_fill, if_pos (List.mem_range.mpr hk)]

/-- The estimates, the rails' currents and their highest (R473, R474). -/
def PwrSt.estimated (x : PwrSt) (ergs : List ErgEst) (rails : List Nat) : PwrSt :=
  { x with
    ergs := Map.fill (fun _ => {}) (fun k => ergs.getD k {}) (List.range 32)
    rails := Map.fill (fun _ => 0) (fun k => rails.getD k 0) (List.range 8)
    railMax := Map.fill (fun _ => 0) (fun k => max (Map.get (fun _ => 0) x.railMax k) (rails.getD k 0)) (List.range 8) }

/-- What an estimate leaves beside the power monitor's record: counters and events (R474). -/
theorem Dev.powerEstimate_pwr (ergs : List ErgEst) (rails : List Nat) (hp : s.clk.mainPower = true) (hm : s.mode ≠ .reset) :
    (s.powerEstimate ergs rails).pwr = s.pwr.estimated ergs rails ∧ (s.powerEstimate ergs rails).mem = s.mem := by
  have excess {β : Type} {p : Dev → β} (h : ∀ d : Dev, p d.core = p d) (d : Dev) (f : Fld) (n : Nat) : p ((d.count B.PWR f).event B.PWR n) = p d := by
    rw [← h, Dev.event_core]
    exact h d
  have kept {β : Type} {p : Dev → β} (h : ∀ d : Dev, p d.core = p d) :
      p (s.powerEstimate ergs rails) = p { s with pwr := s.pwr.estimated ergs rails } := by
    unfold Dev.powerEstimate
    rw [if_neg (by simp [hp, hm])]
    refine (Dev.forN_keeps _ (fun d k => ?_) 8).trans ?_
    · split
      · exact excess h _ _ _
      · rfl
    · dsimp only
      split
      · exact excess h _ _ _
      · rfl
  exact ⟨kept (p := Dev.pwr) fun _ => rfl, kept (p := Dev.mem) fun _ => rfl⟩

/-! ### THM_LIMn and THM_SEL -/

/-- A word is its four bytes. -/
theorem word_eq_of_bytes {x y : Word} (h : ∀ lo, lo = 0 ∨ lo = 8 ∨ lo = 16 ∨ lo = 24 → nfield x.toNat lo 8 = nfield y.toNat lo 8) : x = y := by
  have h0 := h 0 (by simp)
  have h1 := h 8 (by simp)
  have h2 := h 16 (by simp)
  have h3 := h 24 (by simp)
  simp only [nfield, Nat.shiftRight_eq_div_pow, Nat.reducePow] at h0 h1 h2 h3
  have := x.isLt
  have := y.isLt
  apply BitVec.eq_of_toNat_eq
  omega

/-- The register of a layer's limits (R495). -/
def limDef : RegDef := ⟨"THM_LIMn", 0x0110, 0x4, 4, .full, false, [⟨0, 8, .rwl, 0x5F⟩, ⟨8, 8, .rwl, 0x6E⟩, ⟨16, 8, .rwl, 0xDD⟩, ⟨24, 8, .rwl, 0xD3⟩]⟩

theorem regFind_lim (n : Fin 4) : regFind B.THM (O.THM_LIM n.val) = some limDef := by
  decide +revert

theorem Dev.fieldBad_lim (n : Fin 4) (w lo : Nat) : s.fieldBad B.THM (O.THM_LIM n.val) w lo = limBad w := by
  have cfg : (O.THM_LIM n.val == F.THM_CFG_MODEL_TOL.off) = false := by decide +revert
  have lim : (List.range 4).any (fun k => O.THM_LIM n.val == O.THM_LIM k) = true := by decide +revert
  unfold Dev.fieldBad
  rw [if_neg (by decide +revert), show blkKind B.THM = some .thm from rfl]
  dsimp only
  rw [cfg, lim]
  simp

/-- A write takes the fields of a layer's limits while the block is unlocked (R4, R485). -/
theorem Dev.takesField_lim (n : Fin 4) (hl : s.locked B.THM = false) {f : FieldDef} (hf : f ∈ limDef.fields) :
    s.takesField B.THM (O.THM_LIM n.val) f = true := by
  have rwl : f.acc = .rwl := by
    simp only [limDef, List.mem_cons, List.not_mem_nil, or_false] at hf
    rcases hf with rfl | rfl | rfl | rfl <;> rfl
  refine s.takesField_rwl rwl hl ?_
  unfold fieldOpen
  rw [if_neg (by decide +revert), show (O.THM_LIM n.val == O.BLK_CTRL) = false by decide +revert]
  rfl

/-- A field of a layer's limits after a write with the block unlocked: the word's, where its limits stand in order (R485). -/
theorem Dev.fieldStored_lim (n : Fin 4) (w : Word) (hl : s.locked B.THM = false) {f : FieldDef} (hf : f ∈ limDef.fields) :
    s.fieldStored B.THM (O.THM_LIM n.val) w f = if limBad w.toNat then none else some (nfield w.toNat f.lo f.w) := by
  have takes := s.takesField_lim n hl hf
  split
  case isTrue bad => exact s.fieldStored_reject takes ((s.fieldBad_lim n _ _).trans bad)
  case isFalse good => exact s.fieldStored_take takes ((s.fieldBad_lim n _ _).trans (Bool.eq_false_iff.mpr good))

theorem mem_limDef {lo : Nat} (h : lo = 0 ∨ lo = 8 ∨ lo = 16 ∨ lo = 24) : ∃ f ∈ limDef.fields, f.lo = lo ∧ f.w = 8 := by
  rcases h with rfl | rfl | rfl | rfl <;> decide

/-- THM_LIMn after a write with the block unlocked: the word, or what it held where the word's limits are out of order (R485). -/
theorem Dev.storeReg_lim (n : Fin 4) (w : Word) (hl : s.locked B.THM = false) :
    (s.storeReg B.THM (O.THM_LIM n.val) w).reg B.THM (O.THM_LIM n.val) = if limBad w.toNat then s.reg B.THM (O.THM_LIM n.val) else w := by
  refine word_eq_of_bytes fun lo hlo => ?_
  obtain ⟨f, hf, rfl, hw⟩ := mem_limDef hlo
  have stored := s.fld_storeReg (w := w) (regFind_lim n) hf (by decide +revert)
  rw [s.fieldStored_lim n w hl hf, hw] at stored
  refine Eq.trans (b := (s.storeReg B.THM (O.THM_LIM n.val) w).fld B.THM ⟨O.THM_LIM n.val, f.lo, 8⟩) rfl (stored.trans ?_)
  split <;> rfl

/-- A write whose limits are out of order counts once as a refusal (R6, R485). -/
theorem Dev.refuseCnt_lim (n : Fin 4) (w : Word) (hl : s.locked B.THM = false) (hb : limBad w.toNat = true) :
    (s.storeReg B.THM (O.THM_LIM n.val) w).fld B.THM F.BLK_STATUS_REFUSE_CNT =
      satAdd F.BLK_STATUS_REFUSE_CNT.w (s.fld B.THM F.BLK_STATUS_REFUSE_CNT) 1 := by
  obtain ⟨f, hf, -, -⟩ := mem_limDef (.inl rfl)
  refine s.refuseCnt_storeReg (regFind_lim n) hf ?_ (show O.THM_LIM n.val ≠ O.BLK_STATUS by clear * -; decide +revert)
  rw [Dev.rejectsField, s.takesField_lim n hl hf, s.fieldBad_lim, hb]
  rfl

/-- The limits of a word in the order that R485 asks for. -/
theorem limBad_of_order {w : Nat} (h : ∀ lo, lo = 0 ∨ lo = 8 ∨ lo = 16 ∨ lo = 24 →
      -50 ≤ (BitVec.ofNat 8 (nfield w lo 8)).toInt ∧ (BitVec.ofNat 8 (nfield w lo 8)).toInt ≤ 120)
    (h1 : (BitVec.ofNat 8 (nfield w 24 8)).toInt < (BitVec.ofNat 8 (nfield w 16 8)).toInt)
    (h2 : (BitVec.ofNat 8 (nfield w 16 8)).toInt < (BitVec.ofNat 8 (nfield w 0 8)).toInt)
    (h3 : (BitVec.ofNat 8 (nfield w 0 8)).toInt < (BitVec.ofNat 8 (nfield w 8 8)).toInt) : limBad w = false := by
  simp only [limBad, h1, h2, h3, (h 24 (by simp)).1, (h 8 (by simp)).2, decide_true, Bool.and_self, Bool.not_true]

theorem limBad_of_high {w : Nat} (h : (BitVec.ofNat 8 (nfield w 8 8)).toInt ≤ (BitVec.ofNat 8 (nfield w 0 8)).toInt) : limBad w = true := by
  simp only [limBad, decide_eq_false (not_lt.mpr h), Bool.and_false, Bool.false_and, Bool.not_false]

/-- A write to a register of the thermal block is the block's own (R495). -/
theorem becomes_thm {st : State} {c : Instr} {src : RegSrc} {off : Nat} {w : Word}
    (hc : exec c st = run (fun d => d.command src B.THM off w) st) (ho : off < blockBytes) (hr : (regFind B.THM off).isSome)
    (hh : off ∉ [O.BLK_CTRL, O.BLK_FREEZE, O.EVT_FORCE, O.ECC_FLIP_LO]) (hw : st.dev.writes src B.THM off w) : Becomes c st (st.dev.writeTHM off w).okReply := by
  have becomes := becomes_command hc ho hw
  rwa [Dev.writeReg_own _ _ _ (k := .thm) rfl hr hh, Dev.writeKind, show blkKind B.THM = some .thm from rfl] at becomes

/-- THM_SEL takes the number of its word, and refuses none (R495). -/
theorem Dev.storeReg_thmSel (w : Word) (h : w.toNat < 136) :
    (s.storeReg B.THM O.THM_SEL w).fld B.THM F.THM_SEL_SENSOR = w.toNat ∧
      (s.storeReg B.THM O.THM_SEL w).fld B.THM F.BLK_STATUS_LAST_STATUS = s.fld B.THM F.BLK_STATUS_LAST_STATUS := by
  have hr : regFind B.THM O.THM_SEL = some ⟨"THM_SEL", 0x0100, 0x0, 1, .full, false, [⟨0, 8, .rw, 0x0⟩]⟩ := by decide
  have takes := s.takesField_rw (blk := B.THM) (off := O.THM_SEL) (f := ⟨0, 8, .rw, 0x0⟩) rfl (by decide)
  have good : s.fieldBad B.THM O.THM_SEL w.toNat 0 = false := rfl
  refine ⟨?_, ?_⟩
  · refine (s.fld_storeReg hr List.mem_cons_self (by decide)).trans ?_
    rw [s.fieldStored_take takes good]
    change nfield w.toNat 0 8 = w.toNat
    rw [nfield, Nat.shiftRight_zero]
    exact Nat.mod_eq_of_lt (lt_trans h (by decide))
  · rw [s.storeReg_eq hr, if_neg (by simp [Dev.rejectsField, good])]
    exact s.fld_setReg_ne _ _ _ _ _ (by decide)

/-! ### The wear bins and the island's supply -/

/-- The counts of the wear bins (R492). -/
def Dev.wearBins (s : Dev) : List Word := (List.range 4).map (fun n => s.reg B.LH (O.LH_WEAR_BIN n))

/-- The bins are stored where their sector can be written (R494). -/
theorem Dev.wearStore_stored (h : s.nvRo 514 = false) :
    s.wearStore.wear.nvBins = s.wearBins ∧ s.wearStore.wear.nvAt = s.clk.time ∧ s.wearStore.wear.stored = true ∧ s.wearStore.mem = s.mem := by
  have clk := s.wearStore_clk
  have kept {β : Type} {p : Dev → β} (hc : ∀ d : Dev, p d.core = p d) (hn : ∀ (d : Dev) x, p { d with nv := x } = p d) (bytes : List Byte) :
      p (s.nvWrite 514 bytes) = p s := by
    rw [← hc, ← hn _ {}, s.nvWrite_core, hn, hc]
  unfold Dev.wearStore
  dsimp only
  rw [if_neg (by rw [h]; decide)]
  exact ⟨rfl, congrArg (·.time) (kept (p := Dev.clk) (fun _ => rfl) (fun _ _ => rfl) _), rfl, kept (p := Dev.mem) (fun _ => rfl) (fun _ _ => rfl) _⟩

theorem Dev.wearPersist_stores (hm : s.mode ≠ .beacon) (hb : s.wearBins ≠ s.wear.nvBins) (hs : s.wear.stored = false) :
    s.wearPersist = s.wearStore := by
  refine if_neg ?_
  rw [← Dev.wearBins]
  simp [hm, hb, hs]

/-- The island starts (R498, R535). -/
def Dev.islandStarts (s : Dev) : Dev :=
  { s with
    clk := { s.clk with island := true },
    log := { s.log with ring := s.log.nvRing, wr := s.log.nvWr, rd := s.log.nvRd, unread := s.log.nvUnread } }

/-- The bins reappear as stored (R494). -/
def Dev.binsShown (s : Dev) : Dev := s.forN 4 (fun s n => s.setReg B.LH (O.LH_WEAR_BIN n) (s.wear.nvBins.getD n 0))

theorem Dev.islandUp_eq (h : s.clk.island = false) : s.islandUp =
    ((s.islandStarts.setFld B.LH F.LH_OSC_CFG_ACTIVE s.clk.oscNv).setFld B.LH F.LH_FLOG_STAT_UNREAD s.log.nvUnread).binsShown.showLife := by
  unfold Dev.islandUp
  rw [if_neg (by rw [h]; decide)]
  rfl

theorem Dev.reg_binsShown {n : Nat} (hn : n < 4) : s.binsShown.reg B.LH (O.LH_WEAR_BIN n) = s.wear.nvBins.getD n 0 := by
  have shown : s.binsShown = (((s.setReg B.LH (O.LH_WEAR_BIN 0) (s.wear.nvBins.getD 0 0)).setReg B.LH (O.LH_WEAR_BIN 1)
    (s.wear.nvBins.getD 1 0)).setReg B.LH (O.LH_WEAR_BIN 2) (s.wear.nvBins.getD 2 0)).setReg B.LH (O.LH_WEAR_BIN 3) (s.wear.nvBins.getD 3 0) := rfl
  rw [shown]
  interval_cases n
  · rw [Dev.reg_setReg_ne _ _ _ _ _ _ (by decide), Dev.reg_setReg_ne _ _ _ _ _ _ (by decide), Dev.reg_setReg_ne _ _ _ _ _ _ (by decide),
      Dev.reg_setReg]
  · rw [Dev.reg_setReg_ne _ _ _ _ _ _ (by decide), Dev.reg_setReg_ne _ _ _ _ _ _ (by decide), Dev.reg_setReg]
  · rw [Dev.reg_setReg_ne _ _ _ _ _ _ (by decide), Dev.reg_setReg]
  · rw [Dev.reg_setReg]

/-- The bins and LIFE change nothing beside their registers. -/
theorem Dev.binsShown_keeps {β : Type} {p : Dev → β} (h : ∀ (d : Dev) n v, n < 4 → p (d.setReg B.LH (O.LH_WEAR_BIN n) v) = p d) :
    p s.binsShown = p s := by
  unfold Dev.binsShown Dev.forN
  refine foldl_keeps _ _ (fun d n hn => ?_) s
  exact h d n _ (List.mem_range.mp hn)

theorem Dev.islandUp_shows (h : s.clk.island = false) : s.islandUp.clk.island = true ∧ s.islandUp.log.ring = s.log.nvRing ∧
    s.islandUp.fld B.LH F.LH_OSC_CFG_ACTIVE = s.clk.oscNv % 2 ^ F.LH_OSC_CFG_ACTIVE.w ∧
    (∀ n < 4, s.islandUp.reg B.LH (O.LH_WEAR_BIN n) = s.wear.nvBins.getD n 0) ∧ s.islandUp.mem = s.mem := by
  rw [s.islandUp_eq h]
  have started : s.islandStarts.clk.island = true ∧ s.islandStarts.log.ring = s.log.nvRing ∧ s.islandStarts.wear = s.wear ∧
      s.islandStarts.mem = s.mem := ⟨rfl, rfl, rfl, rfl⟩
  generalize s.islandStarts = d at started ⊢
  obtain ⟨island, ring, wear, mem⟩ := started
  have set {β : Type} {p : Dev → β} (h : ∀ (d : Dev) b f v, p (d.setFld b f v) = p d) (hr : ∀ (d : Dev) b o v, p (d.setReg b o v) = p d) (x y : Nat) :
      p ((d.setFld B.LH F.LH_OSC_CFG_ACTIVE x).setFld B.LH F.LH_FLOG_STAT_UNREAD y).binsShown.showLife = p d :=
    (h _ _ _ _).trans ((Dev.binsShown_keeps _ fun _ _ _ _ => hr _ _ _ _).trans ((h _ _ _ _).trans (h _ _ _ _)))
  refine ⟨(set (p := fun d => d.clk.island) (fun _ _ _ _ => rfl) (fun _ _ _ _ => rfl) _ _).trans island,
    (set (p := fun d => d.log.ring) (fun _ _ _ _ => rfl) (fun _ _ _ _ => rfl) _ _).trans ring, ?_, fun n hn => ?_,
    (set (p := Dev.mem) (fun _ _ _ _ => rfl) (fun _ _ _ _ => rfl) _ _).trans mem⟩
  · rw [Dev.showLife, Dev.fld_setFld_ne _ _ _ _ _ _ (by decide), Dev.binsShown_keeps (p := fun d => d.fld B.LH F.LH_OSC_CFG_ACTIVE) _ ?other,
      Dev.fld_setFld_ne _ _ _ _ _ _ (by decide), Dev.fld_setFld _ _ _ _ (by decide)]
    intro d n v hn
    exact d.fld_setReg_ne _ _ _ _ _ (by simp only [F.LH_OSC_CFG_ACTIVE, O.LH_WEAR_BIN, blockBytes]; omega)
  · rw [Dev.showLife, Dev.reg_setFld_ne _ _ _ _ _ _ (by interval_cases n <;> decide), Dev.reg_binsShown _ hn]
    exact congrArg (fun x : WearSt => x.nvBins.getD n 0) wear

/-- The registers of domain ISL lose their contents (R7). -/
def Dev.islCleared (s : Dev) : Dev := { s with regs := Map.clear (fun o => regDom o == .isl) s.regs }

/-- What the cells of the life cycle and of tampering hold stands in SEC again (R7). -/
def Dev.lcKept (s t : Dev) : Dev :=
  (t.setFld B.SEC F.SEC_LC_STATE (s.fld B.SEC F.SEC_LC_STATE)).setFld B.SEC F.SEC_LC_TAMPER_SEEN (s.fld B.SEC F.SEC_LC_TAMPER_SEEN)

/-- The island without supply: what is stored remains (R494, R498). -/
def Dev.islandOff (s : Dev) : Dev :=
  { s with
    clk := { s.clk with island := false }, wire := {}, wear := { nvBins := s.wear.nvBins },
    log := { nvRing := s.log.nvRing, nvWr := s.log.nvWr, nvRd := s.log.nvRd, nvUnread := s.log.nvUnread } }

theorem Dev.islandLoss_eq (hm : s.mode = .beacon) (hi : s.clk.island = true) : s.islandLoss = (s.lcKept s.islCleared).islandOff := by
  unfold Dev.islandLoss
  rw [if_neg (by simp [hm, hi])]
  rfl

theorem Dev.mode_islCleared : s.islCleared.mode = .beacon := by
  have word : s.islCleared.reg B.LH F.LH_MODE_MODE.off = regReset (blockBytes * B.LH + F.LH_MODE_MODE.off) :=
    (Map.get_clear regReset (fun o => regDom o == .isl) s.regs _).trans (if_pos (by decide))
  rw [Dev.mode, Dev.fld, word]
  decide

theorem Dev.islandLoss_leaves (hm : s.mode = .beacon) (hi : s.clk.island = true) : s.islandLoss.clk.island = false ∧
    s.islandLoss.mode = .beacon ∧ s.islandLoss.log.ring = [] ∧ s.islandLoss.log.nvRing = s.log.nvRing ∧
    s.islandLoss.wear.nvBins = s.wear.nvBins ∧ s.islandLoss.life = s.life ∧ s.islandLoss.mem = s.mem := by
  have lc (t : Dev) : (s.lcKept t).mode = t.mode ∧ (s.lcKept t).life = s.life := by
    refine ⟨(Dev.mode_setFld _ (by decide) (by decide) _).trans (Dev.mode_setFld _ (by decide) (by decide) _), ?_⟩
    rw [Dev.life, Dev.lcKept, Dev.fld_setFld_field _ _ F.SEC_LC_TAMPER_SEEN F.SEC_LC_STATE _ (by decide) rfl (.inl (by decide)),
      Dev.fld_setFld _ _ _ _ (by decide), Nat.mod_eq_of_lt (s.fld_lt _ _), Dev.life]
  have same : (s.lcKept s.islCleared).log = s.log ∧ (s.lcKept s.islCleared).wear = s.wear ∧ (s.lcKept s.islCleared).mem = s.mem := ⟨rfl, rfl, rfl⟩
  obtain ⟨mode, life⟩ := lc s.islCleared
  rw [s.islandLoss_eq hm hi]
  generalize s.lcKept s.islCleared = d at same mode life ⊢
  obtain ⟨log, wear, mem⟩ := same
  exact ⟨rfl, mode.trans s.mode_islCleared, rfl, congrArg (·.nvRing) log, congrArg (·.nvBins) wear, life, mem⟩

end Sys2Proof.Machine
end

