-- ==== Sys2Proof/Proofs/Resume.lean ====
section
/-! SUPPORT. Proofs/Resume.lean: what held commits do when a Stand-down ends leaves the mode and the mark of the crossing, and with it RESUME
(R489, R558). -/

namespace Sys2Proof.Machine

variable (s : Dev)

/-! ### The mode and the mark of a critical crossing -/

/-- The mode and the mark of a critical crossing (R487). -/
def Dev.stood (s : Dev) : Mode × Bool := (s.mode, s.flag B.THM F.THM_STAT_CRIT)

theorem Dev.stood_setReg {b o : Nat} (ho : o < blockBytes) (hm : b ≠ B.LH ∨ o ≠ F.LH_MODE_MODE.off) (hc : b ≠ B.THM ∨ o ≠ F.THM_STAT_CRIT.off)
    (w : Word) : (s.setReg b o w).stood = s.stood := by
  have mode : (s.setReg b o w).mode = s.mode := congrArg Mode.ofCode (s.fld_setReg_ne _ _ _ _ _ fun e => by
    obtain ⟨hb, hoff⟩ := window_inj (by decide) ho e
    exact hm.elim (fun h => h hb.symm) fun h => h hoff.symm)
  have crit : (s.setReg b o w).flag B.THM F.THM_STAT_CRIT = s.flag B.THM F.THM_STAT_CRIT :=
    congrArg (· != 0) (s.fld_setReg_ne _ _ _ _ _ fun e => by
      obtain ⟨hb, hoff⟩ := window_inj (by decide) ho e
      exact hc.elim (fun h => h hb.symm) fun h => h hoff.symm)
  rw [Dev.stood, mode, crit, Dev.stood]

theorem stood_overlooks : Overlooks Dev.stood fun _ => True where
  evt s b w _ := s.stood_setReg (by decide) (.inr (by decide)) (.inr (by decide)) w
  dbg s w := s.stood_setReg (by decide) (.inl (by decide)) (.inl (by decide)) w
  run _ _ _ := rfl
  flags _ _ := rfl
  link _ _ _ := rfl

@[simp] theorem Dev.stood_event (b n : Nat) : (s.event b n).stood = s.stood := event_keeps stood_overlooks s b n (.inl trivial)

/-- A register at another offset than those of the mode and of the crossing. -/
theorem Dev.stood_setReg_off (b : Nat) {o : Nat} (ho : o < blockBytes ∧ o ≠ F.LH_MODE_MODE.off ∧ o ≠ F.THM_STAT_CRIT.off) (w : Word) :
    (s.setReg b o w).stood = s.stood :=
  s.stood_setReg ho.1 (.inr ho.2.1) (.inr ho.2.2) w

/-- A field at another offset than those of the mode and of the crossing. -/
theorem Dev.stood_setFld (b : Nat) {f : Fld} (hf : f.off < blockBytes ∧ f.off ≠ F.LH_MODE_MODE.off ∧ f.off ≠ F.THM_STAT_CRIT.off) (v : Nat) :
    (s.setFld b f v).stood = s.stood := s.stood_setReg_off b hf _

@[simp] theorem Dev.stood_setErg (e : Nat) (x : ErgSt) : (s.setErg e x).stood = s.stood := rfl
@[simp] theorem Dev.stood_setBerth (b : Nat) (x : BerthSt) : (s.setBerth b x).stood = s.stood := rfl
@[simp] theorem Dev.stood_setPort (p : Nat) (x : PortSt) : (s.setPort p x).stood = s.stood := rfl
@[simp] theorem Dev.stood_freeSlot (e p : Nat) (null : Bool) : (s.freeSlot e p null).stood = s.stood := by cases null <;> rfl
@[simp] theorem Dev.stood_ergDrop (e : Nat) (st : Status) : (s.ergDrop e st).stood = s.stood := Dev.ergDrop_keeps (fun _ _ => rfl) (fun _ _ _ => rfl) e st
@[simp] theorem Dev.stood_dropLanding (e : Nat) : (s.dropLanding e).stood = s.stood := rfl
@[simp] theorem Dev.stood_finish (b : Nat) (st : Status) : (s.finish b st).stood = s.stood :=
  s.finish_keeps b st fun s w => s.stood_setReg_off b (by decide) w

/-! ### Read-only fields -/

/-- A read-only field holds what it held after a write, wherever it goes (R4). -/
theorem Dev.fld_storeReg_ro {b o b' : Nat} {g : Fld} {r : RegDef} {f : FieldDef} (hr : regFind b' g.off = some r) (hf : f ∈ r.fields)
    (hg : g = ⟨g.off, f.lo, f.w⟩) (ro : f.acc = .ro) (ho : o < blockBytes) (hoff : g.off < blockBytes) (hs : g.off ≠ O.BLK_STATUS) (w : Word) :
    (s.storeReg b o w).fld b' g = s.fld b' g := by
  by_cases same : b = b' ∧ o = g.off
  · obtain ⟨rfl, rfl⟩ := same
    rw [hg]
    have stored := s.fld_storeReg (w := w) hr hf hs
    rw [s.fieldStored_ro ro] at stored
    exact stored
  · refine s.storeReg_keeps (p := fun d => d.fld b' g) (fun d v => d.fld_setReg_ne _ _ _ _ _ fun e => ?_) fun d v => d.fld_setReg_ne _ _ _ _ _ fun e => ?_
    · obtain ⟨hb, hoff⟩ := window_inj hoff ho e
      exact same ⟨hb.symm, hoff.symm⟩
    · exact hs (window_inj hoff (by decide) e).2

/-- The mode and the crossing are read-only to every write (R463, R495). -/
theorem Dev.stood_storeReg {b o : Nat} (ho : o < blockBytes) (w : Word) : (s.storeReg b o w).stood = s.stood := by
  have mode : (s.storeReg b o w).fld B.LH F.LH_MODE_MODE = s.fld B.LH F.LH_MODE_MODE := by
    have hr : ∃ r f, regFind B.LH F.LH_MODE_MODE.off = some r ∧ f ∈ r.fields ∧ F.LH_MODE_MODE = ⟨F.LH_MODE_MODE.off, f.lo, f.w⟩ ∧ f.acc = .ro := by
      refine ⟨_, ⟨0, 4, .ro, 0⟩, rfl, ?_, rfl, rfl⟩
      decide
    obtain ⟨r, f, hr, hf, hg, ro⟩ := hr
    exact s.fld_storeReg_ro hr hf hg ro ho (by decide) (by decide) w
  have crit : (s.storeReg b o w).fld B.THM F.THM_STAT_CRIT = s.fld B.THM F.THM_STAT_CRIT := by
    have hr : ∃ r f, regFind B.THM F.THM_STAT_CRIT.off = some r ∧ f ∈ r.fields ∧ F.THM_STAT_CRIT = ⟨F.THM_STAT_CRIT.off, f.lo, f.w⟩ ∧ f.acc = .ro := by
      refine ⟨_, ⟨1, 1, .ro, 0⟩, rfl, ?_, rfl, rfl⟩
      decide
    obtain ⟨r, f, hr, hf, hg, ro⟩ := hr
    exact s.fld_storeReg_ro hr hf hg ro ho (by decide) (by decide) w
  rw [Dev.stood, Dev.mode, Dev.flag, mode, crit]
  rfl

/-! ### Commits that take effect or are cancelled -/

theorem Dev.stood_dropSlots (n : Nat) : (s.dropSlots n).stood = s.stood := s.dropSlots_keeps (fun d e p => d.stood_freeSlot e p true) n

theorem Dev.stood_cfgResult (st : Status) (stage record : Nat) : (s.cfgResult st stage record).stood = s.stood :=
  s.stood_setReg_off _ (by decide) _

theorem Dev.stood_cfgIdle (st : Status) : (s.cfgIdle st).stood = s.stood := by
  unfold Dev.cfgIdle
  rw [Dev.stood_setReg_off _ _ (by decide)]
  rfl

theorem Dev.stood_refuseImage (st : Status) (stage record : Nat) : (s.refuseImage st stage record).stood = s.stood := by
  rw [Dev.refuseImage, Dev.stood_event, Dev.stood_cfgIdle, Dev.stood_cfgResult, Dev.stood_dropSlots]

theorem Dev.stood_unpend (i : Image) : (s.unpend i).stood = s.stood := by
  refine foldl_keeps _ _ (fun d e _ => ?_) s
  split
  · rfl
  · rfl
  · rfl

theorem Dev.stood_cancelActivation (cause : Nat → Nat) (st : Status) : (s.cancelActivation cause st).stood = s.stood := by
  unfold Dev.cancelActivation
  dsimp only
  rw [Dev.stood_refuseImage]
  refine (foldl_keeps _ _ (fun d e _ => ?_) _).trans ((Dev.stood_unpend _ _).trans (Dev.stood_dropSlots _ _))
  rw [Dev.stood_event, Dev.stood_setFld _ _ (by decide)]

theorem Dev.stood_overSlots (t : SlotSt → Bool) {f : Dev → Nat → Nat → Dev} (h : ∀ d e p, (f d e p).stood = d.stood) :
    (s.overSlots t f).stood = s.stood := by
  refine Dev.forN_keeps _ (fun d e => Dev.forN_keeps _ (fun d p => ?_) 8) 32
  split
  · exact h _ _ _
  · rfl

/-- The LIVE slots of an erg become FREE with their contents (R151). -/
theorem Dev.stood_freeLive (e : Nat) : (s.forN 8 (fun s p => if (s.slot e p).st = .live then s.freeSlot e p false else s)).stood = s.stood := by
  refine Dev.forN_keeps _ (fun d p => ?_) 8
  split
  · exact d.stood_freeSlot e p false
  · rfl

theorem Dev.stood_fenceErg (e : Nat) : (s.fenceErg e).stood = s.stood := by
  unfold Dev.fenceErg
  dsimp only
  split
  · rfl
  · rw [Dev.stood_event, Dev.stood_setErg, Dev.stood_freeLive, Dev.latchCodes, Dev.stood_setErg, Dev.stood_dropLanding, Dev.stood_ergDrop]

/-- The fences of a turn, commanded or of exhausted bundles (R158, R160). -/
theorem Dev.stood_fencesTurn (x : Nat) : (s.fencesTurn x).stood = s.stood := by
  unfold Dev.fencesTurn
  extract_lets lost s1 s2
  have fenced : s1.stood = s.stood := foldl_keeps _ _ (fun d e _ => d.stood_fenceErg e) s
  have changed : s2.stood = s1.stood := by
    refine Dev.forN_keeps (p := Dev.stood) _ (fun d e => ?_) 32
    split
    · split
      · rw [Dev.stood_setErg, Dev.stood_fenceErg]
      · rfl
    · split
      · exact d.stood_fenceErg e
      · rfl
    · rfl
  clear_value s2
  rw [Dev.recallTurn, Dev.stood_overSlots _ _ fun d e p => d.stood_freeSlot e p true]
  exact changed.trans fenced

/-! ### An activation -/

theorem Dev.stood_initPlanes (e : Nat) : (s.initPlanes e).stood = s.stood := Dev.initPlanes_keeps (fun _ _ => rfl) s e

theorem Dev.stood_edgePhase : s.edgePhase.2.stood = s.stood := rfl

theorem Dev.stood_rxOpen (p : Nat) : (s.rxOpen p).stood = s.stood := by
  rw [Dev.rxOpen, Dev.stood_setPort, Dev.stood_edgePhase]

theorem Dev.stood_portTables (i : Image) (e : Nat) : (s.portTables i e).stood = s.stood := by
  refine Dev.forN_keeps _ (fun d k => ?_) 8
  dsimp only
  split
  · rw [Dev.stood_rxOpen, Dev.stood_setPort]
  · rw [Dev.stood_rxOpen, Dev.stood_setPort]

theorem Dev.stood_berthCredits (e : Nat) : (s.berthCredits e).stood = s.stood :=
  Dev.forN_keeps (p := Dev.stood) _ (fun d i => d.stood_setBerth (16 * e + i) _) 16

theorem Dev.stood_count (b : Nat) {f : Fld} (hf : f.off < blockBytes ∧ f.off ≠ F.LH_MODE_MODE.off ∧ f.off ≠ F.THM_STAT_CRIT.off) :
    (s.count b f).stood = s.stood := s.stood_setFld b hf _

theorem Dev.stood_xferShow : s.xferShow.stood = s.stood := by
  unfold Dev.xferShow
  dsimp only
  split
  · rw [Dev.stood_event, Dev.stood_count _ _ (by decide), Dev.stood_setFld _ _ (by decide), Dev.stood_setFld _ _ (by decide)]
  · rw [Dev.stood_setFld _ _ (by decide), Dev.stood_setFld _ _ (by decide)]

/-- A register write of an image reaches no read-only field (R407, R408). -/
theorem Dev.stood_imageWrite (r : RegEntry) : (s.imageWrite r).stood = s.stood := by
  have stored := s.stood_storeReg (b := r.off / blockBytes) (o := r.off % blockBytes) (Nat.mod_lt _ (by decide))
    (s.maskedWord (r.off / blockBytes) (r.off % blockBytes) r.value r.mask)
  unfold Dev.imageWrite
  dsimp only
  split
  · exact s.stood_count _ (by decide)
  · split
    · rw [Dev.stood_xferShow, stored]
    · exact stored

theorem Dev.stood_windowEnd (k : Nat) : (s.windowEnd k).stood = s.stood := by
  have ended : ((((s.setDmc k { s.dmc k with window := .none }).setFlag (B.DMC k) F.DMC_STATE_PENDING false).setFld (B.DMC k)
      F.DMC_STATE_MAINT_LEFT 0).event (B.DMC k) 3).stood = s.stood := by
    rw [Dev.stood_event, Dev.stood_setFld _ _ (by decide)]
    exact Dev.stood_setFld _ _ (by decide) _
  unfold Dev.windowEnd
  dsimp only
  split
  · exact (Dev.stood_setFld _ _ (by decide) _).trans ended
  · exact ended

theorem Dev.stood_maintCancel (ds : List Decl) : (s.maintCancel ds).stood = s.stood := by
  refine Dev.forN_keeps _ (fun d k => ?_) 8
  split
  · split
    · exact d.stood_windowEnd k
    · rfl
  · dsimp only
    split
    · exact d.stood_windowEnd k
    · rfl
  · split
    · exact d.stood_windowEnd k
    · rfl
  · rfl

theorem Dev.stood_activateErg (i : Image) (turn e : Nat) : (s.activateErg i turn e).stood = s.stood := by
  unfold Dev.activateErg
  extract_lets was s1 s2 s3 track g s4 s5 docked s6
  have dropped : s1.stood = s.stood := by
    unfold s1
    split
    · exact s.stood_ergDrop e _
    · rfl
  have freed : s2.stood = s1.stood := s1.stood_freeLive e
  have live : s3.stood = s2.stood := by
    refine Dev.forN_keeps (p := Dev.stood) _ (fun d p => ?_) 8
    dsimp only
    split
    · exact d.stood_setErg e _
    · rfl
  have set : s4.stood = s3.stood := s3.stood_setErg e _
  have tables : s5.stood = s4.stood := by
    unfold s5
    rw [Dev.stood_berthCredits, Dev.stood_portTables, Dev.stood_initPlanes]
  clear_value s5
  have docks : s6.stood = s5.stood := rfl
  clear_value s6
  rw [Dev.stood_event, Dev.stood_setFld _ _ (by decide), Dev.stood_count _ _ (by decide), docks, tables, set, live, freed, dropped]

theorem Dev.stood_activationTurn (x : Nat) : (s.activationTurn x).stood = s.stood := by
  unfold Dev.activationTurn
  split
  · rfl
  next c _ =>
  extract_lets i cancelled active inErg decls mine transfers gates less live tide cfg holds timed written
  have cancels : cancelled.stood = s.stood := s.stood_cancelActivation _ _
  have ergs : active.stood = s.stood := foldl_keeps _ _ (fun d e _ => d.stood_activateErg i _ e) s
  clear_value active
  have held : holds.stood = active.stood := rfl
  clear_value holds
  have len : timed.stood = holds.stood := by
    unfold timed
    split
    · exact Dev.stood_setReg _ (by decide) (.inl (by decide)) (.inl (by decide)) _
    · rfl
  clear_value timed
  have writes : written.stood = timed.stood :=
    (foldl_keeps _ _ (fun d r _ => d.stood_imageWrite r) _).trans (timed.stood_maintCancel _)
  clear_value written cancelled
  split_ifs
  · rfl
  · rw [Dev.stood_setReg_off _ _ (by decide), cancels]
  · rw [Dev.stood_cfgIdle, Dev.stood_cfgResult, writes, len, held, ergs]

/-- What becomes of held commits leaves the mode and the mark of the crossing (R558). -/
theorem Dev.stood_commitsAtStop : s.commitsAtStop.stood = s.stood := by
  unfold Dev.commitsAtStop
  extract_lets s1 far
  have cancelled : s1.stood = s.stood := by
    unfold s1
    split
    · split
      · exact s.stood_cancelActivation _ _
      · rfl
    · rfl
  clear_value s1
  split
  · exact cancelled
  · rw [Dev.stood_activationTurn, Dev.stood_fencesTurn]
    exact (Dev.steerAll_keeps _ stood_overlooks (fun _ _ => rfl) fun d w => d.stood_setReg_off _ (by decide) w).trans cancelled

/-! ### RESUME -/

/-- The marks of a critical crossing clear as the device moors (R489). -/
def Dev.backInMoored (s : Dev) : Dev := ((s.setFlag B.THM F.THM_STAT_CRIT false).setFlag B.THM F.THM_STAT_CRIT_LOW false).setMode .moored

theorem Dev.stood_backInMoored : s.backInMoored.stood = (.moored, false) := by
  have crit : ((s.setFlag B.THM F.THM_STAT_CRIT false).setFlag B.THM F.THM_STAT_CRIT_LOW false).fld B.THM F.THM_STAT_CRIT = 0 :=
    (Dev.fld_setFld_field _ _ F.THM_STAT_CRIT_LOW F.THM_STAT_CRIT _ (by decide) rfl (.inl (by decide))).trans (Dev.fld_setFld _ _ _ _ (by decide))
  have kept (d : Dev) (m : Mode) : (d.setMode m).fld B.THM F.THM_STAT_CRIT = d.fld B.THM F.THM_STAT_CRIT :=
    d.setMode_fld_ne m _ _ (by decide) (by decide) (by decide) (.inl (by decide))
  rw [Dev.stood, Dev.backInMoored, Dev.mode_setMode, Dev.flag, kept, crit]
  rfl

/-- Banks that slept wake and every erg runs on (R489). -/
def Dev.standsUp (s : Dev) : Dev :=
  (s.forN 8192 (fun s b => if (s.bank b).power = .awake then s
    else (s.setBank b { s.bank b with power := .waking }).bankWake b)).forN 32 Dev.ergResume

theorem Dev.thmResume_cool (hm : s.mode = .standDown) (hc : s.flag B.THM F.THM_STAT_COOL = true) :
    s.thmResume = s.standsUp.backInMoored.commitsAtStop.finish B.THM .ok := by
  unfold Dev.thmResume
  rw [if_neg (by simp [hm, hc])]
  rfl

theorem Dev.thmResume_moors (hm : s.mode = .standDown) (hc : s.flag B.THM F.THM_STAT_COOL = true) :
    ∃ d : Dev, s.thmResume = d.finish B.THM .ok ∧ d.mode = .moored ∧ d.flag B.THM F.THM_STAT_CRIT = false :=
  ⟨_, s.thmResume_cool hm hc, Prod.mk.inj ((Dev.stood_commitsAtStop _).trans (Dev.stood_backInMoored _))⟩

/-- The mark of the crossing outlasts the end of a command (R15). -/
theorem flag_settle_finish_thm (d : Dev) (st : Status) :
    (d.finish B.THM st).okReply.settle.flag B.THM F.THM_STAT_CRIT = d.flag B.THM F.THM_STAT_CRIT :=
  congrArg (· != 0) (fld_settle_finish d B.THM st (by decide) (by decide) (by decide) (.inl (by decide)))

theorem Dev.thmResume_refused (h : s.mode ≠ .standDown ∨ s.flag B.THM F.THM_STAT_COOL = false) : s.thmResume = s.finish B.THM .state :=
  if_pos (by rcases h with h | h <;> simp [h])

theorem becomes_lim {st : State} {src : RegSrc} {n : Fin 4} {w : Word} (hw : st.dev.writes src B.THM (O.THM_LIM n.val) w) :
    Becomes (.thmLimWrite src n w) st (st.dev.storeReg B.THM (O.THM_LIM n.val) w).okReply := by
  have at_ : O.THM_LIM n.val < blockBytes ∧ (regFind B.THM (O.THM_LIM n.val)).isSome ∧
      O.THM_LIM n.val ∉ [O.BLK_CTRL, O.BLK_FREEZE, O.EVT_FORCE, O.ECC_FLIP_LO] ∧ O.THM_LIM n.val ≠ O.THM_CMD ∧ O.THM_LIM n.val ≠ O.THM_SEL := by
    clear hw
    decide +revert
  obtain ⟨ho, hr, hh, cmd, sel⟩ := at_
  have becomes := becomes_thm (exec_thmLimWrite src n w st) ho hr hh hw
  rwa [Dev.writeTHM, if_neg cmd, if_neg sel] at becomes

/-- THM_LIMn after a write, the outputs settled (R485). -/
theorem Dev.lim_settles (n : Fin 4) (w : Word) (hl : s.locked B.THM = false) :
    let d := (s.storeReg B.THM (O.THM_LIM n.val) w).okReply.settle
    d.reg B.THM (O.THM_LIM n.val) = (if limBad w.toNat then s.reg B.THM (O.THM_LIM n.val) else w) ∧
      (limBad w.toNat = true → d.fld B.THM F.BLK_STATUS_REFUSE_CNT =
        satAdd F.BLK_STATUS_REFUSE_CNT.w (s.fld B.THM F.BLK_STATUS_REFUSE_CNT) 1) := by
  have off : O.THM_LIM n.val < blockBytes ∧ O.THM_LIM n.val ≠ O.EVT_STATUS := by
    clear hl
    decide +revert
  refine ⟨?_, fun bad => ?_⟩
  · rw [settle_reg _ _ _ off.1 off.2 (.inl (by decide)), Dev.okReply_reg, s.storeReg_lim n w hl]
  · rw [fld_settle_okReply _ _ _ (by decide) (by decide) (.inl (by decide)), s.refuseCnt_lim n w hl bad]

theorem becomes_thmSel {st : State} {src : RegSrc} {w : Word} (hw : st.dev.writes src B.THM O.THM_SEL w) (h : w.toNat < 136) :
    Becomes (.thmSel src w) st (st.dev.storeReg B.THM O.THM_SEL w).okReply := by
  have becomes := becomes_thm (exec_thmSel src w st) (by decide) (by decide) (by decide) hw
  have sel : (st.dev.storeReg B.THM O.THM_SEL w).thmSel = st.dev.storeReg B.THM O.THM_SEL w :=
    if_neg (by rw [(st.dev.storeReg_thmSel w h).1]; exact not_le.mpr h)
  rwa [Dev.writeTHM, if_neg (by decide), if_pos rfl, sel] at becomes

theorem becomes_thmResume {st : State} {src : RegSrc} {data : Word} (hw : st.dev.writes src B.THM O.THM_CMD (withField data 0 1 1)) :
    Becomes (.thmResume src data) st st.dev.thmResume.okReply := by
  have becomes := becomes_thm (exec_thmResume src data st) (by decide) (by decide) (by decide) hw
  rwa [Dev.writeTHM, if_pos rfl, nbit_withField data 0 1 (by decide), if_pos (by decide)] at becomes

/-- Settles O42: the monitors' records, the words that the limits take, the wear bins and the island's registers by what their parts leave
unchanged, RESUME by what commits leave of the mode and the crossing. -/
theorem sensorsAndIsland : Obligations.SensorsAndIsland := by
  unfold Obligations.SensorsAndIsland
  intro s src data peek
  refine ⟨?estimate, ?rail, fun readings _ _ => exec_thermalSweep readings s, fun n hw hl => ⟨?order, ?high⟩, ?select, fun hw => ⟨?cool, ?refused⟩,
    ?persist, ?up, ?loss⟩
  case estimate =>
    intro ergs rails hp hm
    have becomes : Becomes (.powerEstimate ergs rails) s (s.dev.powerEstimate ergs rails) := exec_powerEstimate ergs rails s
    obtain ⟨pwr, mem⟩ := s.dev.powerEstimate_pwr ergs rails hp hm
    refine becomes.completes ⟨fun k hk => ?_, fun k hk => ?_, fun k hk => ?_, (settle_mem _).trans mem⟩
    · rw [settle_pwr, pwr]
      exact Map.get_fill_range _ _ hk
    · rw [settle_pwr, pwr]
      exact Map.get_fill_range _ _ hk
    · rw [settle_pwr, pwr]
      exact Map.get_fill_range _ _ hk
  case rail =>
    intro hp hr
    have becomes := becomes_read (exec_pwrRailIRead src peek s) (by decide) (by decide) hp hr
    exact becomes.completes ⟨settle_reply _, settle_pwr _, settle_mem _⟩
  case order =>
    intro range h1 h2 h3
    obtain ⟨reg, -⟩ := s.dev.lim_settles n data hl
    exact (becomes_lim hw).completes ⟨reg.trans (if_neg (by rw [limBad_of_order range h1 h2 h3]; decide)),
      (mem_settle_okReply _).trans (Dev.storeReg_mem _ _ _ _)⟩
  case high =>
    intro h
    have bad := limBad_of_high h
    obtain ⟨reg, refused⟩ := s.dev.lim_settles n data hl
    exact (becomes_lim hw).completes ⟨reg.trans (if_pos bad), refused bad, (mem_settle_okReply _).trans (Dev.storeReg_mem _ _ _ _)⟩
  case select =>
    intro hw h
    obtain ⟨sensor, last⟩ := s.dev.storeReg_thmSel data h
    refine (becomes_thmSel hw h).completes ⟨?_, ?_, (mem_settle_okReply _).trans (Dev.storeReg_mem _ _ _ _)⟩
    · rw [fld_settle_okReply _ _ _ (by decide) (by decide) (.inl (by decide)), sensor]
    · rw [fld_settle_okReply _ _ _ (by decide) (by decide) (.inl (by decide)), last]
  case cool =>
    intro hm hc
    have becomes := becomes_thmResume hw
    obtain ⟨d, resumes, mode, crit⟩ := s.dev.thmResume_moors hm hc
    rw [resumes] at becomes
    exact becomes.completes ⟨(settle_mode _).trans ((d.mode_finish (by decide) .ok).trans mode),
      (flag_settle_finish_thm d .ok).trans crit, lastStatus_settle_finish _ _ _⟩
  case refused =>
    intro h
    have becomes := becomes_thmResume hw
    rwa [Dev.thmResume_refused _ h] at becomes
  case persist =>
    intro bins hm hb hs ro
    have becomes : Becomes .wearPersist s s.dev.wearPersist := exec_wearPersist s
    rw [s.dev.wearPersist_stores hm hb hs] at becomes
    obtain ⟨nvBins, nvAt, stored, mem⟩ := s.dev.wearStore_stored ro
    refine becomes.completes ⟨?_, ?_, ?_, (settle_mem _).trans mem⟩
    · rw [settle_wear]
      exact nvBins
    · rw [settle_wear, nvAt]
    · rw [settle_wear, stored]
  case up =>
    intro hi
    have becomes : Becomes .islandPowerUp s s.dev.islandUp := exec_islandPowerUp s
    obtain ⟨island, ring, osc, bins, mem⟩ := s.dev.islandUp_shows hi
    refine becomes.completes ⟨?_, ?_, ?_, fun n hn => ?_, (settle_mem _).trans mem⟩
    · rw [settle_clk, island]
    · rw [settle_log, ring]
    · rw [settle_fld _ _ _ (by decide) (by decide) (.inl (by decide)), osc]
    · rw [settle_reg _ _ _ (by interval_cases n <;> decide) (by interval_cases n <;> decide) (.inl (by decide)), bins n hn]
  case loss =>
    intro hm hi
    have becomes : Becomes .islandSupplyLoss s s.dev.islandLoss := exec_islandSupplyLoss s
    obtain ⟨island, mode, ring, nvRing, bins, life, mem⟩ := s.dev.islandLoss_leaves hm hi
    refine becomes.completes ⟨?_, (settle_mode _).trans mode, ?_, ?_, ?_, ?_, (settle_mem _).trans mem⟩
    · rw [settle_clk, island]
    · rw [settle_log, ring]
    · rw [settle_log, nvRing]
    · rw [settle_wear, bins]
    · rw [Dev.life, settle_fld _ _ _ (by decide) (by decide) (.inl (by decide)), ← Dev.life, life]

end Sys2Proof.Machine
end
